-- ==== Sys2Proof/Word.lean ====
section
/-! DEFINITION. The word types of the model: bytes, the fields of a record, and the sparse table that holds what the
spec gives the device many of (records, counters, doors). -/

namespace Sys2Proof

/-- One byte of a payload, a frame or a memory. -/
abbrev Byte := BitVec 8

/-- A bit range `[msb:lsb]` of a record, numbered as in the spec's field maps (00_scope.md). -/
structure Fld where
  msb : Nat
  lsb : Nat
deriving DecidableEq, Repr

/-- The access codes of a field (R9, Table SCOPE.3); `reserved` is a bit range no field map defines (R10). -/
inductive Access where
  | ro | rw | w1c | rc | wo | reserved
deriving DecidableEq, Repr

/-- A field's own clamp (R347): the limits that refer to nothing but the field. -/
inductive Clamp where
  /-- Every value of the field is permitted, or the limit refers to another field or record. -/
  | any
  /-- An enumeration: a value outside it takes the reset value (reason ENUM). -/
  | enum (values : List Nat)
  /-- A range of unsigned values: the nearest bound is taken (reason RANGE). -/
  | range (lo hi : Nat)
  /-- "0, or lo–hi": the nearest permitted value, the range bound on equal distance (reason RANGE). -/
  | zeroOr (lo hi : Nat)
  /-- A range of a two's-complement field (reason RANGE). -/
  | srange (lo hi : Int)
  /-- The bits that may be set; the others are cleared (reason MASK). -/
  | mask (bits : Nat)
deriving DecidableEq, Repr

/-- One line of a field map: where the field lies, who may write it, what it holds at reset and its own clamp. -/
structure Field where
  at_ : Fld
  access : Access
  reset : Nat
  clamp : Clamp
deriving DecidableEq, Repr

/-- A sparse table: (key, value) pairs with strictly rising keys; an unlisted key holds the table's default, and no
listed entry equals it (`Tab.wf` in Machine/Bits.lean). -/
abbrev Tab (α : Type) := List (Nat × α)

end Sys2Proof
end

