-- ==== Sys2Proof/Syntax.lean ====
section
/-! DEFINITION. The commands of the block: the mailbox messages, the door and BAR accesses, the bus and pin operations
and the events of the device, one constructor per row of the opcode table. -/

namespace Sys2Proof

/-- A PCIe function: the physical function of an endpoint (`vf = none`) or one of its virtual functions. -/
structure Fn where
  ep : Fin 4
  vf : Option (Fin 1024)
deriving DecidableEq, Repr

/-- One message in a door: the header fields of Table MBX.3 the host chooses, and the payload bytes of this fragment.
The OPCODE is that of the row the message stands in. `door` is 0 for a VF. -/
structure Msg where
  fn : Fn
  door : Fin 8
  flags : BitVec 16
  sequence : BitVec 32
  length : BitVec 32
  fragIndex : BitVec 16
  fragTotal : BitVec 16
  acting : BitVec 32
  payload : List Byte
deriving DecidableEq, Repr

/-- What the slow hardware reports when it finishes (R342): done as asked, or a read-back that differs. -/
inductive SlowResult where
  | done
  | readbackDiffers
deriving DecidableEq, Repr

/-- The boundary-scan instructions of R400; `other` is any other instruction code. -/
inductive JtagInstr where
  | bypass | idcode | samplePreload | extest | extestPulse | extestTrain | clamp | highz | other
deriving DecidableEq, Repr


/-- An instant on a follower's local clock (Table TS.2): the edge from whose local tick 0 it is counted, tick 0 being the
last local tick at or before the strobe of that edge, and the position in 1/128 of a local tick. -/
structure LocalAt where
  bt : Nat
  pos : Nat
deriving DecidableEq, Repr

/-- A received frame as the port's receive path sees it: its bytes from the destination address without FCS, the result
of the checks of R99, the FEC codewords it took, and what its stamp is built from (R116): the lane, the instant of the
word's edge, the symbol within the word, and whether the tag was overwritten (R118). -/
structure RxFrame where
  port : Fin 16
  bytes : List Byte
  fcsOk : Bool
  fecBad : Bool
  fragment : Bool
  cwCorrected : Nat
  cwBad : Nat
  symErr : Nat
  lane : Fin 8
  word : LocalAt
  symbol : Nat
  tagLost : Bool
deriving DecidableEq, Repr

/-- What the receive path reports of a frame: its first bytes, upon which it is filtered and admitted (R94, R96), or its
end with the whole of it. A frame reported by its end alone is admitted there. -/
inductive RxEvent where
  | begins (port : Fin 16) (head : List Byte)
  | ends (f : RxFrame)
deriving DecidableEq, Repr

/-- What the MAC sees at a frame boundary: the instant at which the first block of a frame started there passes the
insertion point, the lane of its first bit (R119), and how far the serialiser stamp of that frame differs (R120). -/
structure TxStart where
  port : Fin 16
  ins : LocalAt
  lane : Fin 8
  serDiffPs : Nat
deriving DecidableEq, Repr

/-- The lane skew of a port as an alignment lock or a marker measures it (R93, R117), in symbols by lane. -/
structure LaneSkew where
  port : Fin 16
  skew : List Int
deriving DecidableEq, Repr

/-- The block edge a launch is judged by (R129): where it lies in the follower's local ticks, and the lane of the block. -/
structure LaunchEdge where
  edge : LocalAt
  lane : Fin 8
deriving DecidableEq, Repr

/-- A frame that waits in Q7: its place in the queue, and the block edge its launch is judged by. -/
structure WaitingLaunch where
  place : Nat
  edge : LaunchEdge
deriving DecidableEq, Repr

/-- A code-density pass of an input of the time-interval unit (R300): the hits of its bins. -/
structure CalPass where
  input : Fin 8
  hits : List Nat
deriving DecidableEq, Repr

/-- Samples of an antenna's converter above the AGC target scaled to its input (R271): the first one in the interval, how
many, and by how many 0.01 dB the least of them exceeds it. -/
structure Pulse where
  first : Nat
  count : Nat
  above : Nat
deriving DecidableEq, Repr

/-- The largest cell of a PRN that an acquisition searched (R274): by how many 0.01 dB it exceeds the mean of the PRN's
cells, its code phase in half chips, its Doppler bin. -/
structure Detection where
  prn : Fin 32
  excess : Nat
  code : Fin 2046
  bin : Fin 41
deriving DecidableEq, Repr

/-- What a channel shows while it pulls in (R277): where the code peak lies in sixteenths of a chip, and the frequency error
in mHz. -/
structure PullReport where
  peak : Int
  freq : Int
deriving DecidableEq, Repr

/-- What the loops of a channel show over 100 ms (R277): the Costas indicator in thousandths, C/N0 in 0.01 dB-Hz, and the
carrier phase in 2^-16 cycle. -/
structure LoopReport where
  costas : Int
  cn0 : BitVec 16
  phase : Int
deriving DecidableEq, Repr

/-- What the GNSS hardware latches of one channel at an epoch (R284, R276): C/N0 in 0.01 dB-Hz, the milliseconds from the
end of the last bit received to the start of the code period being received, the code phase in 2^-22 chip, the accumulated
carrier phase in 2^-16 cycle, the Doppler in mHz, and the correlation powers at lags of −32 to +32 sixteenths of a chip. -/
structure ChanMeas where
  cn0 : BitVec 16
  ms : Nat
  codePhase : BitVec 32
  carrier : Int
  doppler : Int
  corr : List (BitVec 32)
deriving DecidableEq, Repr

/-- What is latched at a measurement epoch (R283, R285): each channel, and the pulses of each antenna since the epoch
before. -/
structure EpochData where
  chans : List ChanMeas
  pulses0 : List Pulse
  pulses1 : List Pulse
deriving DecidableEq, Repr

/-- What a baseline survey has estimated (R290): the baseline in mm, the integer ratio, the formal sigmas in mm. -/
structure BaselineFit where
  base : Int × Int × Int
  ratio : Rat
  sigma : Rat × Rat × Rat
deriving DecidableEq, Repr

/-- A level change of a TIU input (R297, R299, R300): the new level, the capture tick of follower 16, the interpolator's
bin, and for how many ns the level held. -/
structure TiuEdge where
  input : Fin 8
  level : Bool
  at_ : LocalAt
  bin : Fin 400
  heldNs : Nat
deriving DecidableEq, Repr

/-- What a checker reports (R403, R404, R416): its SOURCE_ID and DETAIL, and what took the bad data: the thread of an
engine, or the ring of a function. -/
structure RaiseIn where
  source : BitVec 16
  detail : BitVec 32
  thread : Fin 8
  fn : Fn
  ring : Fin 64
deriving DecidableEq, Repr

/-- A memory error the scrubber meets (R416): its macro group, the word, and whether it cannot be corrected. -/
structure ScrubError where
  group : Fin 292
  word : BitVec 32
  double : Bool
deriving DecidableEq, Repr

/-- How an operation of a public-key bench ends on the bench (R388, R393, R395): done, its signature not verified, its
candidates exhausted, or its internal key check failed. -/
inductive BenchResult where
  | done | unverified | exhausted | keyCheck
deriving DecidableEq, Repr

/-- The commands of the block: one constructor per row of the opcode table. Rows of the first part are mailbox
messages (R353), the others door, BAR and bus operations and events of the device. -/
inductive Instr where
  /-- KEEPALIVE (R350): Keepalive message: returns controller state and restarts the lapse timer when the controller host sends it. -/
  | keepalive (m : Msg)
  /-- DOOR_STATS (R352): Returns, and read-clears, the door statistics records of one function. -/
  | doorStats (m : Msg)
  /-- NODE_STATUS (R166): Returns the node status words and node flags words of one node or of all nodes. -/
  | nodeStatus (m : Msg)
  /-- ARRAY_CONFIG (R166): Reads or writes the array record; a write applies at the next base-tick edge. -/
  | arrayConfig (m : Msg)
  /-- ENDPOINT_CONFIG (R333): Reads or writes an endpoint record; TOTAL_VFS waits for the next PERST deassertion. -/
  | endpointConfig (m : Msg)
  /-- CONTROL (R320): Reads or writes the controller record, including KEEPALIVE_LAPSE_MS. -/
  | control (m : Msg)
  /-- CONTROL_CLAIM (R321): A nominated peer host claims control, which succeeds only while LAPSED is 1. -/
  | controlClaim (m : Msg)
  /-- CONTROL_RELEASE (R321): The controller host hands control to the other nominated endpoint at the next edge. -/
  | controlRelease (m : Msg)
  /-- DEVICE_INFO (R358): Returns the device information record. -/
  | deviceInfo (m : Msg)
  /-- DEVICE_CONFIG (R359): Reads or writes the device record, including the declared OSC_IN frequency. -/
  | deviceConfig (m : Msg)
  /-- TAG_READ (R362): Returns one user-tag generation, or the current one. -/
  | tagRead (m : Msg)
  /-- TAG_WRITE (R361): Programs the next user-tag generation in OTP and reads it back. -/
  | tagWrite (m : Msg)
  /-- TAG_STATUS (R362): Returns the current, next, valid and invalid generations of the user tag. -/
  | tagStatus (m : Msg)
  /-- JIG_UPLOAD (R156): Verifies an uploaded jig image and stages it in the inactive bank of every level-1 nest. -/
  | jigUpload (m : Msg)
  /-- JIG_ACTIVATE (R157): Swaps the instruction banks of the whole array at one base-tick edge. -/
  | jigActivate (m : Msg)
  /-- JIG_STATUS (R166): Returns the jig status record. -/
  | jigStatus (m : Msg)
  /-- FW_STATUS (R373): Reads the firmware status record, or writes CONFIRM_S. -/
  | fwStatus (m : Msg)
  /-- FW_ERASE (R365): Erases a firmware slot that is neither preferred, running nor pending. -/
  | fwErase (m : Msg)
  /-- FW_WRITE (R366): Programs data into a firmware slot at WRITTEN_BYTES and reads it back. -/
  | fwWrite (m : Msg)
  /-- FW_VERIFY (R367): Verifies a slot image and sets SLOT_STATE and REASON. -/
  | fwVerify (m : Msg)
  /-- FW_SELECT_TRIAL (R369): Sets NEXT_SLOT to a VALID slot for a trial boot. -/
  | fwSelectTrial (m : Msg)
  /-- FW_SELECT_PREFER (R369): Makes a preference write for a VALID slot. -/
  | fwSelectPrefer (m : Msg)
  /-- FW_SELECT_CANCEL (R369): Clears any pending NEXT_SLOT. -/
  | fwSelectCancel (m : Msg)
  /-- FW_CONFIRM (R370): Confirms a trial by making a preference write for RUNNING_SLOT and clearing TRIAL_ACTIVE. -/
  | fwConfirm (m : Msg)
  /-- FW_RELOAD (R371): Schedules a processor boot 1 ms after the door reaches DONE. -/
  | fwReload (m : Msg)
  /-- TS_READ (R66): Returns one or three timescale records. -/
  | tsRead (m : Msg)
  /-- TS_RATE (R41): Writes a timescale's INC, applied at the first edge after the write reaches the AON. -/
  | tsRate (m : Msg)
  /-- TS_SET (R44): Makes the initial set of an unset timescale to an absolute TW96 value at an edge. -/
  | tsSet (m : Msg)
  /-- TS_STEP (R46): Makes the initial set of an unset timescale by adding a signed offset at an edge. -/
  | tsStep (m : Msg)
  /-- TS_CLEAR (R47): Returns a timescale to its power-on state so that it may be set once again. -/
  | tsClear (m : Msg)
  /-- TSH_STEER (R56): Reads or writes the TSH steering record, including SELECT. -/
  | tshSteer (m : Msg)
  /-- FOLLOWER (R66): Reads a follower record, or writes its REALIGN_LIMIT_NS. -/
  | follower (m : Msg)
  /-- VIEW_CREATE (R70): Creates a view with KIND, OFFSET and smear parameters at the next edge. -/
  | viewCreate (m : Msg)
  /-- VIEW_READ (R85): Returns one view record or all 256. -/
  | viewRead (m : Msg)
  /-- VIEW_SMEAR (R81): Writes the smear parameters of a view outside its protected window. -/
  | viewSmear (m : Msg)
  /-- VIEW_CLEAR (R71): Returns a view with no bound tenants to its power-on state. -/
  | viewClear (m : Msg)
  /-- LEAP_TABLE (R74): Validates and installs the host leap table, with an optional FORCE. -/
  | leapTable (m : Msg)
  /-- LEAP_READ (R85): Returns the leap state record and the kept host table. -/
  | leapRead (m : Msg)
  /-- LEAP_POLICY (R76): Writes POLICY and D_FALLBACK_S of the leap state. -/
  | leapPolicy (m : Msg)
  /-- REF_CONFIG (R268): Reads or writes a reference record, applied at the next evaluation. -/
  | refConfig (m : Msg)
  /-- REF_STATUS (R268): Returns one reference status record or all of them. -/
  | refStatus (m : Msg)
  /-- REF_DISQUALIFY_FORCE (R251): Sets FORCED, so that the reference becomes DISQUALIFIED with reason FORCED. -/
  | refDisqualifyForce (m : Msg)
  /-- REF_DISQUALIFY_RELEASE (R251): Clears FORCED, so that the reference may requalify after DISQ_HOLD_S. -/
  | refDisqualifyRelease (m : Msg)
  /-- SERVO_CONFIG (R256): Reads or writes a master's servo record. -/
  | servoConfig (m : Msg)
  /-- SERVO_STATUS (R268): Returns one or both servo status records. -/
  | servoStatus (m : Msg)
  /-- SELECT_CONFIG (R260): Reads or writes the selection record. -/
  | selectConfig (m : Msg)
  /-- SEED (R263): Starts a seed of a master from its partner at the next evaluation. -/
  | seed (m : Msg)
  /-- GNSS_CONFIG (R295): Reads or writes the GNSS device record. -/
  | gnssConfig (m : Msg)
  /-- GNSS_ANTENNA (R295): Reads or writes an antenna record. -/
  | gnssAntenna (m : Msg)
  /-- GNSS_STATUS (R295): Returns the antenna status records. -/
  | gnssStatus (m : Msg)
  /-- GNSS_CHANNELS (R295): Returns the 24 channel status entries of an antenna and read-clears their counters. -/
  | gnssChannels (m : Msg)
  /-- GNSS_MEAS (R285): Returns one measurement block from the ring. -/
  | gnssMeas (m : Msg)
  /-- GNSS_POSITION (R289): Reads or writes an antenna's position record. -/
  | gnssPosition (m : Msg)
  /-- GNSS_POSITION_RESURVEY (R288): Discards a held position and starts a survey. -/
  | gnssPositionResurvey (m : Msg)
  /-- GNSS_BASELINE (R290): Reads or writes the baseline record. -/
  | gnssBaseline (m : Msg)
  /-- GNSS_BASELINE_RESURVEY (R290): Discards the held baseline and starts a baseline survey. -/
  | gnssBaselineResurvey (m : Msg)
  /-- GNSS_SOLUTION (R287): Returns the time solution record of the latest epoch. -/
  | gnssSolution (m : Msg)
  /-- GNSS_SUBFRAMES (R295): Returns the last five subframes and the tap powers of one channel. -/
  | gnssSubframes (m : Msg)
  /-- GNSS_RESTART (R295): Sets every channel of an antenna IDLE and starts a cold search. -/
  | gnssRestart (m : Msg)
  /-- TIU_INPUT (R296): Reads or writes a TIU input record, subject to the reference clamps. -/
  | tiuInput (m : Msg)
  /-- TIU_STATUS (R314): Returns the input status records and read-clears their counters. -/
  | tiuStatus (m : Msg)
  /-- TIU_DEVICE (R307): Reads or writes the TIU device record. -/
  | tiuDevice (m : Msg)
  /-- TIU_EVENTS (R307): Removes up to COUNT records from the event FIFO, oldest first. -/
  | tiuEvents (m : Msg)
  /-- TIU_OUTPUT (R312): Reads or writes a PPS or FOUT output record. -/
  | tiuOutput (m : Msg)
  /-- PORT_OCTET (R89): Reads or writes a lane-octet record; a mode change applies at the next edge. -/
  | portOctet (m : Msg)
  /-- PORT_CONFIG (R114): Reads or writes a port record. -/
  | portConfig (m : Msg)
  /-- PORT_STATUS (R114): Returns one or all port status records. -/
  | portStatus (m : Msg)
  /-- PORT_STATS (R113): Returns, and read-clears, the port statistics block. -/
  | portStats (m : Msg)
  /-- WAKE_PATTERN (R109): Reads or writes a wake pattern record. -/
  | wakePattern (m : Msg)
  /-- BEACON (R111): Reads or writes a port's beacon record. -/
  | beacon (m : Msg)
  /-- PORT_RESTART (R480): Restarts a port's receive and transmit paths at the next edge. -/
  | portRestart (m : Msg)
  /-- SHIM (R121): Reads or writes a port's shim record. -/
  | shim (m : Msg)
  /-- SHIM_LOOP (R122): Sends calibration frames between two ports and returns the delay statistics. -/
  | shimLoop (m : Msg)
  /-- LAUNCH (R137): Reads or writes a tenant launch record. -/
  | launch (m : Msg)
  /-- LAUNCH_STATS (R138): Returns, and read-clears, a port's launch statistics. -/
  | launchStats (m : Msg)
  /-- TENANT_BIND (R322): Binds an UNBOUND tenant to an endpoint, a VF and a view at the next edge. -/
  | tenantBind (m : Msg)
  /-- TENANT_CONFIG (R324): Reads or writes a tenant record, including its quota. -/
  | tenantConfig (m : Msg)
  /-- TENANT_VIEW (R323): Rebinds a BOUND tenant to another view at APPLY_BT. -/
  | tenantView (m : Msg)
  /-- TENANT_RETIRE (R329): Starts retirement of a tenant at edge n: address entries, broadcasts, queued descriptors and key ring ended. -/
  | tenantRetire (m : Msg)
  /-- TENANT_EVENTS (R326): Returns and clears bits of the event word of a tenant's VF. -/
  | tenantEvents (m : Msg)
  /-- TENANT_ARRAY (R150): Reads or writes a tenant array record. -/
  | tenantArray (m : Msg)
  /-- ADDR_ENTRY (R168): Reads or writes an address table entry, refusing any conflict. -/
  | addrEntry (m : Msg)
  /-- NTP_CONFIG (R200): Reads or writes a tenant NTP record. -/
  | ntpConfig (m : Msg)
  /-- NTP_ACCESS (R181): Reads or writes a tenant access rule. -/
  | ntpAccess (m : Msg)
  /-- NTP_BCAST (R191): Reads or writes a tenant broadcast record. -/
  | ntpBcast (m : Msg)
  /-- NTP_STATS (R199): Returns, and read-clears, a tenant's NTP statistics. -/
  | ntpStats (m : Msg)
  /-- CT_STATUS (R200): Returns the client table record. -/
  | ctStatus (m : Msg)
  /-- CT_FLUSH (R188): Clears the client table and draws a new hash key. -/
  | ctFlush (m : Msg)
  /-- CLS_CONFIG (R170): Reads or writes the classifier record. -/
  | clsConfig (m : Msg)
  /-- CLS_STATS (R200): Returns, and read-clears, a port's classifier counters. -/
  | clsStats (m : Msg)
  /-- NTS_CONFIG (R228): Reads or writes a tenant NTS record. -/
  | ntsConfig (m : Msg)
  /-- NTS_KEY_INSTALL_GENERATE (R216): Installs a randomly generated master key into a ring slot from APPLY_BT. -/
  | ntsKeyInstallGenerate (m : Msg)
  /-- NTS_KEY_INSTALL_IMPORT (R223): Checks a wrapped key blob and installs it into a ring slot. -/
  | ntsKeyInstallImport (m : Msg)
  /-- NTS_KEY_PROMOTE (R217): Makes the slot holding a KEY_ID the MINT slot at APPLY_BT. -/
  | ntsKeyPromote (m : Msg)
  /-- NTS_KEY_ROTATE (R218): Installs a generated key and promotes it at its USABLE_BT. -/
  | ntsKeyRotate (m : Msg)
  /-- NTS_KEY_EXPORT (R222): Returns a ring key wrapped under the owner wrap key. -/
  | ntsKeyExport (m : Msg)
  /-- NTS_KEY_RING (R228): Returns the key ring record. -/
  | ntsKeyRing (m : Msg)
  /-- NTS_KEY_CLEAR (R219): Sets every slot of the ring EMPTY at APPLY_BT. -/
  | ntsKeyClear (m : Msg)
  /-- NTS_MINT (R225): Mints up to eight cookies from supplied keys under the MINT key. -/
  | ntsMint (m : Msg)
  /-- NTS_STATS (R227): Returns, and read-clears, a tenant's NTS statistics. -/
  | ntsStats (m : Msg)
  /-- PTP_CONFIG (R246): Reads or writes a tenant PTP record. -/
  | ptpConfig (m : Msg)
  /-- PTP_PORT (R243): Reads or writes a PTP port record. -/
  | ptpPort (m : Msg)
  /-- PTP_GRANTS (R246): Returns client counts and granted rates. -/
  | ptpGrants (m : Msg)
  /-- PTP_CLIENT (R246): Returns a PTP client status record. -/
  | ptpClient (m : Msg)
  /-- PTP_STATS (R245): Returns, and read-clears, a tenant's PTP statistics. -/
  | ptpStats (m : Msg)
  /-- NODE_POWER_GATE (R163): Gates a node by command under R23. -/
  | nodePowerGate (m : Msg)
  /-- NODE_POWER_UNGATE (R163): Ungates a node gated by command through the wake sequence. -/
  | nodePowerUngate (m : Msg)
  /-- NODE_RESET (R24): Resets a node and its descendants from the next base-tick edge. -/
  | nodeReset (m : Msg)
  /-- KEY_SLOTS (R387): Returns asymmetric slot records. -/
  | keySlots (m : Msg)
  /-- KEY_GENERATE (R388): Generates a RANDOM or DERIVED asymmetric key on a bench. -/
  | keyGenerate (m : Msg)
  /-- KEY_PUBLIC (R387): Returns the public key of a slot. -/
  | keyPublic (m : Msg)
  /-- KEY_ASSIGN (R389): Assigns an asymmetric slot to a tenant, or to none. -/
  | keyAssign (m : Msg)
  /-- KEY_DESTROY (R389): Zeroizes an unassigned asymmetric slot. -/
  | keyDestroy (m : Msg)
  /-- PKE_SIGN (R395): Queues a signing operation on a bench. -/
  | pkeSign (m : Msg)
  /-- PKE_STATUS (R397): Returns the bench status records. -/
  | pkeStatus (m : Msg)
  /-- WRAP_KEY_INSTALL (R391): Installs the owner wrap key once, in PROVISIONED. -/
  | wrapKeyInstall (m : Msg)
  /-- WRAP_KEY_STATUS (R392): Returns WRAP_ID, state, form and KCV of the owner wrap key. -/
  | wrapKeyStatus (m : Msg)
  /-- LC_STATUS (R402): Returns the life-cycle record. -/
  | lcStatus (m : Msg)
  /-- LC_ADVANCE (R375): Advances the life cycle by one state through its OTP intent, payload and state byte. -/
  | lcAdvance (m : Msg)
  /-- LC_SVN_RAISE (R381): Raises the firmware and jig SVN minima in OTP. -/
  | lcSvnRaise (m : Msg)
  /-- FAULT_STATUS (R420): Returns the top FIRST and GRACE records and the fault status block. -/
  | faultStatus (m : Msg)
  /-- FAULT_RECORDS (R420): Returns latched fault records. -/
  | faultRecords (m : Msg)
  /-- FAULT_CLEAR_RECORD (R419): Clears the named node's fault record. -/
  | faultClearRecord (m : Msg)
  /-- FAULT_CLEAR_DESCENDANTS (R419): Clears the fault records of every descendant of the named node. -/
  | faultClearDescendants (m : Msg)
  /-- FAULT_CLEAR_GRACE (R419): Clears the GRACE record and stops a running grace timer. -/
  | faultClearGrace (m : Msg)
  /-- FAULT_CLEAR_GRAVEST (R419): Lowers the gravest-class latch. -/
  | faultClearGravest (m : Msg)
  /-- FAULT_CLEAR_COUNTS (R419): Zeroes the RAISED and SUPPRESSED counts and ESCALATIONS. -/
  | faultClearCounts (m : Msg)
  /-- FAULT_CLASS (R405): Reads or writes a source's CLASS and FENCE, or the collector record. -/
  | faultClass (m : Msg)
  /-- FAULT_INJECT (R418): Inverts check bits for the next COUNT checks of a checker. -/
  | faultInject (m : Msg)
  /-- FAULT_COUNTS (R420): Returns per-source raise counts. -/
  | faultCounts (m : Msg)
  /-- POWER_STATE_READ (R441): Returns the power record. -/
  | powerStateRead (m : Msg)
  /-- POWER_STATE_FULL (R435): Returns the device from LISTEN to FULL. -/
  | powerStateFull (m : Msg)
  /-- POWER_STATE_LISTEN (R435): Enters LISTEN: nodes and lanes gated, shared buffer drained. -/
  | powerStateListen (m : Msg)
  /-- POWER_STATE_KEEP_TIME (R436): Starts the entry to KEEP-TIME. -/
  | powerStateKeepTime (m : Msg)
  /-- DEVICE_RESET (R426): Requests a device reset, which starts 1 ms after the door reaches DONE. -/
  | deviceReset (m : Msg)
  /-- RESET_CAUSE_READ (R441): Returns the reset cause record. -/
  | resetCauseRead (m : Msg)
  /-- RESET_CAUSE_CLEAR (R422): Clears the reset cause bits named in the mask. -/
  | resetCauseClear (m : Msg)
  /-- CTR_CONFIG (R443): Reads or writes the MODE of a counter event. -/
  | ctrConfig (m : Msg)
  /-- GAUGE (R446): Requests a counter snapshot at the second base-tick edge after service. -/
  | gauge (m : Msg)
  /-- CTR_READ (R448): Returns counter values, live or from a snapshot. -/
  | ctrRead (m : Msg)
  /-- SCRIBE_CONFIG (R455): Reads or writes the scribe record. -/
  | scribeConfig (m : Msg)
  /-- SCRIBE_ARM (R451): Discards every segment and arms segment 0. -/
  | scribeArm (m : Msg)
  /-- SCRIBE_TRIGGER (R453): Triggers the armed segment by command. -/
  | scribeTrigger (m : Msg)
  /-- SCRIBE_STATUS (R458): Returns the scribe status record. -/
  | scribeStatus (m : Msg)
  /-- SCRIBE_READ (R455): Returns trace records of a segment. -/
  | scribeRead (m : Msg)
  /-- SCRIBE_ADVANCE (R454): Ends the current segment at the next record boundary. -/
  | scribeAdvance (m : Msg)
  /-- OBS_CONFIG (R457): Reads or writes the OBS record. -/
  | obsConfig (m : Msg)
  /-- UNKNOWN_OPCODE (R353): A message whose opcode is not in the map completes with UNKNOWN_OP. -/
  | unknownOpcode (op : BitVec 16) (m : Msg)
  /-- DOORBELL (R335): Host write to DOORBELL copies the request into the device and posts the door. -/
  | doorbell (fn : Fn) (door : Fin 8)
  /-- REQUEST_FRAGMENT (R339): A non-final request fragment is accepted and acknowledged with OK. -/
  | requestFragment (op : BitVec 16) (m : Msg)
  /-- RESPONSE_CONTINUE (R341): A CONTINUE message fetches the next response fragment. -/
  | responseContinue (op : BitVec 16) (m : Msg)
  /-- REQUEST_ABORT (R340): A message with ABORT set discards a partial request and releases its lock. -/
  | requestAbort (op : BitVec 16) (m : Msg)
  /-- FRAG_TIMEOUT (R340): A partial request is discarded when no fragment arrives within 2,000 ms. -/
  | fragTimeout (fn : Fn) (door : Fin 8)
  /-- RESP_DISCARD_TIMEOUT (R341): Untaken response fragments are discarded after 2,000 ms without a fetch. -/
  | respDiscardTimeout (fn : Fn) (door : Fin 8)
  /-- SLOW_HARDWARE_COMPLETE (R342): Slow hardware finishes and the management processor completes the message waiting on it. -/
  | slowHardwareComplete (fn : Fn) (door : Fin 8) (r : SlowResult)
  /-- DEVICE_EVENTS_W1C (R325): Host W1C write to DEVICE_EVENTS clears event bits. -/
  | deviceEventsW1c (ep : Fin 4) (bits : BitVec 32)
  /-- DEVICE_EVENT_MASK_WRITE (R325): Host write to DEVICE_EVENT_MASK; clearing a mask bit over a set event sends vector 8. -/
  | deviceEventMaskWrite (ep : Fin 4) (value : BitVec 32)
  /-- VF_EVENT_W1C (R326): VF W1C write to its event word clears bits and updates VF_SUMMARY. -/
  | vfEventW1c (ep : Fin 4) (vf : Fin 1024) (bits : BitVec 32)
  /-- RING_PRODUCER_WRITE (R330): Host write to a ring's PRODUCER posts descriptors, acting as the doorbell. -/
  | ringProducerWrite (fn : Fn) (tx : Bool) (ring : Fin 64) (producer : BitVec 16) (descs : List (BitVec 256))
  /-- RING_ENABLE_WRITE (R332): Write of a ring's ENABLE, clamped by port rules; 0 to 1 sets CONSUMER to PRODUCER. -/
  | ringEnableWrite (fn : Fn) (tx : Bool) (ring : Fin 64) (value : BitVec 32)
  /-- BT_COUNT_LOW_READ (R318): Reading the low dword of BT_COUNT in a status page latches the 64-bit value. -/
  | btCountLowRead (fn : Fn)
  /-- READ_CLEAR_REGISTER_READ (R9): A read of an RC BAR field, such as EVENTS_IN_FLR or REFUSED, returns and clears it. -/
  | readClearRegisterRead (fn : Fn) (offset : BitVec 18)
  /-- BAR_REGISTER_WRITE (R318): Write to any other BAR register, clamped silently and applied. -/
  | barRegisterWrite (fn : Fn) (offset : BitVec 18) (size : Nat) (value : BitVec 64)
  /-- AON_POWER_ON (R430): The AON supply rises within limits; the AON power-on reset is released and start-up proceeds. -/
  | aonPowerOn
  /-- AON_SUPPLY_LOSS (R433): The AON supply is lost and the device enters OFF. -/
  | aonSupplyLoss
  /-- MAIN_RAILS_CHECK (R429): 20 ms after MAIN_EN goes high, the main rails are checked and start-up continues or waits. -/
  | mainRailsCheck (low : List (Fin 16))
  /-- RESET_N_ASSERT (R424): RESET_N reads low for 16 samples; every domain except the AON is held in reset. -/
  | resetNAssert
  /-- PIN_LONG (R424): RESET_N has been asserted for 2 s; PIN_LONG is set. -/
  | pinLong
  /-- RESET_N_DEASSERT (R481): RESET_N reads high for 16 samples; a full boot follows. -/
  | resetNDeassert
  /-- DEVICE_RESET_START (R426): A device reset begins, holds the fast domains for 100 µs and leads to a full boot. -/
  | deviceResetStart
  /-- FULL_BOOT (R481): After reset release, the PLLs relock, the boot ROM rolls the life cycle forward, chooses and verifies a slot, and starts the firmware. -/
  | fullBoot
  /-- PROCESSOR_BOOT (R368): The management processor reboots alone while the array keeps serving. -/
  | processorBoot
  /-- FW_READY (R430): The firmware becomes ready: doors are served, ALIVE toggles and DEVICE_EVENTS bit 3 is set. -/
  | fwReady
  /-- MP_WATCHDOG_EXPIRY (R427): The processor watchdog is not serviced for 100 ms; the processor pair resets. -/
  | mpWatchdogExpiry
  /-- TRIAL_CONFIRM_EXPIRY (R370): CONFIRM_REMAIN_S reaches 0 and the firmware starts a boot that reverts the trial. -/
  | trialConfirmExpiry
  /-- WAKE_N_ASSERT (R437): WAKE_N low for 16 samples wakes the device from KEEP-TIME or LISTEN. -/
  | wakeNAssert
  /-- PERST_ASSERT (R328): PERST of an endpoint is asserted and resets that endpoint's functions. -/
  | perstAssert (ep : Fin 4)
  /-- PERST_DEASSERT (R316): PERST is deasserted; TOTAL_VFS is applied and the link trains, or a KEEP-TIME wake starts. -/
  | perstDeassert (ep : Fin 4)
  /-- VF_FLR (R328): A VF function-level reset resets its rings and door; service continues. -/
  | vfFlr (ep : Fin 4) (vf : Fin 1024)
  /-- PF_FLR (R328): A PF function-level reset resets its rings, doors and DEVICE_EVENTS. -/
  | pfFlr (ep : Fin 4)
  /-- SIDEBAND_WAKE (R438): An SMBus Write Byte with code 0xA1, data 0x57 and a correct PEC wakes the device. -/
  | sidebandWake (code : Byte) (data : Byte) (pecOk : Bool)
  /-- SIDEBAND_BLOCK_READ (R473): An SMBus Block Read returns a status-block or user-tag page latched at an edge. -/
  | sidebandBlockRead (code : Byte)
  /-- JTAG_INSTRUCTION (R400): A boundary-scan instruction is loaded, restricted by the life cycle. -/
  | jtagInstruction (instr : JtagInstr)
  /-- KEEP_TIME_ENTRY (R436): The timed entry completes: master rates written, nodes gated, links down, MAIN_EN low. -/
  | keepTimeEntry
  /-- LISTEN_SHARED_AREA_DRAIN (R435): 1 ms after LISTEN entry, unstarted frames in the shared area are dropped and the area is gated. -/
  | listenSharedAreaDrain
  /-- BASE_TICK_EDGE (R42): At each OSC_IN edge, the AON applies rate writes, sets and selection, advances and steers the timescales, and publishes TSH. -/
  | baseTickEdge (strobes : List Nat)
  /-- LEAP_SWITCH (R73): At switch instant S, D_NEW becomes D_NOW and the next pending leap is taken up. -/
  | leapSwitch
  /-- HOST_LEAP_TABLE_EXPIRY (R74): The UTC count reaches EXPIRES_S and the host leap source becomes invalid. -/
  | hostLeapTableExpiry
  /-- GPS_LEAP_VALIDITY_LAPSE (R75): The GPS leap source becomes invalid 7 days after its last acceptance without a qualified antenna. -/
  | gpsLeapValidityLapse
  /-- SERVO_EVALUATION (R259): Once per second, the firmware gathers measurements, evaluates and cross-checks references, updates servos, seeds and selects. -/
  | servoEvaluation
  /-- SEED_VERIFY_END (R263): SEED_VERIFY_S ends; with SEED_OK still 1, a seed commit is requested for an edge. -/
  | seedVerifyEnd (master : Fin 2)
  /-- HOLDOVER_MAX_EXPIRY (R254): HOLDOVER_MAX_S elapses and the master falls to FREE_RUN. -/
  | holdoverMaxExpiry (master : Fin 2)
  /-- KEEPALIVE_LAPSE (R320): The lapse timer reaches KEEPALIVE_LAPSE_MS; LAPSED is set and CONTROLLER_LAPSED is raised. -/
  | keepaliveLapse
  /-- FAULT_RAISE (R407): The collector handles a raise at an edge: recording, latching and the reaction of its class. -/
  | faultRaise (r : RaiseIn)
  /-- ECHO_JUDGEMENT (R407): 10 bt after a flagged-E raise, it is judged and suppressed or handled. -/
  | echoJudgement
  /-- GRACE_EXPIRY (R411): The grace timer reaches zero; the collector escalates to a device reset. -/
  | graceExpiry
  /-- VOLT_RANGE (R406): A rail leaves its operating limits and raises VOLT_RANGE once per episode. -/
  | voltRange (rail : Fin 16)
  /-- TEMP_HIGH (R406): A sensor reads above 105 °C and raises TEMP_HIGH once per episode. -/
  | tempHigh (sensor : Fin 8)
  /-- TEMP_CRIT (R406): A sensor reads above 120 °C and raises TEMP_CRIT once per episode. -/
  | tempCrit (sensor : Fin 8)
  /-- OSC_CHECK (R406): Every 10 ms, OSC_IN is measured and a gross frequency error raises OSC_CHECK. -/
  | oscCheck (off : Bool)
  /-- PLL_UNLOCK (R18): A fast-domain PLL loses lock; its followers stop stamping and the fault is raised. -/
  | pllUnlock (pll : Fin 5)
  /-- PLL_RELOCK (R64): A PLL regains lock, ending the PLL_UNLOCK episode. -/
  | pllRelock (pll : Fin 5)
  /-- SCRUB_PASS (R416): The scrubber reads and corrects memory words on its 10 s cycle. -/
  | scrubPass (errs : List ScrubError)
  /-- RNG_HEALTH_FAIL (R385): An entropy health test fails; RNG_FAIL is raised and output is withheld. -/
  | rngHealthFail
  /-- RNG_RECOVERY (R385): 1,024 consecutive passing samples restore random output. -/
  | rngRecovery
  /-- FRAME_RECEIVE (R100): A received frame is filtered, admitted, checked, stamped and counted. -/
  | frameReceive (e : RxEvent)
  /-- LOCK_LOSS (R91): A lane loses lock; the frame in progress becomes a fragment and Remote Fault is sent. -/
  | lockLoss (port : Fin 16) (lanes cdr : BitVec 8) (inFrame : Bool)
  /-- LINK_DOWN_DELAY_EXPIRY (R91): A lock loss outlasts LINK_DOWN_DELAY_US; the link goes DOWN and the queues are flushed. -/
  | linkDownDelayExpiry (port : Fin 16)
  /-- LINK_UP (R91): Lanes lock, align and deskew; LINK_STATE becomes UP. -/
  | linkUp (x : LaneSkew)
  /-- REMOTE_FAULT_RECEIVED (R91): The link partner signals Remote Fault. -/
  | remoteFaultReceived (port : Fin 16)
  /-- SKEW_CHANGE (R117): A change of lane skew at an alignment marker is applied from the next frame. -/
  | skewChange (x : LaneSkew)
  /-- PAUSE_EXPIRY (R107): A class's pause time runs out and the class is released. -/
  | pauseExpiry (port : Fin 16) (cls : Fin 8)
  /-- PAUSE_WATCHDOG (R108): A class paused for PAUSE_WD_MS is released and put in holdoff. -/
  | pauseWatchdog (port : Fin 16) (cls : Fin 8)
  /-- PAUSE_HOLDOFF_END (R108): PAUSE_HOLDOFF_MS ends and the class obeys flow-control frames again. -/
  | pauseHoldoffEnd (port : Fin 16) (cls : Fin 8)
  /-- DESCRIPTOR_GRANT (R147): An engine with a free thread grants a queued descriptor and the jig image starts handling it. -/
  | descriptorGrant (engine : Fin 128)
  /-- CLIENT_TABLE_UPDATE (R185): The client table completes an atomic score update and returns its result to the waiting thread. -/
  | clientTableUpdate (engine : Fin 128) (thread : Fin 8)
  /-- TABLE_READ_COMPLETE (R139): A service, address, grant or key-slot read returns and the waiting thread becomes ready. -/
  | tableReadComplete (engine : Fin 128) (thread : Fin 8)
  /-- AEAD_JOB_COMPLETE (R151): A lane completes or fails an AEAD job and returns it to its thread. -/
  | aeadJobComplete (engine : Fin 128) (thread : Fin 8) (ok : Bool)
  /-- TX_CREDIT_AVAILABLE (R139): Transmit credit frees and a thread waiting in WAIT_TX resumes. -/
  | txCreditAvailable (engine : Fin 128) (thread : Fin 8)
  /-- CONTEXT_TIMEOUT (R141): A context held for CONTEXT_TIMEOUT_US is abandoned. -/
  | contextTimeout (engine : Fin 128) (thread : Fin 8)
  /-- POWER_GATE_COMPLETE (R23): A GATING node reaches GATED when its contexts drain, or after 10 µs. -/
  | powerGateComplete (node : Fin 149)
  /-- WAKE_COMPLETE (R159): A woken node reaches ON and held descriptors are granted. -/
  | wakeComplete (node : Fin 149)
  /-- WAKE_TIMEOUT (R160): A node not ON within WAKE_TIMEOUT_US returns to GATED and NODE_WAKE_FAIL is raised. -/
  | wakeTimeout (node : Fin 149)
  /-- IDLE_REGATE (R161): In LISTEN, a woken node idle for IDLE_GATE_MS is gated again. -/
  | idleRegate (node : Fin 149)
  /-- NODE_RESET_RELEASE (R24): A reset node returns to RUN at the following edge, or after its instruction memory is reloaded. -/
  | nodeResetRelease (node : Fin 149)
  /-- JIG_OLD_CONTEXTS_DRAINED (R157): The last context running the old jig image ends and OLD_CONTEXTS reaches 0. -/
  | jigOldContextsDrained
  /-- TX_FRAME_START (R103): At a frame boundary, the MAC starts the highest eligible head frame under kerf and age rules. -/
  | txFrameStart (t : TxStart)
  /-- TX_FRAME_END (R136): A frame's last byte crosses the ball and its host descriptor is written back. -/
  | txFrameEnd (port : Fin 16)
  /-- LAUNCH_DEADLINE (R132): A Q7 frame not started by its deadline is discarded under policy DISCARD. -/
  | launchDeadline (port : Fin 16) (place : Nat) (edge : LaunchEdge)
  /-- LAUNCH_SEND_MAX_EXPIRY (R132): A late Q7 frame under policy SEND is removed when LATE_SEND_MAX_US passes. -/
  | launchSendMaxExpiry (port : Fin 16) (x : WaitingLaunch)
  /-- HOST_TX_DESCRIPTOR_FETCH (R332): A transmit descriptor is fetched once the queue has MAX_FRAME of room. -/
  | hostTxDescriptorFetch (fn : Fn) (ring : Fin 64) (frame : List Byte)
  /-- BEACON_PERIOD (R111): BEACON_PERIOD_MS elapses and a health beacon is queued in Q4. -/
  | beaconPeriod (port : Fin 16)
  /-- BROADCAST_DUE (R191): 20 µs before a broadcast instant, a broadcast descriptor is enqueued or suppressed. -/
  | broadcastDue (tenant : Fin 4096) (port : Fin 16) (launch : Nat)
  /-- PTP_MESSAGE_DUE (R239): At a due instant, a Sync or Announce descriptor is enqueued, skipped or suppressed. -/
  | ptpMessageDue (multicast : Bool) (index : Fin 65536) (announce : Bool) (due : Nat)
  /-- TWO_STEP_FOLLOW_UP (R239): A two-step Sync's s_tx returns and a Follow_Up is composed. -/
  | twoStepFollowUp
  /-- GRANT_EXPIRY (R238): A unicast grant lapses at its expiry instant. -/
  | grantExpiry (index : Fin 65536) (type : Fin 3)
  /-- GRANT_ENTRY_FREE (R238): An entry that has held no grant for 1 s is freed. -/
  | grantEntryFree (index : Fin 65536)
  /-- PTP_CLIENT_FRAME (R244): A frame bound to a client instance is processed by the management processor. -/
  | ptpClientFrame (master : Fin 2)
  /-- PTP_CLIENT_DELAY_REQ (R243): The client instance sends a Delay_Req at its period. -/
  | ptpClientDelayReq (master : Fin 2)
  /-- PTP_CLIENT_RENEW (R243): A negotiating client renews its grants at half their duration. -/
  | ptpClientRenew (master : Fin 2)
  /-- PTP_EXCHANGE_TIMEOUT (R244): An exchange not completed within 4 s of its Sync is discarded. -/
  | ptpExchangeTimeout (master : Fin 2)
  /-- CT_SWEEP (R187): Each coarse tick, the sweeper decays one client-table bucket. -/
  | ctSweep
  /-- CT_RETENTION_EXIT (R188): The client table leaves retention and is cleared or resumes sweeping. -/
  | ctRetentionExit
  /-- NTS_KEY_USABLE (R216): At edge n + D, a PENDING key is written, becomes ACCEPT, and the old key is zeroized. -/
  | ntsKeyUsable (tenant : Fin 4096) (slot : Fin 3)
  /-- NTS_KEY_ROLE_EDGE (R217): At its APPLY_BT edge, a scheduled install, promotion or clear changes the ring. -/
  | ntsKeyRoleEdge (tenant : Fin 4096)
  /-- TENANT_RETIRE_COMPLETE (R329): At edge n + D, retirement completes and the tenant becomes UNBOUND. -/
  | tenantRetireComplete (tenant : Fin 4096)
  /-- VF_SUMMARY_HOLDOFF_END (R327): EVENT_HOLDOFF_US ends and a coalesced summary message is sent. -/
  | vfSummaryHoldoffEnd (ep : Fin 4)
  /-- BENCH_OPERATION_COMPLETE (R396): A bench finishes a sign or generate and takes the next requester's head request. -/
  | benchOperationComplete (bench : Fin 4) (r : BenchResult)
  /-- GAUGE_STROBE (R446): At STROBE_BT the strobe freezes every counter at one capture cycle. -/
  | gaugeStrobe
  /-- GAUGE_COPY_COMPLETE (R447): The snapshot copy completes, GAUGE completes and its lock is released. -/
  | gaugeCopyComplete
  /-- SCRIBE_SEGMENT_COMPLETE (R451): The post-trigger count is reached and the segment is COMPLETE. -/
  | scribeSegmentComplete
  /-- SCRIBE_REARM_END (R453): 2 bt after a segment ends, the next segment is armed or the scribe enters DONE. -/
  | scribeRearmEnd
  /-- GNSS_EPOCH (R283): At each measurement epoch, the channels are latched and a measurement block is written. -/
  | gnssEpoch (e : EpochData)
  /-- BASELINE_SURVEY_END (R290): BL_SURVEY_S ends and the baseline is held, retried or failed. -/
  | baselineSurveyEnd (b : Option BaselineFit)
  /-- SPECTRUM_MONITOR (R272): Every 10 ms, a spectrum is taken and interferers take notches. -/
  | spectrumMonitor (ant : Fin 2) (power : List Nat) (tracked : List Int)
  /-- NOTCH_RELEASE (R272): A notch whose interferer stays below threshold for 1 s is released. -/
  | notchRelease (ant : Fin 2) (notch : Fin 4)
  /-- AGC_SECOND_REPORT (R273): Per TSH second, the gain, clipping and blanking are reported and checked. -/
  | agcSecondReport (ant : Fin 2) (gain least : BitVec 16) (clipped : Nat) (pulses : List Pulse)
  /-- ACQUISITION_COMPLETE (R274): A search completes and detected PRNs are assigned to channels. -/
  | acquisitionComplete (ant : Fin 2) (found : List Detection)
  /-- PULL_IN_TIMEOUT (R277): A channel not locked within 500 ms becomes LOST. -/
  | pullInTimeout (ch : Fin 48)
  /-- CARRIER_LOCK_CHECK (R277): The Costas lock indicator over 100 ms sets or clears CARRIER_LOCK. -/
  | carrierLockCheck (ch : Fin 48) (pull : PullReport) (loops : LoopReport)
  /-- CN0_LOSS (R277): CN0 below CN0_LOSS_DBHZ for CN0_LOSS_MS makes the channel LOST. -/
  | cn0Loss (ch : Fin 48)
  /-- BIT_SYNC_WINDOW (R278): At the end of a 100-bit window, BIT_SYNC is set or the counts restart. -/
  | bitSyncWindow (ch : Fin 48) (counts : List Nat)
  /-- SUBFRAME_RECEIVED (R280): A navigation subframe is received, checked and decoded. -/
  | subframeReceived (ch : Fin 48) (sums : List Int)
  /-- TIU_INPUT_EDGE (R297): An input edge is captured, filtered and stamped, producing records per mode. -/
  | tiuInputEdge (e : TiuEdge)
  /-- INTERVAL_OVERFLOW (R304): No stop arrives within 2^32 coarse ticks and an overflow record is emitted. -/
  | intervalOverflow (input : Fin 8)
  /-- FREQUENCY_GATE_END (R305): A gate ends and a GATE record is emitted, valid or not. -/
  | frequencyGateEnd (input : Fin 8)
  /-- TIU_CAL_PASS_COMPLETE (R300): A code-density pass completes and its table replaces the one in use. -/
  | tiuCalPassComplete (x : CalPass)
  /-- TIU_DLL_LOCK (R301): An input's DLL locks and CAL_STATE becomes CALIBRATING. -/
  | tiuDllLock (input : Fin 8)
  /-- TIU_DLL_UNLOCK (R301): A DLL phase error beyond one cell returns the input to UNCALIBRATED. -/
  | tiuDllUnlock (input : Fin 8)
  /-- PPS_OUTPUT_EDGE (R308): A PPS_OUT due instant is reached and an edge or pulse end is emitted, subject to squelch. -/
  | ppsOutputEdge (output : Fin 4) (begins byLoad : Bool)
  /-- FOUT_EDGE (R309): A FOUT rising or falling edge is emitted. -/
  | foutEdge (output : Fin 2) (rising byLoad : Bool)
  /-- OUTPUT_SETTINGS_APPLY (R312): Changed output settings take effect at the first whole TSH second 1 ms after the write. -/
  | outputSettingsApply (output : Fin 6)
  /-- SHORT_LOCK_LOSS_END (R91): A lock loss or received Remote Fault ends within LINK_DOWN_DELAY_US; LINK_STATE stays UP, RX_LOCK_LOSS_SHORT is incremented and Remote Fault is no longer sent. -/
  | shortLockLossEnd (x : LaneSkew)
  /-- ANNOUNCE_RECEIPT_TIMEOUT (R243): A listening client instance receives no Announce from its selected master within announceReceiptTimeout and loses its master. -/
  | announceReceiptTimeout (master : Fin 2)
  /-- RING_IRQ_HOLDOFF_END (R330): IRQ_HOLDOFF_US after a ring's previous message, a message held back by the holdoff is sent for CONSUMER advances made meanwhile. -/
  | ringIrqHoldoffEnd (fn : Fn) (tx : Bool) (ring : Fin 64)
  /-- CONFIGURATION_SPACE_WRITE (R317): A host writes a function's PCIe configuration space, changing Bus Master Enable or MSI-X enable, which changes its live-host state and can release a pending event message. -/
  | configurationSpaceWrite (fn : Fn) (busMaster msixEnable : Bool)
  /-- PCIE_LINK_TRAINED (R431): An endpoint's PCIe link completes training; it answers configuration requests and serves its BAR status pages, and LINK_UP is set. -/
  | pcieLinkTrained (ep : Fin 4)
  /-- PCIE_LINK_DOWN (R317): An endpoint's PCIe link goes down without PERST, so its functions lose their live host. -/
  | pcieLinkDown (ep : Fin 4)
  /-- FLR_COMPLETE (R328): A PF or VF function-level reset completes, within 10 ms or 1 ms; the function leaves FLR and the PF_FLR or VF_FLR cause bit is set. -/
  | flrComplete (fn : Fn)
  /-- RAIL_WITHIN_LIMITS (R429): A main rail comes back within its operating limits; the VOLT_RANGE episode ends and a start-up waiting at the rail check continues. -/
  | railWithinLimits (rail : Fin 16)
  /-- TEMP_EPISODE_END (R406): A sensor reading falls back below the TEMP_HIGH or TEMP_CRIT threshold, ending that episode so that a later excursion raises again. -/
  | tempEpisodeEnd (sensor : Fin 8) (critical : Bool)
deriving DecidableEq, Repr

end Sys2Proof
end

