-- ==== Sys2Proof/Machine/Bits.lean ====
section
/-! DEFINITION. Bit fields, byte order, two's complement, sparse tables and the clamp of one field (R347). -/

namespace Sys2Proof.Machine

open Sys2Proof

/-! ### Fields -/

def Fld.width (f : Fld) : Nat := f.msb + 1 - f.lsb

/-- The value of a field of a record. -/
def getF (r : Nat) (f : Fld) : Nat := r / 2 ^ f.lsb % 2 ^ Fld.width f

/-- The record with a field written; a value wider than the field is cut to it. -/
def setF (r : Nat) (f : Fld) (v : Nat) : Nat :=
  r % 2 ^ f.lsb + 2 ^ f.lsb * (v % 2 ^ Fld.width f) + 2 ^ (f.msb + 1) * (r / 2 ^ (f.msb + 1))

def bit (n i : Nat) : Bool := n.testBit i

def setBit (n i : Nat) (b : Bool) : Nat := setF n ⟨i, i⟩ b.toNat

def b2n (b : Bool) : Nat := b.toNat

/-- A w-bit word read as two's complement. -/
def toInt (w v : Nat) : Int := if v % 2 ^ w < 2 ^ (w - 1) then (v % 2 ^ w : Nat) else (v % 2 ^ w : Nat) - (2 ^ w : Nat)

/-- An integer as a w-bit two's-complement word. -/
def ofInt (w : Nat) (x : Int) : Nat := (x % (2 ^ w : Nat)).toNat

/-- The signed value of a field. -/
def getS (r : Nat) (f : Fld) : Int := toInt (Fld.width f) (getF r f)

def setS (r : Nat) (f : Fld) (x : Int) : Nat := setF r f (ofInt (Fld.width f) x)

/-- A count held at its field's greatest value (the spec's "saturates"). -/
def satAdd (w v n : Nat) : Nat := min (2 ^ w - 1) (v + n)

/-- A field counted up, saturating at its width. -/
def bumpF (r : Nat) (f : Fld) (n : Nat := 1) : Nat := setF r f (satAdd (Fld.width f) (getF r f) n)

/-- An integer held within ±(2^(w−1)), the spec's saturating signed field. -/
def satInt (w : Nat) (x : Int) : Int := max (-(2 ^ (w - 1) : Nat) : Int) (min ((2 ^ (w - 1) : Nat) - 1 : Int) x)

/-- Rounding of a rational to the nearest integer, halves away from zero. -/
def roundHalf (q : Rat) : Int := if q ≥ 0 then (q + 1 / 2).floor else -((-q + 1 / 2).floor)

def popCount (w n : Nat) : Nat := ((List.range w).filter (n.testBit ·)).length

/-! ### Byte order -/

/-- n bytes of v, least significant first (R8). -/
def leBytes (n v : Nat) : List Byte := (List.range n).map fun i => BitVec.ofNat 8 (v / 2 ^ (8 * i))

/-- n bytes of v, most significant first (the wire's order). -/
def beBytes (n v : Nat) : List Byte := (leBytes n v).reverse

def ofLe : List Byte → Nat
  | [] => 0
  | b :: bs => b.toNat + 256 * ofLe bs

def ofBe (bs : List Byte) : Nat := bs.foldl (fun a b => 256 * a + b.toNat) 0

/-- n bytes of a list from an offset; bytes beyond the end read 0. -/
def slice (bs : List Byte) (off n : Nat) : List Byte :=
  let x := (bs.drop off).take n
  x ++ List.replicate (n - x.length) 0

/-- A little-endian field of a payload. -/
def rdLe (bs : List Byte) (off n : Nat) : Nat := ofLe (slice bs off n)

/-- A big-endian field of a frame. -/
def rdBe (bs : List Byte) (off n : Nat) : Nat := ofBe (slice bs off n)

/-- A list overwritten from an offset, grown with zero bytes when it is shorter. -/
def overwrite (bs : List Byte) (off : Nat) (new : List Byte) : List Byte :=
  slice bs 0 off ++ new ++ bs.drop (off + new.length)

/-- Zero bytes up to the next multiple of n. -/
def padTo (n : Nat) (bs : List Byte) : List Byte :=
  bs ++ List.replicate ((n - bs.length % n) % n) 0

/-! ### Sparse tables -/

def Tab.get {α : Type} (d : α) : Tab α → Nat → α
  | [], _ => d
  | (k', v) :: t, k => if k = k' then v else Tab.get d t k

/-- The table with the entry at a key replaced, or inserted at its place. -/
def Tab.insert {α : Type} : Tab α → Nat → α → Tab α
  | [], k, v => [(k, v)]
  | (k', v') :: t, k, v =>
    if k = k' then (k, v) :: t else if k < k' then (k, v) :: (k', v') :: t else (k', v') :: Tab.insert t k v

/-- The table without the entry at a key. -/
def Tab.erase {α : Type} (t : Tab α) (k : Nat) : Tab α := t.filter fun e => decide (e.1 ≠ k)

/-- A write of the table: writing the default removes the entry, so equal tables are equal data. -/
def Tab.set {α : Type} [DecidableEq α] (d : α) (t : Tab α) (k : Nat) (v : α) : Tab α :=
  if v = d then Tab.erase t k else Tab.insert t k v

/-- The keys of a table rise strictly from a bound. -/
def Tab.risesFrom {α : Type} : Nat → Tab α → Bool
  | _, [] => true
  | n, (k, _) :: t => decide (n ≤ k) && Tab.risesFrom (k + 1) t

/-- The canonical form of a table with a default for each key: strictly rising keys, no entry equal to the default. -/
def Tab.wf {α : Type} [DecidableEq α] (d : Nat → α) (t : Tab α) : Bool :=
  Tab.risesFrom 0 t && t.all fun e => decide (e.2 ≠ d e.1)

/-! ### The clamp of one field (R347) -/

/-- The REASON codes of a clamp report entry (Table MBX.7). -/
inductive Reason where
  | range | enum | mask | reserved | dependent | absent | dropped
deriving DecidableEq, Repr

def Reason.code : Reason → Nat
  | .range => 1 | .enum => 2 | .mask => 3 | .reserved => 4 | .dependent => 5 | .absent => 6 | .dropped => 7

/-- The nearest value of a range. -/
def nearest (lo hi v : Nat) : Nat := if v < lo then lo else if hi < v then hi else v

def nearestInt (lo hi v : Int) : Int := if v < lo then lo else if hi < v then hi else v

/-- A field's own clamp of a requested value, and the reason when the value changes. -/
def Field.apply (f : Field) (v : Nat) : Nat × Reason :=
  match f.clamp with
  | .any => (v, .range)
  | .enum vs => (if vs.contains v then v else f.reset, .enum)
  | .range lo hi => (nearest lo hi v, .range)
  | .zeroOr lo hi => (if v = 0 then 0 else if v < lo ∧ v < lo - v then 0 else nearest lo hi v, .range)
  | .srange lo hi => (ofInt (Fld.width f.at_) (nearestInt lo hi (toInt (Fld.width f.at_) v)), .range)
  | .mask m => (v &&& m, .mask)

/-- One entry of a clamp report (Table MBX.7). -/
structure ClampEntry where
  msb : Nat
  lsb : Nat
  item : Nat
  reason : Reason
  requested : Nat
  applied : Nat
deriving DecidableEq, Repr

/-- A limit that refers to another field, another record, the OSC_IN frequency or the variant: the value it prescribes
for a requested value and the reason, given the record as applied so far; none where the limit is kept. -/
abbrev Dep := Fld → Nat → Nat → Option (Nat × Reason)

/-- One field of a written record, after those above it: the record so far with the field applied, and the entry when
the field is changed by clamping (R347; RO and RC fields are ignored, R9; reserved bits are cleared, R10). -/
def clampField (dep : Dep) (item req : Nat) (acc : Nat × List ClampEntry) (f : Field) : Nat × List ClampEntry :=
  let v := getF req f.at_
  let entry (a : Nat) (r : Reason) : List ClampEntry :=
    if a = v then [] else [⟨f.at_.msb, f.at_.lsb, item, r, v, a⟩]
  match f.access with
  | .ro | .rc | .w1c => acc
  | .reserved => (acc.1, acc.2 ++ entry 0 .reserved)
  | .rw | .wo =>
    let (a, r) := (dep f.at_ acc.1 v).getD (Field.apply f v)
    (setF acc.1 f.at_ a, acc.2 ++ entry a r)

/-- The clamp of a whole record: the fields in descending order of bit position, starting from the record in place,
whose RO fields stay. -/
def clampRecord (fs : List Field) (dep : Dep) (item old req : Nat) : Nat × List ClampEntry :=
  fs.foldl (clampField dep item req) (old, [])

/-- No limit but the fields' own. -/
def noDep : Dep := fun _ _ _ => none

/-- The record a field map gives at reset. -/
def resetOf (fs : List Field) : Nat := fs.foldl (fun r f => setF r f.at_ f.reset) 0

/-- The bytes of a clamp report entry. -/
def ClampEntry.bytes (e : ClampEntry) : List Byte :=
  let n := (e.msb - e.lsb + 1 + 63) / 64
  leBytes 2 e.msb ++ leBytes 2 e.lsb ++ leBytes 2 e.item ++ leBytes 1 e.reason.code ++ leBytes 1 n
    ++ leBytes (8 * n) e.requested ++ leBytes (8 * n) e.applied

/-- The clamp report of a response (R349). -/
def clampReport (es : List ClampEntry) : List Byte :=
  leBytes 2 es.length ++ leBytes 6 0 ++ es.flatMap ClampEntry.bytes

/-- CRC-32C of R360, reflected. -/
def crc32cBit (c : Nat) : Nat := if c % 2 = 1 then (c / 2) ^^^ 0x82F63B78 else c / 2

def crc32cByte (c : Nat) (b : Byte) : Nat := (List.range 8).foldl (fun c _ => crc32cBit c) (c ^^^ b.toNat)

def crc32c (bs : List Byte) : Nat := bs.foldl crc32cByte 0xFFFFFFFF ^^^ 0xFFFFFFFF

end Sys2Proof.Machine
end

