-- ==== Sys2Proof/Machine/Crypto.lean ====
section
/-! DEFINITION. The functions the spec names by their standards: SipHash-2-4 (R184), SHA-2, HMAC and the counter-mode KDF
(R154, R383, R388), AES, CMAC, AES-SIV (RFC 5297) and AES-128-GCM-SIV (RFC 8452) of Table NTS.1. Words and blocks are
natural numbers; byte order is that of each standard. -/

namespace Sys2Proof.Machine

open Sys2Proof

/-- A list cut into pieces of n; the fuel bounds their number. -/
def chunks {α : Type} (n : Nat) : Nat → List α → List (List α)
  | 0, _ => []
  | fuel + 1, l => if l.isEmpty then [] else l.take n :: chunks n fuel (l.drop n)

/-- A w-bit word rotated right. -/
def rotr (w n x : Nat) : Nat := x / 2 ^ n + x % 2 ^ n * 2 ^ (w - n)

def rotl (w n x : Nat) : Nat := rotr w (w - n) x

/-! ### SipHash-2-4 -/

/-- v0–v3 of SipHash. -/
structure Sip where
  a : Nat
  b : Nat
  c : Nat
  d : Nat

def add64 (x y : Nat) : Nat := (x + y) % 2 ^ 64

def Sip.round (v : Sip) : Sip :=
  let a := add64 v.a v.b
  let b := rotl 64 13 v.b ^^^ a
  let a := rotl 64 32 a
  let c := add64 v.c v.d
  let d := rotl 64 16 v.d ^^^ c
  let a := add64 a d
  let d := rotl 64 21 d ^^^ a
  let c := add64 c b
  let b := rotl 64 17 b ^^^ c
  ⟨a, b, rotl 64 32 c, d⟩

def Sip.absorb (v : Sip) (m : Nat) : Sip :=
  let v := Sip.round (Sip.round { v with d := v.d ^^^ m })
  { v with a := v.a ^^^ m }

/-- SipHash-2-4 of some bytes under a 128-bit key. -/
def sipHash (key : Nat) (bs : List Byte) : Nat :=
  let k0 := key % 2 ^ 64
  let k1 := key / 2 ^ 64 % 2 ^ 64
  let v : Sip := ⟨k0 ^^^ 0x736F6D6570736575, k1 ^^^ 0x646F72616E646F6D, k0 ^^^ 0x6C7967656E657261, k1 ^^^ 0x7465646279746573⟩
  let full := bs.length / 8 * 8
  let v := (chunks 8 (full / 8) (bs.take full)).foldl (fun v m => Sip.absorb v (ofLe m)) v
  let v := Sip.absorb v (bs.length % 256 * 2 ^ 56 + ofLe (bs.drop full))
  let v := { v with c := v.c ^^^ 0xFF }
  let v := Sip.round (Sip.round (Sip.round (Sip.round v)))
  v.a ^^^ v.b ^^^ v.c ^^^ v.d

/-! ### SHA-2 (FIPS 180-4) -/

/-- The first 80 primes, whose roots give the constants of SHA-2. -/
def shaPrimes : List Nat :=
  [2, 3, 5, 7, 11, 13, 17, 19, 23, 29, 31, 37, 41, 43, 47, 53, 59, 61, 67, 71, 73, 79, 83, 89, 97, 101, 103, 107, 109, 113,
   127, 131, 137, 139, 149, 151, 157, 163, 167, 173] ++
  [179, 181, 191, 193, 197, 199, 211, 223, 227, 229, 233, 239, 241, 251, 257, 263, 269, 271, 277, 281, 283, 293, 307, 311,
   313, 317, 331, 337, 347, 349, 353, 359, 367, 373, 379, 383, 389, 397, 401, 409]

/-- The integer k-th root of n, bit by bit from the top of a number of bits. -/
def rootOf (k n : Nat) : Nat → Nat → Nat
  | 0, r => r
  | b + 1, r => rootOf k n b (if (r + 2 ^ b) ^ k ≤ n then r + 2 ^ b else r)

/-- The first w bits of the fraction of a prime's k-th root. -/
def rootFraction (w k p : Nat) : Nat := rootOf k (p * 2 ^ (w * k)) (w + 5) 0 % 2 ^ w

/-- What tells the functions of the family apart. -/
structure Sha where
  /-- Word width. -/
  w : Nat
  rounds : Nat
  /-- Rotations of Σ0 and Σ1, then rotations and shift of σ0 and σ1. -/
  rot : List Nat
  init : List Nat
  /-- Bytes of the digest. -/
  out : Nat

def shaWide (init : List Nat) (out : Nat) : Sha := ⟨64, 80, [28, 34, 39, 14, 18, 41, 1, 8, 7, 19, 61, 6], init, out⟩

def sha256Spec : Sha :=
  ⟨32, 64, [2, 13, 22, 6, 11, 25, 7, 18, 3, 17, 19, 10], (shaPrimes.take 8).map (rootFraction 32 2), 32⟩

def sha384Spec : Sha := shaWide (((shaPrimes.drop 8).take 8).map (rootFraction 64 2)) 48

def sha512Spec : Sha := shaWide ((shaPrimes.take 8).map (rootFraction 64 2)) 64

/-- Three rotations, or two and a shift, taken together. -/
def Sha.mix (h : Sha) (at_ : Nat) (shift : Bool) (x : Nat) : Nat :=
  let r (i : Nat) : Nat := h.rot.getD (at_ + i) 0
  rotr h.w (r 0) x ^^^ rotr h.w (r 1) x ^^^ (if shift then x / 2 ^ r 2 else rotr h.w (r 2) x)

/-- The rounds of one block: the constants left, the last 16 words of the schedule, a–h. -/
def Sha.rounds' (h : Sha) : List Nat → List Nat → List Nat → List Nat
  | k :: ks, w :: ws, [a, b, c, d, e, f, g, i] =>
    let t := i + h.mix 3 false e + (g ^^^ (e &&& (f ^^^ g))) + k + w
    let u := h.mix 0 false a + ((a &&& b) ^^^ (a &&& c) ^^^ (b &&& c))
    let next := (h.mix 9 true (ws.getD 13 0) + ws.getD 8 0 + h.mix 6 true (ws.getD 0 0) + w) % 2 ^ h.w
    Sha.rounds' h ks (ws ++ [next]) [(t + u) % 2 ^ h.w, a, b, c, (d + t) % 2 ^ h.w, e, f, g]
  | _, _, s => s

def Sha.block (h : Sha) (ks s : List Nat) (bs : List Byte) : List Nat :=
  List.zipWith (fun x y => (x + y) % 2 ^ h.w) s (h.rounds' ks ((chunks (h.w / 8) 16 bs).map ofBe) s)

/-- The digest of some bytes. -/
def Sha.hash (h : Sha) (bs : List Byte) : List Byte :=
  let n := 2 * h.w
  let len := h.w / 4
  let zeros := (2 * n - (bs.length + 1 + len) % n) % n
  let padded := bs ++ [0x80] ++ List.replicate zeros 0 ++ beBytes len (8 * bs.length)
  let ks := (shaPrimes.take h.rounds).map (rootFraction h.w 3)
  let s := (chunks n (padded.length / n) padded).foldl (h.block ks) h.init
  (s.flatMap (beBytes (h.w / 8))).take h.out

def sha256 (bs : List Byte) : List Byte := sha256Spec.hash bs

def sha384 (bs : List Byte) : List Byte := sha384Spec.hash bs

def sha512 (bs : List Byte) : List Byte := sha512Spec.hash bs

def xorBytes (a b : List Byte) : List Byte := List.zipWith (· ^^^ ·) a b

/-- HMAC (FIPS 198-1). -/
def Sha.hmac (h : Sha) (key bs : List Byte) : List Byte :=
  let n := 2 * h.w
  let k := slice (if n < key.length then h.hash key else key) 0 n
  h.hash (xorBytes k (List.replicate n 0x5C) ++ h.hash (xorBytes k (List.replicate n 0x36) ++ bs))

/-- The counter-mode KDF of SP 800-108 under HMAC-SHA-384: n bytes from a key, a label and a context. -/
def counterKdf (key label context : List Byte) (n : Nat) : List Byte :=
  ((List.range ((n + 47) / 48)).flatMap fun i =>
    sha384Spec.hmac key (beBytes 4 (i + 1) ++ label ++ [0] ++ context ++ beBytes 4 (8 * n))).take n

/-! ### AES (FIPS 197) -/

/-- The S-box, entry x at byte x. -/
def aesSbox : Nat :=
  0x16BB54B00F2D99416842E6BF0D89A18CDF2855CEE9871E9B948ED9691198F8E1 * 2 ^ 1792 +
  0x9E1DC186B95735610EF6034866B53E708A8BBD4B1F74DDE8C6B4A61C2E2578BA * 2 ^ 1536 +
  0x08AE7A65EAF4566CA94ED58D6D37C8E779E4959162ACD3C25C2406490A3A32E0 * 2 ^ 1280 +
  0xDB0B5EDE14B8EE4688902A22DC4F816073195D643D7EA7C41744975FEC130CCD * 2 ^ 1024 +
  0xD2F3FF1021DAB6BCF5389D928F40A351A89F3C507F02F94585334D43FBAAEFD0 * 2 ^ 768 +
  0xCF584C4A39BECB6A5BB1FC20ED00D153842FE329B3D63B52A05A6E1B1A2C8309 * 2 ^ 512 +
  0x75B227EBE28012079A059618C323C7041531D871F1E5A534CCF73F362693FDB7 * 2 ^ 256 +
  0xC072A49CAFA2D4ADF04759FA7DC982CA76ABD7FE2B670130C56F6BF27B777C63

def aesSub (x : Nat) : Nat := aesSbox / 2 ^ (8 * x) % 256

/-- A byte times x in GF(2^8). -/
def xtime (b : Nat) : Nat := if b < 128 then 2 * b else 2 * b ^^^ 0x11B

def xorList (a b : List Nat) : List Nat := List.zipWith (· ^^^ ·) a b

/-- The words of the key schedule from the nk last ones: the round constant, the place within nk, words left to make. -/
def aesSchedule (nk : Nat) : Nat → Nat → Nat → List (List Nat) → List (List Nat)
  | 0, _, _, _ => []
  | n + 1, i, rcon, last =>
    let t := last.getLastD []
    let t := if i = 0 then xorList ((t.drop 1 ++ t.take 1).map aesSub) [rcon, 0, 0, 0]
      else if 6 < nk ∧ i = 4 then t.map aesSub else t
    let w := xorList (last.headD []) t
    w :: aesSchedule nk n ((i + 1) % nk) (if i = 0 then xtime rcon else rcon) (last.drop 1 ++ [w])

/-- The round keys of a key of 16, 24 or 32 bytes. -/
def aesKeys (key : List Byte) : List (List Nat) :=
  let nk := key.length / 4
  let first := chunks 4 nk (key.map (·.toNat))
  (chunks 4 (nk + 7) (first ++ aesSchedule nk (4 * (nk + 7) - nk) 0 1 first)).map List.flatten

def aesShift (s : List Nat) : List Nat := (List.range 16).map fun i => s.getD ((i + 4 * (i % 4)) % 16) 0

def aesMixColumn (c : List Nat) : List Nat :=
  let x := c.foldl (· ^^^ ·) 0
  List.zipWith (fun a b => a ^^^ x ^^^ xtime (a ^^^ b)) c (c.drop 1 ++ c.take 1)

/-- The rounds after the first key; the last has no MixColumns. -/
def aesRounds : List (List Nat) → List Nat → List Nat
  | [], s => s
  | [k], s => xorList (aesShift (s.map aesSub)) k
  | k :: ks, s => aesRounds ks (xorList ((chunks 4 4 (aesShift (s.map aesSub))).flatMap aesMixColumn) k)

/-- One block enciphered, as a big-endian number. -/
def aes (key : List Byte) (block : Nat) : Nat :=
  match aesKeys key with
  | k :: ks => ofBe ((aesRounds ks (xorList ((beBytes 16 block).map (·.toNat)) k)).map (BitVec.ofNat 8))
  | [] => 0

/-! ### CMAC and AES-SIV (RFC 5297) -/

/-- A block doubled in GF(2^128). -/
def dbl (x : Nat) : Nat := if x < 2 ^ 127 then 2 * x else (2 * x % 2 ^ 128) ^^^ 0x87

/-- A final piece of fewer than 16 bytes, padded with 10…0. -/
def padBlock (bs : List Byte) : Nat := ofBe (slice (bs ++ [0x80]) 0 16)

def cmac (key bs : List Byte) : Nat :=
  let k1 := dbl (aes key 0)
  let n := (bs.length - 1) / 16
  let last := bs.drop (16 * n)
  let x := (chunks 16 n bs).foldl (fun x b => aes key (x ^^^ ofBe b)) 0
  aes key (x ^^^ (if last.length = 16 then ofBe last ^^^ k1 else padBlock last ^^^ dbl k1))

/-- S2V after CMAC(zero). -/
def s2vStart (key : List Byte) : Nat := cmac key (List.replicate 16 0)

/-- S2V takes in a string that is not the last. -/
def s2vStep (key : List Byte) (x : Nat) (bs : List Byte) : Nat := dbl x ^^^ cmac key bs

/-- S2V takes in the last string. -/
def s2vLast (key : List Byte) (x : Nat) (bs : List Byte) : Nat :=
  if 16 ≤ bs.length then
    let n := bs.length - 16
    cmac key (bs.take n ++ beBytes 16 (ofBe (bs.drop n) ^^^ x))
  else cmac key (beBytes 16 (dbl x ^^^ padBlock bs))

/-- The counter mode of SIV under a synthetic initialisation vector. -/
def sivCtr (key : List Byte) (v : Nat) (bs : List Byte) : List Byte :=
  let q := v - v / 2 ^ 63 % 2 * 2 ^ 63 - v / 2 ^ 31 % 2 * 2 ^ 31
  let n := (bs.length + 15) / 16
  xorBytes bs ((List.range n).flatMap fun i => beBytes 16 (aes key ((q + i) % 2 ^ 128)))

/-- AES-SIV from an S2V value on: the strings still to come, then the plaintext; the vector, then the ciphertext. -/
def sivSealFrom (key : List Byte) (x : Nat) (strings : List (List Byte)) (pt : List Byte) : List Byte :=
  let k1 := key.take (key.length / 2)
  let v := s2vLast k1 (strings.foldl (s2vStep k1) x) pt
  beBytes 16 v ++ sivCtr (key.drop (key.length / 2)) v pt

/-- The plaintext of what such a seal gave. -/
def sivOpenFrom (key : List Byte) (x : Nat) (strings : List (List Byte)) (ct : List Byte) : Option (List Byte) :=
  let pt := sivCtr (key.drop (key.length / 2)) (ofBe (slice ct 0 16)) (ct.drop 16)
  if 16 ≤ ct.length ∧ (sivSealFrom key x strings pt).take 16 = ct.take 16 then some pt else none

def sivStart (key : List Byte) : Nat := s2vStart (key.take (key.length / 2))

/-! ### AES-128-GCM-SIV (RFC 8452) -/

/-- a · b · x^-128 in the field of POLYVAL: the bits of a left, the sum so far. -/
def polyDot (b : Nat) : Nat → Nat → Nat → Nat
  | 0, _, r => r
  | n + 1, a, r =>
    let r := if a % 2 = 1 then r ^^^ b else r
    polyDot b n (a / 2) ((if r % 2 = 1 then r ^^^ (2 ^ 128 + 2 ^ 127 + 2 ^ 126 + 2 ^ 121 + 1) else r) / 2)

def polyval (h : Nat) (bs : List Byte) : Nat :=
  (chunks 16 (bs.length / 16) bs).foldl (fun s x => polyDot h 128 (s ^^^ ofLe x) 0) 0

/-- The message-authentication and message-encryption keys of a nonce. -/
def gcmSivKeys (key nonce : List Byte) : List Byte × List Byte :=
  let part (i : Nat) : List Byte := (beBytes 16 (aes key (ofBe (leBytes 4 i ++ nonce)))).take 8
  (part 0 ++ part 1, part 2 ++ part 3)

/-- Counter mode from a tag, its 32-bit counter little-endian at the front. -/
def gcmSivCtr (key tag bs : List Byte) : List Byte :=
  let top := (slice tag 12 4).map (·.toNat)
  let tail := slice tag 4 8 ++ (top.take 3 ++ [top.getD 3 0 % 128 + 128]).map (BitVec.ofNat 8)
  let n := (bs.length + 15) / 16
  xorBytes bs ((List.range n).flatMap fun i => beBytes 16 (aes key (ofBe (leBytes 4 (rdLe tag 0 4 + i) ++ tail))))

def gcmSivTag (auth enc nonce ad pt : List Byte) : List Byte :=
  let s := polyval (ofLe auth) (padTo 16 ad ++ padTo 16 pt ++ leBytes 8 (8 * ad.length) ++ leBytes 8 (8 * pt.length))
  beBytes 16 (aes enc (ofBe (leBytes 16 ((s ^^^ ofLe nonce) % 2 ^ 127))))

/-- The ciphertext, then the tag. -/
def gcmSivSeal (key nonce ad pt : List Byte) : List Byte :=
  let (a, e) := gcmSivKeys key nonce
  let tag := gcmSivTag a e nonce ad pt
  gcmSivCtr e tag pt ++ tag

def gcmSivOpen (key nonce ad ct : List Byte) : Option (List Byte) :=
  let (a, e) := gcmSivKeys key nonce
  let n := ct.length - 16
  let pt := gcmSivCtr e (ct.drop n) (ct.take n)
  if 16 ≤ ct.length ∧ gcmSivTag a e nonce ad pt = ct.drop n then some pt else none

end Sys2Proof.Machine
end

