-- ==== Sys2Proof/Machine/Curves.lean ====
section
/-! DEFINITION. Signatures over elliptic curves: ECDSA over P-256 and P-384 (FIPS 186, with the hedged nonce of RFC 6979)
and Ed25519 (RFC 8032), as R154, R383, R387 and R393 name them. -/

namespace Sys2Proof.Machine

open Sys2Proof

/-! ### Arithmetic modulo a number -/

def powMod (m b e : Nat) : Nat :=
  (List.range (e.log2 + 1)).foldr (fun i r => if e.testBit i then r * r % m * b % m else r * r % m) 1

/-- The inverse modulo a prime. -/
def invMod (p x : Nat) : Nat := powMod p x (p - 2)

def subMod (p x y : Nat) : Nat := (x + p - y % p) % p

/-- k times a point, by the sum of two points. -/
def timesPoint {α : Type} (sum : α → α → α) (zero : α) (k : Nat) (a : α) : α :=
  (List.range (k.log2 + 1)).foldr (fun i r => if k.testBit i then sum (sum r r) a else sum r r) zero

/-! ### ECDSA -/

/-- A curve y² = x³ − 3x + b modulo p, with a base point of prime order n; bytes of a coordinate; the hash used with it. -/
structure Curve where
  p : Nat
  n : Nat
  b : Nat
  g : Nat × Nat
  len : Nat
  sha : Sha

def p256 : Curve :=
  { p := 2 ^ 256 - 2 ^ 224 + 2 ^ 192 + 2 ^ 96 - 1
    n := 0xFFFFFFFF00000000FFFFFFFFFFFFFFFFBCE6FAADA7179E84F3B9CAC2FC632551
    b := 0x5AC635D8AA3A93E7B3EBBD55769886BC651D06B0CC53B0F63BCE3C3E27D2604B
    g := (0x6B17D1F2E12C4247F8BCE6E563A440F277037D812DEB33A0F4A13945D898C296,
      0x4FE342E2FE1A7F9B8EE7EB4A7C0F9E162BCE33576B315ECECBB6406837BF51F5)
    len := 32, sha := sha256Spec }

def p384 : Curve :=
  { p := 2 ^ 384 - 2 ^ 128 - 2 ^ 96 + 2 ^ 32 - 1
    n := 2 ^ 384 - 2 ^ 192 + 0xC7634D81F4372DDF581A0DB248B0A77AECEC196ACCC52973
    b := 0xB3312FA7E23EE7E4988E056BE3F82D19181D9C6EFE814112 * 2 ^ 192
      + 0x0314088F5013875AC656398D8A2ED19D2A85C8EDD3EC2AEF
    g := (0xAA87CA22BE8B05378EB1C71EF320AD746E1D3B628BA79B98 * 2 ^ 192 + 0x59F741E082542A385502F25DBF55296C3A545E3872760AB7,
      0x3617DE4A96262C6F5D9E98BF9292DC29F8F41DBD289A147C * 2 ^ 192 + 0xE9DA3113B5F0B8C00A60B1CE1D7E819D7A431D7C90EA0E5F)
    len := 48, sha := sha384Spec }

/-- A point, none the one at infinity. -/
abbrev Point := Option (Nat × Nat)

def Curve.add (c : Curve) (p q : Point) : Point :=
  match p, q with
  | none, q => q
  | p, none => p
  | some (x1, y1), some (x2, y2) =>
    if x1 = x2 ∧ (y1 + y2) % c.p = 0 then none
    else
      let l := if x1 = x2 then 3 * subMod c.p (x1 * x1) 1 * invMod c.p (2 * y1 % c.p) % c.p
        else subMod c.p y2 y1 * invMod c.p (subMod c.p x2 x1) % c.p
      let x := subMod c.p (l * l) (x1 + x2)
      some (x, subMod c.p (l * subMod c.p x1 x) y1)

def Curve.mul (c : Curve) (k : Nat) (p : Point) : Point := timesPoint c.add none k p

def Curve.has (c : Curve) (x y : Nat) : Bool :=
  decide (x < c.p) && decide (y < c.p) && decide (y * y % c.p = subMod c.p (x * x % c.p * x + c.b) (3 * x))

/-- A signature (r, s) over a digest verifies under a public key (x, y), each pair one number. -/
def Curve.verifies (c : Curve) (key : Nat) (digest : List Byte) (sig : Nat) : Bool :=
  let w := 2 ^ (8 * c.len)
  let r := sig / w
  let s := sig % w
  let e := ofBe digest % c.n
  let i := invMod c.n s
  c.has (key / w) (key % w) && decide (0 < r) && decide (r < c.n) && decide (0 < s) && decide (s < c.n)
    && (match c.add (c.mul (e * i % c.n) (some c.g)) (c.mul (r * i % c.n) (some (key / w, key % w))) with
      | some (x, _) => decide (x % c.n = r)
      | none => false)

/-- The public key of a private scalar, as one number. -/
def Curve.publicOf (c : Curve) (x : Nat) : Nat :=
  match c.mul x (some c.g) with | some (a, b) => a * 2 ^ (8 * c.len) + b | none => 0

/-- The signature under a nonce, where r and s are not 0. -/
def Curve.signWith (c : Curve) (x e k : Nat) : Option (Nat × Nat) :=
  match c.mul k (some c.g) with
  | none => none
  | some (a, _) =>
    let r := a % c.n
    let s := invMod c.n k * (e + r * x) % c.n
    if r = 0 ∨ s = 0 then none else some (r, s)

/-- The search of RFC 6979 for a nonce, from K and V. -/
def Curve.nonceLoop (c : Curve) (x e : Nat) : Nat → List Byte → List Byte → Option (Nat × Nat)
  | 0, _, _ => none
  | fuel + 1, k, v =>
    let v := c.sha.hmac k v
    let t := ofBe v
    match if 0 < t ∧ t < c.n then c.signWith x e t else none with
    | some rs => some rs
    | none =>
      let k := c.sha.hmac k (v ++ [0])
      Curve.nonceLoop c x e fuel k (c.sha.hmac k v)

/-- ECDSA under a private scalar over a digest, its nonce that of RFC 6979 with additional data. -/
def Curve.sign (c : Curve) (x : Nat) (digest extra : List Byte) : Option (Nat × Nat) :=
  let e := ofBe digest % c.n
  let seed := beBytes c.len x ++ beBytes c.len e ++ extra
  let v := List.replicate c.len 1
  let k := c.sha.hmac (List.replicate c.len 0) (v ++ [0] ++ seed)
  let v := c.sha.hmac k v
  let k := c.sha.hmac k (v ++ [1] ++ seed)
  c.nonceLoop x e 16 k (c.sha.hmac k v)

/-- A DER INTEGER. -/
def derInt (x : Nat) : List Byte :=
  let n := x.log2 / 8 + 1
  let n := if x / 2 ^ (8 * n - 1) = 1 then n + 1 else n
  [0x02, BitVec.ofNat 8 n] ++ beBytes n x

/-- A DER ECDSA-Sig-Value. -/
def derSignature (rs : Nat × Nat) : List Byte :=
  let body := derInt rs.1 ++ derInt rs.2
  [0x30, BitVec.ofNat 8 body.length] ++ body

/-! ### Ed25519 -/

def edP : Nat := 2 ^ 255 - 19

/-- The order of the base point. -/
def edL : Nat := 2 ^ 252 + 27742317777372353535851937790883648493

def edD : Nat := subMod edP 0 (121665 * invMod edP 121666)

def edBase : Nat × Nat :=
  (15112221349535400772501151409588531511454012693041857206046113283949847762202,
   46316835694926478169428394003475163141307993866256225615783033603165251855960)

def edAdd (a b : Nat × Nat) : Nat × Nat :=
  let m := edD * (a.1 * b.1 % edP) % edP * (a.2 * b.2 % edP) % edP
  ((a.1 * b.2 + a.2 * b.1) % edP * invMod edP ((1 + m) % edP) % edP,
   (a.2 * b.2 + a.1 * b.1) % edP * invMod edP (subMod edP 1 m) % edP)

/-- The encoding of k times the base point. -/
def edPoint (k : Nat) : List Byte :=
  let (x, y) := timesPoint edAdd (0, 1) k edBase
  leBytes 32 (y + x % 2 * 2 ^ 255)

/-- The scalar and the prefix of a private key. -/
def edExpand (seed : List Byte) : Nat × List Byte :=
  let h := sha512 seed
  let a := ofLe (h.take 32)
  (2 ^ 254 + a % 2 ^ 254 / 8 * 8, h.drop 32)

def edPublic (seed : List Byte) : List Byte := edPoint (edExpand seed).1

def edSign (seed msg : List Byte) : List Byte :=
  let (a, pre) := edExpand seed
  let r := ofLe (sha512 (pre ++ msg)) % edL
  let top := edPoint r
  let k := ofLe (sha512 (top ++ edPublic seed ++ msg)) % edL
  top ++ leBytes 32 ((r + k * a) % edL)

end Sys2Proof.Machine
end

