-- ==== Sys2Proof/Machine/Fields.lean ====
section
/-! DEFINITION. The field maps of the spec's records: for each field its bit range, its access code (R9), its reset
value and its own clamp (R347). Limits that refer to another field or record stand with the record's command. -/

namespace Sys2Proof.Machine

/-! Table ARCH.4 — Node status word -/
def NodeSt.level : Fld := ⟨31, 30⟩
def NodeSt.index : Fld := ⟨29, 23⟩
def NodeSt.power : Fld := ⟨22, 20⟩
def NodeSt.reset : Fld := ⟨19, 18⟩
def NodeSt.fenced : Fld := ⟨17, 17⟩
def NodeSt.faultLatched : Fld := ⟨16, 16⟩
def NodeSt.contextsBusy : Fld := ⟨10, 0⟩
/-- The fields of Table ARCH.4, most significant first. -/
def nodeStFields : List Field :=
  [⟨NodeSt.level, .ro, 0, .any⟩,
   ⟨NodeSt.index, .ro, 0, .any⟩,
   ⟨NodeSt.power, .ro, 2, .any⟩,
   ⟨NodeSt.reset, .ro, 0, .any⟩,
   ⟨NodeSt.fenced, .ro, 0, .any⟩,
   ⟨NodeSt.faultLatched, .ro, 0, .any⟩,
   ⟨⟨15, 11⟩, .reserved, 0, .any⟩,
   ⟨NodeSt.contextsBusy, .ro, 0, .any⟩]

/-! Table TS.6 — Timescale record (32 bytes) -/
def Tsc.time : Fld := ⟨255, 160⟩
def Tsc.btAt : Fld := ⟨159, 96⟩
def Tsc.inc : Fld := ⟨95, 24⟩
def Tsc.set : Fld := ⟨23, 23⟩
def Tsc.stepSource : Fld := ⟨22, 20⟩
/-- The fields of Table TS.6, most significant first. -/
def tscFields : List Field :=
  [⟨Tsc.time, .ro, 0, .any⟩,
   ⟨Tsc.btAt, .ro, 0, .any⟩,
   ⟨Tsc.inc, .rw, 0, .any⟩,
   ⟨Tsc.set, .ro, 0, .any⟩,
   ⟨Tsc.stepSource, .ro, 0, .any⟩,
   ⟨⟨19, 0⟩, .reserved, 0, .any⟩]

/-! Table TS.7 — TSH steering record (48 bytes) -/
def Steer.select : Fld := ⟨383, 382⟩
def Steer.steerShift : Fld := ⟨381, 376⟩
def Steer.slewMaxPpb : Fld := ⟨375, 360⟩
def Steer.convergeNs : Fld := ⟨359, 344⟩
def Steer.steerState : Fld := ⟨343, 341⟩
def Steer.converged : Fld := ⟨340, 340⟩
def Steer.offsetAValid : Fld := ⟨339, 339⟩
def Steer.offsetBValid : Fld := ⟨338, 338⟩
def Steer.offsetASat : Fld := ⟨337, 337⟩
def Steer.offsetBSat : Fld := ⟨336, 336⟩
def Steer.convSinceSel : Fld := ⟨335, 335⟩
def Steer.selBt : Fld := ⟨319, 256⟩
def Steer.offsetA : Fld := ⟨255, 192⟩
def Steer.offsetB : Fld := ⟨191, 128⟩
def Steer.corr : Fld := ⟨127, 64⟩
def Steer.btAt : Fld := ⟨63, 0⟩
/-- The fields of Table TS.7, most significant first. -/
def steerFields : List Field :=
  [⟨Steer.select, .rw, 0, .enum [0, 1, 2]⟩,
   ⟨Steer.steerShift, .rw, 26, .range 16 34⟩,
   ⟨Steer.slewMaxPpb, .rw, 100, .range 1 10000⟩,
   ⟨Steer.convergeNs, .rw, 10, .range 1 65535⟩,
   ⟨Steer.steerState, .ro, 0, .any⟩,
   ⟨Steer.converged, .ro, 0, .any⟩,
   ⟨Steer.offsetAValid, .ro, 0, .any⟩,
   ⟨Steer.offsetBValid, .ro, 0, .any⟩,
   ⟨Steer.offsetASat, .ro, 0, .any⟩,
   ⟨Steer.offsetBSat, .ro, 0, .any⟩,
   ⟨Steer.convSinceSel, .ro, 0, .any⟩,
   ⟨⟨334, 320⟩, .reserved, 0, .any⟩,
   ⟨Steer.selBt, .ro, 0, .any⟩,
   ⟨Steer.offsetA, .ro, 0, .any⟩,
   ⟨Steer.offsetB, .ro, 0, .any⟩,
   ⟨Steer.corr, .ro, 0, .any⟩,
   ⟨Steer.btAt, .ro, 0, .any⟩]

/-! Table TS.8 — Follower record (16 bytes) -/
def Fol.fstate : Fld := ⟨127, 126⟩
def Fol.realignLimitNs : Fld := ⟨125, 121⟩
def Fol.lastErr : Fld := ⟨95, 64⟩
def Fol.maxErrPs : Fld := ⟨63, 48⟩
def Fol.hardLoads : Fld := ⟨47, 32⟩
def Fol.relockLoads : Fld := ⟨31, 16⟩
/-- The fields of Table TS.8, most significant first. -/
def folFields : List Field :=
  [⟨Fol.fstate, .ro, 0, .any⟩,
   ⟨Fol.realignLimitNs, .rw, 4, .range 1 12⟩,
   ⟨⟨120, 96⟩, .reserved, 0, .any⟩,
   ⟨Fol.lastErr, .ro, 0, .any⟩,
   ⟨Fol.maxErrPs, .rc, 0, .any⟩,
   ⟨Fol.hardLoads, .rc, 0, .any⟩,
   ⟨Fol.relockLoads, .rc, 0, .any⟩,
   ⟨⟨15, 0⟩, .reserved, 0, .any⟩]

/-! Table VIEW.4 — View record (48 bytes) -/
def View.kind : Fld := ⟨383, 382⟩
def View.created : Fld := ⟨381, 381⟩
def View.smearing : Fld := ⟨380, 380⟩
def View.floor : Fld := ⟨379, 379⟩
def View.tenantsBound : Fld := ⟨378, 366⟩
def View.offsetNs : Fld := ⟨351, 288⟩
def View.offsetFrac : Fld := ⟨287, 256⟩
def View.smearLenS : Fld := ⟨255, 238⟩
def View.smearLeadS : Fld := ⟨237, 220⟩
def View.smearCompressed : Fld := ⟨219, 204⟩
def View.value : Fld := ⟨191, 96⟩
def View.btAt : Fld := ⟨63, 0⟩
/-- The fields of Table VIEW.4, most significant first. -/
def viewFields : List Field :=
  [⟨View.kind, .rw, 0, .any⟩,
   ⟨View.created, .ro, 0, .any⟩,
   ⟨View.smearing, .ro, 0, .any⟩,
   ⟨View.floor, .ro, 0, .any⟩,
   ⟨View.tenantsBound, .ro, 0, .any⟩,
   ⟨⟨365, 352⟩, .reserved, 0, .any⟩,
   ⟨View.offsetNs, .rw, 0, .any⟩,
   ⟨View.offsetFrac, .rw, 0, .any⟩,
   ⟨View.smearLenS, .rw, 86400, .range 3600 172800⟩,
   ⟨View.smearLeadS, .rw, 86400, .any⟩,
   ⟨View.smearCompressed, .rc, 0, .any⟩,
   ⟨⟨203, 192⟩, .reserved, 0, .any⟩,
   ⟨View.value, .ro, 0, .any⟩,
   ⟨⟨95, 64⟩, .reserved, 0, .any⟩,
   ⟨View.btAt, .ro, 0, .any⟩]

/-! Table VIEW.5 — Leap state record (32 bytes) -/
def Leap.dNowS : Fld := ⟨255, 240⟩
def Leap.dFallbackS : Fld := ⟨239, 224⟩
def Leap.policy : Fld := ⟨223, 222⟩
def Leap.sourceNow : Fld := ⟨221, 220⟩
def Leap.leapKnown : Fld := ⟨219, 219⟩
def Leap.leapStale : Fld := ⟨218, 218⟩
def Leap.pending : Fld := ⟨217, 217⟩
def Leap.mismatch : Fld := ⟨216, 216⟩
def Leap.hostEntries : Fld := ⟨215, 208⟩
def Leap.dPendingS : Fld := ⟨207, 192⟩
def Leap.mPendingS : Fld := ⟨191, 128⟩
def Leap.leapRefused : Fld := ⟨127, 112⟩
def Leap.hostExpiresS : Fld := ⟨111, 64⟩
def Leap.gpsAcceptBt : Fld := ⟨63, 0⟩
/-- The fields of Table VIEW.5, most significant first. -/
def leapFields : List Field :=
  [⟨Leap.dNowS, .ro, 37, .any⟩,
   ⟨Leap.dFallbackS, .rw, 37, .range 10 255⟩,
   ⟨Leap.policy, .rw, 0, .any⟩,
   ⟨Leap.sourceNow, .ro, 0, .any⟩,
   ⟨Leap.leapKnown, .ro, 0, .any⟩,
   ⟨Leap.leapStale, .ro, 0, .any⟩,
   ⟨Leap.pending, .ro, 0, .any⟩,
   ⟨Leap.mismatch, .w1c, 0, .any⟩,
   ⟨Leap.hostEntries, .ro, 0, .any⟩,
   ⟨Leap.dPendingS, .ro, 0, .any⟩,
   ⟨Leap.mPendingS, .ro, 0, .any⟩,
   ⟨Leap.leapRefused, .rc, 0, .any⟩,
   ⟨Leap.hostExpiresS, .ro, 0, .any⟩,
   ⟨Leap.gpsAcceptBt, .ro, 0, .any⟩]

/-! Table PORT.3 — Receive status word -/
def RxSt.stampValid : Fld := ⟨31, 31⟩
def RxSt.followerStep : Fld := ⟨30, 30⟩
def RxSt.trunc : Fld := ⟨29, 29⟩
def RxSt.wakeHeld : Fld := ⟨28, 28⟩
def RxSt.vlanCount : Fld := ⟨27, 26⟩
def RxSt.l3Type : Fld := ⟨25, 24⟩
def RxSt.l3Status : Fld := ⟨23, 22⟩
def RxSt.ipOptExt : Fld := ⟨21, 21⟩
def RxSt.ipFrag : Fld := ⟨20, 20⟩
def RxSt.l4Type : Fld := ⟨19, 18⟩
def RxSt.l4Status : Fld := ⟨17, 16⟩
def RxSt.length : Fld := ⟨13, 0⟩

/-! Table PORT.9 — Lane-octet record (16 bytes) -/
def Oct.mode : Fld := ⟨127, 124⟩
def Oct.anEnable : Fld := ⟨123, 123⟩
def Oct.ltEnable : Fld := ⟨122, 122⟩
def Oct.rxPolarity : Fld := ⟨111, 104⟩
def Oct.txPolarity : Fld := ⟨103, 96⟩
def Oct.appliedBt : Fld := ⟨63, 0⟩
/-- The fields of Table PORT.9, most significant first. -/
def octFields : List Field :=
  [⟨Oct.mode, .rw, 0, .enum [0, 1, 2, 3, 4, 5, 6]⟩,
   ⟨Oct.anEnable, .rw, 0, .any⟩,
   ⟨Oct.ltEnable, .rw, 0, .any⟩,
   ⟨⟨121, 112⟩, .reserved, 0, .any⟩,
   ⟨Oct.rxPolarity, .rw, 0, .any⟩,
   ⟨Oct.txPolarity, .rw, 0, .any⟩,
   ⟨⟨95, 64⟩, .reserved, 0, .any⟩,
   ⟨Oct.appliedBt, .ro, 0, .any⟩]

/-! Table PORT.10 — Port record (64 bytes) -/
def Prt.stationMac : Fld := ⟨511, 464⟩
def Prt.maxFrame : Fld := ⟨463, 450⟩
def Prt.flowMode : Fld := ⟨449, 448⟩
def Prt.pfcEnable : Fld := ⟨447, 440⟩
def Prt.pauseWdMs : Fld := ⟨439, 424⟩
def Prt.pauseHoldoffMs : Fld := ⟨423, 408⟩
def Prt.linkDownDelayUs : Fld := ⟨407, 376⟩
def Prt.badCsumAction : Fld := ⟨375, 374⟩
def Prt.nomatchAction : Fld := ⟨373, 372⟩
def Prt.promisc : Fld := ⟨371, 371⟩
def Prt.allMulticast : Fld := ⟨370, 370⟩
def Prt.outerTpid : Fld := ⟨367, 352⟩
def Prt.rxReserveKib : Fld := ⟨351, 336⟩
def Prt.ageLimitUs : Fld := ⟨335, 320⟩
def Prt.qLimitKib : Fld := ⟨319, 192⟩
/-- The fields of Table PORT.10, most significant first. -/
def prtFields : List Field :=
  [⟨Prt.stationMac, .rw, 0, .any⟩,
   ⟨Prt.maxFrame, .rw, 1522, .range 1518 9216⟩,
   ⟨Prt.flowMode, .rw, 0, .enum [0, 1, 2]⟩,
   ⟨Prt.pfcEnable, .rw, 0, .any⟩,
   ⟨Prt.pauseWdMs, .rw, 50, .range 1 10000⟩,
   ⟨Prt.pauseHoldoffMs, .rw, 1000, .range 0 60000⟩,
   ⟨Prt.linkDownDelayUs, .rw, 100, .range 0 1000000⟩,
   ⟨Prt.badCsumAction, .rw, 0, .enum [0, 1]⟩,
   ⟨Prt.nomatchAction, .rw, 0, .enum [0, 1]⟩,
   ⟨Prt.promisc, .rw, 0, .any⟩,
   ⟨Prt.allMulticast, .rw, 0, .any⟩,
   ⟨⟨369, 368⟩, .reserved, 0, .any⟩,
   ⟨Prt.outerTpid, .rw, 34984, .enum [34984, 33024, 37120]⟩,
   ⟨Prt.rxReserveKib, .rw, 256, .range 64 2048⟩,
   ⟨Prt.ageLimitUs, .rw, 1000, .range 10 50000⟩,
   ⟨⟨319, 304⟩, .rw, 64, .range 16 1024⟩,
   ⟨⟨303, 288⟩, .rw, 64, .range 16 1024⟩,
   ⟨⟨287, 272⟩, .rw, 64, .range 16 1024⟩,
   ⟨⟨271, 256⟩, .rw, 64, .range 16 1024⟩,
   ⟨⟨255, 240⟩, .rw, 64, .range 16 1024⟩,
   ⟨⟨239, 224⟩, .rw, 64, .range 16 1024⟩,
   ⟨⟨223, 208⟩, .rw, 64, .range 16 1024⟩,
   ⟨⟨207, 192⟩, .rw, 64, .range 16 1024⟩,
   ⟨⟨191, 0⟩, .reserved, 0, .any⟩]

/-! Table PORT.11 — Port status record (32 bytes) -/
def PrtSt.linkState : Fld := ⟨255, 253⟩
def PrtSt.laneLock : Fld := ⟨252, 245⟩
def PrtSt.alignLock : Fld := ⟨244, 244⟩
def PrtSt.fecLock : Fld := ⟨243, 243⟩
def PrtSt.paused : Fld := ⟨242, 235⟩
def PrtSt.wdHoldoff : Fld := ⟨234, 227⟩
def PrtSt.rxInUseKib : Fld := ⟨207, 192⟩
def PrtSt.txInUseKib : Fld := ⟨191, 176⟩
def PrtSt.linkUpBt : Fld := ⟨127, 64⟩
def PrtSt.linkDownBt : Fld := ⟨63, 0⟩
/-- The fields of Table PORT.11, most significant first. -/
def prtStFields : List Field :=
  [⟨PrtSt.linkState, .ro, 0, .any⟩,
   ⟨PrtSt.laneLock, .ro, 0, .any⟩,
   ⟨PrtSt.alignLock, .ro, 0, .any⟩,
   ⟨PrtSt.fecLock, .ro, 0, .any⟩,
   ⟨PrtSt.paused, .ro, 0, .any⟩,
   ⟨PrtSt.wdHoldoff, .ro, 0, .any⟩,
   ⟨⟨226, 208⟩, .reserved, 0, .any⟩,
   ⟨PrtSt.rxInUseKib, .ro, 0, .any⟩,
   ⟨PrtSt.txInUseKib, .ro, 0, .any⟩,
   ⟨⟨175, 128⟩, .reserved, 0, .any⟩,
   ⟨PrtSt.linkUpBt, .ro, 0, .any⟩,
   ⟨PrtSt.linkDownBt, .ro, 0, .any⟩]

/-! Table PORT.12 — Wake pattern record (136 bytes) -/
def Wake.enable : Fld := ⟨1087, 1087⟩
def Wake.action : Fld := ⟨1086, 1085⟩
def Wake.targetLevel : Fld := ⟨1084, 1083⟩
def Wake.targetIndex : Fld := ⟨1082, 1076⟩
def Wake.checkCrc16 : Fld := ⟨1071, 1056⟩
def Wake.matches : Fld := ⟨1055, 1040⟩
def Wake.maskF : Fld := ⟨1023, 0⟩
/-- The fields of Table PORT.12, most significant first. -/
def wakeFields : List Field :=
  [⟨Wake.enable, .rw, 0, .any⟩,
   ⟨Wake.action, .rw, 0, .enum [0, 1, 2]⟩,
   ⟨Wake.targetLevel, .rw, 3, .enum [1, 2, 3]⟩,
   ⟨Wake.targetIndex, .rw, 0, .any⟩,
   ⟨⟨1075, 1072⟩, .reserved, 0, .any⟩,
   ⟨Wake.checkCrc16, .rw, 0, .any⟩,
   ⟨Wake.matches, .rc, 0, .any⟩,
   ⟨⟨1039, 1024⟩, .reserved, 0, .any⟩,
   ⟨Wake.maskF, .rw, 0, .any⟩]

/-! Table PORT.13 — Beacon record (32 bytes) -/
def Bcn.beaconPeriodMs : Fld := ⟨255, 240⟩
def Bcn.encap : Fld := ⟨239, 238⟩
def Bcn.vlanEn : Fld := ⟨237, 237⟩
def Bcn.vlanPcp : Fld := ⟨236, 234⟩
def Bcn.vlanVid : Fld := ⟨233, 222⟩
def Bcn.destMac : Fld := ⟨207, 160⟩
def Bcn.destIp4 : Fld := ⟨159, 128⟩
def Bcn.srcIp4 : Fld := ⟨127, 96⟩
def Bcn.udpPort : Fld := ⟨95, 80⟩
def Bcn.sequence : Fld := ⟨63, 32⟩
/-- The fields of Table PORT.13, most significant first. -/
def bcnFields : List Field :=
  [⟨Bcn.beaconPeriodMs, .rw, 0, .zeroOr 100 60000⟩,
   ⟨Bcn.encap, .rw, 0, .enum [0, 1]⟩,
   ⟨Bcn.vlanEn, .rw, 0, .any⟩,
   ⟨Bcn.vlanPcp, .rw, 0, .any⟩,
   ⟨Bcn.vlanVid, .rw, 0, .any⟩,
   ⟨⟨221, 208⟩, .reserved, 0, .any⟩,
   ⟨Bcn.destMac, .rw, 281474976710655, .any⟩,
   ⟨Bcn.destIp4, .rw, 0, .any⟩,
   ⟨Bcn.srcIp4, .rw, 0, .any⟩,
   ⟨Bcn.udpPort, .rw, 49200, .range 1 65535⟩,
   ⟨⟨79, 64⟩, .reserved, 0, .any⟩,
   ⟨Bcn.sequence, .ro, 0, .any⟩,
   ⟨⟨31, 0⟩, .reserved, 0, .any⟩]

/-! Table STAMP.3 — Transmit descriptor (32 bytes) -/
def TxDesc.bufAddr : Fld := ⟨255, 192⟩
def TxDesc.bufLen : Fld := ⟨191, 178⟩
def TxDesc.queue : Fld := ⟨177, 176⟩
def TxDesc.tsReq : Fld := ⟨175, 175⟩
def TxDesc.csumIp4 : Fld := ⟨174, 174⟩
def TxDesc.csumL4 : Fld := ⟨173, 172⟩
def TxDesc.insertOp : Fld := ⟨171, 170⟩
def TxDesc.l3Offset : Fld := ⟨159, 152⟩
def TxDesc.l4Offset : Fld := ⟨151, 144⟩
def TxDesc.insertOffset : Fld := ⟨143, 128⟩
def TxDesc.view : Fld := ⟨127, 120⟩
def TxDesc.cookie : Fld := ⟨95, 64⟩

/-! Table STAMP.4 — Transmit write-back (32 bytes) -/
def TxWb.stampNs : Fld := ⟨255, 192⟩
def TxWb.stampFrac : Fld := ⟨191, 160⟩
def TxWb.stampValid : Fld := ⟨159, 159⟩
def TxWb.followerStep : Fld := ⟨158, 158⟩
def TxWb.status : Fld := ⟨151, 144⟩
def TxWb.cookie : Fld := ⟨127, 96⟩

/-! Table STAMP.8 — Shim record (64 bytes) -/
def Shm.rxShim : Fld := ⟨511, 480⟩
def Shm.txShim : Fld := ⟨479, 448⟩
def Shm.rxLaneTrimPs : Fld := ⟨447, 320⟩
def Shm.txLaneTrimPs : Fld := ⟨319, 192⟩
def Shm.txLatency : Fld := ⟨191, 160⟩
def Shm.rxAvailable : Fld := ⟨159, 128⟩
def Shm.shimBt : Fld := ⟨127, 64⟩
/-- The fields of Table STAMP.8, most significant first. -/
def shmFields : List Field :=
  [⟨Shm.rxShim, .rw, 0, .any⟩,
   ⟨Shm.txShim, .rw, 0, .any⟩,
   ⟨⟨447, 432⟩, .rw, 0, .srange (-2000) 2000⟩,
   ⟨⟨431, 416⟩, .rw, 0, .srange (-2000) 2000⟩,
   ⟨⟨415, 400⟩, .rw, 0, .srange (-2000) 2000⟩,
   ⟨⟨399, 384⟩, .rw, 0, .srange (-2000) 2000⟩,
   ⟨⟨383, 368⟩, .rw, 0, .srange (-2000) 2000⟩,
   ⟨⟨367, 352⟩, .rw, 0, .srange (-2000) 2000⟩,
   ⟨⟨351, 336⟩, .rw, 0, .srange (-2000) 2000⟩,
   ⟨⟨335, 320⟩, .rw, 0, .srange (-2000) 2000⟩,
   ⟨⟨319, 304⟩, .rw, 0, .srange (-2000) 2000⟩,
   ⟨⟨303, 288⟩, .rw, 0, .srange (-2000) 2000⟩,
   ⟨⟨287, 272⟩, .rw, 0, .srange (-2000) 2000⟩,
   ⟨⟨271, 256⟩, .rw, 0, .srange (-2000) 2000⟩,
   ⟨⟨255, 240⟩, .rw, 0, .srange (-2000) 2000⟩,
   ⟨⟨239, 224⟩, .rw, 0, .srange (-2000) 2000⟩,
   ⟨⟨223, 208⟩, .rw, 0, .srange (-2000) 2000⟩,
   ⟨⟨207, 192⟩, .rw, 0, .srange (-2000) 2000⟩,
   ⟨Shm.txLatency, .ro, 0, .any⟩,
   ⟨Shm.rxAvailable, .ro, 0, .any⟩,
   ⟨Shm.shimBt, .ro, 0, .any⟩,
   ⟨⟨63, 0⟩, .reserved, 0, .any⟩]

/-! Table STAMP.5 — Tenant launch record (16 bytes) -/
def Lch.launchOffsetNs : Fld := ⟨127, 112⟩
def Lch.lateTolPs : Fld := ⟨111, 92⟩
def Lch.latePolicy : Fld := ⟨91, 90⟩
def Lch.lateSendMaxUs : Fld := ⟨89, 74⟩
/-- The fields of Table STAMP.5, most significant first. -/
def lchFields : List Field :=
  [⟨Lch.launchOffsetNs, .rw, 6000, .range 2000 50000⟩,
   ⟨Lch.lateTolPs, .rw, 2000, .range 0 1000000⟩,
   ⟨Lch.latePolicy, .rw, 0, .enum [0, 1]⟩,
   ⟨Lch.lateSendMaxUs, .rw, 1000, .range 1 50000⟩,
   ⟨⟨73, 0⟩, .reserved, 0, .any⟩]

/-! Table ARRAY.7 — Node flags word -/
def NodeFl.wakeFailed : Fld := ⟨2, 2⟩
def NodeFl.listenGated : Fld := ⟨1, 1⟩
def NodeFl.cmdGated : Fld := ⟨0, 0⟩
/-- The fields of Table ARRAY.7, most significant first. -/
def nodeFlFields : List Field :=
  [⟨⟨31, 3⟩, .reserved, 0, .any⟩,
   ⟨NodeFl.wakeFailed, .ro, 0, .any⟩,
   ⟨NodeFl.listenGated, .ro, 0, .any⟩,
   ⟨NodeFl.cmdGated, .ro, 0, .any⟩]

/-! Table ARRAY.8 — Array record (16 bytes) -/
def Arr.contextTimeoutUs : Fld := ⟨127, 112⟩
def Arr.idleGateMs : Fld := ⟨111, 96⟩
def Arr.wakeTimeoutUs : Fld := ⟨95, 88⟩
/-- The fields of Table ARRAY.8, most significant first. -/
def arrFields : List Field :=
  [⟨Arr.contextTimeoutUs, .rw, 50, .range 5 1000⟩,
   ⟨Arr.idleGateMs, .rw, 10, .range 0 60000⟩,
   ⟨Arr.wakeTimeoutUs, .rw, 20, .range 5 100⟩,
   ⟨⟨87, 0⟩, .reserved, 0, .any⟩]

/-! Table ARRAY.9 — Tenant array record (16 bytes) -/
def TArr.pinLevel : Fld := ⟨127, 126⟩
def TArr.pinIndex : Fld := ⟨125, 119⟩
def TArr.fallbackEn : Fld := ⟨118, 118⟩
def TArr.fallbackLevel : Fld := ⟨117, 116⟩
def TArr.fallbackIndex : Fld := ⟨115, 109⟩
def TArr.slotMinPermille : Fld := ⟨103, 94⟩
def TArr.slotWeight : Fld := ⟨93, 86⟩
def TArr.laneMinPermille : Fld := ⟨85, 76⟩
def TArr.laneWeight : Fld := ⟨75, 68⟩
def TArr.dispatchLimit : Fld := ⟨67, 52⟩
def TArr.dispatchAgeUs : Fld := ⟨51, 36⟩
def TArr.holdAgeMs : Fld := ⟨35, 20⟩
/-- The fields of Table ARRAY.9, most significant first. -/
def tArrFields : List Field :=
  [⟨TArr.pinLevel, .rw, 3, .any⟩,
   ⟨TArr.pinIndex, .rw, 0, .any⟩,
   ⟨TArr.fallbackEn, .rw, 0, .any⟩,
   ⟨TArr.fallbackLevel, .rw, 0, .any⟩,
   ⟨TArr.fallbackIndex, .rw, 0, .any⟩,
   ⟨⟨108, 104⟩, .reserved, 0, .any⟩,
   ⟨TArr.slotMinPermille, .rw, 0, .range 0 1000⟩,
   ⟨TArr.slotWeight, .rw, 16, .range 1 255⟩,
   ⟨TArr.laneMinPermille, .rw, 0, .range 0 1000⟩,
   ⟨TArr.laneWeight, .rw, 16, .range 1 255⟩,
   ⟨TArr.dispatchLimit, .rw, 1024, .range 16 65535⟩,
   ⟨TArr.dispatchAgeUs, .rw, 200, .range 10 50000⟩,
   ⟨TArr.holdAgeMs, .rw, 1000, .range 1 60000⟩,
   ⟨⟨19, 0⟩, .reserved, 0, .any⟩]

/-! Table ARRAY.10 — Jig status record (32 bytes) -/
def Jig.activeVersion : Fld := ⟨255, 224⟩
def Jig.stagedVersion : Fld := ⟨223, 192⟩
def Jig.activeSvn : Fld := ⟨191, 160⟩
def Jig.activeAbi : Fld := ⟨159, 144⟩
def Jig.stagedAbi : Fld := ⟨143, 128⟩
def Jig.oldContexts : Fld := ⟨127, 117⟩
def Jig.stagedValid : Fld := ⟨116, 116⟩
def Jig.lastReason : Fld := ⟨115, 112⟩
def Jig.switchBt : Fld := ⟨63, 0⟩
/-- The fields of Table ARRAY.10, most significant first. -/
def jigFields : List Field :=
  [⟨Jig.activeVersion, .ro, 0, .any⟩,
   ⟨Jig.stagedVersion, .ro, 0, .any⟩,
   ⟨Jig.activeSvn, .ro, 0, .any⟩,
   ⟨Jig.activeAbi, .ro, 0, .any⟩,
   ⟨Jig.stagedAbi, .ro, 0, .any⟩,
   ⟨Jig.oldContexts, .ro, 0, .any⟩,
   ⟨Jig.stagedValid, .ro, 0, .any⟩,
   ⟨Jig.lastReason, .ro, 0, .any⟩,
   ⟨⟨111, 64⟩, .reserved, 0, .any⟩,
   ⟨Jig.switchBt, .ro, 0, .any⟩]

/-! Table NTP.10 — Address entry record (32 bytes) -/
def Addr.family : Fld := ⟨255, 254⟩
def Addr.vlanMatch : Fld := ⟨253, 252⟩
def Addr.outerVid : Fld := ⟨251, 240⟩
def Addr.innerVid : Fld := ⟨239, 228⟩
def Addr.tenant : Fld := ⟨227, 216⟩
def Addr.portMask : Fld := ⟨215, 200⟩
def Addr.useStationMac : Fld := ⟨199, 199⟩
def Addr.answerArpNd : Fld := ⟨198, 198⟩
def Addr.entryMac : Fld := ⟨191, 144⟩
def Addr.address : Fld := ⟨127, 0⟩
/-- The fields of Table NTP.10, most significant first. -/
def addrFields : List Field :=
  [⟨Addr.family, .rw, 0, .enum [0, 1, 2]⟩,
   ⟨Addr.vlanMatch, .rw, 0, .any⟩,
   ⟨Addr.outerVid, .rw, 0, .range 0 4094⟩,
   ⟨Addr.innerVid, .rw, 0, .range 0 4094⟩,
   ⟨Addr.tenant, .rw, 0, .any⟩,
   ⟨Addr.portMask, .rw, 0, .any⟩,
   ⟨Addr.useStationMac, .rw, 1, .any⟩,
   ⟨Addr.answerArpNd, .rw, 1, .any⟩,
   ⟨⟨197, 192⟩, .reserved, 0, .any⟩,
   ⟨Addr.entryMac, .rw, 0, .any⟩,
   ⟨⟨143, 128⟩, .reserved, 0, .any⟩,
   ⟨Addr.address, .rw, 0, .any⟩]

/-! Table NTP.11a — Tenant NTP record (32 bytes) -/
def Ntp.ntpEn : Fld := ⟨255, 255⟩
def Ntp.rateEn : Fld := ⟨254, 254⟩
def Ntp.unsyncAction : Fld := ⟨253, 253⟩
def Ntp.rateAction : Fld := ⟨252, 252⟩
def Ntp.efAction : Fld := ⟨251, 250⟩
def Ntp.defaultAccess : Fld := ⟨249, 248⟩
def Ntp.refidMode : Fld := ⟨247, 247⟩
def Ntp.dscpCopy : Fld := ⟨246, 246⟩
def Ntp.dscp : Fld := ⟨245, 240⟩
def Ntp.stratum : Fld := ⟨239, 236⟩
def Ntp.stratumHoldover : Fld := ⟨235, 232⟩
def Ntp.minPoll : Fld := ⟨231, 227⟩
def Ntp.ratePoll : Fld := ⟨226, 222⟩
def Ntp.ttl : Fld := ⟨221, 214⟩
def Ntp.v4PrefixLen : Fld := ⟨213, 208⟩
def Ntp.v6PrefixLen : Fld := ⟨207, 200⟩
def Ntp.puntMask : Fld := ⟨199, 193⟩
def Ntp.tenantGen : Fld := ⟨183, 176⟩
def Ntp.refid : Fld := ⟨175, 144⟩
def Ntp.rootDelayAdd : Fld := ⟨143, 112⟩
def Ntp.rootDispAdd : Fld := ⟨111, 80⟩
def Ntp.maxDispMs : Fld := ⟨79, 64⟩
def Ntp.sustainMrps : Fld := ⟨63, 44⟩
def Ntp.burst : Fld := ⟨43, 36⟩
/-- The fields of Table NTP.11a, most significant first. -/
def ntpFields : List Field :=
  [⟨Ntp.ntpEn, .rw, 0, .any⟩,
   ⟨Ntp.rateEn, .rw, 1, .any⟩,
   ⟨Ntp.unsyncAction, .rw, 0, .any⟩,
   ⟨Ntp.rateAction, .rw, 0, .any⟩,
   ⟨Ntp.efAction, .rw, 0, .enum [0, 1, 2]⟩,
   ⟨Ntp.defaultAccess, .rw, 0, .any⟩,
   ⟨Ntp.refidMode, .rw, 0, .any⟩,
   ⟨Ntp.dscpCopy, .rw, 1, .any⟩,
   ⟨Ntp.dscp, .rw, 0, .any⟩,
   ⟨Ntp.stratum, .rw, 1, .range 1 15⟩,
   ⟨Ntp.stratumHoldover, .rw, 1, .range 1 15⟩,
   ⟨Ntp.minPoll, .rw, 4, .range 0 17⟩,
   ⟨Ntp.ratePoll, .rw, 10, .range 0 17⟩,
   ⟨Ntp.ttl, .rw, 64, .range 1 255⟩,
   ⟨Ntp.v4PrefixLen, .rw, 32, .range 16 32⟩,
   ⟨Ntp.v6PrefixLen, .rw, 64, .range 32 128⟩,
   ⟨Ntp.puntMask, .rw, 64, .any⟩,
   ⟨⟨192, 184⟩, .reserved, 0, .any⟩,
   ⟨Ntp.tenantGen, .ro, 0, .any⟩,
   ⟨Ntp.refid, .rw, 0, .any⟩,
   ⟨Ntp.rootDelayAdd, .rw, 0, .any⟩,
   ⟨Ntp.rootDispAdd, .rw, 0, .any⟩,
   ⟨Ntp.maxDispMs, .rw, 1000, .range 1 65535⟩,
   ⟨Ntp.sustainMrps, .rw, 1000, .range 1 1000000⟩,
   ⟨Ntp.burst, .rw, 8, .range 1 255⟩,
   ⟨⟨35, 0⟩, .reserved, 0, .any⟩]

/-! Table NTP.11 — Broadcast record (32 bytes) -/
def Bc.bcastEn : Fld := ⟨255, 255⟩
def Bc.bcastPoll : Fld := ⟨254, 250⟩
def Bc.bcastVn : Fld := ⟨249, 247⟩
def Bc.bcastFamily : Fld := ⟨246, 245⟩
def Bc.portMask : Fld := ⟨244, 229⟩
def Bc.phaseMs : Fld := ⟨207, 176⟩
def Bc.destAddr : Fld := ⟨127, 0⟩
/-- The fields of Table NTP.11, most significant first. -/
def bcFields : List Field :=
  [⟨Bc.bcastEn, .rw, 0, .any⟩,
   ⟨Bc.bcastPoll, .rw, 6, .range 4 17⟩,
   ⟨Bc.bcastVn, .rw, 4, .enum [3, 4]⟩,
   ⟨Bc.bcastFamily, .rw, 1, .enum [1, 2]⟩,
   ⟨Bc.portMask, .rw, 0, .any⟩,
   ⟨⟨228, 208⟩, .reserved, 0, .any⟩,
   ⟨Bc.phaseMs, .rw, 0, .any⟩,
   ⟨⟨175, 128⟩, .reserved, 0, .any⟩,
   ⟨Bc.destAddr, .rw, 4294967295, .any⟩]

/-! Table NTP.12 — Access rule record (24 bytes) -/
def Acc.enable : Fld := ⟨191, 191⟩
def Acc.family : Fld := ⟨190, 189⟩
def Acc.action : Fld := ⟨188, 187⟩
def Acc.prefixLen : Fld := ⟨186, 179⟩
def Acc.prefix_ : Fld := ⟨127, 0⟩
/-- The fields of Table NTP.12, most significant first. -/
def accFields : List Field :=
  [⟨Acc.enable, .rw, 0, .any⟩,
   ⟨Acc.family, .rw, 1, .enum [1, 2]⟩,
   ⟨Acc.action, .rw, 0, .any⟩,
   ⟨Acc.prefixLen, .rw, 0, .any⟩,
   ⟨⟨178, 128⟩, .reserved, 0, .any⟩,
   ⟨Acc.prefix_, .rw, 0, .any⟩]

/-! Table NTP.13 — Client table record (16 bytes) -/
def Ct.entriesUsed : Fld := ⟨127, 105⟩
def Ct.inserts : Fld := ⟨104, 73⟩
def Ct.evictions : Fld := ⟨72, 41⟩
def Ct.sweepFreed : Fld := ⟨40, 9⟩
/-- The fields of Table NTP.13, most significant first. -/
def ctFields : List Field :=
  [⟨Ct.entriesUsed, .ro, 0, .any⟩,
   ⟨Ct.inserts, .rc, 0, .any⟩,
   ⟨Ct.evictions, .rc, 0, .any⟩,
   ⟨Ct.sweepFreed, .rc, 0, .any⟩,
   ⟨⟨8, 0⟩, .reserved, 0, .any⟩]

/-! Table NTP.14 — Classifier record (16 bytes) -/
def Cls.unclaimedAction : Fld := ⟨127, 127⟩
def Cls.sweepMrps : Fld := ⟨126, 107⟩
/-- The fields of Table NTP.14, most significant first. -/
def clsFields : List Field :=
  [⟨Cls.unclaimedAction, .rw, 0, .any⟩,
   ⟨Cls.sweepMrps, .rw, 1000, .range 1 1000000⟩,
   ⟨⟨106, 0⟩, .reserved, 0, .any⟩]

/-! Table NTS.13 — Tenant NTS record (32 bytes) -/
def Nts.ntsEn : Fld := ⟨255, 255⟩
def Nts.algMask : Fld := ⟨254, 251⟩
def Nts.nakMode : Fld := ⟨250, 249⟩
def Nts.maxCookies : Fld := ⟨248, 245⟩
def Nts.mintVfEn : Fld := ⟨244, 244⟩
def Nts.signVfEn : Fld := ⟨243, 243⟩
def Nts.keSignEn : Fld := ⟨242, 242⟩
def Nts.keSignSlot : Fld := ⟨241, 233⟩
def Nts.poolLabel : Fld := ⟨223, 192⟩
/-- The fields of Table NTS.13, most significant first. -/
def ntsFields : List Field :=
  [⟨Nts.ntsEn, .rw, 0, .any⟩,
   ⟨Nts.algMask, .rw, 1, .any⟩,
   ⟨Nts.nakMode, .rw, 0, .enum [0, 1, 2]⟩,
   ⟨Nts.maxCookies, .rw, 8, .range 1 8⟩,
   ⟨Nts.mintVfEn, .rw, 0, .any⟩,
   ⟨Nts.signVfEn, .rw, 0, .any⟩,
   ⟨Nts.keSignEn, .rw, 0, .any⟩,
   ⟨Nts.keSignSlot, .rw, 0, .any⟩,
   ⟨⟨232, 224⟩, .reserved, 0, .any⟩,
   ⟨Nts.poolLabel, .rw, 0, .any⟩,
   ⟨⟨191, 0⟩, .reserved, 0, .any⟩]

/-! Table NTS.14 — Key ring entry (32 bytes) -/
def KeyR.keyId : Fld := ⟨255, 224⟩
def KeyR.role : Fld := ⟨223, 222⟩
def KeyR.origin : Fld := ⟨221, 221⟩
def KeyR.usableBt : Fld := ⟨191, 128⟩
def KeyR.promoteBt : Fld := ⟨127, 64⟩
def KeyR.opens : Fld := ⟨63, 32⟩
/-- The fields of Table NTS.14, most significant first. -/
def keyRFields : List Field :=
  [⟨KeyR.keyId, .ro, 0, .any⟩,
   ⟨KeyR.role, .ro, 0, .any⟩,
   ⟨KeyR.origin, .ro, 0, .any⟩,
   ⟨⟨220, 192⟩, .reserved, 0, .any⟩,
   ⟨KeyR.usableBt, .ro, 0, .any⟩,
   ⟨KeyR.promoteBt, .ro, 0, .any⟩,
   ⟨KeyR.opens, .rc, 0, .any⟩,
   ⟨⟨31, 0⟩, .reserved, 0, .any⟩]

/-! Table PTP.9 — Tenant PTP record (48 bytes) -/
def Ptp.ptpEn : Fld := ⟨383, 383⟩
def Ptp.unicastEn : Fld := ⟨382, 382⟩
def Ptp.twoStep : Fld := ⟨381, 381⟩
def Ptp.domain : Fld := ⟨380, 373⟩
def Ptp.priority2 : Fld := ⟨372, 365⟩
def Ptp.classLocked : Fld := ⟨364, 357⟩
def Ptp.classHoldover : Fld := ⟨356, 349⟩
def Ptp.classOut : Fld := ⟨348, 341⟩
def Ptp.classFree : Fld := ⟨340, 333⟩
def Ptp.minLogSync : Fld := ⟨332, 329⟩
def Ptp.minLogAnnounce : Fld := ⟨328, 325⟩
def Ptp.minLogDelay : Fld := ⟨324, 321⟩
def Ptp.ptpDscp : Fld := ⟨320, 315⟩
def Ptp.maxClients : Fld := ⟨314, 298⟩
def Ptp.grantMaxS : Fld := ⟨297, 288⟩
def Ptp.oslvLocked : Fld := ⟨287, 272⟩
def Ptp.holdoverSpecNs : Fld := ⟨271, 240⟩
def Ptp.clockIdentity : Fld := ⟨191, 128⟩
/-- The fields of Table PTP.9, most significant first. -/
def ptpFields : List Field :=
  [⟨Ptp.ptpEn, .rw, 0, .any⟩,
   ⟨Ptp.unicastEn, .rw, 0, .any⟩,
   ⟨Ptp.twoStep, .rw, 0, .any⟩,
   ⟨Ptp.domain, .rw, 44, .range 44 63⟩,
   ⟨Ptp.priority2, .rw, 128, .any⟩,
   ⟨Ptp.classLocked, .rw, 6, .range 6 255⟩,
   ⟨Ptp.classHoldover, .rw, 7, .range 6 255⟩,
   ⟨Ptp.classOut, .rw, 140, .range 6 255⟩,
   ⟨Ptp.classFree, .rw, 248, .range 6 255⟩,
   ⟨Ptp.minLogSync, .rw, 9, .srange (-7) 0⟩,
   ⟨Ptp.minLogAnnounce, .rw, 13, .srange (-3) 0⟩,
   ⟨Ptp.minLogDelay, .rw, 9, .srange (-7) 0⟩,
   ⟨Ptp.ptpDscp, .rw, 46, .any⟩,
   ⟨Ptp.maxClients, .rw, 65536, .range 0 65536⟩,
   ⟨Ptp.grantMaxS, .rw, 300, .range 10 1000⟩,
   ⟨Ptp.oslvLocked, .rw, 20061, .any⟩,
   ⟨Ptp.holdoverSpecNs, .rw, 1500, .range 1 4294967295⟩,
   ⟨⟨239, 192⟩, .reserved, 0, .any⟩,
   ⟨Ptp.clockIdentity, .rw, 0, .any⟩,
   ⟨⟨127, 0⟩, .reserved, 0, .any⟩]

/-! Table PTP.11 — PTP port record (32 bytes) -/
def PPort.role : Fld := ⟨255, 254⟩
def PPort.profile : Fld := ⟨253, 253⟩
def PPort.transport : Fld := ⟨252, 251⟩
def PPort.l2Dest : Fld := ⟨250, 250⟩
def PPort.twoStep : Fld := ⟨249, 249⟩
def PPort.negotiate : Fld := ⟨248, 248⟩
def PPort.domain : Fld := ⟨247, 240⟩
def PPort.tenant : Fld := ⟨239, 228⟩
def PPort.logSync : Fld := ⟨227, 224⟩
def PPort.logAnnounce : Fld := ⟨223, 220⟩
def PPort.logDelay : Fld := ⟨219, 216⟩
def PPort.vlanEn : Fld := ⟨215, 215⟩
def PPort.vlanPcp : Fld := ⟨214, 212⟩
def PPort.vlanVid : Fld := ⟨211, 200⟩
def PPort.clientEntry : Fld := ⟨199, 183⟩
def PPort.masterAddr : Fld := ⟨127, 0⟩
/-- The fields of Table PTP.11, most significant first. -/
def pPortFields : List Field :=
  [⟨PPort.role, .rw, 0, .any⟩,
   ⟨PPort.profile, .rw, 0, .any⟩,
   ⟨PPort.transport, .rw, 0, .enum [0, 1, 2]⟩,
   ⟨PPort.l2Dest, .rw, 0, .any⟩,
   ⟨PPort.twoStep, .rw, 0, .any⟩,
   ⟨PPort.negotiate, .rw, 0, .any⟩,
   ⟨PPort.domain, .rw, 0, .any⟩,
   ⟨PPort.tenant, .rw, 0, .any⟩,
   ⟨PPort.logSync, .rw, 0, .any⟩,
   ⟨PPort.logAnnounce, .rw, 1, .any⟩,
   ⟨PPort.logDelay, .rw, 0, .any⟩,
   ⟨PPort.vlanEn, .rw, 0, .any⟩,
   ⟨PPort.vlanPcp, .rw, 0, .any⟩,
   ⟨PPort.vlanVid, .rw, 0, .any⟩,
   ⟨PPort.clientEntry, .rw, 0, .any⟩,
   ⟨⟨182, 128⟩, .reserved, 0, .any⟩,
   ⟨PPort.masterAddr, .rw, 0, .any⟩]

/-! Table PTP.12 — Client status record (32 bytes) -/
def PCli.cstate : Fld := ⟨255, 253⟩
def PCli.masterClass : Fld := ⟨252, 245⟩
def PCli.masterPortId : Fld := ⟨239, 160⟩
def PCli.lastOffset : Fld := ⟨159, 96⟩
def PCli.meanPath : Fld := ⟨95, 64⟩
def PCli.exchanges : Fld := ⟨63, 48⟩
def PCli.discarded : Fld := ⟨47, 32⟩
/-- The fields of Table PTP.12, most significant first. -/
def pCliFields : List Field :=
  [⟨PCli.cstate, .ro, 0, .any⟩,
   ⟨PCli.masterClass, .ro, 0, .any⟩,
   ⟨⟨244, 240⟩, .reserved, 0, .any⟩,
   ⟨PCli.masterPortId, .ro, 0, .any⟩,
   ⟨PCli.lastOffset, .ro, 0, .any⟩,
   ⟨PCli.meanPath, .ro, 0, .any⟩,
   ⟨PCli.exchanges, .rc, 0, .any⟩,
   ⟨PCli.discarded, .rc, 0, .any⟩,
   ⟨⟨31, 0⟩, .reserved, 0, .any⟩]

/-! Table DISC.10 — Reference record (48 bytes) -/
def Ref.enable : Fld := ⟨383, 383⟩
def Ref.kind : Fld := ⟨382, 380⟩
def Ref.qualS : Fld := ⟨367, 352⟩
def Ref.disqHoldS : Fld := ⟨351, 336⟩
def Ref.lossCount : Fld := ⟨335, 328⟩
def Ref.maxClass : Fld := ⟨327, 320⟩
def Ref.minSats : Fld := ⟨319, 316⟩
def Ref.nominal : Fld := ⟨315, 314⟩
def Ref.delayNs : Fld := ⟨303, 272⟩
def Ref.ppsOffsetNs : Fld := ⟨271, 240⟩
def Ref.windowNs : Fld := ⟨239, 208⟩
def Ref.phaseWindowNs : Fld := ⟨207, 176⟩
def Ref.jitterNs : Fld := ⟨175, 160⟩
def Ref.freqWindowPpb : Fld := ⟨159, 144⟩
def Ref.refDispNs : Fld := ⟨143, 112⟩
def Ref.refRootDelayNs : Fld := ⟨111, 80⟩
def Ref.missed : Fld := ⟨79, 64⟩
def Ref.extra : Fld := ⟨63, 48⟩
def Ref.disqEvents : Fld := ⟨47, 32⟩
/-- The fields of Table DISC.10, most significant first. -/
def refFields : List Field :=
  [⟨Ref.enable, .rw, 0, .any⟩,
   ⟨Ref.kind, .ro, 0, .any⟩,
   ⟨⟨379, 368⟩, .reserved, 0, .any⟩,
   ⟨Ref.qualS, .rw, 0, .range 1 65535⟩,
   ⟨Ref.disqHoldS, .rw, 60, .range 1 65535⟩,
   ⟨Ref.lossCount, .rw, 3, .range 1 60⟩,
   ⟨Ref.maxClass, .rw, 7, .range 6 255⟩,
   ⟨Ref.minSats, .rw, 4, .range 4 12⟩,
   ⟨Ref.nominal, .rw, 2, .enum [0, 1, 2]⟩,
   ⟨⟨313, 304⟩, .reserved, 0, .any⟩,
   ⟨Ref.delayNs, .rw, 0, .srange (-1000000) 1000000⟩,
   ⟨Ref.ppsOffsetNs, .rw, 0, .srange (-499999999) 499999999⟩,
   ⟨Ref.windowNs, .rw, 100000, .range 1000 1000000⟩,
   ⟨Ref.phaseWindowNs, .rw, 10000, .range 10 1000000000⟩,
   ⟨Ref.jitterNs, .rw, 0, .range 1 65535⟩,
   ⟨Ref.freqWindowPpb, .rw, 1000, .range 1 65535⟩,
   ⟨Ref.refDispNs, .rw, 0, .range 0 1000000000⟩,
   ⟨Ref.refRootDelayNs, .rw, 0, .range 0 1000000000⟩,
   ⟨Ref.missed, .rc, 0, .any⟩,
   ⟨Ref.extra, .rc, 0, .any⟩,
   ⟨Ref.disqEvents, .rc, 0, .any⟩,
   ⟨⟨31, 0⟩, .reserved, 0, .any⟩]

/-! Table DISC.11 — Reference status record (32 bytes) -/
def RefSt.state : Fld := ⟨255, 254⟩
def RefSt.reason : Fld := ⟨253, 248⟩
def RefSt.forced : Fld := ⟨247, 247⟩
def RefSt.phaseValid : Fld := ⟨246, 246⟩
def RefSt.quality : Fld := ⟨239, 232⟩
def RefSt.errH : Fld := ⟨223, 160⟩
def RefSt.rmsPs : Fld := ⟨159, 128⟩
def RefSt.freqPpt : Fld := ⟨127, 96⟩
def RefSt.stateAgeS : Fld := ⟨95, 64⟩
def RefSt.measBt : Fld := ⟨63, 0⟩
/-- The fields of Table DISC.11, most significant first. -/
def refStFields : List Field :=
  [⟨RefSt.state, .ro, 0, .any⟩,
   ⟨RefSt.reason, .ro, 1, .any⟩,
   ⟨RefSt.forced, .ro, 0, .any⟩,
   ⟨RefSt.phaseValid, .ro, 0, .any⟩,
   ⟨⟨245, 240⟩, .reserved, 0, .any⟩,
   ⟨RefSt.quality, .ro, 0, .any⟩,
   ⟨⟨231, 224⟩, .reserved, 0, .any⟩,
   ⟨RefSt.errH, .ro, 0, .any⟩,
   ⟨RefSt.rmsPs, .ro, 0, .any⟩,
   ⟨RefSt.freqPpt, .ro, 0, .any⟩,
   ⟨RefSt.stateAgeS, .ro, 0, .any⟩,
   ⟨RefSt.measBt, .ro, 0, .any⟩]

/-! Table DISC.12 — Servo record (48 bytes) -/
def Srv.servoEn : Fld := ⟨383, 383⟩
def Srv.oscType : Fld := ⟨382, 381⟩
def Srv.revertive : Fld := ⟨380, 380⟩
def Srv.autoSet : Fld := ⟨379, 379⟩
def Srv.seedMode : Fld := ⟨378, 377⟩
def Srv.rank : Fld := ⟨367, 336⟩
def Srv.wtrS : Fld := ⟨335, 320⟩
def Srv.tauS : Fld := ⟨319, 304⟩
def Srv.acqTauS : Fld := ⟨303, 288⟩
def Srv.lockNs : Fld := ⟨287, 272⟩
def Srv.lockS : Fld := ⟨271, 256⟩
def Srv.unlockNs : Fld := ⟨255, 240⟩
def Srv.holdAvgS : Fld := ⟨239, 220⟩
def Srv.holdGuardS : Fld := ⟨219, 204⟩
def Srv.holdoverMaxS : Fld := ⟨203, 172⟩
def Srv.phaseSlewPpb : Fld := ⟨171, 156⟩
def Srv.seedVerifyS : Fld := ⟨155, 140⟩
def Srv.seedRetryS : Fld := ⟨139, 124⟩
def Srv.seedClearNs : Fld := ⟨123, 92⟩
/-- The fields of Table DISC.12, most significant first. -/
def srvFields : List Field :=
  [⟨Srv.servoEn, .rw, 1, .any⟩,
   ⟨Srv.oscType, .rw, 0, .any⟩,
   ⟨Srv.revertive, .rw, 1, .any⟩,
   ⟨Srv.autoSet, .rw, 1, .any⟩,
   ⟨Srv.seedMode, .rw, 1, .enum [0, 1, 2]⟩,
   ⟨⟨376, 368⟩, .reserved, 0, .any⟩,
   ⟨⟨367, 364⟩, .rw, 15, .range 0 9⟩,
   ⟨⟨363, 360⟩, .rw, 15, .range 0 9⟩,
   ⟨⟨359, 356⟩, .rw, 15, .range 0 9⟩,
   ⟨⟨355, 352⟩, .rw, 15, .range 0 9⟩,
   ⟨⟨351, 348⟩, .rw, 15, .range 0 9⟩,
   ⟨⟨347, 344⟩, .rw, 15, .range 0 9⟩,
   ⟨⟨343, 340⟩, .rw, 15, .range 0 9⟩,
   ⟨⟨339, 336⟩, .rw, 15, .range 0 9⟩,
   ⟨Srv.wtrS, .rw, 300, .any⟩,
   ⟨Srv.tauS, .rw, 100, .range 10 65535⟩,
   ⟨Srv.acqTauS, .rw, 10, .range 1 65535⟩,
   ⟨Srv.lockNs, .rw, 100, .range 1 65535⟩,
   ⟨Srv.lockS, .rw, 60, .range 1 65535⟩,
   ⟨Srv.unlockNs, .rw, 1000, .range 1 65535⟩,
   ⟨Srv.holdAvgS, .rw, 600, .range 60 1000000⟩,
   ⟨Srv.holdGuardS, .rw, 10, .any⟩,
   ⟨Srv.holdoverMaxS, .rw, 86400, .any⟩,
   ⟨Srv.phaseSlewPpb, .rw, 1000, .range 1 50000⟩,
   ⟨Srv.seedVerifyS, .rw, 10, .range 1 3600⟩,
   ⟨Srv.seedRetryS, .rw, 60, .range 10 65535⟩,
   ⟨Srv.seedClearNs, .rw, 1000000, .range 1000 1000000000⟩,
   ⟨⟨91, 0⟩, .reserved, 0, .any⟩]

/-! Table DISC.13 — Servo status record (48 bytes) -/
def SrvSt.servoState : Fld := ⟨383, 382⟩
def SrvSt.activeRef : Fld := ⟨381, 378⟩
def SrvSt.activeKind : Fld := ⟨377, 375⟩
def SrvSt.holdValid : Fld := ⟨374, 374⟩
def SrvSt.seedOk : Fld := ⟨373, 373⟩
def SrvSt.seedState : Fld := ⟨372, 370⟩
def SrvSt.dispBaseNs : Fld := ⟨367, 336⟩
def SrvSt.rootDelayNs : Fld := ⟨335, 304⟩
def SrvSt.lastUpdate : Fld := ⟨303, 208⟩
def SrvSt.phaseErr : Fld := ⟨207, 144⟩
def SrvSt.freqPpt : Fld := ⟨143, 112⟩
def SrvSt.stateAgeS : Fld := ⟨111, 80⟩
def SrvSt.seedAborts : Fld := ⟨79, 64⟩
def SrvSt.refSwitches : Fld := ⟨63, 48⟩
def SrvSt.unlocks : Fld := ⟨47, 32⟩
/-- The fields of Table DISC.13, most significant first. -/
def srvStFields : List Field :=
  [⟨SrvSt.servoState, .ro, 0, .any⟩,
   ⟨SrvSt.activeRef, .ro, 15, .any⟩,
   ⟨SrvSt.activeKind, .ro, 7, .any⟩,
   ⟨SrvSt.holdValid, .ro, 0, .any⟩,
   ⟨SrvSt.seedOk, .ro, 0, .any⟩,
   ⟨SrvSt.seedState, .ro, 0, .any⟩,
   ⟨⟨369, 368⟩, .reserved, 0, .any⟩,
   ⟨SrvSt.dispBaseNs, .ro, 4294967295, .any⟩,
   ⟨SrvSt.rootDelayNs, .ro, 0, .any⟩,
   ⟨SrvSt.lastUpdate, .ro, 0, .any⟩,
   ⟨SrvSt.phaseErr, .ro, 0, .any⟩,
   ⟨SrvSt.freqPpt, .ro, 0, .any⟩,
   ⟨SrvSt.stateAgeS, .ro, 0, .any⟩,
   ⟨SrvSt.seedAborts, .rc, 0, .any⟩,
   ⟨SrvSt.refSwitches, .rc, 0, .any⟩,
   ⟨SrvSt.unlocks, .rc, 0, .any⟩,
   ⟨⟨31, 0⟩, .reserved, 0, .any⟩]

/-! Table DISC.14 — Selection record (32 bytes) -/
def Sel.selectMode : Fld := ⟨255, 255⟩
def Sel.preferred : Fld := ⟨254, 254⟩
def Sel.autoRevert : Fld := ⟨253, 253⟩
def Sel.switchMaxNs : Fld := ⟨239, 208⟩
def Sel.switchHoldS : Fld := ⟨207, 192⟩
def Sel.revertS : Fld := ⟨191, 176⟩
def Sel.divergeNs : Fld := ⟨175, 144⟩
def Sel.houseNs : Fld := ⟨143, 112⟩
def Sel.xrefNs : Fld := ⟨111, 80⟩
def Sel.autoSwitches : Fld := ⟨79, 64⟩
/-- The fields of Table DISC.14, most significant first. -/
def selFields : List Field :=
  [⟨Sel.selectMode, .rw, 1, .any⟩,
   ⟨Sel.preferred, .rw, 0, .any⟩,
   ⟨Sel.autoRevert, .rw, 1, .any⟩,
   ⟨⟨252, 240⟩, .reserved, 0, .any⟩,
   ⟨Sel.switchMaxNs, .rw, 1000, .range 10 1000000000⟩,
   ⟨Sel.switchHoldS, .rw, 10, .any⟩,
   ⟨Sel.revertS, .rw, 600, .any⟩,
   ⟨Sel.divergeNs, .rw, 500, .range 10 1000000000⟩,
   ⟨Sel.houseNs, .rw, 10000, .range 10 1000000000⟩,
   ⟨Sel.xrefNs, .rw, 1000, .range 10 1000000000⟩,
   ⟨Sel.autoSwitches, .rc, 0, .any⟩,
   ⟨⟨63, 0⟩, .reserved, 0, .any⟩]

/-! Table GNSS.6 — GNSS device record (32 bytes) -/
def GDev.epochRate : Fld := ⟨255, 254⟩
def GDev.elevMaskDeg : Fld := ⟨253, 247⟩
def GDev.cn0MaskDbhz : Fld := ⟨246, 239⟩
def GDev.raimNs : Fld := ⟨238, 223⟩
def GDev.wnBase : Fld := ⟨222, 211⟩
def GDev.acqNc : Fld := ⟨210, 206⟩
def GDev.acqThreshDb : Fld := ⟨205, 200⟩
/-- The fields of Table GNSS.6, most significant first. -/
def gDevFields : List Field :=
  [⟨GDev.epochRate, .rw, 0, .any⟩,
   ⟨GDev.elevMaskDeg, .rw, 10, .range 0 60⟩,
   ⟨GDev.cn0MaskDbhz, .rw, 30, .range 20 50⟩,
   ⟨GDev.raimNs, .rw, 200, .range 10 65535⟩,
   ⟨GDev.wnBase, .rw, 2300, .range 2048 4095⟩,
   ⟨GDev.acqNc, .rw, 4, .range 1 16⟩,
   ⟨GDev.acqThreshDb, .rw, 12, .range 6 30⟩,
   ⟨⟨199, 0⟩, .reserved, 0, .any⟩]

/-! Table GNSS.7 — Antenna record (32 bytes) -/
def GAnt.enable : Fld := ⟨255, 255⟩
def GAnt.ifInvert : Fld := ⟨254, 254⟩
def GAnt.blankEn : Fld := ⟨253, 253⟩
def GAnt.notchEn : Fld := ⟨252, 252⟩
def GAnt.ifHz : Fld := ⟨251, 224⟩
def GAnt.blankThreshDb : Fld := ⟨223, 216⟩
def GAnt.blankHoldNs : Fld := ⟨215, 202⟩
def GAnt.notchThreshDb : Fld := ⟨201, 194⟩
def GAnt.pllBwHz : Fld := ⟨193, 186⟩
def GAnt.dllBwChz : Fld := ⟨185, 178⟩
def GAnt.tapSpacing : Fld := ⟨177, 174⟩
def GAnt.dllTap : Fld := ⟨173, 171⟩
def GAnt.cn0LossDbhz : Fld := ⟨170, 163⟩
def GAnt.cn0LossMs : Fld := ⟨162, 151⟩
/-- The fields of Table GNSS.7, most significant first. -/
def gAntFields : List Field :=
  [⟨GAnt.enable, .rw, 0, .any⟩,
   ⟨GAnt.ifInvert, .rw, 0, .any⟩,
   ⟨GAnt.blankEn, .rw, 1, .any⟩,
   ⟨GAnt.notchEn, .rw, 1, .any⟩,
   ⟨GAnt.ifHz, .rw, 4092000, .range 1000000 12000000⟩,
   ⟨GAnt.blankThreshDb, .rw, 12, .range 6 30⟩,
   ⟨GAnt.blankHoldNs, .rw, 200, .range 0 10000⟩,
   ⟨GAnt.notchThreshDb, .rw, 15, .range 6 40⟩,
   ⟨GAnt.pllBwHz, .rw, 15, .range 5 50⟩,
   ⟨GAnt.dllBwChz, .rw, 50, .range 5 200⟩,
   ⟨GAnt.tapSpacing, .rw, 4, .range 1 8⟩,
   ⟨GAnt.dllTap, .rw, 2, .range 1 4⟩,
   ⟨GAnt.cn0LossDbhz, .rw, 25, .range 15 40⟩,
   ⟨GAnt.cn0LossMs, .rw, 2000, .range 100 4000⟩,
   ⟨⟨150, 0⟩, .reserved, 0, .any⟩]

/-! Table GNSS.8 — Antenna status record (32 bytes) -/
def GAntSt.agcGainCdb : Fld := ⟨255, 240⟩
def GAntSt.clipPpm : Fld := ⟨239, 208⟩
def GAntSt.blankPpm : Fld := ⟨207, 176⟩
def GAntSt.notchActive : Fld := ⟨175, 172⟩
def GAntSt.notchHz : Fld := ⟨159, 64⟩
def GAntSt.chTracking : Fld := ⟨63, 56⟩
def GAntSt.chFrameSync : Fld := ⟨55, 48⟩
def GAntSt.searching : Fld := ⟨47, 47⟩
/-- The fields of Table GNSS.8, most significant first. -/
def gAntStFields : List Field :=
  [⟨GAntSt.agcGainCdb, .ro, 0, .any⟩,
   ⟨GAntSt.clipPpm, .ro, 0, .any⟩,
   ⟨GAntSt.blankPpm, .ro, 0, .any⟩,
   ⟨GAntSt.notchActive, .ro, 0, .any⟩,
   ⟨⟨171, 160⟩, .reserved, 0, .any⟩,
   ⟨⟨159, 136⟩, .ro, 0, .any⟩,
   ⟨⟨135, 112⟩, .ro, 0, .any⟩,
   ⟨⟨111, 88⟩, .ro, 0, .any⟩,
   ⟨⟨87, 64⟩, .ro, 0, .any⟩,
   ⟨GAntSt.chTracking, .ro, 0, .any⟩,
   ⟨GAntSt.chFrameSync, .ro, 0, .any⟩,
   ⟨GAntSt.searching, .ro, 0, .any⟩,
   ⟨⟨46, 0⟩, .reserved, 0, .any⟩]

/-! Table GNSS.9 — Channel status entry (16 bytes) -/
def GCh.prn : Fld := ⟨127, 122⟩
def GCh.cstate : Fld := ⟨121, 119⟩
def GCh.codeLock : Fld := ⟨118, 118⟩
def GCh.carrierLock : Fld := ⟨117, 117⟩
def GCh.bitSync : Fld := ⟨116, 116⟩
def GCh.frameSync : Fld := ⟨115, 115⟩
def GCh.excluded : Fld := ⟨114, 114⟩
def GCh.unhealthy : Fld := ⟨113, 113⟩
def GCh.ephValid : Fld := ⟨112, 112⟩
def GCh.cn0Cdbhz : Fld := ⟨111, 96⟩
def GCh.dopplerMillihz : Fld := ⟨95, 64⟩
def GCh.lockMs : Fld := ⟨63, 32⟩
def GCh.parityErr : Fld := ⟨31, 16⟩
def GCh.falsePreamble : Fld := ⟨15, 8⟩
/-- The fields of Table GNSS.9, most significant first. -/
def gChFields : List Field :=
  [⟨GCh.prn, .ro, 0, .any⟩,
   ⟨GCh.cstate, .ro, 0, .any⟩,
   ⟨GCh.codeLock, .ro, 0, .any⟩,
   ⟨GCh.carrierLock, .ro, 0, .any⟩,
   ⟨GCh.bitSync, .ro, 0, .any⟩,
   ⟨GCh.frameSync, .ro, 0, .any⟩,
   ⟨GCh.excluded, .ro, 0, .any⟩,
   ⟨GCh.unhealthy, .ro, 0, .any⟩,
   ⟨GCh.ephValid, .ro, 0, .any⟩,
   ⟨GCh.cn0Cdbhz, .ro, 0, .any⟩,
   ⟨GCh.dopplerMillihz, .ro, 0, .any⟩,
   ⟨GCh.lockMs, .ro, 0, .any⟩,
   ⟨GCh.parityErr, .rc, 0, .any⟩,
   ⟨GCh.falsePreamble, .rc, 0, .any⟩,
   ⟨⟨7, 0⟩, .reserved, 0, .any⟩]

/-! Table GNSS.10 — Position record (48 bytes) -/
def GPos.posMode : Fld := ⟨383, 382⟩
def GPos.posState : Fld := ⟨381, 380⟩
def GPos.surveyS : Fld := ⟨379, 360⟩
def GPos.surveySigmaMm : Fld := ⟨359, 344⟩
def GPos.surveyDoneS : Fld := ⟨343, 320⟩
def GPos.xMm : Fld := ⟨319, 256⟩
def GPos.yMm : Fld := ⟨255, 192⟩
def GPos.zMm : Fld := ⟨191, 128⟩
def GPos.sigmaMm : Fld := ⟨127, 112⟩
def GPos.heldBt : Fld := ⟨63, 0⟩
/-- The fields of Table GNSS.10, most significant first. -/
def gPosFields : List Field :=
  [⟨GPos.posMode, .rw, 0, .enum [0, 1]⟩,
   ⟨GPos.posState, .ro, 0, .any⟩,
   ⟨GPos.surveyS, .rw, 3600, .range 600 604800⟩,
   ⟨GPos.surveySigmaMm, .rw, 2000, .range 100 65535⟩,
   ⟨GPos.surveyDoneS, .ro, 0, .any⟩,
   ⟨GPos.xMm, .rw, 0, .any⟩,
   ⟨GPos.yMm, .rw, 0, .any⟩,
   ⟨GPos.zMm, .rw, 0, .any⟩,
   ⟨GPos.sigmaMm, .ro, 0, .any⟩,
   ⟨⟨111, 64⟩, .reserved, 0, .any⟩,
   ⟨GPos.heldBt, .ro, 0, .any⟩]

/-! Table GNSS.11 — Baseline record (48 bytes) -/
def GBl.spoofEn : Fld := ⟨383, 383⟩
def GBl.blMode : Fld := ⟨382, 381⟩
def GBl.blState : Fld := ⟨380, 379⟩
def GBl.spoofState : Fld := ⟨378, 377⟩
def GBl.blSurveyS : Fld := ⟨376, 360⟩
def GBl.spoofRmsMcyc : Fld := ⟨359, 352⟩
def GBl.spoofTripS : Fld := ⟨351, 344⟩
def GBl.spoofClearS : Fld := ⟨343, 336⟩
def GBl.commonSats : Fld := ⟨335, 328⟩
def GBl.residRmsMcyc : Fld := ⟨327, 312⟩
def GBl.bxMm : Fld := ⟨311, 280⟩
def GBl.byMm : Fld := ⟨279, 248⟩
def GBl.bzMm : Fld := ⟨247, 216⟩
def GBl.lineBiasMcyc : Fld := ⟨215, 200⟩
def GBl.suspectEvents : Fld := ⟨199, 184⟩
def GBl.blHeldBt : Fld := ⟨63, 0⟩
/-- The fields of Table GNSS.11, most significant first. -/
def gBlFields : List Field :=
  [⟨GBl.spoofEn, .rw, 1, .any⟩,
   ⟨GBl.blMode, .rw, 0, .enum [0, 1]⟩,
   ⟨GBl.blState, .ro, 0, .any⟩,
   ⟨GBl.spoofState, .ro, 0, .any⟩,
   ⟨GBl.blSurveyS, .rw, 14400, .range 3600 86400⟩,
   ⟨GBl.spoofRmsMcyc, .rw, 150, .range 50 250⟩,
   ⟨GBl.spoofTripS, .rw, 5, .range 1 255⟩,
   ⟨GBl.spoofClearS, .rw, 60, .range 1 255⟩,
   ⟨GBl.commonSats, .ro, 0, .any⟩,
   ⟨GBl.residRmsMcyc, .ro, 0, .any⟩,
   ⟨GBl.bxMm, .rw, 0, .any⟩,
   ⟨GBl.byMm, .rw, 0, .any⟩,
   ⟨GBl.bzMm, .rw, 0, .any⟩,
   ⟨GBl.lineBiasMcyc, .ro, 0, .any⟩,
   ⟨GBl.suspectEvents, .rc, 0, .any⟩,
   ⟨⟨183, 64⟩, .reserved, 0, .any⟩,
   ⟨GBl.blHeldBt, .ro, 0, .any⟩]

/-! Table GNSS.12 — Time solution record (48 bytes) -/
def GSol.gErr : Fld := ⟨383, 288⟩
def GSol.epochBt : Fld := ⟨287, 224⟩
def GSol.residRmsPs : Fld := ⟨223, 192⟩
def GSol.satsUsed : Fld := ⟨191, 184⟩
def GSol.satsExcluded : Fld := ⟨183, 176⟩
def GSol.satsTracked : Fld := ⟨175, 168⟩
def GSol.tdopX100 : Fld := ⟨167, 152⟩
def GSol.fix : Fld := ⟨151, 150⟩
def GSol.week : Fld := ⟨149, 138⟩
def GSol.towMs : Fld := ⟨137, 108⟩
/-- The fields of Table GNSS.12, most significant first. -/
def gSolFields : List Field :=
  [⟨GSol.gErr, .ro, 0, .any⟩,
   ⟨GSol.epochBt, .ro, 0, .any⟩,
   ⟨GSol.residRmsPs, .ro, 0, .any⟩,
   ⟨GSol.satsUsed, .ro, 0, .any⟩,
   ⟨GSol.satsExcluded, .ro, 0, .any⟩,
   ⟨GSol.satsTracked, .ro, 0, .any⟩,
   ⟨GSol.tdopX100, .ro, 0, .any⟩,
   ⟨GSol.fix, .ro, 0, .any⟩,
   ⟨GSol.week, .ro, 0, .any⟩,
   ⟨GSol.towMs, .ro, 0, .any⟩,
   ⟨⟨107, 0⟩, .reserved, 0, .any⟩]

/-! Table TIU.7 — Input record (16 bytes) -/
def TIn.mode : Fld := ⟨127, 126⟩
def TIn.edge : Fld := ⟨125, 124⟩
def TIn.toFifo : Fld := ⟨123, 123⟩
def TIn.stopInput : Fld := ⟨122, 120⟩
def TIn.startPolicy : Fld := ⟨119, 119⟩
def TIn.minPulseNs : Fld := ⟨111, 88⟩
def TIn.holdoffNs : Fld := ⟨87, 58⟩
def TIn.gateMs : Fld := ⟨57, 44⟩
def TIn.gapNs : Fld := ⟨43, 28⟩
def TIn.inTrimPs : Fld := ⟨27, 12⟩
/-- The fields of Table TIU.7, most significant first. -/
def tInFields : List Field :=
  [⟨TIn.mode, .rw, 0, .any⟩,
   ⟨TIn.edge, .rw, 0, .enum [0, 1, 2]⟩,
   ⟨TIn.toFifo, .rw, 1, .any⟩,
   ⟨TIn.stopInput, .rw, 0, .any⟩,
   ⟨TIn.startPolicy, .rw, 0, .any⟩,
   ⟨⟨118, 112⟩, .reserved, 0, .any⟩,
   ⟨TIn.minPulseNs, .rw, 5, .range 0 10000000⟩,
   ⟨TIn.holdoffNs, .rw, 100, .range 7 1000000000⟩,
   ⟨TIn.gateMs, .rw, 1000, .range 10 10000⟩,
   ⟨TIn.gapNs, .rw, 1000, .zeroOr 10 65535⟩,
   ⟨TIn.inTrimPs, .rw, 0, .srange (-10000) 10000⟩,
   ⟨⟨11, 0⟩, .reserved, 0, .any⟩]

/-! Table TIU.8 — Input status record (32 bytes) -/
def TInSt.calState : Fld := ⟨255, 254⟩
def TInSt.level : Fld := ⟨253, 253⟩
def TInSt.waitingStop : Fld := ⟨252, 252⟩
def TInSt.dllLock : Fld := ⟨251, 251⟩
def TInSt.calAgeMs : Fld := ⟨239, 224⟩
def TInSt.lastEdgeBt : Fld := ⟨191, 128⟩
def TInSt.edgesAccepted : Fld := ⟨127, 96⟩
def TInSt.glitches : Fld := ⟨95, 80⟩
def TInSt.holdoffRejects : Fld := ⟨79, 64⟩
def TInSt.startExtra : Fld := ⟨63, 48⟩
def TInSt.overflows : Fld := ⟨47, 32⟩
def TInSt.gatesInvalid : Fld := ⟨31, 16⟩
/-- The fields of Table TIU.8, most significant first. -/
def tInStFields : List Field :=
  [⟨TInSt.calState, .ro, 0, .any⟩,
   ⟨TInSt.level, .ro, 0, .any⟩,
   ⟨TInSt.waitingStop, .ro, 0, .any⟩,
   ⟨TInSt.dllLock, .ro, 0, .any⟩,
   ⟨⟨250, 240⟩, .reserved, 0, .any⟩,
   ⟨TInSt.calAgeMs, .ro, 0, .any⟩,
   ⟨⟨223, 192⟩, .reserved, 0, .any⟩,
   ⟨TInSt.lastEdgeBt, .ro, 0, .any⟩,
   ⟨TInSt.edgesAccepted, .rc, 0, .any⟩,
   ⟨TInSt.glitches, .rc, 0, .any⟩,
   ⟨TInSt.holdoffRejects, .rc, 0, .any⟩,
   ⟨TInSt.startExtra, .rc, 0, .any⟩,
   ⟨TInSt.overflows, .rc, 0, .any⟩,
   ⟨TInSt.gatesInvalid, .rc, 0, .any⟩,
   ⟨⟨15, 0⟩, .reserved, 0, .any⟩]

/-! Table TIU.9 — TIU device record (16 bytes) -/
def TDev.ringEn : Fld := ⟨127, 127⟩
def TDev.ringEndpoint : Fld := ⟨126, 125⟩
def TDev.ringIndex : Fld := ⟨124, 117⟩
def TDev.fifoLevel : Fld := ⟨116, 104⟩
def TDev.fifoDrops : Fld := ⟨95, 64⟩
def TDev.ringDrops : Fld := ⟨63, 32⟩
/-- The fields of Table TIU.9, most significant first. -/
def tDevFields : List Field :=
  [⟨TDev.ringEn, .rw, 0, .any⟩,
   ⟨TDev.ringEndpoint, .rw, 0, .any⟩,
   ⟨TDev.ringIndex, .rw, 0, .any⟩,
   ⟨TDev.fifoLevel, .ro, 0, .any⟩,
   ⟨⟨103, 96⟩, .reserved, 0, .any⟩,
   ⟨TDev.fifoDrops, .rc, 0, .any⟩,
   ⟨TDev.ringDrops, .rc, 0, .any⟩,
   ⟨⟨31, 0⟩, .reserved, 0, .any⟩]

/-! Table TIU.10 — PPS output record (16 bytes) -/
def Pps.enable : Fld := ⟨127, 127⟩
def Pps.polarity : Fld := ⟨126, 126⟩
def Pps.squelch : Fld := ⟨125, 124⟩
def Pps.squelched : Fld := ⟨123, 123⟩
def Pps.periodMs : Fld := ⟨122, 107⟩
def Pps.pulseUs : Fld := ⟨106, 82⟩
def Pps.offsetNs : Fld := ⟨81, 50⟩
def Pps.offsetFinePs : Fld := ⟨49, 40⟩
def Pps.outTrimPs : Fld := ⟨39, 24⟩
def Pps.stepEvents : Fld := ⟨23, 8⟩
/-- The fields of Table TIU.10, most significant first. -/
def ppsFields : List Field :=
  [⟨Pps.enable, .rw, 0, .any⟩,
   ⟨Pps.polarity, .rw, 0, .any⟩,
   ⟨Pps.squelch, .rw, 1, .enum [0, 1, 2]⟩,
   ⟨Pps.squelched, .ro, 0, .any⟩,
   ⟨Pps.periodMs, .rw, 1000, .range 1 60000⟩,
   ⟨Pps.pulseUs, .rw, 100000, .any⟩,
   ⟨Pps.offsetNs, .rw, 0, .any⟩,
   ⟨Pps.offsetFinePs, .rw, 0, .range 0 999⟩,
   ⟨Pps.outTrimPs, .rw, 0, .srange (-10000) 10000⟩,
   ⟨Pps.stepEvents, .rc, 0, .any⟩,
   ⟨⟨7, 0⟩, .reserved, 0, .any⟩]

/-! Table TIU.11 — FOUT record (16 bytes) -/
def Fout.enable : Fld := ⟨127, 127⟩
def Fout.squelch : Fld := ⟨125, 124⟩
def Fout.squelched : Fld := ⟨123, 123⟩
def Fout.freqNum : Fld := ⟨122, 75⟩
def Fout.freqDen : Fld := ⟨74, 43⟩
def Fout.outTrimPs : Fld := ⟨42, 27⟩
def Fout.stepEvents : Fld := ⟨26, 11⟩
/-- The fields of Table TIU.11, most significant first. -/
def foutFields : List Field :=
  [⟨Fout.enable, .rw, 0, .any⟩,
   ⟨⟨126, 126⟩, .reserved, 0, .any⟩,
   ⟨Fout.squelch, .rw, 1, .enum [0, 1, 2]⟩,
   ⟨Fout.squelched, .ro, 0, .any⟩,
   ⟨Fout.freqNum, .rw, 10000000, .any⟩,
   ⟨Fout.freqDen, .rw, 1, .range 1 4294967295⟩,
   ⟨Fout.outTrimPs, .rw, 0, .srange (-10000) 10000⟩,
   ⟨Fout.stepEvents, .rc, 0, .any⟩,
   ⟨⟨10, 0⟩, .reserved, 0, .any⟩]

/-! Table HOST.7 — Tenant event word -/
def Ev.svcAffected : Fld := ⟨31, 31⟩
def Ev.port : Fld := ⟨30, 30⟩
def Ev.node : Fld := ⟨29, 29⟩
def Ev.lane : Fld := ⟨28, 28⟩
def Ev.time : Fld := ⟨27, 27⟩
def Ev.leap : Fld := ⟨26, 26⟩
def Ev.retired : Fld := ⟨25, 25⟩
def Ev.boundNew : Fld := ⟨24, 24⟩
/-- The fields of Table HOST.7, most significant first. -/
def evFields : List Field :=
  [⟨Ev.svcAffected, .w1c, 0, .any⟩,
   ⟨Ev.port, .w1c, 0, .any⟩,
   ⟨Ev.node, .w1c, 0, .any⟩,
   ⟨Ev.lane, .w1c, 0, .any⟩,
   ⟨Ev.time, .w1c, 0, .any⟩,
   ⟨Ev.leap, .w1c, 0, .any⟩,
   ⟨Ev.retired, .w1c, 0, .any⟩,
   ⟨Ev.boundNew, .w1c, 0, .any⟩,
   ⟨⟨23, 0⟩, .reserved, 0, .any⟩]

/-! Table HOST.6 — Ring block (32 bytes) -/
def Rng.baseAddr : Fld := ⟨255, 192⟩
def Rng.sizeLog2 : Fld := ⟨191, 188⟩
def Rng.enable : Fld := ⟨187, 187⟩
def Rng.port : Fld := ⟨186, 183⟩
def Rng.vector : Fld := ⟨182, 177⟩
def Rng.irqHoldoffUs : Fld := ⟨176, 167⟩
def Rng.producer : Fld := ⟨159, 144⟩
def Rng.consumer : Fld := ⟨143, 128⟩
def Rng.refused : Fld := ⟨127, 96⟩
/-- The fields of Table HOST.6, most significant first. -/
def rngFields : List Field :=
  [⟨Rng.baseAddr, .rw, 0, .mask (2 ^ 64 - 2 ^ 12)⟩,
   ⟨Rng.sizeLog2, .rw, 6, .range 6 15⟩,
   ⟨Rng.enable, .rw, 0, .any⟩,
   ⟨Rng.port, .rw, 0, .any⟩,
   ⟨Rng.vector, .rw, 0, .any⟩,
   ⟨Rng.irqHoldoffUs, .rw, 0, .range 0 1000⟩,
   ⟨⟨166, 160⟩, .reserved, 0, .any⟩,
   ⟨Rng.producer, .rw, 0, .any⟩,
   ⟨Rng.consumer, .ro, 0, .any⟩,
   ⟨Rng.refused, .rc, 0, .any⟩,
   ⟨⟨95, 0⟩, .reserved, 0, .any⟩]

/-! Table HOST.11 — Receive write-back (32 bytes) -/
def RxWb.stampNs : Fld := ⟨255, 192⟩
def RxWb.stampFrac : Fld := ⟨191, 160⟩
def RxWb.rxStatus : Fld := ⟨159, 128⟩
def RxWb.port : Fld := ⟨127, 124⟩
def RxWb.kind : Fld := ⟨123, 122⟩
def RxWb.puntClass : Fld := ⟨121, 119⟩
def RxWb.tenant : Fld := ⟨118, 107⟩
def RxWb.wbLength : Fld := ⟨106, 93⟩
def RxWb.bufTrunc : Fld := ⟨92, 92⟩
def RxWb.done : Fld := ⟨0, 0⟩

/-! Table HOST.9 — Endpoint record (16 bytes) -/
def Ep.totalVfs : Fld := ⟨127, 117⟩
def Ep.totalVfsActive : Fld := ⟨116, 106⟩
def Ep.eventHoldoffUs : Fld := ⟨105, 96⟩
def Ep.linkUp : Fld := ⟨95, 95⟩
def Ep.pfLive : Fld := ⟨94, 94⟩
def Ep.perstBt : Fld := ⟨63, 0⟩
/-- The fields of Table HOST.9, most significant first. -/
def epFields : List Field :=
  [⟨Ep.totalVfs, .rw, 1024, .range 0 1024⟩,
   ⟨Ep.totalVfsActive, .ro, 1024, .any⟩,
   ⟨Ep.eventHoldoffUs, .rw, 100, .range 0 1000⟩,
   ⟨Ep.linkUp, .ro, 0, .any⟩,
   ⟨Ep.pfLive, .ro, 0, .any⟩,
   ⟨⟨93, 64⟩, .reserved, 0, .any⟩,
   ⟨Ep.perstBt, .ro, 0, .any⟩]

/-! Table HOST.13 — Controller record (16 bytes) -/
def Ctl.controller : Fld := ⟨127, 126⟩
def Ctl.primaryEp : Fld := ⟨125, 124⟩
def Ctl.standbyEp : Fld := ⟨123, 122⟩
def Ctl.standbyValid : Fld := ⟨121, 121⟩
def Ctl.lapsed : Fld := ⟨120, 120⟩
def Ctl.keepaliveLapseMs : Fld := ⟨119, 100⟩
def Ctl.claims : Fld := ⟨99, 84⟩
def Ctl.controlBt : Fld := ⟨63, 0⟩
/-- The fields of Table HOST.13, most significant first. -/
def ctlFields : List Field :=
  [⟨Ctl.controller, .ro, 0, .any⟩,
   ⟨Ctl.primaryEp, .ro, 0, .any⟩,
   ⟨Ctl.standbyEp, .ro, 0, .any⟩,
   ⟨Ctl.standbyValid, .ro, 0, .any⟩,
   ⟨Ctl.lapsed, .ro, 0, .any⟩,
   ⟨Ctl.keepaliveLapseMs, .rw, 5000, .range 500 600000⟩,
   ⟨Ctl.claims, .rc, 0, .any⟩,
   ⟨⟨83, 64⟩, .reserved, 0, .any⟩,
   ⟨Ctl.controlBt, .ro, 0, .any⟩]

/-! Table HOST.14 — Tenant record (32 bytes) -/
def Ten.state : Fld := ⟨255, 254⟩
def Ten.endpoint : Fld := ⟨253, 252⟩
def Ten.vf : Fld := ⟨251, 242⟩
def Ten.view : Fld := ⟨241, 234⟩
def Ten.quotaEn : Fld := ⟨233, 233⟩
def Ten.quotaRate : Fld := ⟨232, 203⟩
def Ten.quotaBurst : Fld := ⟨202, 187⟩
def Ten.mbxWeight : Fld := ⟨186, 179⟩
def Ten.ctrWindowEn : Fld := ⟨178, 178⟩
def Ten.svcIrqEn : Fld := ⟨177, 177⟩
def Ten.puntRingMap : Fld := ⟨176, 163⟩
def Ten.bindBt : Fld := ⟨63, 0⟩
/-- The fields of Table HOST.14, most significant first. -/
def tenFields : List Field :=
  [⟨Ten.state, .ro, 0, .any⟩,
   ⟨Ten.endpoint, .ro, 0, .any⟩,
   ⟨Ten.vf, .ro, 0, .any⟩,
   ⟨Ten.view, .ro, 0, .any⟩,
   ⟨Ten.quotaEn, .rw, 0, .any⟩,
   ⟨Ten.quotaRate, .rw, 1000000, .range 1 1000000000⟩,
   ⟨Ten.quotaBurst, .rw, 1024, .range 1 65535⟩,
   ⟨Ten.mbxWeight, .rw, 16, .range 1 255⟩,
   ⟨Ten.ctrWindowEn, .rw, 0, .any⟩,
   ⟨Ten.svcIrqEn, .rw, 0, .any⟩,
   ⟨⟨176, 175⟩, .rw, 0, .any⟩,
   ⟨⟨174, 173⟩, .rw, 0, .any⟩,
   ⟨⟨172, 171⟩, .rw, 0, .any⟩,
   ⟨⟨170, 169⟩, .rw, 0, .any⟩,
   ⟨⟨168, 167⟩, .rw, 0, .any⟩,
   ⟨⟨166, 165⟩, .rw, 0, .any⟩,
   ⟨⟨164, 163⟩, .rw, 0, .any⟩,
   ⟨⟨162, 64⟩, .reserved, 0, .any⟩,
   ⟨Ten.bindBt, .ro, 0, .any⟩]

/-! Table MBX.2 — DOOR_STATUS -/
def DoorSt.state : Fld := ⟨31, 30⟩
def DoorSt.fragWait : Fld := ⟨29, 29⟩
def DoorSt.respMore : Fld := ⟨28, 28⟩
def DoorSt.holdsLock : Fld := ⟨27, 27⟩
def DoorSt.nextFrag : Fld := ⟨24, 16⟩
def DoorSt.seqLow : Fld := ⟨15, 0⟩

/-! Table MBX.8 — Door statistics record (32 bytes) -/
def DoorStat.messages : Fld := ⟨255, 224⟩
def DoorStat.busyAnswers : Fld := ⟨223, 208⟩
def DoorStat.doorbellsIgnored : Fld := ⟨207, 192⟩
def DoorStat.fragTimeouts : Fld := ⟨191, 176⟩
def DoorStat.respDiscarded : Fld := ⟨175, 160⟩
def DoorStat.abandoned : Fld := ⟨159, 144⟩
def DoorStat.internalAnswers : Fld := ⟨143, 128⟩
def DoorStat.lastServedBt : Fld := ⟨127, 64⟩

/-! Table CMD.4 — Device information record (32 bytes) -/
def DInfo.part : Fld := ⟨255, 240⟩
def DInfo.variant : Fld := ⟨239, 232⟩
def DInfo.lifeCycle : Fld := ⟨231, 230⟩
def DInfo.controller : Fld := ⟨229, 228⟩
def DInfo.fwVersion : Fld := ⟨223, 192⟩
def DInfo.tableAbi : Fld := ⟨191, 176⟩
def DInfo.laneMask : Fld := ⟨175, 160⟩
def DInfo.endpointMask : Fld := ⟨159, 156⟩
def DInfo.benchMask : Fld := ⟨155, 152⟩
def DInfo.antennaMask : Fld := ⟨151, 150⟩
def DInfo.n2Mask : Fld := ⟨149, 146⟩
def DInfo.aeadLanes : Fld := ⟨145, 140⟩
def DInfo.btCount : Fld := ⟨127, 64⟩
def DInfo.readyBt : Fld := ⟨63, 0⟩
/-- The fields of Table CMD.4, most significant first. -/
def dInfoFields : List Field :=
  [⟨DInfo.part, .ro, 34816, .any⟩,
   ⟨DInfo.variant, .ro, 0, .any⟩,
   ⟨DInfo.lifeCycle, .ro, 0, .any⟩,
   ⟨DInfo.controller, .ro, 0, .any⟩,
   ⟨⟨227, 224⟩, .reserved, 0, .any⟩,
   ⟨DInfo.fwVersion, .ro, 0, .any⟩,
   ⟨DInfo.tableAbi, .ro, 0, .any⟩,
   ⟨DInfo.laneMask, .ro, 0, .any⟩,
   ⟨DInfo.endpointMask, .ro, 15, .any⟩,
   ⟨DInfo.benchMask, .ro, 15, .any⟩,
   ⟨DInfo.antennaMask, .ro, 0, .any⟩,
   ⟨DInfo.n2Mask, .ro, 0, .any⟩,
   ⟨DInfo.aeadLanes, .ro, 0, .any⟩,
   ⟨⟨139, 128⟩, .reserved, 0, .any⟩,
   ⟨DInfo.btCount, .ro, 0, .any⟩,
   ⟨DInfo.readyBt, .ro, 0, .any⟩]

/-! Table CMD.5 — Device record (16 bytes) -/
def DRec.oscFreq : Fld := ⟨127, 126⟩
def DRec.oscDeclared : Fld := ⟨125, 125⟩
def DRec.oscBt : Fld := ⟨63, 0⟩
/-- The fields of Table CMD.5, most significant first. -/
def dRecFields : List Field :=
  [⟨DRec.oscFreq, .rw, 1, .any⟩,
   ⟨DRec.oscDeclared, .ro, 0, .any⟩,
   ⟨⟨124, 64⟩, .reserved, 0, .any⟩,
   ⟨DRec.oscBt, .ro, 0, .any⟩]

/-! Table CMD.11 — Firmware status record (64 bytes) -/
def Fw.runningSlot : Fld := ⟨511, 511⟩
def Fw.preferredSlot : Fld := ⟨510, 510⟩
def Fw.nextSlot : Fld := ⟨509, 508⟩
def Fw.trialActive : Fld := ⟨507, 507⟩
def Fw.lastBoot : Fld := ⟨506, 504⟩
def Fw.fellBack : Fld := ⟨503, 503⟩
def Fw.confirmS : Fld := ⟨495, 480⟩
def Fw.confirmRemainS : Fld := ⟨479, 464⟩
def Fw.fallbacks : Fld := ⟨463, 448⟩
def Fw.trialReverts : Fld := ⟨447, 432⟩
def Fw.sSlotState (s : Nat) : Fld := ⟨192 * s + 191, 192 * s + 189⟩
def Fw.sReason (s : Nat) : Fld := ⟨192 * s + 188, 192 * s + 185⟩
def Fw.sWrittenBytes (s : Nat) : Fld := ⟨192 * s + 184, 192 * s + 162⟩
def Fw.sVersion (s : Nat) : Fld := ⟨192 * s + 159, 192 * s + 128⟩
def Fw.sSvn (s : Nat) : Fld := ⟨192 * s + 127, 192 * s + 96⟩
def Fw.sTableAbi (s : Nat) : Fld := ⟨192 * s + 95, 192 * s + 80⟩
def Fw.sBootSeq (s : Nat) : Fld := ⟨192 * s + 63, 192 * s + 32⟩
/-- The fields of Table CMD.11, most significant first. -/
def fwFields : List Field :=
  [⟨Fw.runningSlot, .ro, 0, .any⟩,
   ⟨Fw.preferredSlot, .ro, 0, .any⟩,
   ⟨Fw.nextSlot, .ro, 0, .any⟩,
   ⟨Fw.trialActive, .ro, 0, .any⟩,
   ⟨Fw.lastBoot, .ro, 0, .any⟩,
   ⟨Fw.fellBack, .ro, 0, .any⟩,
   ⟨⟨502, 496⟩, .reserved, 0, .any⟩,
   ⟨Fw.confirmS, .rw, 600, .range 60 65535⟩,
   ⟨Fw.confirmRemainS, .ro, 0, .any⟩,
   ⟨Fw.fallbacks, .rc, 0, .any⟩,
   ⟨Fw.trialReverts, .rc, 0, .any⟩,
   ⟨⟨431, 384⟩, .reserved, 0, .any⟩,
   ⟨⟨353, 352⟩, .reserved, 0, .any⟩,
   ⟨⟨271, 256⟩, .reserved, 0, .any⟩,
   ⟨⟨223, 192⟩, .reserved, 0, .any⟩,
   ⟨⟨161, 160⟩, .reserved, 0, .any⟩,
   ⟨⟨79, 64⟩, .reserved, 0, .any⟩,
   ⟨⟨31, 0⟩, .reserved, 0, .any⟩]

/-! Table SEC.6 — Asymmetric slot record (32 bytes) -/
def Slot.kind : Fld := ⟨255, 253⟩
def Slot.origin : Fld := ⟨252, 252⟩
def Slot.generating : Fld := ⟨251, 251⟩
def Slot.assigned : Fld := ⟨250, 250⟩
def Slot.tenant : Fld := ⟨249, 238⟩
def Slot.genBt : Fld := ⟨191, 128⟩
def Slot.signs : Fld := ⟨127, 96⟩
def Slot.signFails : Fld := ⟨95, 64⟩
def Slot.labelTag : Fld := ⟨63, 0⟩
/-- The fields of Table SEC.6, most significant first. -/
def slotFields : List Field :=
  [⟨Slot.kind, .ro, 0, .any⟩,
   ⟨Slot.origin, .ro, 0, .any⟩,
   ⟨Slot.generating, .ro, 0, .any⟩,
   ⟨Slot.assigned, .ro, 0, .any⟩,
   ⟨Slot.tenant, .ro, 0, .any⟩,
   ⟨⟨237, 192⟩, .reserved, 0, .any⟩,
   ⟨Slot.genBt, .ro, 0, .any⟩,
   ⟨Slot.signs, .rc, 0, .any⟩,
   ⟨Slot.signFails, .rc, 0, .any⟩,
   ⟨Slot.labelTag, .ro, 0, .any⟩]

/-! Table SEC.8 — Bench status record (16 bytes) -/
def Bench.bstate : Fld := ⟨127, 126⟩
def Bench.kind : Fld := ⟨125, 123⟩
def Bench.requester : Fld := ⟨122, 109⟩
def Bench.queued : Fld := ⟨108, 96⟩
def Bench.remainUs : Fld := ⟨95, 64⟩
def Bench.ops : Fld := ⟨63, 32⟩
def Bench.ucodeVersion : Fld := ⟨31, 0⟩
/-- The fields of Table SEC.8, most significant first. -/
def benchFields : List Field :=
  [⟨Bench.bstate, .ro, 0, .any⟩,
   ⟨Bench.kind, .ro, 0, .any⟩,
   ⟨Bench.requester, .ro, 0, .any⟩,
   ⟨Bench.queued, .ro, 0, .any⟩,
   ⟨Bench.remainUs, .ro, 0, .any⟩,
   ⟨Bench.ops, .rc, 0, .any⟩,
   ⟨Bench.ucodeVersion, .ro, 0, .any⟩]

/-! Table SEC.10 — Life-cycle record (32 bytes) -/
def Lc.lifeCycle : Fld := ⟨255, 254⟩
def Lc.rolledForward : Fld := ⟨253, 253⟩
def Lc.intentSpent : Fld := ⟨252, 250⟩
def Lc.intentBSpent : Fld := ⟨249, 247⟩
def Lc.obsDeployedEn : Fld := ⟨246, 246⟩
def Lc.primaryEp : Fld := ⟨245, 244⟩
def Lc.standbyEp : Fld := ⟨243, 242⟩
def Lc.standbyValid : Fld := ⟨241, 241⟩
def Lc.drsPresent : Fld := ⟨240, 240⟩
def Lc.fwSvnMin : Fld := ⟨239, 233⟩
def Lc.jigSvnMin : Fld := ⟨232, 226⟩
def Lc.lcBt : Fld := ⟨63, 0⟩
/-- The fields of Table SEC.10, most significant first. -/
def lcFields : List Field :=
  [⟨Lc.lifeCycle, .ro, 0, .any⟩,
   ⟨Lc.rolledForward, .ro, 0, .any⟩,
   ⟨Lc.intentSpent, .ro, 0, .any⟩,
   ⟨Lc.intentBSpent, .ro, 0, .any⟩,
   ⟨Lc.obsDeployedEn, .ro, 0, .any⟩,
   ⟨Lc.primaryEp, .ro, 0, .any⟩,
   ⟨Lc.standbyEp, .ro, 0, .any⟩,
   ⟨Lc.standbyValid, .ro, 0, .any⟩,
   ⟨Lc.drsPresent, .ro, 0, .any⟩,
   ⟨Lc.fwSvnMin, .ro, 0, .any⟩,
   ⟨Lc.jigSvnMin, .ro, 0, .any⟩,
   ⟨⟨225, 64⟩, .reserved, 0, .any⟩,
   ⟨Lc.lcBt, .ro, 0, .any⟩]

/-! Table FLT.8 — Fault record (32 bytes) -/
def FRec.valid : Fld := ⟨255, 255⟩
def FRec.cls : Fld := ⟨254, 252⟩
def FRec.firstClass : Fld := ⟨251, 249⟩
def FRec.merged : Fld := ⟨248, 248⟩
def FRec.overflow : Fld := ⟨247, 247⟩
def FRec.injected : Fld := ⟨246, 246⟩
def FRec.escalated : Fld := ⟨245, 245⟩
def FRec.node : Fld := ⟨244, 236⟩
def FRec.source : Fld := ⟨223, 208⟩
def FRec.lastSource : Fld := ⟨207, 192⟩
def FRec.detail : Fld := ⟨191, 160⟩
def FRec.count : Fld := ⟨159, 144⟩
def FRec.echoes : Fld := ⟨143, 128⟩
def FRec.firstBt : Fld := ⟨127, 64⟩
def FRec.lastBt : Fld := ⟨63, 0⟩
/-- The fields of Table FLT.8, most significant first. -/
def fRecFields : List Field :=
  [⟨FRec.valid, .ro, 0, .any⟩,
   ⟨FRec.cls, .ro, 0, .any⟩,
   ⟨FRec.firstClass, .ro, 0, .any⟩,
   ⟨FRec.merged, .ro, 0, .any⟩,
   ⟨FRec.overflow, .ro, 0, .any⟩,
   ⟨FRec.injected, .ro, 0, .any⟩,
   ⟨FRec.escalated, .ro, 0, .any⟩,
   ⟨FRec.node, .ro, 0, .any⟩,
   ⟨⟨235, 224⟩, .reserved, 0, .any⟩,
   ⟨FRec.source, .ro, 0, .any⟩,
   ⟨FRec.lastSource, .ro, 0, .any⟩,
   ⟨FRec.detail, .ro, 0, .any⟩,
   ⟨FRec.count, .ro, 0, .any⟩,
   ⟨FRec.echoes, .ro, 0, .any⟩,
   ⟨FRec.firstBt, .ro, 0, .any⟩,
   ⟨FRec.lastBt, .ro, 0, .any⟩]

/-! Table FLT.5 — Source record (16 bytes) -/
def FSrc.source : Fld := ⟨127, 112⟩
def FSrc.cls : Fld := ⟨111, 109⟩
def FSrc.defaultClass : Fld := ⟨108, 106⟩
def FSrc.fixed : Fld := ⟨105, 105⟩
def FSrc.fence : Fld := ⟨104, 104⟩
def FSrc.echo : Fld := ⟨103, 103⟩
def FSrc.checker : Fld := ⟨102, 102⟩
def FSrc.injectRemain : Fld := ⟨95, 88⟩
/-- The fields of Table FLT.5, most significant first. -/
def fSrcFields : List Field :=
  [⟨FSrc.source, .ro, 0, .any⟩,
   ⟨FSrc.cls, .rw, 0, .range 1 5⟩,
   ⟨FSrc.defaultClass, .ro, 0, .any⟩,
   ⟨FSrc.fixed, .ro, 0, .any⟩,
   ⟨FSrc.fence, .rw, 0, .any⟩,
   ⟨FSrc.echo, .ro, 0, .any⟩,
   ⟨FSrc.checker, .ro, 0, .any⟩,
   ⟨⟨101, 96⟩, .reserved, 0, .any⟩,
   ⟨FSrc.injectRemain, .ro, 0, .any⟩,
   ⟨⟨87, 0⟩, .reserved, 0, .any⟩]

/-! Table FLT.6 — Collector record (16 bytes) -/
def FCol.source : Fld := ⟨127, 112⟩
def FCol.graceMs : Fld := ⟨111, 96⟩
def FCol.echoWindowUs : Fld := ⟨95, 80⟩
/-- The fields of Table FLT.6, most significant first. -/
def fColFields : List Field :=
  [⟨FCol.source, .ro, 0, .any⟩,
   ⟨FCol.graceMs, .rw, 100, .range 10 10000⟩,
   ⟨FCol.echoWindowUs, .rw, 10, .range 1 1000⟩,
   ⟨⟨79, 0⟩, .reserved, 0, .any⟩]

/-! Table FLT.7 — Fault status block (32 bytes) -/
def FSt.gravest : Fld := ⟨255, 253⟩
def FSt.graceRunning : Fld := ⟨252, 252⟩
def FSt.safeState : Fld := ⟨251, 251⟩
def FSt.aliveRunning : Fld := ⟨250, 250⟩
def FSt.faultNAsserted : Fld := ⟨249, 249⟩
def FSt.graceRemainMs : Fld := ⟨239, 224⟩
def FSt.escalations : Fld := ⟨223, 208⟩
def FSt.escSource : Fld := ⟨207, 192⟩
def FSt.safeBt : Fld := ⟨191, 128⟩
def FSt.gravestBt : Fld := ⟨127, 64⟩
def FSt.escalationBt : Fld := ⟨63, 0⟩
/-- The fields of Table FLT.7, most significant first. -/
def fStFields : List Field :=
  [⟨FSt.gravest, .ro, 0, .any⟩,
   ⟨FSt.graceRunning, .ro, 0, .any⟩,
   ⟨FSt.safeState, .ro, 0, .any⟩,
   ⟨FSt.aliveRunning, .ro, 0, .any⟩,
   ⟨FSt.faultNAsserted, .ro, 0, .any⟩,
   ⟨⟨248, 240⟩, .reserved, 0, .any⟩,
   ⟨FSt.graceRemainMs, .ro, 0, .any⟩,
   ⟨FSt.escalations, .ro, 0, .any⟩,
   ⟨FSt.escSource, .ro, 0, .any⟩,
   ⟨FSt.safeBt, .ro, 0, .any⟩,
   ⟨FSt.gravestBt, .ro, 0, .any⟩,
   ⟨FSt.escalationBt, .ro, 0, .any⟩]

/-! Table BOOT.2 — Reset cause register -/
def CauseR.nestReset : Fld := ⟨14, 14⟩
def CauseR.vfFlr : Fld := ⟨13, 13⟩
def CauseR.pfFlr : Fld := ⟨12, 12⟩
def CauseR.perstH3PerstH0 : Fld := ⟨11, 8⟩
def CauseR.ktWake : Fld := ⟨7, 7⟩
def CauseR.fwReload : Fld := ⟨6, 6⟩
def CauseR.mpWatchdog : Fld := ⟨5, 5⟩
def CauseR.escalation : Fld := ⟨4, 4⟩
def CauseR.deviceCmd : Fld := ⟨3, 3⟩
def CauseR.pinLong : Fld := ⟨2, 2⟩
def CauseR.resetN : Fld := ⟨1, 1⟩
def CauseR.aonPor : Fld := ⟨0, 0⟩
/-- The fields of Table BOOT.2, most significant first. -/
def causeRFields : List Field :=
  [⟨⟨15, 15⟩, .reserved, 0, .any⟩,
   ⟨CauseR.nestReset, .w1c, 0, .any⟩,
   ⟨CauseR.vfFlr, .w1c, 0, .any⟩,
   ⟨CauseR.pfFlr, .w1c, 0, .any⟩,
   ⟨CauseR.perstH3PerstH0, .w1c, 0, .any⟩,
   ⟨CauseR.ktWake, .w1c, 0, .any⟩,
   ⟨CauseR.fwReload, .w1c, 0, .any⟩,
   ⟨CauseR.mpWatchdog, .w1c, 0, .any⟩,
   ⟨CauseR.escalation, .w1c, 0, .any⟩,
   ⟨CauseR.deviceCmd, .w1c, 0, .any⟩,
   ⟨CauseR.pinLong, .w1c, 0, .any⟩,
   ⟨CauseR.resetN, .w1c, 0, .any⟩,
   ⟨CauseR.aonPor, .w1c, 1, .any⟩]

/-! Table BOOT.3 — Reset cause record (16 bytes) -/
def RCause.cause : Fld := ⟨127, 112⟩
def RCause.resetNLowMs : Fld := ⟨95, 64⟩
def RCause.lastResetBt : Fld := ⟨63, 0⟩
/-- The fields of Table BOOT.3, most significant first. -/
def rCauseFields : List Field :=
  [⟨RCause.cause, .w1c, 1, .mask 32767⟩,
   ⟨⟨111, 96⟩, .reserved, 0, .any⟩,
   ⟨RCause.resetNLowMs, .ro, 0, .any⟩,
   ⟨RCause.lastResetBt, .ro, 0, .any⟩]

/-! Table BOOT.10 — Power record (32 bytes) -/
def Pow.power : Fld := ⟨255, 254⟩
def Pow.pending : Fld := ⟨253, 252⟩
def Pow.lastWake : Fld := ⟨251, 249⟩
def Pow.wakeEndpoint : Fld := ⟨248, 247⟩
def Pow.mainEn : Fld := ⟨246, 246⟩
def Pow.wakeLatched : Fld := ⟨245, 245⟩
def Pow.ktEntries : Fld := ⟨223, 208⟩
def Pow.sidebandWakes : Fld := ⟨207, 192⟩
def Pow.entryBt : Fld := ⟨191, 128⟩
def Pow.wakeBt : Fld := ⟨127, 64⟩
def Pow.wakeMs : Fld := ⟨63, 32⟩
/-- The fields of Table BOOT.10, most significant first. -/
def powFields : List Field :=
  [⟨Pow.power, .ro, 0, .any⟩,
   ⟨Pow.pending, .ro, 0, .any⟩,
   ⟨Pow.lastWake, .ro, 0, .any⟩,
   ⟨Pow.wakeEndpoint, .ro, 0, .any⟩,
   ⟨Pow.mainEn, .ro, 0, .any⟩,
   ⟨Pow.wakeLatched, .ro, 0, .any⟩,
   ⟨⟨244, 224⟩, .reserved, 0, .any⟩,
   ⟨Pow.ktEntries, .rc, 0, .any⟩,
   ⟨Pow.sidebandWakes, .rc, 0, .any⟩,
   ⟨Pow.entryBt, .ro, 0, .any⟩,
   ⟨Pow.wakeBt, .ro, 0, .any⟩,
   ⟨Pow.wakeMs, .ro, 0, .any⟩,
   ⟨⟨31, 0⟩, .reserved, 0, .any⟩]

/-! Table OBS.10 — Event record (16 bytes) -/
def CEv.mode : Fld := ⟨127, 126⟩
def CEv.fixed : Fld := ⟨125, 125⟩
def CEv.index : Fld := ⟨119, 96⟩
def CEv.modeBt : Fld := ⟨63, 0⟩
/-- The fields of Table OBS.10, most significant first. -/
def cEvFields : List Field :=
  [⟨CEv.mode, .rw, 0, .enum [0, 1]⟩,
   ⟨CEv.fixed, .ro, 0, .any⟩,
   ⟨⟨124, 120⟩, .reserved, 0, .any⟩,
   ⟨CEv.index, .ro, 0, .any⟩,
   ⟨⟨95, 64⟩, .reserved, 0, .any⟩,
   ⟨CEv.modeBt, .ro, 0, .any⟩]

/-! Table OBS.11 — Scribe record (32 bytes) -/
def Scr.segments : Fld := ⟨255, 251⟩
def Scr.sourceMask : Fld := ⟨250, 247⟩
def Scr.trigMask : Fld := ⟨246, 243⟩
def Scr.trigClass : Fld := ⟨242, 240⟩
def Scr.trigSource : Fld := ⟨239, 224⟩
def Scr.preTrigger : Fld := ⟨223, 207⟩
def Scr.autoRearm : Fld := ⟨206, 206⟩
def Scr.wrap : Fld := ⟨205, 205⟩
def Scr.flowTenant : Fld := ⟨204, 192⟩
def Scr.macPortMask : Fld := ⟨191, 176⟩
def Scr.macSubMask : Fld := ⟨175, 169⟩
def Scr.steerDecim : Fld := ⟨168, 153⟩
/-- The fields of Table OBS.11, most significant first. -/
def scrFields : List Field :=
  [⟨Scr.segments, .rw, 1, .enum [1, 2, 4, 8, 16]⟩,
   ⟨Scr.sourceMask, .rw, 15, .any⟩,
   ⟨Scr.trigMask, .rw, 1, .any⟩,
   ⟨Scr.trigClass, .rw, 4, .range 1 5⟩,
   ⟨Scr.trigSource, .rw, 0, .any⟩,
   ⟨Scr.preTrigger, .rw, 4096, .any⟩,
   ⟨Scr.autoRearm, .rw, 1, .any⟩,
   ⟨Scr.wrap, .rw, 0, .any⟩,
   ⟨Scr.flowTenant, .rw, 8191, .range 0 4095⟩,
   ⟨Scr.macPortMask, .rw, 0, .any⟩,
   ⟨Scr.macSubMask, .rw, 0, .any⟩,
   ⟨Scr.steerDecim, .rw, 10000, .range 1 65535⟩,
   ⟨⟨152, 0⟩, .reserved, 0, .any⟩]

/-! Table OBS.12 — Scribe status record (272 bytes: 16-byte header, then one 16-byte entry per segment 0–15) -/
def ScrSt.scribeState : Fld := ⟨127, 125⟩
def ScrSt.curSegment : Fld := ⟨124, 121⟩
def ScrSt.trigIgnored : Fld := ⟨103, 72⟩
def ScrSt.recordsLost : Fld := ⟨71, 40⟩
def ScrSt.eSegState : Fld := ⟨127, 125⟩
def ScrSt.eTrigCause : Fld := ⟨124, 121⟩
def ScrSt.eActualPre : Fld := ⟨120, 103⟩
def ScrSt.eRecords : Fld := ⟨102, 85⟩
def ScrSt.eFirstRec : Fld := ⟨84, 68⟩
def ScrSt.eTrigBt : Fld := ⟨63, 0⟩

/-! Table OBS.13 — OBS record (16 bytes) -/
def Obs.obsEnable : Fld := ⟨127, 127⟩
def Obs.obsClkSel : Fld := ⟨126, 125⟩
def Obs.obsLost : Fld := ⟨95, 64⟩
/-- The fields of Table OBS.13, most significant first. -/
def obsFields : List Field :=
  [⟨Obs.obsEnable, .rw, 0, .any⟩,
   ⟨Obs.obsClkSel, .rw, 2, .enum [0, 1, 2]⟩,
   ⟨⟨124, 96⟩, .reserved, 0, .any⟩,
   ⟨Obs.obsLost, .rc, 0, .any⟩,
   ⟨⟨63, 0⟩, .reserved, 0, .any⟩]

end Sys2Proof.Machine
end

