-- ==== Sys2Proof/Config.lean ====
section
/-! DEFINITION. What the spec leaves open: the free values a command draws, and the functions the spec names without
giving (cipher, signature and design constants). None has a body: a statement holds whatever they are. -/

namespace Sys2Proof

/-- The value the spec leaves open at the model's n-th draw (assumption log 2). -/
opaque Config.freeValue : Nat → Nat

/-- Whether a quantity the spec gives without its rounding is shown as the integer above it (assumption log 3). -/
opaque Config.roundsUp : Rat → Bool

/-- Whether the first entry (M, D_NEW) of a host leap table is taken as an inserted second (assumption log 20): R74
gives no D_old to the first entry. -/
opaque Config.firstLeapInserts : Nat → Int → Bool

/-- The strobe distribution delay δ of a follower in ns, a design constant of the device (R59, Table TS.2). -/
opaque Config.strobeDelay : Nat → Rat

/-- D_RX of a mode and lane in ps, a design constant of the device (R116). -/
opaque Config.dRx : Nat → Nat → Rat

/-- D_LANE of a mode and lane in ps, a design constant of the device (R119). -/
opaque Config.dLane : Nat → Nat → Rat

/-- The sideband address straps SB_ADDR1 and SB_ADDR0 as the board ties them (R472), as one number. -/
opaque Config.sbStrap : Nat

/-- The hash of a maker key that the boot ROM holds, by KEY_INDEX (R382). -/
opaque Config.romKeyHash : Nat → Nat

/-- The xSPI flash tells in its SFDP tables that it does 8D-8D-8D (R471). -/
opaque Config.flashOctal : Bool

/-- What the header of a bench microcode section states (R383): its variant mask and its version. -/
opaque Config.ucodeMask : List Byte → Nat
opaque Config.ucodeVersion : List Byte → Nat

/-- The private key of a kind of Table SEC.5 made from some random or derived bytes (R388): the spec gives no form. -/
opaque Config.privateKey : Nat → List Byte → Nat

/-- The Label input of the counter-mode KDF of R388, of which the spec gives the key and the context alone. -/
opaque Config.kdfLabel : List Byte

/-- The modulus of an RSA kind from its private key, as a number (R387). -/
opaque Config.rsaModulus : Nat → Nat → Nat

/-- An RSA-PSS signature (Table NTS.7): the salt's length, which is the hash's, the private key, the digest, a random
value. -/
opaque Config.rsaPss : Nat → Nat → List Byte → Nat → List Byte

/-- The bytes of a client key (R184) from the tenant, its TENANT_GEN, whether the family is IPv6, and the address: the
spec gives the parts, not their layout. -/
opaque Config.clientKeyBytes : Nat → Nat → Bool → Nat → List Byte

/-- The range in m, with Earth rotation (R286), from a position in mm to the satellite of an ephemeris at a transmit time
in s of week, by the orbit of IS-GPS-200. -/
opaque Config.gnssRange : List Nat → Rat → Int × Int × Int → Rat

/-- The relativistic term of a satellite's clock at a transmit time, in s. -/
opaque Config.gnssRelativity : List Nat → Rat → Rat

/-- The ionosphere delay in s by the model of IS-GPS-200, from α and β, an ephemeris, a transmit time and a position. -/
opaque Config.gnssIono : Nat → List Nat → Rat → Int × Int × Int → Rat

/-- The elevation in degrees of a satellite at a transmit time from a position, and its sine. -/
opaque Config.gnssElevation : List Nat → Rat → Int × Int × Int → Rat
opaque Config.gnssSin : List Nat → Rat → Int × Int × Int → Rat

/-- The Doppler in Hz that an ephemeris or an almanac page predicts at a TSH instant and a position (R274). -/
opaque Config.gnssDoppler : List Nat → Nat → Int × Int × Int → Int

/-- A survey solution (R286) from ephemerides and transmit times: the position in mm and its PDOP. -/
opaque Config.gnssFix : Nat → List (List Nat × Rat) → (Int × Int × Int) × Rat

/-- The time dilution of precision of some satellites from a position. -/
opaque Config.gnssTdop : List (List Nat × Rat) → Int × Int × Int → Rat

/-- The baseline projected on the direction of a satellite, in carrier cycles (R291). -/
opaque Config.gnssProject : List Nat → Rat → Int × Int × Int → Int × Int × Int → Rat

/-- The circular mean of some phases in cycles (R291). -/
opaque Config.circularMean : List Rat → Rat

end Sys2Proof
end

