-- ==== Sys2Proof/Machine/State.lean ====
section
/-! DEFINITION. The state of the block: plain data, every register, table, queue, timer and pin level the spec gives
the AX8800, and the queue of waiting commands. -/

namespace Sys2Proof.Machine

open Sys2Proof

/-- Why the block stops: the one service the spec leaves undefined. -/
inductive Fault where
  /-- Raised by the packet-path commands after a main rail that supplies the packet path has left its limits outside a
  KEEP-TIME entry, until a device reset or a start-up: R464 says that service on the failed rail's units is not defined
  there. Safe: the model stops where the hardware goes on. -/
  | serviceUndefined
deriving DecidableEq, Repr

/-- Why a command has no meaning. -/
inductive Refusal where
  /-- Raised by the arm of a command that has no meaning yet. Safe: the model stops. -/
  | notModelled (mnemonic : String)
deriving DecidableEq, Repr

/-- The product variants (R1, Table SCOPE.1). -/
inductive Variant where
  | f | p | e
deriving DecidableEq, Repr


/-- The kinds of record the spec gives the device; each record lies in the spec's own bit layout (its table is named).-/
inductive RecKind where
  /-- Table TS.6, 32 bytes, index below 3. -/
  | tsc
  /-- Table TS.7, 48 bytes, index below 1. -/
  | steer
  /-- Table TS.8, 16 bytes, index below 18. -/
  | follower
  /-- Table VIEW.4, 48 bytes, index below 256. -/
  | view
  /-- Table VIEW.5, 32 bytes, index below 1. -/
  | leap
  /-- Table PORT.9, 16 bytes, index below 2. -/
  | octet
  /-- Table PORT.10, 64 bytes, index below 16. -/
  | port
  /-- Table PORT.11, 32 bytes, index below 16. -/
  | portStatus
  /-- Table PORT.12, 136 bytes, index below 256. -/
  | wakePattern
  /-- Table PORT.13, 32 bytes, index below 16. -/
  | beacon
  /-- Table STAMP.8, 64 bytes, index below 16. -/
  | shim
  /-- Table STAMP.5, 16 bytes, index below 4096. -/
  | launch
  /-- Table ARCH.4, 4 bytes, index below 149. -/
  | nodeStatus
  /-- Table ARRAY.7, 4 bytes, index below 149. -/
  | nodeFlags
  /-- Table ARRAY.8, 16 bytes, index below 1. -/
  | array
  /-- Table ARRAY.9, 16 bytes, index below 4096. -/
  | tenantArray
  /-- Table ARRAY.10, 32 bytes, index below 1. -/
  | jigStatus
  /-- Table NTP.10, 32 bytes, index below 131072. -/
  | addrEntry
  /-- Table NTP.11a, 32 bytes, index below 4096. -/
  | ntp
  /-- Table NTP.11, 32 bytes, index below 4096. -/
  | bcast
  /-- Table NTP.12, 24 bytes, index below 65536. -/
  | access
  /-- Table NTP.13, 16 bytes, index below 1. -/
  | ct
  /-- Table NTP.14, 16 bytes, index below 1. -/
  | cls
  /-- Table NTS.13, 32 bytes, index below 4096. -/
  | nts
  /-- Table NTS.14, 32 bytes, index below 12288. -/
  | keyRing
  /-- Table PTP.9, 48 bytes, index below 4096. -/
  | ptp
  /-- Table PTP.11, 32 bytes, index below 16. -/
  | ptpPort
  /-- Table PTP.12, 32 bytes, index below 2. -/
  | ptpClient
  /-- Table DISC.10, 48 bytes, index below 10. -/
  | ref
  /-- Table DISC.11, 32 bytes, index below 10. -/
  | refStatus
  /-- Table DISC.12, 48 bytes, index below 2. -/
  | servo
  /-- Table DISC.13, 48 bytes, index below 2. -/
  | servoStatus
  /-- Table DISC.14, 32 bytes, index below 1. -/
  | select
  /-- Table GNSS.6, 32 bytes, index below 1. -/
  | gnssDev
  /-- Table GNSS.7, 32 bytes, index below 2. -/
  | gnssAnt
  /-- Table GNSS.8, 32 bytes, index below 2. -/
  | gnssAntStatus
  /-- Table GNSS.9, 16 bytes, index below 48. -/
  | gnssChan
  /-- Table GNSS.10, 48 bytes, index below 2. -/
  | gnssPos
  /-- Table GNSS.11, 48 bytes, index below 1. -/
  | gnssBase
  /-- Table GNSS.12, 48 bytes, index below 2. -/
  | gnssSol
  /-- Table TIU.7, 16 bytes, index below 8. -/
  | tiuIn
  /-- Table TIU.8, 32 bytes, index below 8. -/
  | tiuInStatus
  /-- Table TIU.9, 16 bytes, index below 1. -/
  | tiuDev
  /-- Table TIU.10, 16 bytes, index below 4. -/
  | ppsOut
  /-- Table TIU.11, 16 bytes, index below 2. -/
  | fout
  /-- Table HOST.7, 4 bytes, index below 4096. -/
  | eventWord
  /-- Table HOST.6, 32 bytes, index below 524288. -/
  | ring
  /-- Table HOST.9, 16 bytes, index below 4. -/
  | endpoint
  /-- Table HOST.13, 16 bytes, index below 1. -/
  | controller
  /-- Table HOST.14, 32 bytes, index below 4096. -/
  | tenant
  /-- Table CMD.5, 16 bytes, index below 1. -/
  | device
  /-- Table CMD.11, 64 bytes, index below 1. -/
  | fwStatus
  /-- Table SEC.6, 32 bytes, index below 512. -/
  | asymSlot
  /-- Table SEC.8, 16 bytes, index below 4. -/
  | bench
  /-- Table SEC.10, 32 bytes, index below 1. -/
  | lifeCycle
  /-- Table FLT.8, 32 bytes, index below 151. -/
  | faultRec
  /-- Table FLT.5, 16 bytes, index below 65536. -/
  | faultSrc
  /-- Table FLT.6, 16 bytes, index below 1. -/
  | collector
  /-- Table FLT.7, 32 bytes, index below 1. -/
  | faultStatus
  /-- Table BOOT.3, 16 bytes, index below 1. -/
  | resetCause
  /-- Table BOOT.10, 32 bytes, index below 1. -/
  | power
  /-- Table OBS.10, 16 bytes, index below 16777216. -/
  | ctrEvent
  /-- Table OBS.11, 32 bytes, index below 1. -/
  | scribe
  /-- Table OBS.12, 16 bytes, index below 1. -/
  | scribeHdr
  /-- Table OBS.12, 16 bytes, index below 16. -/
  | scribeSeg
  /-- Table OBS.13, 16 bytes, index below 1. -/
  | obs
deriving DecidableEq, Repr


/-! ### Mailbox doors (14_mailboxes.md) -/

/-- The status codes of Table MBX.5. -/
inductive Status where
  | ok | clamped | busy | denied | unknownOp | badLength | notPresent | state | pkeFail | internal
deriving DecidableEq, Repr

/-- DOOR_STATUS.STATE (Table MBX.2). -/
inductive DoorPhase where
  | idle | posted | serving | done
deriving DecidableEq, Repr

/-- The copied request of a POSTED door, its tag (R342) and the BT_COUNT of its doorbell. -/
structure Posted where
  op : Nat
  msg : Msg
  tag : Rat
  bt : Nat
deriving DecidableEq, Repr

/-- A partial request (R339, R340): the header all fragments share, the next index and the bytes so far. -/
structure Partial where
  op : Nat
  sequence : BitVec 32
  total : Nat
  acting : BitVec 32
  next : Nat
  bytes : List Byte
deriving DecidableEq, Repr

/-- A response message in the response buffer (Table MBX.3). -/
structure Response where
  op : Nat
  flags : Nat
  sequence : BitVec 32
  fragIndex : Nat
  fragTotal : Nat
  acting : Nat
  status : Status
  payload : List Byte
deriving DecidableEq, Repr

/-- The untaken fragments of a response (R341): the header, the whole payload and the next index. -/
structure More where
  head : Response
  whole : List Byte
  next : Nat
deriving DecidableEq, Repr

/-- What a door in SERVING waits for (R342): the slow hardware or the edge at which its command completes. -/
inductive Waiting where
  | jigUpload (image : List Byte)
  | tagWrite (gen : Nat) (bytes : List Byte)
  | fwErase (slot : Nat)
  | fwWrite (slot offset : Nat) (bytes : List Byte)
  | fwVerify (slot : Nat)
  | lcAdvance (target : Nat) (bytes : List Byte) (second : Bool)
  | svnRaise (fw jig : Nat)
  | wrapInstall (id form : Nat) (key : Nat)
  | shimLoop (tx rx count : Nat)
  /-- NTS_MINT (R225): its nest, which may have to wake until the BT_COUNT given, the MINT key of the time of the command,
  how many jobs run or wait on the nest's lanes, and the cookies minted. -/
  | mint (nest until_ keyId key jobs : Nat) (cookies : List Byte)
  | bench
  | gauge
  | retire (tenant : Nat)
  /-- The command reports the edge at which it takes effect. -/
  | edge
deriving DecidableEq, Repr

/-- One mailbox door (R334): request buffer, phase, the copied request, the partial request, the response and what the
door waits for. -/
structure Door where
  /-- The request half of the door as the host wrote it: header bytes 0–23, payload from byte 32. -/
  reqBuf : List Byte
  phase : DoorPhase
  posted : Option Posted
  partial_ : Option Partial
  resp : Option Response
  more : Option More
  /-- The command in SERVING: its header message, and what it waits for. -/
  serving : Option (Posted × Waiting)
  /-- The response of the command in SERVING is discarded (R328). -/
  discard : Bool
  seqLow : Nat
  lastServedBt : Nat
deriving DecidableEq, Repr

/-- A resource lock of Table MBX.4 and the door that holds it (R343). -/
structure Lock where
  code : Nat
  fn : Fn
  door : Nat
  bt : Nat
deriving DecidableEq, Repr

/-- The doors, the locks and the service order of R342. -/
structure MbxState where
  doors : Tab Door
  locks : List Lock
  v : Rat
  finish : Tab Rat
deriving DecidableEq, Repr


/-! ### Hosts (13_hosts_and_tenants.md) -/

/-- One PCIe function: the configuration-space bits R317 reads, its MSI-X table and pending bits, its FLR, and the
device-event registers of a PF page. -/
structure FnState where
  busMaster : Bool
  msixEnable : Bool
  inFlr : Bool
  /-- The MSI-X table as written: dword 4·v + 3 is vector v's control word, whose bit 0 masks it. -/
  msix : Tab Nat
  /-- Bit v: vector v is pending. -/
  pendingBits : Nat
  eventsInFlr : Nat
  deviceEvents : Nat
  deviceEventMask : Nat
  /-- The BT_COUNT latched by the last read of its low dword (R318). -/
  btLatch : Nat
  /-- PAGE_BASE and SOURCE of a PF's counter window (Table OBS.6). -/
  pageBase : Nat
  winSource : Nat
  /-- VF: a non-zero event word waits for MSI-X to be enabled again after an FLR (R327). -/
  eventOwed : Bool
deriving DecidableEq, Repr

/-- One endpoint: PERST and link level, and the holdoff of the summary message (R327). -/
structure EpState where
  perst : Bool
  linkUp : Bool
  holdoff : Bool
  summaryOwed : Bool
deriving DecidableEq, Repr

/-- A ring beside its ring block: the posted descriptors not yet used, oldest first, and its message holdoff (R330). -/
structure RingState where
  posted : List (BitVec 256)
  holdoff : Bool
  irqOwed : Bool
  /-- Transmit: how many posted descriptors are fetched and not yet written back, in ring order, with the write-backs
  that are ready. -/
  inFlight : List (Nat × Option (BitVec 256))
deriving DecidableEq, Repr

/-- The response quota bucket of a tenant (R324): the level in 2^-32 tokens and the edge of its last draw. -/
structure Bucket where
  level : Nat
  lastBt : Nat
deriving DecidableEq, Repr

structure HostState where
  fns : Tab FnState
  eps : Tab EpState
  rings : Tab RingState
  buckets : Tab Bucket
  /-- BT_COUNT at which the lapse timer last restarted (R320). -/
  lapseFrom : Nat
  /-- The lapse timer runs: the firmware has been ready since the last boot. -/
  lapseRuns : Bool
  /-- The endpoint that held control before the last change (R321). -/
  formerCtl : Nat
  /-- The edge n + D at which a RETIRING tenant's retirement completes (R329), plus 1; 0 none. -/
  retireEnd : Tab Nat
  /-- The latest snapshot that a reset took from the counter window (R328), by function key; 5000 + e: of every function
  of endpoint e. -/
  snapGone : Tab Nat
deriving DecidableEq, Repr


/-! ### Faults (17_faults.md) -/

/-- One raise on its way to the collector (R407). -/
structure Raise where
  source : Nat
  detail : Nat
  injected : Bool
deriving DecidableEq, Repr

structure FltState where
  /-- Raises the agents pass to the collector, in the order received. -/
  queue : List Raise
  /-- Raises of sources with flag E that wait for judgement, with the class and BT_COUNT of their handling. -/
  echoes : List (Raise × Nat × Nat)
  /-- The sources whose episode is open (R406). -/
  episodes : List Nat
  /-- BT_COUNT at which the grace timer reaches zero, while it runs (R410). -/
  graceEnd : Option Nat
  /-- A grace timer waits for the end of the reset in progress (R410). -/
  graceHeld : Bool
  /-- BT_COUNT of the last raise of a source (R407). -/
  lastBt : Tab Nat
  /-- The bench, engine and lane checkers armed by FAULT_INJECT: source, mode. -/
  injectMode : Tab Nat
  /-- BT_COUNT from which ALIVE toggles, high first; none while it is low (R414). -/
  aliveFrom : Option Nat
deriving DecidableEq, Repr

/-! ### Keys, life cycle, OTP and the firmware store (15_command_reference.md, 16_keys_and_life_cycle.md) -/

/-- The one-time-programmable memory: life-cycle cells (Table SEC.2), the hidden partition, security versions and the
user-tag generations. -/
structure Otp where
  /-- INTENT_A(k) and INTENT_B(k), k = 1, 2, 3: key 2k and 2k + 1, 128 bytes each; unlisted: blank. -/
  intents : Tab (List Byte)
  /-- STATE_WORD: bit 8(k − 1) + i is bit i of the byte of transition k. -/
  stateWord : Nat
  primaryEp : Nat
  standbyEp : Nat
  standbyValid : Bool
  pinMap : Nat
  obsDeployedEn : Bool
  drs : Nat
  wrapId : Nat
  wrapForm : Nat
  wrapKey : Nat
  /-- 0 NONE, 1 INSTALLED, 2 DESTROYED, 3 DAMAGED (R392). -/
  wrapState : Nat
  fwSvnTherm : Nat
  jigSvnTherm : Nat
  /-- User-tag generations (R360): 256 bytes each; unlisted: EMPTY. -/
  tags : Tab (List Byte)
deriving DecidableEq, Repr

/-- What the header of a firmware image states, and the reason code of its first failing check (Table CMD.10). -/
structure ImageFacts where
  length : Nat
  version : Nat
  svn : Nat
  tableAbi : Nat
  jigVersion : Nat
  jigSvn : Nat
  jigAbi : Nat
  jigMask : Nat
  /-- JIG_KEY, under which carried and uploaded jig images are verified. -/
  jigKey : Nat
  /-- The carried jig image; none is known of the image the device is shipped with. -/
  jigBytes : List Byte
  ucodeVersion : Nat
  reason : Nat
deriving DecidableEq, Repr

/-- One slot of the external flash: an image stored before the model begins, or the bytes programmed since the last
erase, and the preference entries of its control sector (BOOT_SEQ and its complement, R364). -/
structure FlashSlot where
  factory : Option ImageFacts
  bytes : List Byte
  prefs : List (Nat × Nat)
deriving DecidableEq, Repr

/-- An operation of a public-key bench (R393). -/
inductive BenchOp where
  | sign (slot scheme inputKind : Nat) (input : List Byte)
  | generate (slot kind : Nat) (derived : Bool) (label : List Byte)
deriving DecidableEq, Repr

/-- A request in a bench queue: its requester key (R396), the door that waits, and the operation. -/
structure BenchReq where
  requester : Nat
  fn : Fn
  door : Nat
  op : BenchOp
  /-- The kind of its key as it was accepted, which gives the operation's time (R394). -/
  kind : Nat
  /-- The key material the bench took as the operation started: the slot's secret, or DRS for a DERIVED key; none while it
  waits, and where the slot no longer held the key. -/
  secret : Option Nat
  /-- The processor has not stopped since: its door waits and its slot takes the key (R396). -/
  live : Bool
deriving DecidableEq, Repr

structure KeyState where
  otp : Otp
  /-- The secret of each asymmetric slot and of each NTS key-store slot, never readable. -/
  asym : Tab Nat
  nts : Tab Nat
  /-- The S2V value a master key slot holds from its key's installation (R202). -/
  s2v : Tab Nat
  benchQueue : List BenchReq
  /-- Bench b runs the request, if any; its door may have been ended (R396). -/
  running : Tab (Option (BenchReq × Nat))
  /-- The requester key served last (R396). -/
  lastServed : Nat
  /-- The random source withholds output (R385). -/
  rngWithheld : Bool
  /-- An LC_ADVANCE or LC_SVN_RAISE is programming OTP. -/
  otpBusy : Bool
  flash : Tab FlashSlot
  /-- The life-cycle state in effect (R376), which follows OTP at an edge. -/
  lifeCycle : Nat
  jtag : JtagInstr
deriving DecidableEq, Repr

/-! ### Power and boot (18_reset_power_startup.md) -/

/-- Where the device is in its start-up. -/
inductive BootPhase where
  /-- AON running, MAIN_EN low. -/
  | mainOff
  /-- MAIN_EN high, the main rails not yet found within limits (R429). -/
  | railsWait
  /-- The reset is released and the boot ROM has not yet run. -/
  | bootRom
  /-- The firmware starts and is not ready. -/
  | fwStart
  | ready
deriving DecidableEq, Repr

/-- How the xSPI port reads the flash (R471). -/
inductive XspiMode where
  /-- 1S-1S-1S at 25 MHz: the first 4 KiB. -/
  | first
  /-- 8D-8D-8D at up to 200 MHz. -/
  | octal
  /-- 1S-1S-1S at up to 50 MHz. -/
  | single
deriving DecidableEq, Repr

structure PwrState where
  /-- The AON supply is up; false in OFF. -/
  aonUp : Bool
  phase : BootPhase
  /-- The kind of the boot in progress: LAST_BOOT code of Table CMD.11. -/
  bootKind : Nat
  /-- RESET_N is asserted since the BT_COUNT given. -/
  resetN : Option Nat
  /-- A device reset holds the fast domains. -/
  devReset : Bool
  /-- A device reset is due: BT_COUNT not before which it starts, and its cause bit (R426). -/
  resetDue : Option (Nat × Nat)
  /-- A processor boot by FW_RELOAD is due from the BT_COUNT given (R371). -/
  reloadDue : Option Nat
  /-- The processor pair is halted by lockstep or by its own clock or memory (R411). -/
  halted : Bool
  /-- BT_COUNT of the wake in progress, for WAKE_MS. -/
  wakeFrom : Option Nat
  readyBt : Nat
  /-- What the header of the running firmware's image states. -/
  running : ImageFacts
  /-- CONFIRM_REMAIN_S counts from this BT_COUNT, down from the CONFIRM_S of the trial's start (R370, R373). -/
  confirmFrom : Nat
  confirmS : Nat
  /-- A main rail that supplies the packet path has left its limits in service since the last start-up or device reset
  (R464). -/
  railFailed : Bool
  /-- Bit r: rail r is outside its limits. -/
  railsOut : Nat
  /-- Bit i: PLL i is locked (0 engine, 1 timestamp, 2 GNSS, 3 and 4 the SerDes octets; R18). -/
  plls : Nat
  /-- From a LISTEN entry until its exit has powered the shared buffer area again: admission follows R95 (R435). -/
  sharedGated : Bool
  /-- BT_COUNT from which MAIN_EN is driven high, while it is low and due (R430, R437). -/
  mainEnAt : Option Nat
  /-- BT_COUNT at which MAIN_EN last rose, from which R429 counts its 20 ms. -/
  mainEnBt : Nat
  /-- BT_COUNT at which the main rails were last found within their limits (R431). -/
  railsBt : Nat
  /-- BT_COUNT at which the device reset in progress began. -/
  resetFrom : Nat
  /-- BT_COUNT at which the door of a POWER_STATE KEEP-TIME reached DONE, t_c of R436. -/
  ktFrom : Option Nat
  /-- The pin reset map in effect (R376, R432). -/
  pinMap : Nat
  /-- Bit i: the level the output ball of index i drove when the last reset began (HOLD_LAST, Table BOOT.6); none
  after AON power-on. -/
  held : Option Nat
  /-- BT_COUNT at which a firmware that has stopped last wrote its heartbeat (R414). -/
  fwStopBt : Nat
  /-- BT_COUNT from which XSPI_RESET_N is high; none while a reset or the supply holds it low (R471). -/
  xspiHigh : Option Nat
  xspiMode : XspiMode
  /-- The service and address tables are lost with KEEP-TIME and not yet rebuilt (R34). -/
  tablesLost : Bool
deriving DecidableEq, Repr


/-! ### Timescales, followers, leap state (02_timescales.md, 03_time_views.md) -/

/-- A privileged timescale (R35): the TW96 value with its 40-bit accumulated fraction, the increment INC72 in units of
2^-40 ns, SET and STEP_SOURCE. -/
structure Timescale where
  sec : Nat
  ns : Nat
  frac40 : Nat
  inc : Nat
  set : Bool
  stepSource : Nat
deriving DecidableEq, Repr

/-- A follower over one base tick (R57, Table TS.2), counted in its local ticks from the last one at or before the strobe
of the edge, tick 0. Values and increments are in units of 2^-40 ns. Its FSTATE stands in its record. -/
structure Follower where
  /-- It was TRACKING throughout, so its stamps are valid (R64). -/
  tracking : Bool
  /-- The value at tick 0, and how far past it the strobe came, in 1/128 of a local tick. -/
  base : Nat
  frac : Nat
  /-- The increment up to the start K of the realignment, and from there on. -/
  incOld : Nat
  inc : Nat
  /-- E of the edge, spread over S ticks from tick K. -/
  err : Int
  /-- The value loaded at tick K in place of a spread: a hard load of R61 (`step`), or the load of R64. -/
  load : Option Nat
  step : Bool
  /-- The position from which stamps of this tick carry FOLLOWER_STEP for a hard load at the next edge. -/
  stepFrom : Option Nat
  /-- The interval scale of the time-interval unit and its coarse count at tick 0 (R299, R304). -/
  scale : Nat
  ticks : Nat
deriving DecidableEq, Repr

structure TsState where
  tsa : Timescale
  tsb : Timescale
  tsh : Timescale
  fol : Tab Follower
  /-- BT_COUNT of the edge of each master's LAST_UPDATE, from which R31 grows the root dispersion. -/
  updBtA : Nat
  updBtB : Nat
deriving DecidableEq, Repr

/-- A leap: the UTC count M of its midnight, the differences before and after it. -/
structure LeapEv where
  m : Nat
  dOld : Int
  dNew : Int
deriving DecidableEq, Repr

/-- The window in which a view smears a leap (R80), in TSH units of 2^-32 ns. -/
structure SmearWin where
  w0 : Int
  w1 : Int
  leap : LeapEv
deriving DecidableEq, Repr

/-- One accepted or waiting set of LNAV UTC parameters (R75): ΔtLS, and M and ΔtLSF of its pending leap. -/
structure GpsLeap where
  dtLs : Int
  dtLsf : Int
  m : Nat
deriving DecidableEq, Repr

/-- The leap state beside its record (R73–R80). -/
structure LeapSt where
  /-- The kept host table, in order of M. -/
  host : List (Nat × Int)
  hostExpired : Bool
  gps : Option GpsLeap
  /-- The decodes of single satellites, by PRN, that await a second identical one. -/
  gpsSeen : Tab (Option GpsLeap)
  gpsLapsed : Bool
  /-- The pending leap of the record, with its D_old. -/
  pending : Option LeapEv
  /-- The leap last switched: D(s) before it is its D_old. -/
  last : Option LeapEv
  /-- The sources in conflict at the latest evaluation (R76). -/
  differ : Bool
  /-- The windows of each view: of the leap being smeared and of the pending one. -/
  smear : Tab (List SmearWin)
  /-- EXPIRES_S of the host table as supplied; its record field shows the low 48 bits. -/
  hostExpires : Nat
deriving DecidableEq, Repr



/-! ### Counters, gauge and trace (19_counters_and_trace.md) -/

/-- A snapshot of every counter (R446, R447). -/
structure Snapshot where
  id : Nat
  strobeBt : Nat
  values : Tab Nat
deriving DecidableEq, Repr

/-- A GAUGE under way: its strobe edge, its door, and the captured snapshot once the strobe has passed. -/
structure GaugeRun where
  strobeBt : Nat
  fn : Fn
  door : Nat
  captured : Option Snapshot
deriving DecidableEq, Repr

structure ObsState where
  /-- The counters of Table OBS.1, by index. -/
  ctr : Tab Nat
  /-- The engine cycle within the base tick that the latest timed record or count was given. -/
  phase : Nat
  /-- The instant (BT_COUNT × 512 + engine cycle) up to which a node's cycle counters are settled. -/
  settled : Tab Nat
  /-- The state events, by counter index, asserted in the last cycle counted (R443). -/
  asserted : Tab Nat
  snaps : List Snapshot
  snapCount : Nat
  gauge : Option GaugeRun
  /-- The records of each scribe segment, oldest first, each as its 32 bytes. -/
  records : Tab (List Nat)
  /-- Records of the post-trigger part written so far. -/
  post : Nat
  /-- Records lost and not yet told by a LOSS record: scribe, OBS output. -/
  lost : Nat
  obsLost : Nat
  /-- The OBS output is off until OBS_CONFIG is written again (Table OBS.9). -/
  obsOff : Bool
  /-- BT_COUNT at which REARM began. -/
  rearmBt : Nat
deriving DecidableEq, Repr

/-! ### Frames and service (04–09) -/

/-- What an answer is composed under (R63, R175): the parameters of the views, the leap state, the service state and the
TSH value of one base tick. -/
structure Svc where
  bt : Nat
  leap : LeapSt
  leapRec : Nat
  /-- The view records that differ from their reset values, by view. -/
  views : Tab Nat
  tshSet : Bool
  select : Nat
  servoState : Nat
  dispBase : Nat
  rootDelay : Nat
  offset : Int
  /-- Base ticks since the last servo update. -/
  growthBt : Nat
  lastUpdate : Nat
  /-- ACTIVE_KIND of the selected master (Table DISC.13). -/
  refKind : Nat
deriving DecidableEq, Repr

/-- What one base tick leaves for the stamps that belong to it (R63): TSH at its edge, the followers, the service state,
the shim records by port and the offsets of R53. -/
structure Tick where
  bt : Nat
  /-- NS96. -/
  tsh : Nat
  fol : Tab Follower
  svc : Svc
  shims : Tab Nat
  offA : Option Int
  offB : Option Int
deriving DecidableEq, Repr

/-- A stored received frame: its bytes without FCS (R99), its receive status word (Table PORT.3), its stamp (R116). -/
structure RxPkt where
  bytes : List Byte
  status : Nat
  stamp : Nat
  port : Nat
  svc : Svc
deriving DecidableEq, Repr

/-- The service of Table NTP.1, and the descriptors a unit places itself (R191, R239). -/
inductive Service where
  | ntp | ptp | arp | nd | bad | slowpath | other
  /-- A broadcast on a port with its launch instant. -/
  | bcast (port launch : Nat)
  /-- A scheduled PTP message: the schedule's key and its due instant. -/
  | sched (key due : Nat)
deriving DecidableEq, Repr

/-- Where a frame in the packet buffer holds its space (R94, R95). -/
inductive Area where
  | reserve | shared | none
deriving DecidableEq, Repr

/-- A descriptor in the array (R140): the frame, its tenant, service and address entry, and when it was stored. -/
structure Desc where
  pkt : RxPkt
  area : Area
  tenant : Nat
  service : Service
  entry : Nat
  storedBt : Nat
  order : Nat
  /-- The frame came through the multicast instance of its port (R231). -/
  multicast : Bool
  /-- DISPATCH_AGE_US and HOLD_AGE_MS of its tenant as it was enqueued (R150). -/
  ageUs : Nat
  holdMs : Nat
deriving DecidableEq, Repr

/-- One grant of a client entry (R235): logInterMessagePeriod and the BT_COUNT of its expiry. -/
structure Grant where
  logPeriod : Int
  expiryBt : Nat
deriving DecidableEq, Repr

/-- A client entry of the grant table (R235). -/
structure GrantEntry where
  tenant : Nat
  family : Nat
  addr : Nat
  portId : Nat
  announce : Option Grant
  sync : Option Grant
  delay : Option Grant
  /-- The Delay_Req bucket (R238) in units of 2^-32 requests, and the edge of its last draw. -/
  bucket : Nat
  bucketBt : Nat
  seqAnnounce : Nat
  seqSync : Nat
  seqSignaling : Nat
  mac : Nat
  tags : List Byte
  port : Nat
  entry : Nat
  /-- BT_COUNT since which it has held no grant. -/
  idleBt : Nat
deriving DecidableEq, Repr

/-- The Follow_Up that a two-step Sync waits for (R239): its tenant, port, sequenceId, logPeriod, domain, the client entry of a
grant as it stood at composition (none: a multicast instance), and the Sync's s_tx once it has departed. -/
structure FollowUp where
  tenant : Nat
  port : Nat
  seq : Nat
  log : Int
  domain : Nat
  grant : Option GrantEntry
  stamp : Nat
deriving DecidableEq, Repr

/-- What a transmitted frame belongs to: whose counters move when it is admitted or lost, and who waits for its stamp. -/
inductive TxWho where
  | host (fn : Fn) (ring slot cookie : Nat) (tsReq : Bool)
  /-- An answer, Kiss-o'-Death, ARP, ND reply or broadcast of a tenant; the statistic counted on admission. -/
  | ntp (tenant : Nat) (okStat : Option Nat)
  | nts (tenant : Nat) (answer : Bool)
  /-- A PTP message of a tenant; the schedule key it belongs to; for a two-step Sync its Follow_Up. -/
  | ptp (tenant okStat : Nat) (sched : Option Nat) (twoStep : Option FollowUp)
  /-- A message of the client instance of a master; the sequenceId of a Delay_Req. -/
  | client (master : Nat) (delayReq : Option Nat)
  | beacon
  /-- A calibration frame of SHIM_LOOP (R122), by its sending port, receiving port and sequence. -/
  | loop (tx rx seq : Nat)
deriving DecidableEq, Repr

/-- The launch of a Q7 frame (R127, R132): L, the tenant whose launch record governs it, and that record's lateness
fields as they stood at its submission. -/
structure Launch where
  l : Nat
  tenant : Nat
  tolPs : Nat
  policy : Nat
  sendMaxUs : Nat
deriving DecidableEq, Repr

/-- The insertion operations of R124. -/
inductive Insert where
  | none | ntpT3 | oneStep
deriving DecidableEq, Repr

/-- A frame on its way out: its bytes without FCS, the insertion and checksum requests (Table STAMP.3), its space. -/
structure TxFrame where
  bytes : List Byte
  insert : Insert
  insertOff : Nat
  view : Nat
  csumIp4 : Bool
  csumL4 : Nat
  l3 : Nat
  l4 : Nat
  launch : Option Launch
  admitBt : Nat
  area : Area
  who : TxWho
  kerfHeld : Bool
deriving DecidableEq, Repr

/-- The frame a port is sending: its queue, its stamp when valid, and whether it goes out with an inverted FCS. -/
structure TxCurrent where
  frame : TxFrame
  queue : Nat
  stamp : Option Nat
  step : Bool
  aborted : Bool
deriving DecidableEq, Repr

/-- A frame in progress on receive (R94): the area that admitted it, whose MAX_FRAME bytes it holds, or that it was
refused for want of space. -/
structure RxCurrent where
  area : Option Area
  refused : Bool
deriving DecidableEq, Repr

/-- A pause class that is paused (R107, R108): since which BT_COUNT, the end of its pause time in ps from base tick 0, and
the queues it pauses. -/
structure Pause where
  since : Nat
  endPs : Nat
  mask : Nat
deriving DecidableEq, Repr

/-- A SHIM_LOOP run of a sending port (R122): what it has sent, and the sums over the frames that came back. -/
structure LoopRun where
  fn : Fn
  door : Nat
  rx : Nat
  count : Nat
  sent : Nat
  nextBt : Nat
  /-- Departed frames not yet back: sequence, s_tx and the BT_COUNT of their departure; none before it. -/
  open_ : List (Nat × Option (Nat × Nat))
  got : Nat
  sum : Int
  least : Int
  most : Int
deriving DecidableEq, Repr

/-- A port beside its records: queues Q0–Q7 in order of departure, the frames in progress, the lock loss in progress, the
pauses by class, and the beacon generator. -/
structure PortSt where
  queues : Tab (List TxFrame)
  cur : Option TxCurrent
  rxCur : Option RxCurrent
  lossFrom : Option Nat
  remoteFrom : Option Nat
  /-- The port sends Remote Fault (R87, R91). -/
  sendsFault : Bool
  /-- The lane skew measured at the latest alignment lock or marker (R93, R117), in symbols by lane. -/
  skew : List Int
  /-- The paused classes. -/
  paused : Tab (Option Pause)
  /-- BT_COUNT at which the holdoff of a class ends (R108). -/
  holdoffEnd : Tab Nat
  loop : Option LoopRun
  /-- BT_COUNT since which any queue has been paused, for TX_PAUSED_NS. -/
  anyPausedFrom : Option Nat
  /-- The end of the latest Q7 frame with its gap (TSH, 2^-32 ns). -/
  q7End : Rat
  /-- A boundary at which the kerf left the port idle (R130), as an instant of TSH in 2^-32 ns. -/
  kerfIdle : Option Rat
  beaconBt : Nat
deriving DecidableEq, Repr

/-- The work of an NTS request past its ring sample (R205–R210). -/
structure NtsWork where
  /-- KEY_ID and ROLE of slots 0–2 as sampled (R208). -/
  sample : List (Nat × Nat)
  ratePending : Bool
  alg : Nat
  c2s : List Byte
  s2c : List Byte
  /-- The authenticated Kiss-o'-Death being sealed, if any: 0 RATE, 1 DENY, 2 RSTR. -/
  kod : Option Nat
  toMint : Nat
  minted : List (List Byte)
  l : Nat
  /-- The 48-byte header of the answer, as composed (R211). -/
  head : List Byte
deriving DecidableEq, Repr

/-- What a context hands on at the end of its handling. -/
inductive TxOut where
  /-- A frame for a port queue, and the statistic its handling moved. -/
  | queue (port q : Nat) (frame : TxFrame) (outcome : Nat)
  | punt (cls : Nat)
deriving DecidableEq, Repr

/-- The states of a thread (Table ARRAY.1). -/
inductive ThreadState where
  | free | ready | waitFetch | waitAead | waitTable | waitTx
deriving DecidableEq, Repr

/-- What a context waits for, or runs towards (Table ARRAY.1). -/
inductive CtxPhase where
  | client
  | grant
  | ring
  | openCookie
  | auth
  | mint
  | seal
  | credit (out : TxOut)
deriving DecidableEq, Repr

/-- A context of a thread (R140): its descriptor, the node it was queued at, and where its handling stands. -/
structure Context where
  desc : Desc
  node : Nat
  allocBt : Nat
  /-- The timeout in effect at its allocation, in µs (R166). -/
  timeoutUs : Nat
  view : Nat
  oldImage : Bool
  packet : Nat
  phase : CtxPhase
  nts : Option NtsWork
  /-- The tenant's NTP, access, NTS and launch records as they stood at its grant, by `RecKind.key` (R137, R200). -/
  recs : Tab Nat
  /-- 1 KiB of scratch memory, by byte, and the thread's registers (R140): cleared at allocation; what a jig image keeps
  there is its own. -/
  scratch : Tab Nat
  regs : Tab Nat
deriving DecidableEq, Repr

/-- A job of an AEAD lane (R151). -/
inductive JobKind where
  | openCookie | auth | mint | seal
deriving DecidableEq, Repr

/-- Who submitted a job: a thread (engine × 8 + thread) for its packet, or the door of an NTS_MINT (R225). -/
inductive JobOwner where
  | thread (key packet : Nat)
  | door (fn : Fn) (door : Nat)
deriving DecidableEq, Repr

/-- A job: the tenant it is charged to, the node its shares are measured at, its lane cycles (Table NTS.2), and its place
in the order of submission (R152). -/
structure LaneJob where
  owner : JobOwner
  kind : JobKind
  tenant : Nat
  node : Nat
  blocks : Nat
  order : Nat
deriving DecidableEq, Repr

/-- A job on a lane: the engine cycle it began at, and the key material it entered the lane with, which goes with it. -/
structure LaneRun where
  job : LaneJob
  from_ : Nat
  key : List Byte
deriving DecidableEq, Repr

/-- Issue slots or lane blocks that the work of a tenant queued at a node has taken, and the engine cycle they are counted
at (R148, R152). -/
structure ShareUse where
  cycle : Nat
  tenant : Nat
  node : Nat
  amount : Nat
deriving DecidableEq, Repr

/-- A door that waits for a node's reset (R24): its NODE_RESET, or a NODE_POWER aimed at a node under it, with the request's
BT_COUNT and that node. -/
structure NodeWait where
  fn : Fn
  door : Nat
  power : Option (Nat × Nat)
deriving DecidableEq, Repr

/-- A node beside its records: the wake and gate requests in progress, its last grant, its reset. -/
structure NodeDyn where
  /-- The wake request's BT_COUNT, and the WAKE_TIMEOUT_US its timer started with (R166). -/
  wakeBt : Option Nat
  wakeUs : Nat
  gateBt : Option Nat
  /-- A wake requested while the node was still GATING: whether of its dispatch logic alone. -/
  rewake : Option Bool
  /-- The latest grant or wake, and the IDLE_GATE_MS its timer started with (R161, R166). -/
  lastGrantBt : Nat
  idleMs : Nat
  /-- An engine's thread that issued last (R139). -/
  lastIssue : Nat
  /-- Only the node's own dispatch logic was woken (R159). -/
  logicOnly : Bool
  /-- The edge at which the reset returns to RUN (R24). -/
  resetEnd : Option Nat
  /-- Fenced by SRAM_UE of its instruction memory: its active bank must be reloaded (R413). -/
  reload : Bool
  doors : List NodeWait
deriving DecidableEq, Repr

/-- A jig image (Table ARRAY.3): its header facts, its bytes as the configuration store keeps them (R158), and the key that
verifies it; the image shipped with the device, whose bytes the model does not hold, has none. -/
structure JigImage where
  version : Nat
  svn : Nat
  abi : Nat
  serviceMask : Nat
  bytes : List Byte
  signKey : Nat
deriving DecidableEq, Repr

structure ArrayState where
  /-- The dispatch queues: node code and descriptor, oldest first. -/
  queue : List (Nat × Desc)
  /-- The contexts, by engine × 8 + thread. -/
  ctx : Tab (Option Context)
  nodes : Tab NodeDyn
  /-- Bit c: AEAD lane c is withdrawn (R153). -/
  lanesOut : Nat
  /-- What each lane runs; the jobs that wait in each level-1 nest's arbiter, 64 at the most; and those of threads that
  wait for space there (R151, R152). -/
  lanes : Tab (Option LaneRun)
  laneQueue : Tab (List LaneJob)
  laneFull : Tab (List LaneJob)
  /-- The slots and blocks taken within the window (R148, R152). -/
  slotUses : List ShareUse
  laneUses : List ShareUse
  active : JigImage
  staged : Option JigImage
  nextOrder : Nat
  nextPacket : Nat
  /-- The served state of a tenant at the latest edge (R175). -/
  served : Tab Nat
deriving DecidableEq, Repr

/-- The client table (R183–R188): entries by bucket × 4 + way, the hash key, the sweeper, and retention. -/
structure ClientTable where
  entries : Tab Nat
  key : Nat
  sweep : Nat
  /-- The coarse tick of the latest visit (R187). -/
  sweepAt : Nat
  retainedFrom : Option Nat
deriving DecidableEq, Repr

/-- An exchange of a client instance (R244): the Sync's times as they become known. -/
structure Exchange where
  /-- The sourcePortIdentity of the Sync. -/
  master : Nat
  seq : Nat
  t1 : Option Int
  cSync : Int
  t2 : Nat
  startBt : Nat
  /-- A stamp was invalid or carried FOLLOWER_STEP, or an identity differed. -/
  bad : Bool
  reqSeq : Option Nat
  t3 : Option Nat
  /-- t4 and the correctionField of the Delay_Resp, once it is there. -/
  resp : Option (Int × Int)
deriving DecidableEq, Repr

/-- A client instance beside its status record (R243). -/
structure ClientInst where
  exchange : Option Exchange
  /-- The latest completed offset and delay, in 2^-16 ns, and its BT_COUNT. -/
  result : Option (Int × Int × Nat)
  seqDelay : Nat
  seqSignaling : Nat
  /-- BT_COUNT of the last Delay_Req (R243). -/
  delayBt : Nat
  /-- Foreign masters heard: sourcePortIdentity, the dataset of its latest Announce as one ordered number, its BT_COUNT
  and its ptpTimescale. -/
  masters : List (Nat × Nat × Nat × Bool)
  /-- The grants held from the master, by message type: duration and BT_COUNT. -/
  granted : Tab Nat
deriving DecidableEq, Repr

structure PtpState where
  grants : Tab (Option GrantEntry)
  /-- sequenceIds of the multicast instances: port × 16 + message type. -/
  seq : Tab Nat
  followUps : List FollowUp
  clients : Tab ClientInst
  /-- Frames bound to a client instance that the management processor has not yet taken, with its master. -/
  inbox : List (Nat × Desc)
deriving DecidableEq, Repr

/-- A change of a tenant's key ring due at an edge (R216–R219), with the door it answers. A generated key has KEY_ID 0
until its edge draws one. -/
inductive RoleEdge where
  | install (tenant keyId origin key : Nat) (rotate : Bool) (fn : Fn) (door : Nat)
  | promote (tenant keyId : Nat) (fn : Fn) (door : Nat)
  | clear (tenant : Nat) (who : Option (Fn × Nat))
deriving DecidableEq, Repr

/-- A key waiting to be written into its slot (R216), and whether its promotion follows (R218). -/
structure PendingKey where
  key : Nat
  promote : Bool
deriving DecidableEq, Repr

structure NtsState where
  /-- What a scheduled command does at its edge. -/
  edges : List (Nat × RoleEdge)
  /-- Keys of PENDING slots, by key-store slot. -/
  pendingKeys : Tab (Option PendingKey)
  /-- Key-store slots whose old keys are zeroized at an edge. -/
  zeroize : List (Nat × Nat)
deriving DecidableEq, Repr


/-! ### References and discipline (10_references_and_discipline.md) -/

/-- A measurement as its unit delivers it (Table DISC.2). -/
inductive SampleKind where
  /-- Epoch time error g in 2^-16 ns, from the held position or the survey. -/
  | gnss (g : Int) (held : Bool)
  /-- An accepted edge: its stamp in 2^-32 ns, and that it is valid without FOLLOWER_STEP. -/
  | edge (stamp : Int) (good : Bool)
  /-- A gate: valid, its edges and its span in ps. -/
  | gate (good : Bool) (edges spanPs : Nat)
  /-- The offset of a completed exchange, in 2^-16 ns. -/
  | ptp (offset : Int)
deriving DecidableEq, Repr

/-- A measurement with its BT_COUNT and the offsets of R53 at that edge, where valid. -/
structure Sample where
  kind : SampleKind
  bt : Nat
  offA : Option Int
  offB : Option Int
deriving DecidableEq, Repr

/-- A reference beside its records. -/
structure RefDyn where
  /-- What has been measured since the last evaluation. -/
  samples : List Sample
  /-- The last accepted PPS edge since ABSENT (R249), in 2^-32 ns. -/
  lastStamp : Option Int
  /-- The evaluations in whose second an extra edge fell, one entry an edge. -/
  extras : List Nat
  /-- The latest ERR_H at full range (R287), the offsets of its base tick, and whether it is from a survey. -/
  errH : Int
  offA : Option Int
  offB : Option Int
  survey : Bool
  /-- ERR_H is of the latest second. -/
  fresh : Bool
  /-- The last 64 ERR_H with the evaluations they belong to. -/
  hist : List (Nat × Int)
  missRun : Nat
  qualRun : Nat
  holdRun : Nat
  /-- Exchanges completed and discarded in each of the last 16 seconds, newest first, and discards since. -/
  exchanges : List (Nat × Nat)
  discards : Nat
  stateEval : Nat
  stateBt : Nat
  /-- No measurement has come since the firmware last ran again (R267). -/
  restarted : Bool
deriving DecidableEq, Repr

/-- The servo of a master beside its records, as the firmware holds it. -/
structure ServoDyn where
  /-- SERVO_STATE as the firmware last set it, and the kind it publishes as ACTIVE_KIND. -/
  state : Nat
  kind : Nat
  /-- f_int in ppb; none: it starts from the rate of the current INC. -/
  fInt : Option Rat
  enWas : Bool
  /-- e of the last 64 updates, in 2^-16 ns. -/
  errs : List Int
  /-- f_int by evaluation, newest first (R255). -/
  fHist : List (Nat × Rat)
  /-- The evaluation of the last update with a QUALIFIED active reference, and its f_int. -/
  lastQual : Option (Nat × Rat)
  fHold : Option Rat
  lockRun : Nat
  unlockRun : Nat
  lockedSecs : Nat
  everLocked : Bool
  hadActive : Bool
  stateEval : Nat
  stateBt : Nat
  /-- The seed in progress: its BT_COUNT and Y's active reference; or the BT_COUNT of the last abort. -/
  seedBt : Nat
  seedRef : Nat
  /-- An initial set or a clear since the last evaluation. -/
  initial : Bool
deriving DecidableEq, Repr

structure DiscState where
  /-- The firmware has run since AON power-on. -/
  ran : Bool
  /-- Evaluations made. -/
  evalN : Nat
  refs : Tab RefDyn
  servos : Tab ServoDyn
  /-- Record writes that await the next evaluation (R268). -/
  writes : List (RecKind × Nat × Nat)
  /-- Bit m: SEED of master m awaits the next evaluation. -/
  seedReq : Nat
  /-- Initial sets by the firmware (R262) that await a whole TSH second: the master, ERR_H in 2^-16 ns and the first
  edge allowed. -/
  autoSets : List (Nat × Int × Nat)
deriving DecidableEq, Repr

/-! ### GNSS baseband (11_gnss_baseband.md) -/

/-- A preamble candidate (R279): the stream bit it opened at, its polarity, and the TOW count its first HOW gave. -/
structure Candidate where
  start : Nat
  inverted : Bool
  tow : Option Nat
deriving DecidableEq, Repr

/-- A word of the subframe being received: its parity verdict, its 24 data bits, and its 30 bits upright. -/
structure NavWord where
  ok : Bool
  data : Nat
  raw : Nat
deriving DecidableEq, Repr

/-- A tracking channel (Table GNSS.1). -/
structure Channel where
  prn : Nat
  /-- 0 IDLE, 1 PULL_IN, 2 TRACKING, 3 LOST. -/
  state : Nat
  since : Nat
  /-- The code phase in half chips and the Doppler in Hz that the acquisition gave (R274, R275). -/
  startCode : Nat
  startHz : Int
  codeLock : Bool
  /-- BT_COUNT at which CARRIER_LOCK was set, and the whole cycles of the phase then, in 2^-16 cycle (R284). -/
  lockBt : Option Nat
  phaseBase : Int
  /-- BT_COUNT since which CN0 has been below CN0_LOSS_DBHZ. -/
  lowBt : Option Nat
  /-- BT_COUNT at which the window of R278 began; the millisecond position of the bits. -/
  windowBt : Nat
  bitSync : Bool
  bitPos : Nat
  /-- Stream bits received since BIT_SYNC, and the last 64 of them with those before. -/
  bits : Nat
  stream : Nat
  cands : List Candidate
  frameSync : Bool
  /-- The stream bit at which the subframe being received began, its time of week in units of 6 s, and its words. -/
  bound : Nat
  tow : Nat
  words : List NavWord
  badRun : Nat
  /-- SLIP is due in the next epoch with carrier lock, and the flag the latest epoch carried. -/
  slip : Bool
  slipShown : Bool
  /-- The data stream is inverted (R279). -/
  inverted : Bool
  /-- Subframes received, newest first: ten 30-bit words each. -/
  subframes : List (List Nat)
  cn0 : Nat
  doppler : Int
  carrier : Int
  taps : List Nat
  excluded : Bool
deriving DecidableEq, Repr

/-- The ephemeris of a PRN (R281): the data bits of the ten words of subframes 1 to 3, the full week, the time of week at
reception and toe in s, and the health field. -/
structure Ephemeris where
  words : List Nat
  week : Nat
  tow : Nat
  toe : Nat
  health : Nat
deriving DecidableEq, Repr

/-- The subframes of a PRN that wait for their set to complete. -/
structure NavParts where
  sub1 : List Nat
  sub2 : List Nat
  sub3 : List Nat
  tow1 : Nat
  health : Option Nat
deriving DecidableEq, Repr

/-- An antenna beside its records. -/
structure Antenna where
  /-- The PRNs whose search waits for the engine, and whether it is to be cold. -/
  want : List (Nat × Bool)
  /-- Consecutive spectra in which a bin exceeded the threshold. -/
  bins : Tab Nat
  /-- BT_COUNT since which the interferer of a notch has stayed below the threshold (R272). -/
  below : Tab (Option Nat)
  /-- BT_COUNT since which RMS has exceeded RAIM_NS with six channels or more, and the last TSH second of it (R289). -/
  suspect : Option (Nat × Nat)
  /-- Sums of the survey (R288): fixes, positions and squares in mm, and the seconds that contributed. -/
  fixes : Nat
  sum : Int × Int × Int
  sqr : Int × Int × Int
  seconds : Nat
  lastSecond : Option Nat
deriving DecidableEq, Repr

/-- A search of the acquisition engine (R274): its antenna, its start, ACQ_NC, and for each PRN searched the first bin and
the number of bins. -/
structure AcqRun where
  ant : Nat
  fromBt : Nat
  nc : Nat
  prns : List (Nat × Nat × Nat)
deriving DecidableEq, Repr

structure GnssState where
  chans : Tab Channel
  ants : Tab Antenna
  /-- The measurement ring, oldest first, each block with its SEQUENCE (R285). -/
  ring : List (Nat × List Byte)
  blocks : Nat
  eph : Tab (Option Ephemeris)
  parts : Tab NavParts
  /-- The almanac page of a PRN: the data bits of its ten words (R281). -/
  alm : Tab (List Nat)
  acq : Option AcqRun
  /-- BT_COUNT of the latest epoch. -/
  epochBt : Option Nat
  /-- α and β as the 64 bits of subframe 4 page 18. -/
  iono : Nat
  /-- Record writes that await the next whole TSH second (R295). -/
  writes : List (RecKind × Nat × Nat)
  blFrom : Nat
  blSecond : Bool
  tripRun : Nat
  clearRun : Nat
  /-- The common set of the latest 1 Hz epoch (R291): the channel of ANT0, ANT1's phase minus ANT0's in 2^-16 cycle, and
  the transmit time. -/
  pairs : List (Nat × Int × Rat)
deriving DecidableEq, Repr

/-! ### Time-interval unit (12_time_interval_unit.md) -/

/-- A captured edge (R299, R304): coarse tick, stamp in 2^-32 ns, interval-scale value in ps with fine and trim taken off,
fine, and the reason code of a capture that is not valid. -/
structure Capture where
  tick : Nat
  stamp : Int
  z : Rat
  fine : Nat
  reason : Nat
  step : Bool
deriving DecidableEq, Repr

/-- An open gate (R305, R306): its start, first and last stamps in 2^-32 ns, and what it has found wrong. -/
structure Gate where
  start : Int
  first : Option Int
  last : Int
  count : Nat
  uncal : Bool
  untracked : Bool
  gap : Bool
deriving DecidableEq, Repr

/-- An input beside its records. -/
structure TiuInput where
  level : Bool
  lastStamp : Option Int
  waiting : Option Capture
  gate : Option Gate
  sequence : Nat
  calBt : Option Nat
  /-- The hits per bin of the last completed code-density pass, from which the table in use is built (R300). -/
  hits : List Nat
deriving DecidableEq, Repr

/-- A timing output beside its record, instants in 2^-40 ns of TSH: the pulse or high half in progress with its end, the
end of its cycle, the due instant it last took, and the writes that await their whole second (R312) with their BT_COUNT. -/
structure TiuOutput where
  active : Bool
  endAt : Rat
  cycleEnd : Rat
  last : Option Rat
  pending : List (Nat × Nat)
deriving DecidableEq, Repr

structure TiuState where
  inputs : Tab TiuInput
  outputs : Tab TiuOutput
  /-- The event FIFO (R307), oldest first. -/
  fifo : List (List Byte)
  /-- A record has been discarded: the next to enter carries LOST. -/
  lost : Bool
deriving DecidableEq, Repr

/-! ### Deferred effects and what leaves the device -/

/-- What the device sends out, or answers to an access: an interrupt message, a register read, a ring write-back, a
frame, a sideband block. -/
inductive Emission where
  /-- An MSI-X message of a function. -/
  | msix (fn : Fn) (vector : Nat)
  /-- The value returned by a BAR read. -/
  | barRead (fn : Fn) (offset value : Nat)
  /-- A write-back into a ring slot, with the frame or record bytes written to the buffer. -/
  | ringWrite (fn : Fn) (tx : Bool) (ring slot : Nat) (descriptor : Nat) (data : List Byte)
  /-- The bytes of a frame on the wire without FCS, its port, and whether its FCS is inverted. -/
  | frame (port : Nat) (bytes : List Byte) (inverted : Bool)
  /-- A frame cut short on the wire and ended with an error code (R89): what had been sent of it. -/
  | cutFrame (port : Nat) (bytes : List Byte)
  /-- The port begins or ends sending Remote Fault (R87, R91). -/
  | remoteFault (port : Nat) (on : Bool)
  /-- An edge of a timing output, with the level it takes and the TSH-scale instant in ps at which it leaves the ball
  (R308–R310). -/
  | output (output : Nat) (level : Bool) (at_ : Int)
  /-- A 36-byte frame of the OBS output (R457). -/
  | obs (data : List Byte)
  /-- What TDO shifts out after IDCODE (R474). -/
  | idcode (value : Nat)
  /-- An SMBus block read's bytes. -/
  | sideband (data : List Byte)
deriving DecidableEq, Repr

/-- An effect that takes place at a base-tick edge (R42, R348). A command that reports its edge names its door. -/
inductive EdgeOp where
  | write (kind : RecKind) (idx value : Nat)
  | rate (ts inc : Nat)
  | set (ts total reqNs : Nat) (fn : Fn) (door : Nat)
  | step (ts : Nat) (offset : Int) (fn : Fn) (door : Nat)
  | seed (ts : Nat)
  | clear (ts : Nat)
  | select (value : Nat)
  | steer (request : Nat) (fn : Fn) (door : Nat)
  | osc (value : Nat)
  | portRestart (port : Nat) (fn : Fn) (door : Nat)
  | nodeReset (node : Nat) (fn : Fn) (door : Nat)
  | jigSwap (fn : Fn) (door : Nat)
  | viewCreate (view record : Nat)
  | viewClear (view : Nat)
  | viewSmear (view record : Nat)
  | leapPolicy (record : Nat)
  /-- What a servo publishes with its INC (R253): the state, ACTIVE_KIND, DISP_BASE_NS and ROOT_DELAY_NS, and whether
  LAST_UPDATE advances. -/
  | servo (master : Nat) (inc : Option Nat) (state kind disp delay : Nat) (stamp : Bool)
  /-- The settings a reference forces on its input (R296). -/
  | tiuRef (input : Nat)
  /-- POLARITY, SQUELCH and OUT_TRIM_PS of an output (R312). -/
  | outFast (output value : Nat)
  /-- CONTROLLER changes (R321). -/
  | control (target : Nat)
  | bind (tenant ep vf view : Nat)
  | tenantView (tenant view : Nat) (fn : Fn) (door : Nat)
  | retire (tenant : Nat) (fn : Fn) (door : Nat)
  /-- A life-cycle state governs (R376). -/
  | lifeCycle (state : Nat)
  | faultClear (level index mask : Nat) (fn : Fn) (door : Nat)
  /-- LISTEN entry; the start of its exit, its shared area powered, FULL in effect (R435). -/
  | listen
  | listenExit
  | sharedOn
  | full
  /-- An SMBus block read whose page is latched (R473). -/
  | sideband (code : Nat)
  /-- GPS UTC parameters accepted at a BT_COUNT (R75), and a fresh evaluation of the leap state. -/
  | gpsLeap (g : GpsLeap) (accepted : Nat)
  | leapEval
  | leapTable (force : Bool) (expires : Nat) (entries : List (Nat × Nat)) (fn : Fn) (door : Nat)
deriving DecidableEq, Repr


/-! ### The device -/

/-- The device, apart from the commands that wait. -/
structure Dev where
  variant : Variant
  /-- BT_COUNT (R36). -/
  bt : Nat
  /-- The model's own counter: each free value a command draws is `Config.freeValue` at it. -/
  free : Nat
  /-- The records that differ from their reset values, keyed by `RecKind.key`. -/
  recs : Tab Nat
  /-- The statistics counters that are not zero, keyed by `statKey`. -/
  stats : Tab Nat
  /-- What takes effect at a base-tick edge: the edge's BT_COUNT and the effect. -/
  atEdge : List (Nat × EdgeOp)
  ts : TsState
  /-- The latest base ticks, newest first: 512 at the most (assumption log 74). -/
  hist : List Tick
  leap : LeapSt
  mbx : MbxState
  host : HostState
  obs : ObsState
  ports : Tab PortSt
  arr : ArrayState
  ct : ClientTable
  ptp : PtpState
  nts : NtsState
  disc : DiscState
  gnss : GnssState
  tiu : TiuState
  flt : FltState
  key : KeyState
  pwr : PwrState
  /-- What the latest command sent out of the device, oldest first. -/
  out : List Emission
deriving DecidableEq, Repr

/-- The state of the block: the device and the queue of waiting commands, first in, first out. -/
structure State where
  dev : Dev
  pending : List Instr
deriving DecidableEq, Repr

/-- A door that has never been used. -/
def Door.idle : Door :=
  { reqBuf := [], phase := .idle, posted := none, partial_ := none, resp := none, more := none, serving := none,
    discard := false, seqLow := 0, lastServedBt := 0 }

/-- A function after its reset: no Bus Master Enable, MSI-X off, every vector masked. -/
def FnState.reset : FnState :=
  { busMaster := false, msixEnable := false, inFlr := false, msix := [], pendingBits := 0, eventsInFlr := 0,
    deviceEvents := 0, deviceEventMask := 0, btLatch := 0, pageBase := 0, winSource := 0, eventOwed := false }

/-- An endpoint at power-on: PERST asserted, link down. -/
def EpState.reset : EpState := { perst := true, linkUp := false, holdoff := false, summaryOwed := false }

def RingState.reset : RingState := { posted := [], holdoff := false, irqOwed := false, inFlight := [] }

/-- R43 at 10 MHz. -/
def Timescale.reset : Timescale :=
  { sec := 0, ns := 0, frac40 := 0, inc := 100 * 2 ^ 40, set := false, stepSource := 0 }

def Follower.reset : Follower :=
  { tracking := false, base := 0, frac := 0, incOld := 0, inc := 0, err := 0, load := none, step := false, stepFrom := none,
    scale := 0, ticks := 0 }

/-- Blank OTP (R375, R402). -/
def Otp.blank : Otp :=
  { intents := [], stateWord := 0, primaryEp := 0, standbyEp := 0, standbyValid := false, pinMap := 0,
    obsDeployedEn := false, drs := 0, wrapId := 0, wrapForm := 0, wrapKey := 0, wrapState := 0, fwSvnTherm := 0,
    jigSvnTherm := 0, tags := [] }

/-- No image. -/
def ImageFacts.none : ImageFacts :=
  { length := 0, version := 0, svn := 0, tableAbi := 0, jigVersion := 0, jigSvn := 0, jigAbi := 0, jigMask := 0, jigKey := 0,
    jigBytes := [], ucodeVersion := 0, reason := 0 }

/-- An erased slot of the flash. -/
def FlashSlot.erased : FlashSlot := { factory := none, bytes := [], prefs := [] }

/-- The image the device is shipped with in slot 0 (assumption log 5). -/
def FlashSlot.shipped : FlashSlot :=
  { factory := some { length := 416, version := 0, svn := 0, tableAbi := 0, jigVersion := 0, jigSvn := 0, jigAbi := 0,
                      jigMask := 0x1F, jigKey := 0, jigBytes := [], ucodeVersion := 0, reason := 0 },
    bytes := [], prefs := [] }

def ObsState.reset : ObsState :=
  { ctr := [], phase := 0, settled := [], asserted := [], snaps := [], snapCount := 0, gauge := none, records := [], post := 0, lost := 0,
    obsLost := 0, obsOff := false, rearmBt := 0 }

def PortSt.reset : PortSt :=
  { queues := [], cur := none, rxCur := none, lossFrom := none, remoteFrom := none, sendsFault := false, skew := [],
    paused := [], holdoffEnd := [], loop := none, anyPausedFrom := none, q7End := 0, kerfIdle := none, beaconBt := 0 }

def NodeDyn.reset : NodeDyn :=
  { wakeBt := none, wakeUs := 0, gateBt := none, rewake := none, lastGrantBt := 0, idleMs := 0, lastIssue := 7
    logicOnly := false, resetEnd := none, reload := false, doors := [] }

def ArrayState.reset : ArrayState :=
  { queue := [], ctx := [], nodes := [], lanesOut := 0, lanes := [], laneQueue := [], laneFull := [], slotUses := []
    laneUses := [], active := ⟨0, 0, 0, 0x1F, [], 0⟩, staged := none, nextOrder := 0, nextPacket := 0, served := [] }

def ClientTable.reset : ClientTable := { entries := [], key := 0, sweep := 0, sweepAt := 0, retainedFrom := none }

def ClientInst.reset : ClientInst :=
  { exchange := none, result := none, seqDelay := 0, seqSignaling := 0, delayBt := 0, masters := [], granted := [] }

def PtpState.reset : PtpState := { grants := [], seq := [], followUps := [], clients := [], inbox := [] }

def NtsState.reset : NtsState := { edges := [], pendingKeys := [], zeroize := [] }

def RefDyn.reset : RefDyn :=
  { samples := [], lastStamp := none, extras := [], errH := 0, offA := none, offB := none, survey := false, fresh := false,
    hist := [], missRun := 0, qualRun := 0, holdRun := 0, exchanges := [], discards := 0, stateEval := 0,
    stateBt := 0, restarted := false }

def ServoDyn.reset : ServoDyn :=
  { state := 0, kind := 7, fInt := none, enWas := true, errs := [], fHist := [], lastQual := none, fHold := none,
    lockRun := 0, unlockRun := 0, lockedSecs := 0, everLocked := false, hadActive := false, stateEval := 0, stateBt := 0,
    seedBt := 0, seedRef := 15, initial := false }

def DiscState.reset : DiscState :=
  { ran := false, evalN := 0, refs := [], servos := [], writes := [], seedReq := 0, autoSets := [] }

def Channel.idle : Channel :=
  { prn := 0, state := 0, since := 0, startCode := 0, startHz := 0, codeLock := false, lockBt := none, phaseBase := 0,
    lowBt := none, windowBt := 0, bitSync := false, bitPos := 0, bits := 0, stream := 0, cands := [], frameSync := false,
    bound := 0, tow := 0, words := [], badRun := 0, slip := false, slipShown := false, inverted := false, subframes := [],
    cn0 := 0, doppler := 0, carrier := 0, taps := [], excluded := false }

def NavParts.none : NavParts := { sub1 := [], sub2 := [], sub3 := [], tow1 := 0, health := Option.none }

def Antenna.reset : Antenna :=
  { want := [], bins := [], below := [], suspect := none, fixes := 0, sum := (0, 0, 0), sqr := (0, 0, 0), seconds := 0,
    lastSecond := none }

def GnssState.reset : GnssState :=
  { chans := [], ants := [], ring := [], blocks := 0, eph := [], parts := [], alm := [], acq := none, epochBt := none,
    iono := 0, writes := [], blFrom := 0,
    blSecond := false, tripRun := 0, clearRun := 0, pairs := [] }

def TiuInput.reset : TiuInput :=
  { level := false, lastStamp := none, waiting := none, gate := none, sequence := 0, calBt := none, hits := [] }

def TiuOutput.reset : TiuOutput := { active := false, endAt := 0, cycleEnd := 0, last := none, pending := [] }

def TiuState.reset : TiuState := { inputs := [], outputs := [], fifo := [], lost := false }

def TsState.reset : TsState :=
  { tsa := Timescale.reset, tsb := Timescale.reset, tsh := Timescale.reset, fol := [], updBtA := 0, updBtB := 0 }

def LeapSt.reset : LeapSt :=
  { host := [], hostExpired := false, gps := none, gpsSeen := [], gpsLapsed := false, pending := none, last := none,
    differ := false, smear := [], hostExpires := 0 }

def MbxState.reset : MbxState := { doors := [], locks := [], v := 0, finish := [] }

/-- No host has done anything yet; control is with the endpoint given (R319). -/
def HostState.reset (ctl : Nat) : HostState :=
  { fns := [], eps := [], rings := [], buckets := [], lapseFrom := 0, lapseRuns := false, formerCtl := ctl, retireEnd := [],
    snapGone := [] }

def FltState.reset : FltState :=
  { queue := [], echoes := [], episodes := [], graceEnd := none, graceHeld := false, lastBt := [], injectMode := [],
    aliveFrom := none }

/-- Keys at AON power-on: the key store EMPTY, OTP and flash as they are (Table BOOT.4), the life-cycle state as sensed;
IDCODE is the test port's instruction after its own reset. -/
def KeyState.powerOn (otp : Otp) (flash : Tab FlashSlot) (lifeCycle : Nat) : KeyState :=
  { otp := otp, asym := [], nts := [], s2v := [], benchQueue := [], running := [], lastServed := 0, rngWithheld := false,
    otpBusy := false, flash := flash, lifeCycle := lifeCycle, jtag := .idcode }

/-- The release of the AON power-on reset (Table BOOT.5): MAIN_EN is raised 0.5 ms later, 5,000 base ticks. -/
def PwrState.powerOn (pinMap : Nat) : PwrState :=
  { aonUp := true, phase := .mainOff, bootKind := 0, resetN := none, devReset := false, resetDue := none, reloadDue := none,
    halted := false, wakeFrom := none, readyBt := 0, running := ImageFacts.none, confirmFrom := 0, confirmS := 0,
    railFailed := false, railsOut := 0, plls := 0, sharedGated := false, mainEnAt := some 5000, mainEnBt := 0, railsBt := 0,
    resetFrom := 0,
    ktFrom := none, pinMap := pinMap, held := none, fwStopBt := 0, xspiHigh := none, xspiMode := .first
    tablesLost := false }

/-- The device at the release of the AON power-on reset, of a variant, with what OTP and flash hold. -/
def Dev.powerOn (v : Variant) (free : Nat) (otp : Otp) (flash : Tab FlashSlot) (lifeCycle : Nat) : Dev :=
  { variant := v, bt := 0, free := free, recs := [], stats := [], atEdge := [], ts := TsState.reset, hist := [], leap := LeapSt.reset,
    mbx := MbxState.reset, host := HostState.reset otp.primaryEp, obs := ObsState.reset, ports := [],
    arr := ArrayState.reset, ct := { ClientTable.reset with retainedFrom := some 0 }, ptp := PtpState.reset,
    nts := NtsState.reset, disc := DiscState.reset, gnss := GnssState.reset, tiu := TiuState.reset, flt := FltState.reset,
    key := KeyState.powerOn otp flash lifeCycle, pwr := PwrState.powerOn otp.pinMap, out := [] }

/-- The machine right after reset: an AX8800-F at the release of its first AON power-on reset, with blank OTP and the
shipped image in slot 0 (R43, R363, R375, Table BOOT.4; assumption log 5). -/
def State.reset : State := { dev := Dev.powerOn .f 0 Otp.blank [(0, FlashSlot.shipped)] 0, pending := [] }

end Sys2Proof.Machine
end

