-- ==== Sys2Proof/Machine/Records.lean ====
section
/-! DEFINITION. The records of the device: their kinds, field maps and reset values, and the reads and writes of them. -/

namespace Sys2Proof.Machine

open Sys2Proof

def RecKind.code : RecKind → Nat
  | .tsc => 0
  | .steer => 1
  | .follower => 2
  | .view => 3
  | .leap => 4
  | .octet => 5
  | .port => 6
  | .portStatus => 7
  | .wakePattern => 8
  | .beacon => 9
  | .shim => 10
  | .launch => 11
  | .nodeStatus => 12
  | .nodeFlags => 13
  | .array => 14
  | .tenantArray => 15
  | .jigStatus => 16
  | .addrEntry => 17
  | .ntp => 18
  | .bcast => 19
  | .access => 20
  | .ct => 21
  | .cls => 22
  | .nts => 23
  | .keyRing => 24
  | .ptp => 25
  | .ptpPort => 26
  | .ptpClient => 27
  | .ref => 28
  | .refStatus => 29
  | .servo => 30
  | .servoStatus => 31
  | .select => 32
  | .gnssDev => 33
  | .gnssAnt => 34
  | .gnssAntStatus => 35
  | .gnssChan => 36
  | .gnssPos => 37
  | .gnssBase => 38
  | .gnssSol => 39
  | .tiuIn => 40
  | .tiuInStatus => 41
  | .tiuDev => 42
  | .ppsOut => 43
  | .fout => 44
  | .eventWord => 45
  | .ring => 46
  | .endpoint => 47
  | .controller => 48
  | .tenant => 49
  | .device => 50
  | .fwStatus => 51
  | .asymSlot => 52
  | .bench => 53
  | .lifeCycle => 54
  | .faultRec => 55
  | .faultSrc => 56
  | .collector => 57
  | .faultStatus => 58
  | .resetCause => 59
  | .power => 60
  | .ctrEvent => 61
  | .scribe => 62
  | .scribeHdr => 63
  | .scribeSeg => 64
  | .obs => 65

/-- The length of a record in bytes. -/
def RecKind.bytes : RecKind → Nat
  | .tsc => 32
  | .steer => 48
  | .follower => 16
  | .view => 48
  | .leap => 32
  | .octet => 16
  | .port => 64
  | .portStatus => 32
  | .wakePattern => 136
  | .beacon => 32
  | .shim => 64
  | .launch => 16
  | .nodeStatus => 4
  | .nodeFlags => 4
  | .array => 16
  | .tenantArray => 16
  | .jigStatus => 32
  | .addrEntry => 32
  | .ntp => 32
  | .bcast => 32
  | .access => 24
  | .ct => 16
  | .cls => 16
  | .nts => 32
  | .keyRing => 32
  | .ptp => 48
  | .ptpPort => 32
  | .ptpClient => 32
  | .ref => 48
  | .refStatus => 32
  | .servo => 48
  | .servoStatus => 48
  | .select => 32
  | .gnssDev => 32
  | .gnssAnt => 32
  | .gnssAntStatus => 32
  | .gnssChan => 16
  | .gnssPos => 48
  | .gnssBase => 48
  | .gnssSol => 48
  | .tiuIn => 16
  | .tiuInStatus => 32
  | .tiuDev => 16
  | .ppsOut => 16
  | .fout => 16
  | .eventWord => 4
  | .ring => 32
  | .endpoint => 16
  | .controller => 16
  | .tenant => 32
  | .device => 16
  | .fwStatus => 64
  | .asymSlot => 32
  | .bench => 16
  | .lifeCycle => 32
  | .faultRec => 32
  | .faultSrc => 16
  | .collector => 16
  | .faultStatus => 32
  | .resetCause => 16
  | .power => 32
  | .ctrEvent => 16
  | .scribe => 32
  | .scribeHdr => 16
  | .scribeSeg => 16
  | .obs => 16

/-- The field map of a record; none for the blocks the device composes. -/
def RecKind.fields : RecKind → List Field
  | .tsc => tscFields
  | .steer => steerFields
  | .follower => folFields
  | .view => viewFields
  | .leap => leapFields
  | .octet => octFields
  | .port => prtFields
  | .portStatus => prtStFields
  | .wakePattern => wakeFields
  | .beacon => bcnFields
  | .shim => shmFields
  | .launch => lchFields
  | .nodeStatus => nodeStFields
  | .nodeFlags => nodeFlFields
  | .array => arrFields
  | .tenantArray => tArrFields
  | .jigStatus => jigFields
  | .addrEntry => addrFields
  | .ntp => ntpFields
  | .bcast => bcFields
  | .access => accFields
  | .ct => ctFields
  | .cls => clsFields
  | .nts => ntsFields
  | .keyRing => keyRFields
  | .ptp => ptpFields
  | .ptpPort => pPortFields
  | .ptpClient => pCliFields
  | .ref => refFields
  | .refStatus => refStFields
  | .servo => srvFields
  | .servoStatus => srvStFields
  | .select => selFields
  | .gnssDev => gDevFields
  | .gnssAnt => gAntFields
  | .gnssAntStatus => gAntStFields
  | .gnssChan => gChFields
  | .gnssPos => gPosFields
  | .gnssBase => gBlFields
  | .gnssSol => gSolFields
  | .tiuIn => tInFields
  | .tiuInStatus => tInStFields
  | .tiuDev => tDevFields
  | .ppsOut => ppsFields
  | .fout => foutFields
  | .eventWord => evFields
  | .ring => rngFields
  | .endpoint => epFields
  | .controller => ctlFields
  | .tenant => tenFields
  | .device => dRecFields
  | .fwStatus => fwFields
  | .asymSlot => slotFields
  | .bench => benchFields
  | .lifeCycle => lcFields
  | .faultRec => fRecFields
  | .faultSrc => fSrcFields
  | .collector => fColFields
  | .faultStatus => fStFields
  | .resetCause => rCauseFields
  | .power => powFields
  | .ctrEvent => cEvFields
  | .scribe => scrFields
  | .scribeHdr => []
  | .scribeSeg => []
  | .obs => obsFields

/-- Where a record stands in the table of records. -/
def RecKind.key (k : RecKind) (i : Nat) : Nat := k.code * 2 ^ 24 + i

/-- The reference kind (R247): 0 GNSS, 1 PPS, 2 FREQ, 3 PTP. -/
def refKind (r : Nat) : Nat := if r < 2 then 0 else if r < 6 then 1 else if r < 8 then 2 else 3

/-- The default class, the flags F, C, E, Z and the reset of FENCE of a fault source (Table FLT.1), by SOURCE_ID;
class 0 where no source has the type code. -/
structure SrcInfo where
  cls : Nat
  fixed : Bool
  checker : Bool
  echo : Bool
  canFence : Bool
  fence : Bool
deriving DecidableEq, Repr

def srcCode (id : Nat) : Nat := id / 512 % 128

def srcInst (id : Nat) : Nat := id % 512

def srcInfo (id : Nat) : SrcInfo :=
  let i := srcInst id
  let plain (c : Nat) : SrcInfo := ⟨c, false, false, false, false, false⟩
  let chk (c : Nat) : SrcInfo := ⟨c, false, true, false, false, false⟩
  let echo (c : Nat) : SrcInfo := ⟨c, false, false, true, false, false⟩
  let fixed (c : Nat) : SrcInfo := ⟨c, true, false, false, false, false⟩
  match srcCode id with
  | 0x01 => chk 2
  | 0x02 =>
    if 144 ≤ i ∧ i ≤ 287 then ⟨3, false, true, false, true, true⟩
    else if 288 ≤ i ∧ i ≤ 291 then chk 4 else chk 3
  | 0x03 => if 16 ≤ i ∧ i ≤ 31 then ⟨3, false, true, false, true, true⟩ else chk 3
  | 0x04 => chk 4
  | 0x05 => plain 3
  | 0x06 => chk 2
  | 0x07 => chk 3
  | 0x08 => plain 3
  | 0x09 => plain 3
  | 0x0A => plain 4
  | 0x0B => fixed 5
  | 0x0C => plain 1
  | 0x0D => plain 3
  | 0x10 => if i = 0 then plain 4 else plain 3
  | 0x11 => plain 3
  | 0x12 => plain 3
  | 0x13 => plain 4
  | 0x14 => plain 3
  | 0x20 => ⟨1, false, false, false, true, false⟩
  | 0x21 => plain 3
  | 0x22 => ⟨3, false, false, false, true, true⟩
  | 0x23 => echo 1
  | 0x24 => fixed 5
  | 0x25 => echo 1
  | 0x30 => plain 1
  | 0x31 => plain 3
  | 0x32 => plain 3
  | 0x33 => plain 3
  | 0x34 => plain 3
  | 0x35 => echo 1
  | 0x36 => plain 1
  | 0x37 => echo 1
  | 0x40 => plain 3
  | 0x41 => plain 1
  | 0x42 => plain 1
  | 0x43 => plain 1
  | 0x44 => plain 3
  | 0x45 => plain 3
  | 0x46 => plain 3
  | 0x47 => plain 3
  | 0x48 => plain 3
  | 0x49 => plain 3
  | 0x4A => plain 3
  | 0x4B => plain 1
  | 0x50 => plain 3
  | 0x51 => plain 1
  | 0x52 => plain 1
  | 0x53 => plain 1
  | 0x54 => plain 3
  | 0x55 => plain 1
  | 0x56 => plain 3
  | 0x58 => plain 3
  | 0x59 => plain 1
  | 0x60 => plain 1
  | 0x61 => plain 3
  | 0x62 => plain 3
  | 0x63 => plain 3
  | 0x64 => fixed 4
  | 0x65 => fixed 5
  | _ => plain 0

/-- The source record at AON power-on (Tables FLT.1, FLT.5). -/
def srcRecord (id : Nat) : Nat :=
  let s := srcInfo id
  setF (setF (setF (setF (setF (setF (setF 0 FSrc.source id) FSrc.cls s.cls) FSrc.defaultClass s.cls)
    FSrc.fixed (b2n s.fixed)) FSrc.fence (b2n s.fence)) FSrc.echo (b2n s.echo)) FSrc.checker (b2n s.checker)

/-- The node level and index of a node code (R404): 0–127 engines, 128 + k N1-k, 144 + j N2-j, 148 N3. -/
def nodeLevel (c : Nat) : Nat := if c < 128 then 0 else if c < 144 then 1 else if c < 148 then 2 else 3

def nodeIndex (c : Nat) : Nat := if c < 128 then c else if c < 144 then c - 128 else if c < 148 then c - 144 else 0

/-- The mode and the fixed flag of an event counter (Tables OBS.2–OBS.4), by counter index. -/
def ctrDefault (i : Nat) : Nat × Bool :=
  if i < 6144 then
    let k := i % 48
    if k < 8 ∨ (41 ≤ k ∧ k ≤ 45) ∨ k = 47 then (1, true)
    else if k < 16 ∨ k = 33 ∨ k = 38 then (1, false) else (0, false)
  else if i < 6816 then
    let k := (i - 6144) % 32
    if k = 0 ∨ k = 19 then (1, true)
    else if k = 3 ∨ k = 4 ∨ k = 17 ∨ k = 20 ∨ k = 21 ∨ k = 22 then (1, false) else (0, false)
  else (1, true)

/-- The record a kind has after the reset that clears it. -/
def resetRec (v : Variant) (k : RecKind) (i : Nat) : Nat :=
  let r := resetOf k.fields
  match k with
  | .tsc => setF r Tsc.inc (100 * 2 ^ 40)
  | .nodeStatus => setF (setF r NodeSt.level (nodeLevel i)) NodeSt.index (nodeIndex i)
  | .ref =>
    let k := refKind i
    let r := setF r Ref.kind k
    let r := setF r Ref.qualS (if k = 0 then 60 else if k = 1 then 30 else if k = 2 then 60 else 120)
    let r := setF r Ref.jitterNs (if k = 2 then 0 else if k = 3 then 1000 else 100)
    setF r Ref.refDispNs (if k = 0 then 50 else if k = 1 then 100 else if k = 2 then 1000 else 500)
  | .servo =>
    setF r Srv.rank (if i = 0 then 0x02FFFFFF else if v = .f then 0x13FFFFFF else 0x3FFFFFFF)
  | .ring =>
    if i / 128 % 1025 = 0 then setF r Rng.vector (16 + i % 64 % 48)
    else setF r Rng.vector (if i % 128 < 64 then 1 else 2)
  | .faultSrc => srcRecord i
  | .ctrEvent =>
    setF (setF (setF r CEv.mode (ctrDefault i).1) CEv.fixed (b2n (ctrDefault i).2)) CEv.index i
  | .fwStatus =>
    setF (setF (setF r (Fw.sSlotState 0) 3) (Fw.sWrittenBytes 0) 416) (Fw.sSlotState 1) 0
  | _ => r

/-- A record of the device. -/
def getRec (d : Dev) (k : RecKind) (i : Nat) : Nat := Tab.get (resetRec d.variant k i) d.recs (k.key i)

/-- The device with a record replaced. -/
def setRec (d : Dev) (k : RecKind) (i v : Nat) : Dev :=
  { d with recs := Tab.set (resetRec d.variant k i) d.recs (k.key i) v }

/-- A field of a record. -/
def fld (d : Dev) (k : RecKind) (i : Nat) (f : Fld) : Nat := getF (getRec d k i) f

/-- A one-bit field of a record. -/
def flag (d : Dev) (k : RecKind) (i : Nat) (f : Fld) : Bool := decide (fld d k i f = 1)

/-- A signed field of a record. -/
def sfld (d : Dev) (k : RecKind) (i : Nat) (f : Fld) : Int := getS (getRec d k i) f

def setFld (d : Dev) (k : RecKind) (i : Nat) (f : Fld) (v : Nat) : Dev := setRec d k i (setF (getRec d k i) f v)

def setFlag (d : Dev) (k : RecKind) (i : Nat) (f : Fld) (b : Bool) : Dev := setFld d k i f (b2n b)

/-- A counting field of a record counted up; it saturates. -/
def bumpFld (d : Dev) (k : RecKind) (i : Nat) (f : Fld) (n : Nat := 1) : Dev :=
  setRec d k i (bumpF (getRec d k i) f n)

/-- A record with the fields a host may write taken from another (R348: RO and RC fields keep their values). -/
def mergeRw (fs : List Field) (cur new : Nat) : Nat :=
  fs.foldl (fun r f => if f.access = .rw ∨ f.access = .wo then setF r f.at_ (getF new f.at_) else r) cur

/-- A record after a read that clears its RC fields (R9). -/
def clearRc (fs : List Field) (r : Nat) : Nat :=
  fs.foldl (fun r f => if f.access = .rc then setF r f.at_ 0 else r) r

/-- The device after the RC fields of a record have been read. -/
def readClear (d : Dev) (k : RecKind) (i : Nat) : Dev := setRec d k i (clearRc k.fields (getRec d k i))

/-- The records of a kind that differ from their reset values: index and record. -/
def listed (d : Dev) (k : RecKind) : List (Nat × Nat) :=
  (d.recs.filter fun e => e.1 / 2 ^ 24 = k.code).map fun e => (e.1 % 2 ^ 24, e.2)

/-- The device with the records of some kinds back at their reset values. -/
def dropRecs (d : Dev) (p : Nat → Bool) : Dev := { d with recs := d.recs.filter fun e => !p (e.1 / 2 ^ 24) }

/-- The bytes of a record, little-endian (R8). -/
def recBytes (k : RecKind) (v : Nat) : List Byte := leBytes k.bytes v

/-! ### Statistics -/

/-- The statistics blocks of the subject chapters. -/
inductive StatKind where
  /-- Door statistics (Table MBX.8), by door key. -/
  | door
  /-- Port statistics (Table PORT.7). -/
  | port
  /-- Launch statistics of a port (Table STAMP.9). -/
  | launch
  /-- A tenant's NTP statistics (Table NTP.9). -/
  | ntp
  /-- Classifier counters of a port. -/
  | cls
  /-- A tenant's NTS statistics (Table NTS.10). -/
  | nts
  /-- A tenant's PTP statistics (Table PTP.8). -/
  | ptp
  /-- RAISED (0) and SUPPRESSED (1) of a fault source (R420). -/
  | fault
deriving DecidableEq, Repr

def StatKind.code : StatKind → Nat
  | .door => 0 | .port => 1 | .launch => 2 | .ntp => 3 | .cls => 4 | .nts => 5 | .ptp => 6 | .fault => 7

/-- Where counter n of a block stands. -/
def statKey (k : StatKind) (i n : Nat) : Nat := k.code * 2 ^ 32 + i * 64 + n

def getStat (d : Dev) (k : StatKind) (i n : Nat) : Nat := Tab.get 0 d.stats (statKey k i n)

def setStat (d : Dev) (k : StatKind) (i n v : Nat) : Dev :=
  { d with stats := Tab.set 0 d.stats (statKey k i n) v }

/-- A counter of w bits counted up, saturating. -/
def bumpStat (d : Dev) (k : StatKind) (i n w : Nat) (by_ : Nat := 1) : Dev :=
  setStat d k i n (satAdd w (getStat d k i n) by_)

/-- Every counter of one block back at zero. -/
def clearStats (d : Dev) (k : StatKind) (i : Nat) : Dev :=
  { d with stats := d.stats.filter fun e => e.1 / 64 ≠ statKey k i 0 / 64 }

/-- Every counter of some kinds of block back at zero. -/
def dropStats (d : Dev) (p : Nat → Bool) : Dev := { d with stats := d.stats.filter fun e => !p (e.1 / 2 ^ 32) }

end Sys2Proof.Machine
end

