-- ==== Sys2Proof/Machine/Ops.lean ====
section
/-! DEFINITION. Operations every family uses: the units present, base ticks and instants, free values, raises on their
way to the fault collector, effects due at an edge, and what leaves the device. -/

namespace Sys2Proof.Machine

open Sys2Proof

/-! ### Units present (R1, R14, R15, Table SCOPE.1) -/

def laneCount : Variant → Nat
  | .f => 16 | .p => 8 | .e => 4

def engineCount : Variant → Nat
  | .f => 128 | .p => 64 | .e => 32

def n1Count (v : Variant) : Nat := engineCount v / 8

def n2Count (v : Variant) : Nat := engineCount v / 32

def aeadCount : Variant → Nat
  | .f => 32 | .p => 16 | .e => 0

def antennaCount : Variant → Nat
  | .f => 2 | _ => 1

def Variant.code : Variant → Nat
  | .f => 0 | .p => 1 | .e => 2

/-- A node of the responder array is present. -/
def nodePresent (v : Variant) (level index : Nat) : Bool :=
  match level with
  | 0 => decide (index < engineCount v)
  | 1 => decide (index < n1Count v)
  | 2 => decide (index < n2Count v)
  | 3 => decide (index = 0)
  | _ => false

/-- The node code of a level and index (R404). -/
def nodeCode (level index : Nat) : Nat :=
  if level = 0 then index else if level = 1 then 128 + index else if level = 2 then 144 + index else 148

/-- The node codes present, in node-code order. -/
def nodesPresent (v : Variant) : List Nat :=
  (List.range 149).filter fun c => nodePresent v (nodeLevel c) (nodeIndex c)

/-- The level-1 nest of an engine and the level-2 nest of a level-1 nest (R14). -/
def parentOf (c : Nat) : Option Nat :=
  if c < 128 then some (128 + c / 8) else if c < 144 then some (144 + (c - 128) / 4)
  else if c < 148 then some 148 else none

/-- A node and its ancestors up to N3. -/
def lineage (c : Nat) : List Nat :=
  match parentOf c with
  | none => [c]
  | some p =>
    match parentOf p with
    | none => [c, p]
    | some q =>
      match parentOf q with
      | none => [c, p, q]
      | some r => [c, p, q, r]

/-- One node is the other, or an ancestor of it. -/
def isAncestorOrSelf (a c : Nat) : Bool := (lineage c).contains a

/-- The present descendants of a node, itself apart. -/
def descendants (v : Variant) (c : Nat) : List Nat := (nodesPresent v).filter fun x => x ≠ c ∧ isAncestorOrSelf c x

/-- Port p starts a port in the lane configuration in effect (R15): in 400G mode the octet's first lane, in the 100G
modes each even lane, in the 25G and 10G modes each lane. -/
def portStarts (d : Dev) (p : Nat) : Bool :=
  let m := fld d .octet (p / 8) Oct.mode
  decide (p < laneCount d.variant) &&
    (if m = 4 then decide (p % 8 = 0) else if m = 1 ∨ m = 2 ∨ m = 3 then decide (p % 2 = 0) else decide (m = 5 ∨ m = 6))

/-- The ports that start, as a mask. -/
def portMask (d : Dev) : Nat :=
  (List.range 16).foldl (fun m p => if portStarts d p then m + 2 ^ p else m) 0

def portList (d : Dev) : List Nat := (List.range 16).filter fun p => portStarts d p

/-! ### Base ticks -/

/-- The period in nanoseconds of an OSC_IN frequency by its code: 5, 10, 20 and 25 MHz (R7). -/
def periodNs (code : Nat) : Nat := match code with | 0 => 200 | 1 => 100 | 2 => 50 | _ => 40

/-- One base tick in ns, by the declared OSC_IN frequency (R7, R39). -/
def btNs (d : Dev) : Nat := periodNs (fld d .device 0 DRec.oscFreq)

/-- INC_NOM in units of 2^-40 ns (R39). -/
def incNom (d : Dev) : Nat := btNs d * 2 ^ 40

def usToBt (d : Dev) (us : Nat) : Nat := us * 1000 / btNs d

def msToBt (d : Dev) (ms : Nat) : Nat := ms * 1000000 / btNs d

/-- Whole milliseconds of a number of base ticks. -/
def btToMs (d : Dev) (n : Nat) : Nat := n * btNs d / 1000000

def btToS (d : Dev) (n : Nat) : Nat := n * btNs d / 1000000000

/-- The first base-tick edge after a command reaches the device. -/
def nextEdge (d : Dev) : Nat := d.bt + 1

/-- An effect due at an edge; effects of one edge keep the order in which they were requested. -/
def deferAt (d : Dev) (n : Nat) (op : EdgeOp) : Dev := { d with atEdge := d.atEdge ++ [(n, op)] }

def defer (d : Dev) (op : EdgeOp) : Dev := deferAt d (nextEdge d) op

/-! ### Free values and rounding -/

/-- A value the spec leaves open: the device draws the next one. -/
def draw (d : Dev) : Nat × Dev := (Config.freeValue d.free, { d with free := d.free + 1 })

/-- A shown quantity whose rounding the spec does not give: its value when whole, one of its neighbours otherwise. -/
def roundFree (q : Rat) : Int :=
  if q.den = 1 then q.num else if Config.roundsUp q then q.floor + 1 else q.floor

/-! ### Timescale values (R11, R35, R37) -/

/-- A timescale's value in units of 2^-40 ns. -/
def Timescale.total (t : Timescale) : Nat := (t.sec * 10 ^ 9 + t.ns) * 2 ^ 40 + t.frac40

/-- A timescale with its value given in units of 2^-40 ns; SECONDS wraps at 2^48. -/
def Timescale.withTotal (t : Timescale) (n : Nat) : Timescale :=
  { t with sec := n / 2 ^ 40 / 10 ^ 9 % 2 ^ 48, ns := n / 2 ^ 40 % 10 ^ 9, frac40 := n % 2 ^ 40 }

/-- The value as NS96, in units of 2^-32 ns (R37). -/
def Timescale.ns96 (t : Timescale) : Nat := t.total / 2 ^ 8

/-- The value as TW96 (R11, R12). -/
def Timescale.tw96 (t : Timescale) : Nat := t.sec * 2 ^ 48 + t.ns * 2 ^ 16 + t.frac40 / 2 ^ 24

def getTs (d : Dev) (i : Nat) : Timescale := if i = 0 then d.ts.tsa else if i = 1 then d.ts.tsb else d.ts.tsh

def setTs (d : Dev) (i : Nat) (t : Timescale) : Dev :=
  { d with ts := if i = 0 then { d.ts with tsa := t } else if i = 1 then { d.ts with tsb := t }
                 else { d.ts with tsh := t } }

/-- The current TSH in TAI seconds and in units of 2^-32 ns. -/
def tshSec (d : Dev) : Nat := d.ts.tsh.sec

def tshNs96 (d : Dev) : Nat := d.ts.tsh.ns96

/-- The base tick a stamp belongs to (R63): the latest whose TSH does not exceed it. A stamp older than every tick kept
belongs to the oldest of them (assumption log 74). -/
def tickIn : List Tick → Nat → Option Tick
  | [], _ => none
  | [t], _ => some t
  | t :: ts, s => if t.tsh ≤ s then some t else tickIn ts s

def tickOf (d : Dev) (s : Nat) : Option Tick := tickIn d.hist s

/-! ### Fault sources and raises (R403, R406, R407) -/

def srcId (code inst : Nat) : Nat := code * 512 + inst

/-- The number of instances Table FLT.1 gives a type code. -/
def srcInstances (code : Nat) : Nat :=
  match code with
  | 0x01 => 360 | 0x02 => 360 | 0x03 => 33 | 0x08 => 512 | 0x09 => 48 | 0x0D => 4 | 0x10 => 5 | 0x11 => 16
  | 0x12 => 8 | 0x13 => 8 | 0x20 => 128 | 0x21 => 149 | 0x22 => 32 | 0x23 => 32 | 0x25 => 128 | 0x30 => 16
  | 0x31 => 16 | 0x32 => 16 | 0x33 => 16 | 0x34 => 18 | 0x35 => 16 | 0x36 => 16 | 0x37 => 4 | 0x42 => 256
  | 0x43 => 10 | 0x44 => 2 | 0x49 => 2 | 0x4A => 2 | 0x4B => 2 | 0x50 => 2 | 0x51 => 2 | 0x52 => 2 | 0x53 => 2
  | 0x54 => 2 | 0x58 => 8 | _ => 1

/-- The instance names a unit that is present (R403). -/
def srcUnitPresent (d : Dev) (code i : Nat) : Bool :=
  let v := d.variant
  match code with
  | 0x01 | 0x02 =>
    let grp := if 144 ≤ i ∧ i ≤ 159 then decide (i - 144 < n1Count v)
      else if 160 ≤ i ∧ i ≤ 287 then decide (i - 160 < engineCount v)
      else if 344 ≤ i then portStarts d (i - 344) else true
    grp && (decide (code = 1) || !(decide (292 ≤ i) && decide (i ≤ 343)))
  | 0x03 => if i < 16 then portStarts d i else if i < 32 then decide (i - 16 < n1Count v) else true
  | 0x10 => decide (i ≠ 4) || decide (v = .f)
  | 0x20 | 0x25 => decide (i < engineCount v)
  | 0x21 => nodePresent v (nodeLevel i) (nodeIndex i)
  | 0x22 | 0x23 => decide (i < aeadCount v)
  | 0x30 => decide (i < laneCount v)
  | 0x31 | 0x32 | 0x33 | 0x35 | 0x36 => portStarts d i
  | 0x34 => if i < 16 then portStarts d i else true
  | 0x43 => (decide (i ≠ 1) || decide (v = .f))
  | 0x50 | 0x51 | 0x52 | 0x53 | 0x54 => decide (i < antennaCount v)
  | 0x55 | 0x56 => decide (v = .f)
  | _ => true

/-- The source exists (R403, R420). -/
def srcExists (d : Dev) (id : Nat) : Bool :=
  decide (id < 2 ^ 16) && decide ((srcInfo id).cls ≠ 0) && decide (srcInst id < srcInstances (srcCode id))
    && srcUnitPresent d (srcCode id) (srcInst id)

def srcClass (d : Dev) (id : Nat) : Nat := fld d .faultSrc id FSrc.cls

/-- The agent that carries a source's raises: one per group of sixteen type codes (assumption log 14). -/
def srcAgent (id : Nat) : Nat := srcCode id / 16

/-- RAISED of a source counted, and its LAST_BT set. -/
def countRaise (d : Dev) (id : Nat) : Dev :=
  let d := bumpStat d .fault id 0 16
  { d with flt := { d.flt with lastBt := Tab.set 0 d.flt.lastBt id d.bt } }

/-- A raise given to its agent: it queues for the collector; an agent's 257th waiting raise is only counted (R407). -/
def raiseWith (d : Dev) (id detail : Nat) (injected : Bool) : Dev :=
  let waiting := (d.flt.queue.filter fun r => srcAgent r.source = srcAgent id).length
  if waiting ≥ 256 ∧ srcClass d id < 4 then countRaise d id
  else { d with flt := { d.flt with queue := d.flt.queue ++ [⟨id, detail, injected⟩] } }

def raise (d : Dev) (id : Nat) (detail : Nat := 0) : Dev := raiseWith d id detail false

/-- A level-sensed source: raised once, at the start of an episode (R406). -/
def startEpisode (d : Dev) (id : Nat) : Dev :=
  if d.flt.episodes.contains id then d
  else raise { d with flt := { d.flt with episodes := d.flt.episodes ++ [id] } } id

def endEpisode (d : Dev) (id : Nat) : Dev :=
  { d with flt := { d.flt with episodes := d.flt.episodes.filter (· ≠ id) } }

/-! ### What leaves the device -/

def emit (d : Dev) (e : Emission) : Dev := { d with out := d.out ++ [e] }

/-- The device at the start of a command: nothing has left it yet. -/
def fresh (d : Dev) : Dev := { d with out := [] }

/-- The FATAL safe state (R412). -/
def safe (d : Dev) : Bool := flag d .faultStatus 0 FSt.safeState

/-- The power state (R433): 0 FULL, 1 LISTEN, 2 KEEP-TIME. -/
def power (d : Dev) : Nat := fld d .power 0 Pow.power

/-- The main rails have been found within their limits since MAIN_EN rose. -/
def mainPowered (d : Dev) : Bool := !(decide (d.pwr.phase = .mainOff) || decide (d.pwr.phase = .railsWait))

/-- The fast domains run: AON up, MAIN_EN high with the rails found, no reset. -/
def fastRuns (d : Dev) : Bool := d.pwr.aonUp && d.pwr.resetN.isNone && !d.pwr.devReset && mainPowered d

/-- The firmware runs: the servo, the doors and the housekeeping act (R31, R430). -/
def fwRuns (d : Dev) : Bool :=
  fastRuns d && decide (d.pwr.phase = .ready) && !d.pwr.halted && !safe d

/-- Doors are served (R345, R355). -/
def doorsServed (d : Dev) : Bool := fwRuns d

/-- The packet path works: fast domains running, the engine PLL locked, not in the FATAL safe state. -/
def pathRuns (d : Dev) : Bool := fastRuns d && bit d.pwr.plls 0 && !safe d

/-- The balls are under boundary-scan control: no port, timing output or endpoint operates (R400). -/
def scanHeld (d : Dev) : Bool := [JtagInstr.extest, .extestPulse, .extestTrain, .clamp, .highz].contains d.key.jtag

/-- A step of the state: the effect on the device; the queue is not touched. -/
def withDev (s : State) (f : Dev → Dev) : Host.Outcome State Fault Refusal :=
  .next { s with dev := f (fresh s.dev) }

/-- A step that reaches the device only while its AON supply is up (R433: OFF runs nothing). -/
def whenOn (s : State) (f : Dev → Dev) : Host.Outcome State Fault Refusal :=
  withDev s fun d => if d.pwr.aonUp then f d else d

/-- A step of the packet path: not defined after a main rail that supplies it has left its limits outside a KEEP-TIME
entry, until a device reset or a start-up (R464). -/
def onPath (s : State) (f : Dev → Dev) : Host.Outcome State Fault Refusal :=
  if s.dev.pwr.railFailed then .fault .serviceUndefined else whenOn s fun d => if pathRuns d then f d else d

end Sys2Proof.Machine
end

