-- ==== Sys2Proof/Machine/Measure.lean ====
section
/-! DEFINITION. Measurements of the references as their units deliver them (R248, R249), and the square roots of the RMS
figures. -/

namespace Sys2Proof.Machine

open Sys2Proof

/-! ### Square roots -/

/-- The integer square root of a number below 2^192. -/
def isqrt (n : Nat) : Nat :=
  (List.range 96).foldr (fun i r => if (r + 2 ^ i) * (r + 2 ^ i) ≤ n then r + 2 ^ i else r) 0

/-- The square root of a rational as an integer: exact where it is one, a neighbour otherwise (assumption log 3). -/
def sqrtRound (q : Rat) : Nat :=
  let n := isqrt q.floor.toNat
  if (n * n : Rat) = q then n else if Config.roundsUp q then n + 1 else n

def sumRat (l : List Rat) : Rat := l.foldl (· + ·) 0

def meanRat (l : List Rat) : Rat := sumRat l / l.length

/-- The mean of the squares of some integers. -/
def meanSquare (l : List Int) : Rat := meanRat (l.map fun x => ((x * x : Int) : Rat))

/-- The median of a list in rising order; the mean of the two middle values for an even count. -/
def median (l : List Int) : Rat :=
  let s := l.mergeSort (· ≤ ·)
  let n := s.length
  if n % 2 = 1 then ((s.getD (n / 2) 0 : Int) : Rat) else ((s.getD (n / 2 - 1) 0 + s.getD (n / 2) 0 : Int) : Rat) / 2

/-! ### Deliveries -/

def getRef (d : Dev) (r : Nat) : RefDyn := Tab.get RefDyn.reset d.disc.refs r

def setRef (d : Dev) (r : Nat) (x : RefDyn) : Dev :=
  { d with disc := { d.disc with refs := Tab.set RefDyn.reset d.disc.refs r x } }

/-- The offsets of R53 at the current edge. -/
def offsetsNow (d : Dev) : Option Int × Option Int :=
  (if flag d .steer 0 Steer.offsetAValid then some (sfld d .steer 0 Steer.offsetA) else none,
   if flag d .steer 0 Steer.offsetBValid then some (sfld d .steer 0 Steer.offsetB) else none)

/-- A measurement with the base tick its stamp belongs to (R248, R63), and the offsets of that tick's edge. -/
def sampleAt (d : Dev) (k : SampleKind) (s : Int) : Sample :=
  match tickOf d s.toNat with
  | some t => ⟨k, t.bt, t.offA, t.offB⟩
  | none => ⟨k, d.bt, (offsetsNow d).1, (offsetsNow d).2⟩

/-- A measurement handed to the firmware with its stamp: kept for the next evaluation. -/
def deposit (d : Dev) (r : Nat) (k : SampleKind) (s : Int) : Dev :=
  if flag d .ref r Ref.enable then
    let x := getRef d r
    setRef d r { x with samples := x.samples ++ [sampleAt d k s] }
  else d

/-- One second in units of 2^-32 ns. -/
def secUnits : Int := (10 ^ 9 * 2 ^ 32 : Nat)

/-- An edge lies in the window about the last accepted one plus a whole number of seconds (R249). -/
def inWindow (windowNs : Nat) (last s : Int) : Bool :=
  let k := (s - last + secUnits / 2) / secUnits
  decide (1 ≤ k) && decide ((s - last - k * secUnits).natAbs ≤ windowNs * 2 ^ 32)

/-- A PPS edge (R249): the first after ABSENT is accepted, then those in the window; any other is extra. -/
def depositEdge (d : Dev) (r : Nat) (s : Int) (good : Bool) : Dev :=
  if flag d .ref r Ref.enable then
    let x := getRef d r
    let ok : Bool := match x.lastStamp with | none => true | some l => inWindow (fld d .ref r Ref.windowNs) l s
    if ok then deposit (setRef d r { x with lastStamp := some s }) r (.edge s good) s
    else bumpFld (setRef d r { x with extras := d.disc.evalN :: x.extras }) .ref r Ref.extra
  else d

/-- A discarded exchange of a master's client instance (R244), for the count of R250 while the reference is enabled. -/
def depositDiscard (d : Dev) (m : Nat) : Dev :=
  if flag d .ref (8 + m) Ref.enable then
    let x := getRef d (8 + m)
    setRef d (8 + m) { x with discards := x.discards + 1 }
  else d

end Sys2Proof.Machine
end

