-- ==== Sys2Proof/Machine/Frames.lean ====
section
/-! DEFINITION. Frames as bytes: the parse and checks of R101, the receive status word of R102, checksums (R105, R125),
and the headers of composed frames (R178). -/

namespace Sys2Proof.Machine

open Sys2Proof

/-! ### Checksums -/

/-- The 16-bit words of some bytes, an odd last byte padded with zero. -/
def sumWords : List Byte → Nat
  | [] => 0
  | [a] => a.toNat * 256
  | a :: b :: bs => a.toNat * 256 + b.toNat + sumWords bs

/-- A sum folded to 16 bits, end-around carry. -/
def fold16 (n : Nat) : Nat := if n = 0 then 0 else (n - 1) % 65535 + 1

/-- The Internet checksum of some bytes. -/
def inetSum (bs : List Byte) : Nat := 65535 - fold16 (sumWords bs)

/-- The pseudo-header of a transport checksum. -/
def pseudo (v6 : Bool) (src dst proto len : Nat) : List Byte :=
  if v6 then beBytes 16 src ++ beBytes 16 dst ++ beBytes 4 len ++ beBytes 4 proto
  else beBytes 4 src ++ beBytes 4 dst ++ beBytes 2 proto ++ beBytes 2 len

/-- A one's-complement repair of a checksum for words that changed (R125); a result of 0 is sent as 0xFFFF. -/
def repairSum (old : Nat) (was is_ : List Byte) : Nat :=
  let n := 65535 - old + sumWords is_ + (was.length / 2 + 1) * 65535 - sumWords was
  let c := 65535 - fold16 n
  if c = 0 then 65535 else c

/-! ### Parse (R101) -/

structure Parsed where
  dst : Nat
  src : Nat
  /-- 0–2 tags, 3 for three or more. -/
  vlanCount : Nat
  outerVid : Nat
  innerVid : Nat
  /-- The tags as they stand in the frame. -/
  tags : List Byte
  etherType : Nat
  /-- Offset of the byte after the EtherType. -/
  l3 : Nat
  /-- 0 other, 1 IPv4, 2 IPv6. -/
  l3Type : Nat
  /-- 0 OK, 1 BAD, 2 NOT_CHECKED. -/
  l3Status : Nat
  optExt : Bool
  frag : Bool
  /-- 0 other, 1 UDP, 2 TCP. -/
  l4Type : Nat
  l4Status : Nat
  /-- Offset of the transport header and the length of what the IP header gives from there. -/
  l4 : Nat
  l4Len : Nat
  proto : Nat
  ipSrc : Nat
  ipDst : Nat
  ttl : Nat
  dscp : Nat
deriving DecidableEq, Repr

/-- IPv6 extension headers: R101 gives no list, and these are taken (PRESUMED, assumption log 78); 50, whose header hides
the next one, is not among them. -/
def isExtHeader (h : Nat) : Bool := [0, 43, 44, 51, 60, 135, 139, 140].contains h

/-- The chain of IPv6 extension headers from an offset: transport protocol, its offset, whether a fragment header is
among them. -/
def walkExt : Nat → List Byte → Nat → Nat → Bool → Nat × Nat × Bool
  | 0, _, h, off, fr => (h, off, fr)
  | fuel + 1, bs, h, off, fr =>
    if isExtHeader h then
      let n := rdBe bs (off + 1) 1
      let len := if h = 44 then 8 else if h = 51 then (n + 2) * 4 else (n + 1) * 8
      walkExt fuel bs (rdBe bs off 1) (off + len) (fr || decide (h = 44))
    else (h, off, fr)

/-- L4_STATUS of a transport segment that may be checked. -/
def l4Check (bs : List Byte) (v6 : Bool) (src dst proto off len : Nat) : Nat :=
  if proto = 17 then
    let n := rdBe bs (off + 4) 2
    if len < 8 ∨ n < 8 ∨ len < n then 1
    else if rdBe bs (off + 6) 2 = 0 then (if v6 then 1 else 2)
    else if fold16 (sumWords (pseudo v6 src dst 17 n) + sumWords (slice bs off n)) = 65535 then 0 else 1
  else if proto = 6 then
    if fold16 (sumWords (pseudo v6 src dst 6 len) + sumWords (slice bs off len)) = 65535 then 0 else 1
  else 2

/-- The tags of a frame: how many (3 for three or more), and the offset of the EtherType. -/
def vlanTags (outerTpid : Nat) (bs : List Byte) : Nat × Nat :=
  let t0 := rdBe bs 12 2
  let t1 := rdBe bs 16 2
  let t2 := rdBe bs 20 2
  if (t0 = outerTpid ∨ t0 = 0x8100) ∧ t1 = 0x8100 then
    if t2 = 0x8100 ∨ t2 = 0x88A8 ∨ t2 = 0x9100 then (3, 20) else (2, 20)
  else if t0 = 0x8100 then (1, 16) else (0, 12)

def parseL2 (outerTpid : Nat) (bs : List Byte) : Parsed :=
  let (n, et) := vlanTags outerTpid bs
  { dst := rdBe bs 0 6, src := rdBe bs 6 6, vlanCount := n
    outerVid := if n = 0 then 0 else rdBe bs 14 2 % 4096, innerVid := if n = 2 then rdBe bs 18 2 % 4096 else 0
    tags := slice bs 12 (et - 12), etherType := rdBe bs et 2, l3 := et + 2
    l3Type := 0, l3Status := 2, optExt := false, frag := false, l4Type := 0, l4Status := 2, l4 := 0, l4Len := 0
    proto := 256, ipSrc := 0, ipDst := 0, ttl := 0, dscp := 0 }

def transportType (proto : Nat) : Nat := if proto = 17 then 1 else if proto = 6 then 2 else 0

def parseIp4 (bs : List Byte) (q : Parsed) : Parsed :=
  let o := q.l3
  let ihl := rdBe bs o 1 % 16
  let total := rdBe bs (o + 2) 2
  let okv := rdBe bs o 1 / 16 = 4 ∧ 5 ≤ ihl ∧ o + total ≤ bs.length
    ∧ fold16 (sumWords (slice bs o (ihl * 4))) = 65535
  let fr := rdBe bs (o + 6) 2 % 0x4000 ≠ 0
  let proto := rdBe bs (o + 9) 1
  let src := rdBe bs (o + 12) 4
  let dst := rdBe bs (o + 16) 4
  let off := o + ihl * 4
  let len := total - ihl * 4
  { q with
    l3Type := 1, l3Status := if okv then 0 else 1, optExt := decide (5 < ihl), frag := decide fr, proto := proto
    l4Type := transportType proto, l4Status := if okv ∧ ¬ fr then l4Check bs false src dst proto off len else 2
    l4 := off, l4Len := len, ipSrc := src, ipDst := dst, ttl := rdBe bs (o + 8) 1, dscp := rdBe bs (o + 1) 1 / 4 }

def parseIp6 (bs : List Byte) (q : Parsed) : Parsed :=
  let o := q.l3
  let plen := rdBe bs (o + 4) 2
  let okv := rdBe bs o 1 / 16 = 6 ∧ o + 40 + plen ≤ bs.length
  let next := rdBe bs (o + 6) 1
  let (proto, off, fr) := walkExt 16 bs next (o + 40) false
  let src := rdBe bs (o + 8) 16
  let dst := rdBe bs (o + 24) 16
  { q with
    l3Type := 2, l3Status := if okv then 0 else 1, optExt := isExtHeader next, frag := fr, proto := proto
    l4Type := transportType proto
    l4Status := if okv ∧ isExtHeader next = false then l4Check bs true src dst proto (o + 40) plen else 2
    l4 := off, l4Len := o + 40 + plen - off, ipSrc := src, ipDst := dst, ttl := rdBe bs (o + 7) 1
    dscp := rdBe bs o 2 / 64 % 64 }

/-- A frame parsed and checked as received (R101). -/
def parseFrame (outerTpid : Nat) (bs : List Byte) : Parsed :=
  let q := parseL2 outerTpid bs
  if q.vlanCount = 3 then q
  else if q.etherType = 0x0800 then parseIp4 bs q
  else if q.etherType = 0x86DD then parseIp6 bs q
  else q

/-- The receive status word (Table PORT.3) without its stamp and wake bits. -/
def statusWord (q : Parsed) (trunc : Bool) (stored : Nat) : Nat :=
  let r := setF (setF (setF 0 RxSt.trunc (b2n trunc)) RxSt.vlanCount q.vlanCount) RxSt.l3Type q.l3Type
  let r := setF (setF (setF r RxSt.l3Status q.l3Status) RxSt.ipOptExt (b2n q.optExt)) RxSt.ipFrag (b2n q.frag)
  setF (setF (setF r RxSt.l4Type q.l4Type) RxSt.l4Status q.l4Status) RxSt.length stored

/-! ### Composition (R178, R105) -/

def ethHeader (dst src : Nat) (tags : List Byte) (etherType : Nat) : List Byte :=
  beBytes 6 dst ++ beBytes 6 src ++ tags ++ beBytes 2 etherType

/-- One VLAN tag. -/
def vlanTag (tpid pcp vid : Nat) : List Byte := beBytes 2 tpid ++ beBytes 2 (pcp * 8192 + vid)

/-- An IPv4 header without options, DF set, its checksum left to the MAC. -/
def ip4Header (dscp ttl proto src dst len : Nat) : List Byte :=
  beBytes 1 0x45 ++ beBytes 1 (dscp * 4) ++ beBytes 2 (20 + len) ++ beBytes 2 0 ++ beBytes 2 0x4000 ++ beBytes 1 ttl
    ++ beBytes 1 proto ++ beBytes 2 0 ++ beBytes 4 src ++ beBytes 4 dst

def ip6Header (dscp hop next src dst len : Nat) : List Byte :=
  beBytes 4 (6 * 2 ^ 28 + dscp * 2 ^ 22) ++ beBytes 2 len ++ beBytes 1 next ++ beBytes 1 hop ++ beBytes 16 src
    ++ beBytes 16 dst

def udpHeader (sport dport len : Nat) : List Byte := beBytes 2 sport ++ beBytes 2 dport ++ beBytes 2 (8 + len) ++ beBytes 2 0

/-- The header checksums a source requests computed over a frame (R105): IPv4 at l3, UDP (1) or TCP (2) at l4. -/
def computeSums (bs : List Byte) (ip4 : Bool) (l4kind l3 l4 : Nat) : List Byte :=
  let v6 := decide (rdBe bs l3 1 / 16 = 6)
  let bs := if ip4 then
      let n := rdBe bs l3 1 % 16 * 4
      overwrite bs (l3 + 10) (beBytes 2 (inetSum (slice (overwrite bs (l3 + 10) (beBytes 2 0)) l3 n)))
    else bs
  if l4kind = 0 then bs
  else
    let proto := if l4kind = 1 then 17 else 6
    let at_ := l4 + (if l4kind = 1 then 6 else 16)
    let z := overwrite bs at_ (beBytes 2 0)
    let end_ := if v6 then l3 + 40 + rdBe bs (l3 + 4) 2 else l3 + rdBe bs (l3 + 2) 2
    let len := if l4kind = 1 then rdBe bs (l4 + 4) 2 else end_ - l4
    let src := if v6 then rdBe bs (l3 + 8) 16 else rdBe bs (l3 + 12) 4
    let dst := if v6 then rdBe bs (l3 + 24) 16 else rdBe bs (l3 + 16) 4
    let c := 65535 - fold16 (sumWords (pseudo v6 src dst proto len) + sumWords (slice z l4 len))
    overwrite bs at_ (beBytes 2 (if c = 0 ∧ l4kind = 1 then 65535 else c))

/-- Bytes inserted at an offset, with the incremental repair of a UDP checksum at l4 (R125). The words that change are
taken on even offsets from the UDP header. -/
def insertRepair (bs : List Byte) (off : Nat) (new : List Byte) (udp : Option Nat) : List Byte :=
  let out := overwrite bs off new
  match udp with
  | none => out
  | some l4 =>
    let old := rdBe bs (l4 + 6) 2
    if old = 0 then out
    else
      let lo := off - (off - l4) % 2
      let n := off + new.length - lo
      overwrite out (l4 + 6) (beBytes 2 (repairSum old (slice bs lo (n + n % 2)) (slice out lo (n + n % 2))))

end Sys2Proof.Machine
end

