-- ==== Sys2Proof/Machine/Flags.lean ====
section
/-! DEFINITION. Status and interrupt flags of the hosts: functions and their live host (R317), MSI-X messages (R325),
DEVICE_EVENTS, the tenants' event words (R326, R327), tenants and their VFs. -/

namespace Sys2Proof.Machine

open Sys2Proof

/-! ### Functions and endpoints -/

def Fn.idx (f : Fn) : Nat := match f.vf with | none => 0 | some v => v.val + 1

/-- A number for each function: the PF of an endpoint, then its VFs. -/
def Fn.key (f : Fn) : Nat := f.ep.val * 1025 + Fn.idx f

def pfOf (e : Nat) : Fn := ⟨Fin.ofNat 4 e, none⟩

def vfOf (e v : Nat) : Fn := ⟨Fin.ofNat 4 e, some (Fin.ofNat 1024 v)⟩

def getFn (d : Dev) (f : Fn) : FnState := Tab.get FnState.reset d.host.fns (Fn.key f)

def setFn (d : Dev) (f : Fn) (s : FnState) : Dev :=
  { d with host := { d.host with fns := Tab.set FnState.reset d.host.fns (Fn.key f) s } }

def getEp (d : Dev) (e : Nat) : EpState := Tab.get EpState.reset d.host.eps e

def setEp (d : Dev) (e : Nat) (s : EpState) : Dev :=
  { d with host := { d.host with eps := Tab.set EpState.reset d.host.eps e s } }

/-- The function exists: a PF, or a VF below TOTAL_VFS_ACTIVE of its endpoint (R315, R316). -/
def fnExists (d : Dev) (f : Fn) : Bool :=
  match f.vf with
  | none => true
  | some v => decide (v.val < fld d .endpoint f.ep.val Ep.totalVfsActive)

/-- The function's BAR answers: its endpoint is out of PERST with its link up, and it is not in FLR. -/
def barUp (d : Dev) (f : Fn) : Bool :=
  fastRuns d && !scanHeld d && fnExists d f && !(getEp d f.ep.val).perst && (getEp d f.ep.val).linkUp
    && !(getFn d f).inFlr

/-- A live host for a function (R317). -/
def live (d : Dev) (f : Fn) : Bool :=
  barUp d f && (getFn d f).busMaster

/-- A vector is masked by its table entry; every entry is masked at reset (PCIe Base 4.0). -/
def vecMasked (s : FnState) (v : Nat) : Bool := bit (Tab.get 1 s.msix (4 * v + 3)) 0

/-- An MSI-X message (R317, R325): sent with a live host and MSI-X enabled; a masked vector sets its pending bit; in
the FATAL safe state none is sent (Table FLT.4). -/
def sendMsix (d : Dev) (f : Fn) (v : Nat) : Dev :=
  let s := getFn d f
  if safe d ∨ s.msixEnable = false ∨ live d f = false then d
  else if vecMasked s v then setFn d f { s with pendingBits := setBit s.pendingBits v true }
  else emit d (.msix f v)

/-- Vectors whose pending bit is set and that may now be sent. -/
def flushMsix (d : Dev) (f : Fn) : Dev :=
  (List.range 64).foldl (fun d v =>
    let s := getFn d f
    if bit s.pendingBits v && !vecMasked s v && s.msixEnable && live d f && !safe d then
      emit (setFn d f { s with pendingBits := setBit s.pendingBits v false }) (.msix f v)
    else d) d

/-- A DEVICE_EVENTS bit of a PF set (R325): vector 8 when an unmasked bit goes from 0 to 1. -/
def setDevEvent (d : Dev) (e b : Nat) : Dev :=
  let f := pfOf e
  let s := getFn d f
  if bit s.deviceEvents b then d
  else
    let d := setFn d f { s with deviceEvents := setBit s.deviceEvents b true }
    if bit s.deviceEventMask b then d else sendMsix d f 8

def setDevEventAll (d : Dev) (b : Nat) : Dev := (List.range 4).foldl (fun d e => setDevEvent d e b) d

/-- The controller host (R319). -/
def controllerEp (d : Dev) : Nat := fld d .controller 0 Ctl.controller

/-! ### Tenants -/

/-- The tenants that are BOUND or RETIRING. -/
def tenantsInUse (d : Dev) : List Nat :=
  ((listed d .tenant).filter fun e => getF e.2 Ten.state ≠ 0).map (·.1)

def tenantState (d : Dev) (t : Nat) : Nat := fld d .tenant t Ten.state

def tenantBound (d : Dev) (t : Nat) : Bool := decide (tenantState d t = 1)

def boundTenants (d : Dev) : List Nat := (tenantsInUse d).filter fun t => tenantBound d t

def tenantEp (d : Dev) (t : Nat) : Nat := fld d .tenant t Ten.endpoint

def tenantVf (d : Dev) (t : Nat) : Nat := fld d .tenant t Ten.vf

def tenantView (d : Dev) (t : Nat) : Nat := fld d .tenant t Ten.view

/-- The tenant bound to a VF, if any. -/
def vfTenant (d : Dev) (e v : Nat) : Option Nat :=
  (tenantsInUse d).find? fun t => decide (tenantEp d t = e) && decide (tenantVf d t = v)

/-! ### Event words (R326, R327) -/

def eventIdx (e v : Nat) : Nat := e * 1024 + v

def eventWord (d : Dev) (e v : Nat) : Nat := getRec d .eventWord (eventIdx e v)

/-- The masks of the event bits of Table HOST.7, SVC_AFFECTED with each of bits 30–27. -/
def evPort : Nat := 2 ^ 31 + 2 ^ 30
def evNode : Nat := 2 ^ 31 + 2 ^ 29
def evLane : Nat := 2 ^ 31 + 2 ^ 28
def evTime : Nat := 2 ^ 31 + 2 ^ 27
def evLeap : Nat := 2 ^ 26
def evRetired : Nat := 2 ^ 25
def evBoundNew : Nat := 2 ^ 24

/-- A VF_SUMMARY bit has gone from 0 to 1: vector 9 of the PF, at most once per EVENT_HOLDOFF_US (R327). -/
def summaryRise (d : Dev) (e : Nat) : Dev :=
  let s := getEp d e
  if s.holdoff then setEp d e { s with summaryOwed := true }
  else
    let d := sendMsix d (pfOf e) 9
    if fld d .endpoint e Ep.eventHoldoffUs = 0 then d else setEp d e { s with holdoff := true }

/-- The VF's own message for an event word that has left zero (R327): vector 3 while the tenant's SVC_IRQ_EN is 1. -/
def vfMessage (d : Dev) (e v : Nat) : Dev :=
  match vfTenant d e v with
  | some t => if flag d .tenant t Ten.svcIrqEn then sendMsix d (vfOf e v) 3 else d
  | none => d

/-- Event bits OR-ed into the word of a VF. A bit already set changes nothing. While the VF is in FLR each event that
sets a bit is counted and the VF is sent nothing. -/
def setEventBits (d : Dev) (e v bits : Nat) : Dev :=
  let old := eventWord d e v
  let new := old ||| bits
  if new = old then d
  else
    let d := setRec d .eventWord (eventIdx e v) new
    let d := if old = 0 then summaryRise d e else d
    let s := getFn d (vfOf e v)
    if s.inFlr then setFn d (vfOf e v) { s with eventsInFlr := satAdd 16 s.eventsInFlr 1, eventOwed := true }
    else if old = 0 then vfMessage d e v else d

/-- A tenant put in its place by the VF it is bound to: the order of the messages of one event (R327). -/
def insertByVf (d : Dev) (t : Nat) : List Nat → List Nat
  | [] => [t]
  | u :: us =>
    if eventIdx (tenantEp d t) (tenantVf d t) ≤ eventIdx (tenantEp d u) (tenantVf d u) then t :: u :: us
    else u :: insertByVf d t us

/-- Event bits of a shared-unit event, for the tenants affected (Table HOST.8). -/
def tenantEvent (d : Dev) (ts : List Nat) (bits : Nat) : Dev :=
  (ts.foldr (insertByVf d) []).foldl (fun d t => setEventBits d (tenantEp d t) (tenantVf d t) bits) d

def clearEventBits (d : Dev) (e v bits : Nat) : Dev :=
  let old := eventWord d e v
  setRec d .eventWord (eventIdx e v) (old - (old &&& bits))

/-! ### Doors -/

/-- A number for each door: the function's key, then the door; the order of R342's ties. -/
def doorKey (f : Fn) (door : Nat) : Nat := Fn.key f * 8 + (if f.vf.isSome then 0 else door)

def getDoor (d : Dev) (f : Fn) (door : Nat) : Door := Tab.get Door.idle d.mbx.doors (doorKey f door)

def setDoor (d : Dev) (f : Fn) (door : Nat) (x : Door) : Dev :=
  { d with mbx := { d.mbx with doors := Tab.set Door.idle d.mbx.doors (doorKey f door) x } }

/-- The counters of a door's statistics record (Table MBX.8), by number. -/
def dsMessages : Nat := 0
def dsBusy : Nat := 1
def dsIgnored : Nat := 2
def dsFragTimeouts : Nat := 3
def dsRespDiscarded : Nat := 4
def dsAbandoned : Nat := 5
def dsInternal : Nat := 6

def bumpDoor (d : Dev) (f : Fn) (door n : Nat) : Dev :=
  bumpStat d .door (doorKey f door) n (if n = 0 then 32 else 16)

/-- The locks a door holds are released (R344). -/
def releaseLocks (d : Dev) (f : Fn) (door : Nat) : Dev :=
  { d with mbx := { d.mbx with locks := d.mbx.locks.filter fun l => !(decide (l.fn = f) && decide (l.door = door)) } }

def holdsLock (d : Dev) (f : Fn) (door : Nat) : Bool :=
  d.mbx.locks.any fun l => decide (l.fn = f) && decide (l.door = door)

def lockHolder (d : Dev) (code : Nat) : Option Lock := d.mbx.locks.find? fun l => decide (l.code = code)

/-- DOOR_STATUS of a door (Table MBX.2). -/
def doorStatus (d : Dev) (f : Fn) (door : Nat) : Nat :=
  let x := getDoor d f door
  let ph := match x.phase with | .idle => 0 | .posted => 1 | .serving => 2 | .done => 3
  let next := match x.partial_, x.more with | some p, _ => p.next | none, some m => m.next | none, none => 0
  setF (setF (setF (setF (setF (setF 0 DoorSt.state ph) DoorSt.fragWait (b2n x.partial_.isSome)) DoorSt.respMore
    (b2n x.more.isSome)) DoorSt.holdsLock (b2n (holdsLock d f door))) DoorSt.nextFrag next) DoorSt.seqLow x.seqLow

end Sys2Proof.Machine
end

