-- ==== Sys2Proof/Machine/Trace.lean ====
section
/-! DEFINITION. What every family counts and traces (19_counters_and_trace.md): the event counters of Table OBS.1, the
engine cycle within a base tick, the scribe and the OBS output. -/

namespace Sys2Proof.Machine

open Sys2Proof

/-! ### Engine cycles (R446) -/

/-- Engine cycles per base tick. -/
def cyclesPerBt (d : Dev) : Nat := btNs d * 8 / 5

/-- The instant of a command within its base tick: an engine cycle no earlier than the one last given, which the model
leaves free. -/
def cycleNow (d : Dev) : Nat × Dev :=
  let (v, d) := draw d
  let p := d.obs.phase + v % (cyclesPerBt d - d.obs.phase)
  (p, { d with obs := { d.obs with phase := p } })

/-! ### Counters (R442, R445) -/

def engineCtr (e k : Nat) : Nat := 48 * e + k

/-- A nest's counter, by node code. -/
def nestCtr (c k : Nat) : Nat := 6144 + 32 * (c - 128) + k

def tenantCtr (t k : Nat) : Nat := 8192 + 24 * t + k

/-- An index of Table OBS.1 that counts a unit of the variant. -/
def ctrPresent (v : Variant) (i : Nat) : Bool :=
  if i < 6144 then decide (i / 48 < engineCount v)
  else if i < 6816 then
    let c := 128 + (i - 6144) / 32
    nodePresent v (nodeLevel c) (nodeIndex c)
  else decide (8192 ≤ i) && decide (i < 106496)

def ctrValue (d : Dev) (i : Nat) : Nat := Tab.get 0 d.obs.ctr i

def setCtr (d : Dev) (i v : Nat) : Dev := { d with obs := { d.obs with ctr := Tab.set 0 d.obs.ctr i v } }

/-- A counter counted up; it wraps at 2^64. -/
def bumpCtr (d : Dev) (i : Nat) (n : Nat := 1) : Dev := setCtr d i ((ctrValue d i + n) % 2 ^ 64)

def nodePower (d : Dev) (c : Nat) : Nat := fld d .nodeStatus c NodeSt.power

/-- An event of an engine or a nest, by node code; a gated node counts nothing (R442). -/
def countNode (d : Dev) (c k : Nat) (n : Nat := 1) : Dev :=
  if nodePower d c = 2 then d else bumpCtr d (if c < 128 then engineCtr c k else nestCtr c k) n

/-- Tenant counters (Table OBS.4). -/
def countTenant (d : Dev) (t k : Nat) (n : Nat := 1) : Dev := bumpCtr d (tenantCtr t k) n

/-- A free part of a number. -/
def drawUpTo (d : Dev) (n : Nat) : Nat × Dev :=
  let (v, d) := draw d
  (v % (n + 1), d)

/-! ### CRC-16 (R110) -/

def crc16Bit (c : Nat) : Nat := if c / 0x8000 % 2 = 1 then (2 * c % 0x10000) ^^^ 0x1021 else 2 * c % 0x10000

def crc16Byte (c : Nat) (b : Byte) : Nat :=
  (List.range 8).foldl (fun c _ => crc16Bit c) (c ^^^ (b.toNat * 256))

/-- The CRC-16 of R110 over some bytes. -/
def crc16 (bs : List Byte) : Nat := bs.foldl crc16Byte 0xFFFF

/-! ### Records (R450, R457) -/

/-- A trace record (Table OBS.7). -/
def traceBytes (time source sub unit : Nat) (payload : List Byte) : List Byte :=
  leBytes 8 time ++ leBytes 1 source ++ leBytes 1 sub ++ leBytes 2 unit ++ slice payload 0 20

def scribeState (d : Dev) : Nat := fld d .scribeHdr 0 ScrSt.scribeState

def curSegment (d : Dev) : Nat := fld d .scribeHdr 0 ScrSt.curSegment

def segRecords (d : Dev) : Nat := 131072 / max 1 (fld d .scribe 0 Scr.segments)

def segList (d : Dev) (i : Nat) : List Nat := Tab.get [] d.obs.records i

def setSegList (d : Dev) (i : Nat) (l : List Nat) : Dev :=
  setFld { d with obs := { d.obs with records := Tab.set [] d.obs.records i l } } .scribeSeg i ScrSt.eRecords l.length

/-- The post-trigger part of the segment has room (R451). -/
def postRoom (d : Dev) : Bool := decide (d.obs.post < segRecords d - fld d .scribe 0 Scr.preTrigger)

/-- A record put into the armed or triggered segment: the ring of PRE_TRIGGER records, or the post-trigger part while it
has room (R451). -/
def scribeStore (d : Dev) (rec_ : Nat) : Dev :=
  let i := curSegment d
  let pre := fld d .scribe 0 Scr.preTrigger
  if scribeState d = 1 then
    let l := segList d i ++ [rec_]
    setSegList d i (l.drop (l.length - pre))
  else if scribeState d = 2 ∧ postRoom d then
    setSegList { d with obs := { d.obs with post := d.obs.post + 1 } } i (segList d i ++ [rec_])
  else d

/-- The OBS output has its clock, a SerDes PLL (R17); the model takes octet 0's, which every variant has (DESIGN CHOICE,
assumption log 92). -/
def obsClocked (d : Dev) : Bool := fastRuns d && bit d.pwr.plls 3

/-- The OBS output is permitted (Table SEC.9). -/
def obsPermitted (d : Dev) : Bool :=
  obsClocked d && !safe d && !d.obs.obsOff && flag d .obs 0 Obs.obsEnable
    && (decide (d.key.lifeCycle ≤ 1) || (decide (d.key.lifeCycle = 2) && d.key.otp.obsDeployedEn))

/-- A 36-byte frame of the OBS output (R457). -/
def obsFrame (bs : List Byte) : List Byte := beBytes 2 0xAB58 ++ bs ++ beBytes 2 (crc16 bs)

/-- A record offered to the scribe: one beyond its rate is lost and counted, and the next one written is preceded by a
LOSS record (R450); whether the rate is exceeded is timing the model leaves free. -/
def scribeOffer (d : Dev) (time : Nat) (bs : List Byte) : Dev :=
  if scribeState d = 1 ∨ (scribeState d = 2 ∧ postRoom d) then
    let (v, d) := draw d
    if v % 2 = 1 then
      bumpFld { d with obs := { d.obs with lost := d.obs.lost + 1 } } .scribeHdr 0 ScrSt.recordsLost
    else
      let d := if d.obs.lost = 0 then d
        else { scribeStore d (ofLe (traceBytes time 0 0 0 (leBytes 4 d.obs.lost))) with obs.lost := 0 }
      scribeStore d (ofLe bs)
  else d

/-- A record offered to the OBS output's FIFO of 1,024 records (R457); whether it is full is timing left free. -/
def obsOffer (d : Dev) (time : Nat) (bs : List Byte) : Dev :=
  if obsPermitted d then
    let (v, d) := draw d
    if v % 2 = 1 then
      bumpFld { d with obs := { d.obs with obsLost := d.obs.obsLost + 1 } } .obs 0 Obs.obsLost
    else
      let d := if d.obs.obsLost = 0 then d
        else { emit d (.obs (obsFrame (traceBytes time 0 0 0 (leBytes 4 d.obs.obsLost)))) with obs.obsLost := 0 }
      emit d (.obs (obsFrame bs))
  else d

/-- A trace record of a source (1 FLOW, 2 MAC, 3 STEER, 4 FAULT), produced while its SOURCE_MASK bit is 1. -/
def trace (d : Dev) (source sub unit : Nat) (payload : List Byte) : Dev :=
  let wanted := bit (fld d .scribe 0 Scr.sourceMask) (source - 1)
  let live := decide (scribeState d = 1) || decide (scribeState d = 2) || obsPermitted d
  if wanted && live && fastRuns d then
    let (p, d) := cycleNow d
    let time := d.bt % 2 ^ 48 * 65536 + p
    let bs := traceBytes time source sub unit payload
    obsOffer (scribeOffer d time bs) time bs
  else d

/-- A MAC record, of a port and a subtype that the filters select (R450). -/
def traceMac (d : Dev) (sub p queue code len value : Nat) : Dev :=
  if bit (fld d .scribe 0 Scr.macSubMask) sub && bit (fld d .scribe 0 Scr.macPortMask) p then
    trace d 2 sub p (leBytes 1 queue ++ leBytes 1 code ++ leBytes 2 len ++ leBytes 8 value)
  else d

/-- A FLOW record of a context's tenant (R450). -/
def traceFlow (d : Dev) (sub engine tenant service thread outcome packet stamp : Nat) : Dev :=
  let ft := fld d .scribe 0 Scr.flowTenant
  if ft = 0x1FFF ∨ ft = tenant then
    trace d 1 sub engine (leBytes 2 tenant ++ leBytes 1 service ++ leBytes 1 thread ++ leBytes 2 outcome ++ leBytes 2 0
      ++ leBytes 4 packet ++ leBytes 8 stamp)
  else d

/-! ### Triggers (R451, R453) -/

/-- A trigger: taken in ARMED, where a MARK record is written and the segment is TRIGGERED; ignored and counted in REARM
and TRIGGERED; not evaluated in the other states. -/
def scribeTrigger (d : Dev) (cause srcId_ : Nat) : Dev :=
  let st := scribeState d
  if st = 1 then
    let i := curSegment d
    let d := setFld d .scribeSeg i ScrSt.eTrigCause cause
    let d := setFld d .scribeSeg i ScrSt.eTrigBt d.bt
    let d := setFld d .scribeSeg i ScrSt.eActualPre (segList d i).length
    let d := setFld { d with obs := { d.obs with post := 0 } } .scribeHdr 0 ScrSt.scribeState 2
    let (p, d) := cycleNow d
    let bs := traceBytes (d.bt % 2 ^ 48 * 65536 + p) 5 cause 0 (leBytes 2 srcId_)
    scribeStore d (ofLe bs)
  else if st = 2 ∨ st = 3 then bumpFld d .scribeHdr 0 ScrSt.trigIgnored
  else d

/-- A trigger of TRIG_MASK bit b. -/
def autoTrigger (d : Dev) (b cause srcId_ : Nat) : Dev :=
  if bit (fld d .scribe 0 Scr.trigMask) b && fastRuns d then scribeTrigger d cause srcId_ else d

/-- Capture stops (Table OBS.9): the filling segment is kept, and the scribe is FROZEN. -/
def freezeScribe (d : Dev) : Dev :=
  let st := scribeState d
  if 1 ≤ st ∧ st ≤ 3 then
    let i := curSegment d
    let d := if st = 3 then d else setFld d .scribeSeg i ScrSt.eSegState 4
    setFld d .scribeHdr 0 ScrSt.scribeState 5
  else d

/-- The scribe's contents are lost: every segment EMPTY, the scribe IDLE. -/
def loseScribe (d : Dev) : Dev :=
  let d := { d with obs := { d.obs with records := [], post := 0, lost := 0 } }
  dropRecs d fun k => decide (k = RecKind.scribeHdr.code) || decide (k = RecKind.scribeSeg.code)

end Sys2Proof.Machine
end

