-- ==== Sys2Proof/Machine/Rings.lean ====
section
/-! DEFINITION. Host rings (13_hosts_and_tenants.md): deliveries to receive rings (R331), write-backs in ring order and
ring messages (R330). -/

namespace Sys2Proof.Machine

open Sys2Proof

/-- The index of a ring's block. -/
def ringIdx (f : Fn) (tx : Bool) (r : Nat) : Nat := Fn.key f * 128 + (if tx then 64 else 0) + r

/-- The rings a function has. -/
def ringCount (f : Fn) : Nat := if f.vf.isNone then 64 else 4

def ringFld (d : Dev) (f : Fn) (tx : Bool) (r : Nat) (x : Fld) : Nat := fld d .ring (ringIdx f tx r) x

def ringEnabled (d : Dev) (f : Fn) (tx : Bool) (r : Nat) : Bool := decide (ringFld d f tx r Rng.enable = 1)

def getRing (d : Dev) (f : Fn) (tx : Bool) (r : Nat) : RingState := Tab.get RingState.reset d.host.rings (ringIdx f tx r)

def setRing (d : Dev) (f : Fn) (tx : Bool) (r : Nat) (x : RingState) : Dev :=
  { d with host := { d.host with rings := Tab.set RingState.reset d.host.rings (ringIdx f tx r) x } }

/-- Descriptors of a ring. -/
def ringSize (d : Dev) (f : Fn) (tx : Bool) (r : Nat) : Nat := 2 ^ ringFld d f tx r Rng.sizeLog2

/-- A ring message after CONSUMER has advanced: at once, or held back until IRQ_HOLDOFF_US has passed since the previous
one (R330). -/
def ringMessage (d : Dev) (f : Fn) (tx : Bool) (r : Nat) : Dev :=
  let x := getRing d f tx r
  if x.holdoff then setRing d f tx r { x with irqOwed := true }
  else
    let d := sendMsix d f (ringFld d f tx r Rng.vector)
    if ringFld d f tx r Rng.irqHoldoffUs = 0 then d else setRing d f tx r { x with holdoff := true }

/-- A write-back written into the slot at CONSUMER, which then advances (R330); without a live host the write is not
made (R317). -/
def writeBack (d : Dev) (f : Fn) (tx : Bool) (r : Nat) (wb : Nat) (data : List Byte) : Dev :=
  if !live d f then d
  else
    let c := ringFld d f tx r Rng.consumer
    let d := emit d (.ringWrite f tx r (c % ringSize d f tx r) wb data)
    let d := setFld d .ring (ringIdx f tx r) Rng.consumer ((c + 1) % 65536)
    ringMessage d f tx r

/-! ### Receive rings (R331) -/

/-- Posted descriptors with BUF_LEN below 64 at the head of a ring are written back as BAD_DESC. -/
def skipBad (fuel : Nat) (d : Dev) (f : Fn) (r : Nat) : Dev :=
  match fuel with
  | 0 => d
  | fuel + 1 =>
    let x := getRing d f false r
    match x.posted with
    | [] => d
    | p :: ps =>
      if getF p.toNat TxDesc.bufLen < 64 then
        let d := setRing d f false r { x with posted := ps }
        skipBad fuel (writeBack d f false r (setF (setF 0 RxWb.kind 3) RxWb.done 1) []) f r
      else d

/-- The receive write-back of a frame or record (Table HOST.11), before its length fields. -/
structure RxInfo where
  stamp : Nat
  status : Nat
  port : Nat
  kind : Nat
  puntClass : Nat
  tenant : Nat

/-- A refusal counts REFUSED when the ring exists. -/
def refuseRing (d : Dev) (f : Fn) (r : Nat) : Dev :=
  if fnExists d f ∧ r < ringCount f then bumpFld d .ring (ringIdx f false r) Rng.refused else d

/-- A delivery to a receive ring: whether it was taken, and the device after it. -/
def deliver (d : Dev) (f : Fn) (r : Nat) (i : RxInfo) (bytes : List Byte) : Bool × Dev :=
  if !ringEnabled d f false r || !live d f then (false, refuseRing d f r)
  else
    let d := skipBad (getRing d f false r).posted.length d f r
    let x := getRing d f false r
    match x.posted with
    | [] => (false, refuseRing d f r)
    | p :: ps =>
      let n := min bytes.length (getF p.toNat TxDesc.bufLen)
      let valid := decide (i.kind = 2) || bit i.status 31
      let wb := setF (setF (setF (setF 0 RxWb.stampNs (if valid then i.stamp / 2 ^ 32 else 0)) RxWb.stampFrac
        (if valid then i.stamp % 2 ^ 32 else 0)) RxWb.rxStatus i.status) RxWb.port i.port
      let wb := setF (setF (setF (setF wb RxWb.kind i.kind) RxWb.puntClass i.puntClass) RxWb.tenant i.tenant)
        RxWb.wbLength n
      let wb := setF (setF wb RxWb.bufTrunc (b2n (decide (n < bytes.length)))) RxWb.done 1
      (true, writeBack (setRing d f false r { x with posted := ps }) f false r wb (bytes.take n))

/-! ### Transmit write-backs (R136) -/

/-- The write-backs that are ready at the head of a transmit ring, in the order the descriptors were fetched. -/
def drainTx (fuel : Nat) (d : Dev) (f : Fn) (r : Nat) : Dev :=
  match fuel with
  | 0 => d
  | fuel + 1 =>
    let x := getRing d f true r
    match x.inFlight with
    | (_, some wb) :: rest => drainTx fuel (writeBack (setRing d f true r { x with inFlight := rest }) f true r wb.toNat []) f r
    | _ => d

/-- A transmit write-back (Table STAMP.4). -/
def txWb (status cookie : Nat) (stamp : Option Nat) (step : Bool) : Nat :=
  let wb := setF (setF 0 TxWb.status status) TxWb.cookie cookie
  match stamp with
  | some s => setF (setF (setF (setF wb TxWb.stampNs (s / 2 ^ 32)) TxWb.stampFrac (s % 2 ^ 32)) TxWb.stampValid 1)
      TxWb.followerStep (b2n step)
  | none => setF wb TxWb.followerStep (b2n step)

/-- A fetched descriptor's write-back is ready; a descriptor of a ring that was reset meanwhile has none (R328). -/
def txReady (d : Dev) (f : Fn) (r slot : Nat) (wb : Nat) : Dev :=
  let x := getRing d f true r
  if x.inFlight.any fun e => decide (e.1 = slot) && e.2.isNone then
    let l := x.inFlight.map fun e => if e.1 = slot ∧ e.2 = none then (e.1, some (BitVec.ofNat 256 wb)) else e
    drainTx l.length (setRing d f true r { x with inFlight := l }) f r
  else d

end Sys2Proof.Machine
end

