-- ==== Sys2Proof/Machine/Operands.lean ====
section
/-! DEFINITION. Messages: payload forms (R479), requesters and rights (R338, R353, R398), the order of checks (R345),
the service order (R342), fragments (R339–R341), locks (R343) and responses (R336, R349). -/

namespace Sys2Proof.Machine

open Sys2Proof

/-! ### Requesters -/

/-- Who sends a message, as R338 sees it: the function, its door, the acting tenant of a PF (none: the PF itself), and
the tenant bound to a VF. -/
structure Ctx where
  fn : Fn
  door : Nat
  acting : Option Nat
  vfTenant : Option Nat
  /-- The BT_COUNT of its doorbell. -/
  postedBt : Nat
deriving DecidableEq, Repr

/-- The Requester codes of Table CMD.1. -/
inductive Who where
  | c | p | o | v
deriving DecidableEq, Repr

/-- The life-cycle classes of Table CMD.1; `prov` is PROVISIONED alone (WRAP_KEY_INSTALL). -/
inductive LcClass where
  | all | live | svc | prov
deriving DecidableEq, Repr

def LcClass.serves : LcClass → Nat → Bool
  | .all, _ => true
  | .live, l => decide (l ≤ 2)
  | .svc, l => decide (l = 1 ∨ l = 2)
  | .prov, l => decide (l = 1)

def Ctx.isPf (x : Ctx) : Bool := x.fn.vf.isNone

/-- The PF acts as the host of its endpoint. -/
def Ctx.asHost (x : Ctx) : Bool := x.isPf && x.acting.isNone

def Ctx.ep (x : Ctx) : Nat := x.fn.ep.val

/-- A tenant is bound to a VF of an endpoint. -/
def boundOn (d : Dev) (t e : Nat) : Bool := decide (tenantState d t ≠ 0) && decide (tenantEp d t = e)

/-- The endpoint holds control, or held it when the command was accepted (R321). -/
def Ctx.controls (x : Ctx) (d : Dev) : Bool :=
  decide (x.ep = controllerEp d)
    || (decide (x.ep = d.host.formerCtl) && decide (x.postedBt < fld d .controller 0 Ctl.controlBt))

/-- A requester holds a right over the tenant a request names; a request too short to name one is judged without. -/
def Ctx.holds (x : Ctx) (d : Dev) (t : Option Nat) : Who → Bool
  | .c => x.asHost && x.controls d
  | .p => x.asHost
  | .o => match t with
    | some t => (x.asHost && boundOn d t x.ep) || decide (x.acting = some t)
    | none => x.isPf
  | .v => match t with
    | some t => decide (x.acting = some t) || decide (x.vfTenant = some t)
    | none => x.acting.isSome || x.vfTenant.isSome

/-- The ACTING_TENANT of a PF request is one R338 admits. -/
def actingValid (d : Dev) (m : Msg) : Bool :=
  m.fn.vf.isSome || decide (m.acting.toNat = 2 ^ 32 - 1)
    || (decide (m.acting.toNat < 4096) && boundOn d m.acting.toNat m.fn.ep.val)

def ctxOf (d : Dev) (m : Msg) (at_ : Nat) : Ctx :=
  { fn := m.fn, door := if m.fn.vf.isSome then 0 else m.door.val,
    acting := if m.fn.vf.isNone ∧ m.acting.toNat < 4096 then some m.acting.toNat else none,
    vfTenant := match m.fn.vf with | some v => vfTenant d m.fn.ep.val v.val | none => none
    postedBt := at_ }

/-- The requester of a message in the service order (R342): 0–3 the PFs, 4 + t tenant t, beyond them the VFs with no
tenant. -/
def Ctx.requester (x : Ctx) : Nat :=
  match x.acting, x.vfTenant with
  | some t, _ => 4 + t
  | none, some t => 4 + t
  | none, none => if x.isPf then x.ep else 8192 + Fn.key x.fn

def Ctx.weight (x : Ctx) (d : Dev) : Nat :=
  match x.acting, x.vfTenant with
  | some t, _ => fld d .tenant t Ten.mbxWeight
  | none, some t => fld d .tenant t Ten.mbxWeight
  | none, none => if x.isPf then (if x.ep = controllerEp d then 255 else 64) else 1

/-! ### Commands -/

/-- What a served command answers: a status with its payload, its clamp entries and its effect, or a door that stays
in SERVING. -/
inductive Reply where
  | done (status : Status) (payload : List Byte) (clamps : List ClampEntry) (d : Dev)
  | wait (w : Waiting) (d : Dev)

/-- One opcode of the map (R353): requesters and life-cycle class of its read and write forms, the tenant and the locks
a payload names, checks 5 and 6 of R345, and the command's own rules with its effect. -/
structure Cmd where
  op : Nat
  readBy : List Who := []
  writeBy : List Who := []
  readCls : LcClass := .all
  writeCls : LcClass := .all
  isWrite : List Byte → Bool := fun _ => false
  tenant : List Byte → Option Nat := fun _ => none
  locks : List Byte → List Nat := fun _ => []
  /-- A requester of the columns is refused all the same, or one outside them admitted. -/
  admits : Ctx → List Byte → Dev → Bool → Bool := fun _ _ _ b => b
  check : Ctx → List Byte → Dev → Option Status
  body : Ctx → List Byte → Dev → Reply

/-- Check 4 of R345. -/
def Cmd.allowed (c : Cmd) (x : Ctx) (p : List Byte) (d : Dev) : Bool :=
  let t := c.tenant p
  let who := if c.isWrite p then c.writeBy else c.readBy
  (match x.acting, t with | some a, some t => decide (a = t) | _, _ => true)
    && c.admits x p d (who.any fun w => x.holds d t w)

def Cmd.cls (c : Cmd) (p : List Byte) : LcClass := if c.isWrite p then c.writeCls else c.readCls

/-- The families that R329 denies to a VF with no tenant need none of their own: such a VF holds no right. -/
def opAbsent (v : Variant) (op : Nat) : Bool := decide (v = .e) && decide (op / 256 = 0x32)

/-- The 16-byte BUSY payload (Table MBX.6). -/
def busyPayload (l : Lock) : List Byte :=
  leBytes 2 l.code ++ leBytes 1 l.fn.ep.val ++ leBytes 1 (if l.fn.vf.isSome then 0xFF else l.door)
    ++ leBytes 2 (match l.fn.vf with | some v => v.val | none => 0xFFFF) ++ leBytes 2 0 ++ leBytes 8 l.bt

/-- The lock with the lowest code that another door holds. -/
def busyLock (d : Dev) (x : Ctx) (codes : List Nat) : Option Lock :=
  codes.foldl (fun best c =>
    match lockHolder d c with
    | some l =>
      if l.fn = x.fn ∧ l.door = x.door then best
      else match best with | some b => if l.code < b.code then some l else best | none => some l
    | none => best) none

/-- The locks taken by a door (R343). -/
def takeLocks (d : Dev) (x : Ctx) (codes : List Nat) : Dev :=
  { d with mbx := { d.mbx with locks :=
      d.mbx.locks ++ (codes.filter fun c => (lockHolder d c).isNone).map fun c => ⟨c, x.fn, x.door, d.bt⟩ } }

/-- Checks 5–8 of R345 and the effect of a complete request. The life-cycle class is tested first within step 8
(R354); a request that names a RETIRING tenant completes with STATE (R329). -/
def runCmd (c : Cmd) (x : Ctx) (p : List Byte) (d : Dev) : Reply :=
  match c.check x p d with
  | some st => .done st [] [] d
  | none =>
    match busyLock d x (c.locks p) with
    | some l => .done .busy (busyPayload l) [] d
    | none =>
      if !(c.cls p).serves d.key.lifeCycle then .done .state [] [] d
      else if (match c.tenant p with | some t => decide (tenantState d t = 2) | none => false) then .done .state [] [] d
      else c.body x p (takeLocks d x (c.locks p))

/-! ### Responses -/

def Status.code : Status → Nat
  | .ok => 0x0000 | .clamped => 0x0001 | .busy => 0x0010 | .denied => 0x0020 | .unknownOp => 0x0030
  | .badLength => 0x0031 | .notPresent => 0x0040 | .state => 0x0050 | .pkeFail => 0x0060 | .internal => 0x00FF

/-- The ACTING_TENANT a response carries: echoed to a PF; a VF's tenant, or all ones. -/
def actingEcho (d : Dev) (m : Msg) : Nat :=
  match m.fn.vf with
  | none => m.acting.toNat
  | some v => (vfTenant d m.fn.ep.val v.val).getD (2 ^ 32 - 1)

/-- A response written into the door and the door's completion vector sent (R336): vector d of a PF, 0 of a VF, not
when the request had NO_IRQ set. -/
def writeResponse (d : Dev) (m : Msg) (x : Door) (r : Response) (more : Option More) : Dev :=
  let door := m.door.val
  let d := setDoor d m.fn door { x with phase := .done, posted := none, serving := none, resp := some r, more := more,
                                        lastServedBt := d.bt }
  let d := bumpDoor d m.fn door dsMessages
  let d := if r.status = .busy then bumpDoor d m.fn door dsBusy else d
  let d := if r.status = .internal then bumpDoor d m.fn door dsInternal else d
  if bit m.flags.toNat 2 then d else sendMsix d m.fn (if m.fn.vf.isSome then 0 else door)

/-- The largest payload of one fragment (R339). -/
def fragMax : Nat := 4064

/-- The response of a completed command: OK with clamp entries is CLAMPED, its report at the next multiple of 8 bytes
(R349); a payload of more than one fragment leaves the rest for CONTINUE (R341). The command's locks are released. -/
def respond (d : Dev) (op : Nat) (m : Msg) (st : Status) (payload : List Byte) (es : List ClampEntry) : Dev :=
  let st := if st = .ok ∧ es ≠ [] then .clamped else st
  let whole := if st = .clamped then padTo 8 payload ++ clampReport es else payload
  let total := max 1 ((whole.length + fragMax - 1) / fragMax)
  let head : Response := { op := op, flags := m.flags.toNat % 8, sequence := m.sequence, fragIndex := 0, fragTotal := total,
                           acting := actingEcho d m, status := st, payload := whole.take fragMax }
  let d := releaseLocks d m.fn m.door.val
  writeResponse d m { getDoor d m.fn m.door.val with partial_ := none } head
    (if total > 1 then some { head := head, whole := whole, next := 1 } else none)

/-- The acknowledgement of a fragment, and every answer that leaves the door's partial request in place. -/
def acknowledge (d : Dev) (op : Nat) (m : Msg) (x : Door) : Dev :=
  writeResponse d m x { op := op, flags := m.flags.toNat % 8, sequence := m.sequence, fragIndex := 0, fragTotal := 1,
                        acting := actingEcho d m, status := .ok, payload := [] } none

/-! ### Service of one message -/

/-- LENGTH is that R339 requires of the fragment. -/
def lengthFits (m : Msg) : Bool :=
  let n := m.length.toNat
  let i := m.fragIndex.toNat
  let t := m.fragTotal.toNat
  if i + 1 < t then decide (n = fragMax)
  else decide (t = 1) || (decide (1 ≤ n) && decide (i * fragMax + n ≤ 1048576))

/-- Check 1 of R345. -/
def headerOk (m : Msg) : Bool :=
  decide (m.length.toNat ≤ fragMax) && decide (1 ≤ m.fragTotal.toNat) && decide (m.fragTotal.toNat ≤ 259)
    && decide (m.fragIndex.toNat < m.fragTotal.toNat) && lengthFits m

/-- The message continues the door's partial request (R340). -/
def continues (p : Partial) (op : Nat) (m : Msg) : Bool :=
  decide (op = p.op) && decide (m.sequence = p.sequence) && decide (m.fragTotal.toNat = p.total)
    && decide (m.acting = p.acting) && decide (m.fragIndex.toNat = p.next) && headerOk m

/-- The payload bytes of a message as copied: min(LENGTH, 4,064) of them (R335). -/
def copied (m : Msg) : List Byte := slice m.payload 0 (min m.length.toNat fragMax)

/-- A complete request runs: its reply is written, or its door stays in SERVING. -/
def runWhole (d : Dev) (c : Cmd) (op : Nat) (m : Msg) (po : Posted) (p : List Byte) : Dev :=
  let door := m.door.val
  match runCmd c (ctxOf d m po.bt) p d with
  | .done st pl es d => respond d op m st pl es
  | .wait w d =>
    setDoor d m.fn door { getDoor d m.fn door with phase := .serving, posted := none, partial_ := none,
                                                   serving := some (po, w) }

/-- Checks 1–4 of R345 for a request or its fragment 0. -/
def earlyCheck (d : Dev) (c : Option Cmd) (op : Nat) (m : Msg) (at_ : Nat) : Option Status :=
  if !headerOk m ∨ m.fragIndex.toNat ≠ 0 then some .badLength
  else match c with
    | none => some .unknownOp
    | some c =>
      if opAbsent d.variant op then some .notPresent
      else if !actingValid d m then some .denied
      else if !c.allowed (ctxOf d m at_) (copied m) d then some .denied
      else none

/-- A request, or fragment 0 of one. -/
def serveNew (d : Dev) (c : Option Cmd) (op : Nat) (m : Msg) (po : Posted) : Dev :=
  match earlyCheck d c op m po.bt, c with
  | some st, _ => respond d op m st [] []
  | none, none => respond d op m .unknownOp [] []
  | none, some c =>
    if m.fragTotal.toNat = 1 then runWhole d c op m po (copied m)
    else
      match busyLock d (ctxOf d m po.bt) (c.locks (copied m)) with
      | some l => respond d op m .busy (busyPayload l) []
      | none =>
        let d := takeLocks d (ctxOf d m po.bt) (c.locks (copied m))
        acknowledge d op m { getDoor d m.fn m.door.val with
          partial_ := some { op := op, sequence := m.sequence, total := m.fragTotal.toNat, acting := m.acting, next := 1,
                             bytes := copied m } }

/-- A later fragment of the request the door holds. -/
def serveNext (d : Dev) (c : Option Cmd) (op : Nat) (m : Msg) (po : Posted) (p : Partial) : Dev :=
  let bytes := p.bytes ++ copied m
  if p.next + 1 < p.total then
    acknowledge d op m { getDoor d m.fn m.door.val with partial_ := some { p with next := p.next + 1, bytes := bytes } }
  else
    match c with
    | some c => runWhole d c op m po bytes
    | none => respond d op m .unknownOp [] []

/-- A CONTINUE fetch (R341). -/
def serveContinue (d : Dev) (op : Nat) (m : Msg) : Dev :=
  let x := getDoor d m.fn m.door.val
  let bad := writeResponse d m x { op := op, flags := m.flags.toNat % 8, sequence := m.sequence, fragIndex := 0,
                                   fragTotal := 1, acting := actingEcho d m, status := .badLength, payload := [] } x.more
  match x.more with
  | none => bad
  | some r =>
    if op = r.head.op ∧ m.sequence = r.head.sequence ∧ m.acting.toNat = r.head.acting ∧ m.fragIndex.toNat = r.next
        ∧ m.length.toNat = 0 then
      let resp := { r.head with flags := m.flags.toNat % 8, fragIndex := r.next,
                                payload := (r.whole.drop (r.next * fragMax)).take fragMax }
      writeResponse d m x resp (if r.next + 1 < r.head.fragTotal then some { r with next := r.next + 1 } else none)
    else bad

/-- One message served (R339–R341, R345): a partial request is continued, aborted or discarded; a CONTINUE fetches the
next response fragment; any other message is a new request. -/
def serveMessage (d : Dev) (c : Option Cmd) (op : Nat) (m : Msg) (po : Posted) : Dev :=
  let x := getDoor d m.fn m.door.val
  match x.partial_ with
  | some p =>
    if bit m.flags.toNat 1 then respond d op m .ok [] []
    else if continues p op m then serveNext d c op m po p
    else respond d op m .badLength [] []
  | none => if bit m.flags.toNat 0 then serveContinue d op m else serveNew d c op m po

/-! ### Doorbells and the service order -/

/-- A doorbell on a door in IDLE or DONE: the request is copied and tagged (R335, R342); untaken response fragments are
discarded by a doorbell without CONTINUE (R341). A doorbell in POSTED or SERVING is ignored and counted. -/
def ring (d : Dev) (op : Nat) (m : Msg) : Dev :=
  let x := getDoor d m.fn m.door.val
  match x.phase with
  | .posted => bumpDoor d m.fn m.door.val dsIgnored
  | .serving => bumpDoor d m.fn m.door.val dsIgnored
  | _ =>
    let c := ctxOf d m d.bt
    let tag := max d.mbx.v (Tab.get 0 d.mbx.finish c.requester) + 4096 / (c.weight d : Rat)
    let lost := x.more.isSome && !bit m.flags.toNat 0
    let d := if lost then bumpDoor d m.fn m.door.val dsRespDiscarded else d
    let d := { d with mbx := { d.mbx with finish := Tab.set 0 d.mbx.finish c.requester tag } }
    setDoor d m.fn m.door.val { x with phase := .posted, posted := some ⟨op, m, tag, d.bt⟩, resp := none,
                                       more := if lost then none else x.more, seqLow := m.sequence.toNat % 65536 }

/-- The POSTED door with the least tag; ties go to the earlier doorbell, then to the lower door key (R342). -/
def leastPosted (d : Dev) : Option (Nat × Posted) :=
  d.mbx.doors.foldl (fun best e =>
    match e.2.posted, best with
    | none, _ => best
    | some p, none => some (e.1, p)
    | some p, some (k, q) => if p.tag < q.tag ∨ (p.tag = q.tag ∧ p.bt < q.bt) then some (e.1, p) else some (k, q)) none

/-- The request half of the door holds the message as the host wrote it (Table MBX.1): the header's 24 bytes at 0, the
payload from byte 32. -/
def writeRequest (d : Dev) (op : Nat) (m : Msg) : Dev :=
  let x := getDoor d m.fn m.door.val
  let head := leBytes 2 op ++ leBytes 2 m.flags.toNat ++ leBytes 4 m.sequence.toNat ++ leBytes 4 m.length.toNat
    ++ leBytes 2 m.fragIndex.toNat ++ leBytes 2 m.fragTotal.toNat ++ leBytes 4 m.acting.toNat ++ leBytes 4 0
  setDoor d m.fn m.door.val { x with reqBuf := overwrite (overwrite x.reqBuf 0 head) 32 m.payload }

/-- The processor takes the door with the least tag when it is the one given (R342). -/
def serveIfLeast (d : Dev) (c : Option Cmd) (op : Nat) (m : Msg) : Dev :=
  match leastPosted d with
  | some (k, po) =>
    if k = doorKey m.fn m.door.val ∧ po.op = op ∧ po.msg = m then
      serveMessage { d with mbx := { d.mbx with v := po.tag } } c op m po
    else d
  | none => d

/-- A message at its door: the host writes and rings it, unless it is the one already posted there; the processor serves
it when doors are served (R345, R355) and it has the least tag. -/
def message (op : Nat) (c : Option Cmd) (m : Msg) (d : Dev) : Dev :=
  if !barUp d m.fn then d
  else
    let x := getDoor d m.fn m.door.val
    let waiting := match x.posted with | some po => decide (po.op = op) && decide (po.msg = m) | none => false
    let d := if waiting then d else
      match x.phase with
      | .posted | .serving => ring d op m
      | _ => ring (writeRequest d op m) op m
    if doorsServed d then serveIfLeast d c op m else d

/-- A message whose payload byte at an offset is the one its row fixes (several rows share an opcode). -/
def withByte (off v : Nat) (m : Msg) : Msg :=
  if off < m.payload.length then { m with payload := m.payload.set off (BitVec.ofNat 8 v) } else m

/-- A mailbox row: its message, served by its command. -/
def mailbox (c : Cmd) (m : Msg) (s : State) : Host.Outcome State Fault Refusal :=
  whenOn s (message c.op (some c) m)

/-- The completion of a door in SERVING (R336, R342); a response discarded by a function reset leaves the door IDLE
(R328). While the processor has stopped the door stays as it is (R351). -/
def complete (d : Dev) (f : Fn) (door : Nat) (st : Status) (payload : List Byte) (es : List ClampEntry) : Dev :=
  let x := getDoor d f door
  match x.serving with
  | none => d
  | some (po, _) =>
    if !doorsServed d then d
    else if x.discard then
      setDoor (releaseLocks d f door) f door { Door.idle with reqBuf := x.reqBuf }
    else respond d po.op po.msg st payload es

/-- What a door in SERVING waits for. -/
def waitingAt (d : Dev) (f : Fn) (door : Nat) : Option Waiting := (getDoor d f door).serving.map (·.2)

/-! ### Payload forms (R479) -/

/-- A read or write of a record after an index of `ib` bytes padded to 4 (none with `ib` 0). -/
def idxLen (ib : Nat) : Nat := if ib = 0 then 0 else 4

def recordIsWrite (ib : Nat) (p : List Byte) : Bool := decide (p.length ≠ idxLen ib)

def recordLenOk (ib : Nat) (k : RecKind) (p : List Byte) : Bool :=
  decide (p.length = idxLen ib) || decide (p.length = idxLen ib + k.bytes)

/-- The record carried by a write form. -/
def carried (ib : Nat) (k : RecKind) (p : List Byte) : Nat := rdLe p (idxLen ib) k.bytes

/-- The tenant at an offset of a payload long enough to carry it. -/
def tenantAt (off : Nat) (p : List Byte) : Option Nat := if off + 2 ≤ p.length then some (rdLe p off 2) else none

/-- A length check: the payload is as long as one of the forms. -/
def lens (ls : List Nat) : Ctx → List Byte → Dev → Option Status :=
  fun _ p _ => if ls.contains p.length then none else some .badLength

/-- Answer a record that is read: its image, and the device after the read has cleared its RC fields. -/
def readReply (k : RecKind) (image : Nat) (d : Dev) : Reply := .done .ok (recBytes k image) [] d

/-! ### Record commands -/

/-- A command that reads or writes one record: the payload is an index of `ib` bytes padded to 4 (none with `ib` 0),
then the record to write. -/
structure RecSpec where
  kind : RecKind
  ib : Nat
  /-- The record a payload names. -/
  index : List Byte → Nat := fun p => rdLe p 0 ib
  /-- The index fields lie in their encodable sets (check 5). -/
  inSet : List Byte → Bool := fun _ => true
  /-- The unit named is present (check 6). -/
  present : Dev → Nat → Bool := fun _ _ => true
  /-- The record as it reads now. -/
  image : Dev → Nat → Nat
  /-- The limits that refer to something else (R347), given the record's index and the whole record written. -/
  dep : Dev → Nat → Nat → Dep := fun _ _ _ => noDep
  /-- The command's own refusal of a write. -/
  refuse : Dev → Nat → Nat → Option Status := fun _ _ _ => none
  /-- The record a write answers, where it is not the record as clamped. -/
  answer : Dev → Nat → Nat → Nat := fun _ _ r => r
  /-- Whether a write of the record requested has its effect. -/
  takes : Dev → Nat → Bool := fun _ _ => true
  /-- The effect of a write, given the record as clamped. -/
  apply : Dev → Nat → Nat → Dev

/-- The record of a kind as it stands. -/
def plainImage (k : RecKind) (d : Dev) (i : Nat) : Nat := getRec d k i

/-- A write that takes effect at the first base-tick edge after it reaches the device (R348). -/
def atNextEdge (k : RecKind) (d : Dev) (i v : Nat) : Dev := defer d (.write k i v)

def RecSpec.check (r : RecSpec) (_ : Ctx) (p : List Byte) (d : Dev) : Option Status :=
  if !recordLenOk r.ib r.kind p ∨ !r.inSet p then some .badLength
  else if !r.present d (r.index p) then some .notPresent
  else none

/-- The body of a record command: a read returns the record and clears its RC fields; a write is clamped field by field
(R347) and answers the record as applied. -/
def RecSpec.body (r : RecSpec) (_ : Ctx) (p : List Byte) (d : Dev) : Reply :=
  let i := r.index p
  if recordIsWrite r.ib p then
    let req := carried r.ib r.kind p
    match r.refuse d i req with
    | some st => .done st [] [] d
    | none =>
      let (v, es) := clampRecord r.kind.fields (r.dep d i req) 0 (getRec d r.kind i) req
      .done .ok (recBytes r.kind (r.answer d i (mergeRw r.kind.fields (r.image d i) v))) es
        (bif r.takes d req then r.apply d i v else d)
  else readReply r.kind (r.image d i) (readClear d r.kind i)

/-- The command of a record. -/
def RecSpec.cmd (r : RecSpec) (op : Nat) (readBy writeBy : List Who) (cls : LcClass := .live)
    (tenant : List Byte → Option Nat := fun _ => none) : Cmd :=
  { op := op, readBy := readBy, writeBy := writeBy, writeCls := cls, isWrite := recordIsWrite r.ib, tenant := tenant,
    check := r.check, body := r.body }

/-- An index of one byte below a bound. -/
def idxBelow (n : Nat) (p : List Byte) : Bool := decide (rdLe p 0 1 < n)

/-- A tenant index. -/
def tenantIdx (p : List Byte) : Bool := decide (rdLe p 0 2 < 4096)

end Sys2Proof.Machine
end

