-- ==== Sys2Proof/Machine/Time.lean ====
section
/-! DEFINITION. Timescales, steering and followers (02_timescales.md): the parts of a base-tick edge that R42 gives them,
and the TIMESCALE commands. -/

namespace Sys2Proof.Machine

open Sys2Proof

/-! ### Increments (R39, R40) -/

/-- An INC confined to INC_NOM × (1 ± 500 × 10^-6), in units of 2^-40 ns (R40). -/
def confineInc (nom inc : Nat) : Nat :=
  nearest ((nom * 999500 + 999999) / 1000000) (nom * 1000500 / 1000000) inc

def clampInc (d : Dev) (inc : Nat) : Nat := confineInc (incNom d) inc

/-! ### Advancing (R38) -/

/-- A timescale at the next edge: its increment is added as in the pseudocode of R38. -/
def Timescale.advance (t : Timescale) : Timescale :=
  let f := t.frac40 + t.inc % 2 ^ 40
  let ns := t.ns + t.inc / 2 ^ 40 + f / 2 ^ 40
  if ns ≥ 10 ^ 9 then { t with sec := (t.sec + 1) % 2 ^ 48, ns := ns - 10 ^ 9, frac40 := f % 2 ^ 40 }
  else { t with ns := ns, frac40 := f % 2 ^ 40 }

/-- SECONDS wraps at 2^48. -/
def totalMod : Nat := 2 ^ 48 * 10 ^ 9 * 2 ^ 40

/-- A TW96 value in units of 2^-40 ns (R37). -/
def twTotal (tw : Nat) : Nat := (tw / 2 ^ 48 * 10 ^ 9 + tw / 2 ^ 16 % 2 ^ 32) * 2 ^ 40 + tw % 2 ^ 16 * 2 ^ 24

/-! ### Rate writes and initial sets (R41, R44–R47) -/

/-- A rate write at its edge; the bounds are those of the INC_NOM in effect there (R40). -/
def applyRate (d : Dev) (i inc : Nat) : Dev := setTs d i { getTs d i with inc := clampInc d inc }

/-- The declared OSC_IN frequency takes effect (R39, R359): a change of it reloads each timescale's INC. -/
def applyOsc (d : Dev) (v : Nat) : Dev :=
  let changes := decide (v ≠ fld d .device 0 DRec.oscFreq)
  let d := setFld d .device 0 DRec.oscFreq v
  let d := setFld d .device 0 DRec.oscDeclared 1
  let d := setFld d .device 0 DRec.oscBt d.bt
  if changes then [0, 1, 2].foldl (fun d i => setTs d i { getTs d i with inc := incNom d }) d else d

/-- The INC_NOM that the next edge will have, under which a rate write is confined. -/
def incNomAhead (d : Dev) : Nat :=
  periodNs (d.atEdge.foldl (fun f e => match e.2 with | .osc v => v | _ => f) (fld d .device 0 DRec.oscFreq)) * 2 ^ 40

/-- The NANOSECONDS entry of the clamp report of a TW96 value (R13). TS_SET carries no record, so the spec names no bit
numbers: those of the field within the TW96 are given (DESIGN CHOICE, assumption log 75). -/
def nsEntry (reqNs : Nat) : List ClampEntry :=
  if reqNs < 10 ^ 9 then [] else [⟨47, 16, 0, .range, reqNs, 999999999⟩]

/-- The answer of TS_SET and TS_STEP: the TW96 value taken at the edge, and its BT_COUNT. -/
def setPayload (d : Dev) (total : Nat) : List Byte := leBytes 12 ((Timescale.reset.withTotal total).tw96) ++ leBytes 8 d.bt

/-- TS_SET at its edge (R44, R45): the value is loaded less the INC that the advance of the edge adds. -/
def applySet (d : Dev) (i total reqNs : Nat) (f : Fn) (door : Nat) : Dev :=
  let t := getTs d i
  if t.set then complete d f door .state [] []
  else
    let t' := { t.withTotal ((total + totalMod - t.inc) % totalMod) with set := true, stepSource := 1 }
    complete (setTs d i t') f door .ok (setPayload d total) (nsEntry reqNs)

/-- TS_STEP at its edge (R44–R46), with the offset in units of 2^-40 ns. -/
def applyStep (d : Dev) (i : Nat) (off : Int) (f : Fn) (door : Nat) : Dev :=
  let t := getTs d i
  let x : Int := t.total + t.inc + off
  if t.set ∨ x < 0 then complete d f door .state [] []
  else
    let n := x.toNat % totalMod
    let t' := { t.withTotal ((n + totalMod - t.inc) % totalMod) with set := true, stepSource := 2 }
    complete (setTs d i t') f door .ok (setPayload d n) []

/-- TS_CLEAR at its edge: the state of R43. -/
def applyClear (d : Dev) (i : Nat) : Dev :=
  let d := setTs d i { Timescale.reset with inc := incNom d }
  if i = 2 then setFld d .steer 0 Steer.convSinceSel 0 else d

/-! ### Selection (R55, R56) -/

/-- slew_max in units of 2^-40 ns per base tick (R50). -/
def slewMax (d : Dev) : Nat := fld d .steer 0 Steer.slewMaxPpb * btNs d * 2 ^ 40 / 10 ^ 9

/-- The steering correction for an offset d (R42, R50). -/
def corrOf (d : Dev) (off : Int) : Int :=
  nearestInt (-(slewMax d : Int)) (slewMax d) (off / (2 ^ fld d .steer 0 Steer.steerShift : Nat))

/-- SELECT taking effect at an edge: the dovetail recomputes the correction; with TSH unset the selected master is
copied; a master with SET = 0 is refused. The result tells whether the request stands. -/
def applySelect (d : Dev) (v : Nat) : Dev × Bool :=
  let cur := fld d .steer 0 Steer.select
  if v = cur then (d, true)
  else
    let mark (d : Dev) : Dev :=
      setFld (setFld (setFld d .steer 0 Steer.select v) .steer 0 Steer.selBt d.bt) .steer 0 Steer.convSinceSel 0
    if v = 0 then (mark d, true)
    else
      let m := getTs d (v - 1)
      let h := d.ts.tsh
      if !m.set then (d, false)
      else if h.set then
        let d := mark d
        (setFld d .steer 0 Steer.corr (ofInt 64 (corrOf d ((m.total : Int) - h.total))), true)
      else
        let d := mark d
        let d := setTs d 2 { m with set := true, stepSource := 4 }
        (setFld d .steer 0 Steer.corr 0, true)

/-- The fields of the steering record apart from SELECT take effect (R66). -/
def applySteerCfg (d : Dev) (v : Nat) : Dev :=
  setRec d .steer 0 (setF (mergeRw steerFields (getRec d .steer 0) v) Steer.select (fld d .steer 0 Steer.select))

/-- A TSH_STEER write at its edge (R56, R261): a refused selection leaves the whole write without effect; a write that
changes SELECT while SELECT_MODE is AUTO sets it to MANUAL. -/
def applySteer (d : Dev) (req : Nat) (f : Fn) (door : Nat) : Dev :=
  let (v, es) := clampRecord steerFields noDep 0 (getRec d .steer 0) req
  let changes := decide (getF v Steer.select ≠ fld d .steer 0 Steer.select)
  let (d', ok) := applySelect (applySteerCfg d v) (getF v Steer.select)
  if !ok then complete d f door .state [] []
  else
    let d' := if changes ∧ fld d .select 0 Sel.selectMode = 1 then setFld d' .select 0 Sel.selectMode 0 else d'
    complete d' f door .ok (recBytes .steer (getRec d' .steer 0)) es

/-- A step of TSH made at the edge is exact though the selection of the same edge changes INC (R44): the value is loaded
less the INC that the advance adds. `x` is X(n), when TSH was set or stepped at this edge. -/
def retarget (x : Option Nat) (d : Dev) : Dev :=
  let h := d.ts.tsh
  match x with
  | some n => if h.set ∧ h.stepSource ≠ 4 then setTs d 2 (h.withTotal ((n + totalMod - h.inc) % totalMod)) else d
  | none => d

/-- X(n) of a step of TSH made since the device given, the start of the edge. -/
def stepTarget (before d : Dev) : Option Nat :=
  if d.ts.tsh.set && !before.ts.tsh.set then some ((d.ts.tsh.total + d.ts.tsh.inc) % totalMod) else none

/-! ### The advance and the steering update of an edge (R42, R50–R54) -/

/-- Step 4 of R42: TSH's increment while a master is selected, confined as R40 says. -/
def steerInc (d : Dev) : Dev :=
  let s := fld d .steer 0 Steer.select
  if s = 0 then d
  else
    let x : Int := (getTs d (s - 1)).inc + sfld d .steer 0 Steer.corr
    setTs d 2 { d.ts.tsh with inc := clampInc d x.toNat }

def advanceAll (d : Dev) : Dev :=
  { d with ts := { d.ts with tsa := d.ts.tsa.advance, tsb := d.ts.tsb.advance, tsh := d.ts.tsh.advance } }

/-- An offset of a master from TSH in units of 2^-16 ns with its VALID and SAT bits (R53). The 24 bits below the unit are
cut off toward minus infinity, where R53 gives no rounding (DESIGN CHOICE, assumption log 73). -/
def offsetOf (d : Dev) (i : Nat) : Int × Bool × Bool :=
  let m := getTs d i
  let h := d.ts.tsh
  if !m.set ∨ !h.set then (0, false, false)
  else
    let x : Int := ((m.total : Int) - h.total) / (2 ^ 24 : Nat)
    (satInt 64 x, true, decide (satInt 64 x ≠ x))

/-- The steering fields at an edge, after the advance: the correction for the next edge, STEER_STATE and CONVERGED
(R54), the offsets (R53). -/
def steerUpdate (d : Dev) : Dev :=
  let s := fld d .steer 0 Steer.select
  let off : Int := if s = 0 then 0 else ((getTs d (s - 1)).total : Int) - d.ts.tsh.total
  let c := corrOf d off
  let d := if s = 0 then d else setFld d .steer 0 Steer.corr (ofInt 64 c)
  let st := if !d.ts.tsh.set then 0 else if s = 0 then 1 else if c.natAbs = slewMax d then 2 else 3
  let conv := decide (st = 3) && decide (off.natAbs ≤ fld d .steer 0 Steer.convergeNs * 2 ^ 40)
  let (oa, va, sa) := offsetOf d 0
  let (ob, vb, sb) := offsetOf d 1
  let r := getRec d .steer 0
  let r := setF (setF r Steer.steerState st) Steer.converged (b2n conv)
  let r := setF (setF (setF r Steer.offsetA (ofInt 64 oa)) Steer.offsetAValid (b2n va)) Steer.offsetASat (b2n sa)
  let r := setF (setF (setF r Steer.offsetB (ofInt 64 ob)) Steer.offsetBValid (b2n vb)) Steer.offsetBSat (b2n sb)
  let r := if !d.ts.tsh.set then setF r Steer.convSinceSel 0 else if conv then setF r Steer.convSinceSel 1 else r
  setRec d .steer 0 (setF r Steer.btAt d.bt)

/-! ### Followers (R57–R64) -/

def getFol (d : Dev) (i : Nat) : Follower := Tab.get Follower.reset d.ts.fol i

def setFol (d : Dev) (i : Nat) (x : Follower) : Dev :=
  { d with ts := { d.ts with fol := Tab.set Follower.reset d.ts.fol i x } }

/-- The follower exists: its port starts (R15, R57). -/
def folPresent (d : Dev) (i : Nat) : Bool := if i < 16 then portStarts d i else decide (i < 18)

/-- The PLL of a follower's domain (Table TS.1). -/
def folPll (i : Nat) : Nat := if i = 17 then 2 else 1

/-- The local tick in ns, the start K and the spread S of a follower (Table TS.1). -/
def folTickNs (i : Nat) : Rat := if i = 17 then 1000000000 / 65472000 else 16 / 10

def folStart (i : Nat) : Nat := if i = 17 then 1 else 8

def folSpread (i : Nat) : Nat := if i = 17 then 1 else 16

/-- δ in ns, within the 2 ns of Table TS.2. -/
def folDelayNs (i : Nat) : Rat := max 0 (min 2 (Config.strobeDelay i))

/-- The follower's increment (R58): TSH's, by the ratio of its local period to the base period, to the nearest 2^-40 ns; a
tie, which R58 does not name, goes to the larger (DESIGN CHOICE, assumption log 73). -/
def folInc (d : Dev) (i : Nat) : Nat := (roundHalf ((d.ts.tsh.inc : Rat) * (folTickNs i / btNs d))).toNat

/-- δ × (TSH rate) of E(n) (Table TS.2), cut to whole units (assumption log 73). -/
def folDelay (d : Dev) (i : Nat) : Nat := (folDelayNs i * d.ts.tsh.inc / btNs d).floor.toNat

/-- A follower's value at local tick j (Table TS.2): the old increment up to tick K, then the new one, with E spread over
S ticks, or from the value loaded at tick K. -/
def Follower.tick (x : Follower) (k s j : Nat) : Nat :=
  if j < k then x.base + j * x.incOld
  else match x.load with
    | some v => v + (j - k) * x.inc
    | none => ((x.base + k * x.incOld + (j - k) * x.inc : Nat) + x.err * (min (j - k) s : Nat) / (s : Nat) : Int).toNat

/-- How far the value runs from tick j to the next: before a load, by the old increment. -/
def Follower.slope (x : Follower) (k s j : Nat) : Nat :=
  if j < k then x.incOld else x.tick k s (j + 1) - x.tick k s j

/-- The value at a position, interpolated between the local ticks to 1/128 (R59). -/
def Follower.at (x : Follower) (k s pos : Nat) : Nat :=
  x.tick k s (pos / 128) + x.slope k s (pos / 128) * (pos % 128) / 128

/-- The interval scale at local tick j (R304): the follower's increments without its corrections. -/
def Follower.scaleAt (x : Follower) (k j : Nat) : Nat := x.scale + min j k * x.incOld + (j - k) * x.inc

/-- Follower i over the base tick of an edge; a tick that is no longer kept counts as the current one (assumption
log 74). -/
def folAt (d : Dev) (i bt : Nat) : Follower :=
  if bt = d.bt then getFol d i
  else match d.hist.find? fun t => decide (t.bt = bt) with
    | some t => Tab.get Follower.reset t.fol i
    | none => getFol d i

/-- The instant of TSH a follower latches, as NS96. -/
def latched (d : Dev) (i : Nat) (a : LocalAt) : Nat := (folAt d i a.bt).at (folStart i) (folSpread i) a.pos / 2 ^ 8

/-- A stamp latched there is valid: the follower is TRACKING, and has been loaded since it locked (R64). -/
def latchTracks (d : Dev) (i : Nat) (a : LocalAt) : Bool :=
  let x := folAt d i a.bt
  x.tracking && (x.load.isNone || x.step || decide (128 * folStart i ≤ a.pos))

/-- The strobe's way back to the edge itself, in 1/128 of a local tick. -/
def folBack (i : Nat) : Nat := (folDelayNs i * 128 / folTickNs i).floor.toNat

/-- A stamp latched there carries FOLLOWER_STEP: from the edge of a hard load to its load tick (R61). -/
def latchStep (d : Dev) (i : Nat) (a : LocalAt) : Bool :=
  let x := folAt d i a.bt
  (x.step && decide (x.frac - folBack i ≤ a.pos) && decide (a.pos ≤ 128 * folStart i))
    || (match x.stepFrom with | some p => decide (p ≤ a.pos) | none => false)

/-- The follower is TRACKING (R64). -/
def folTracks (d : Dev) (i : Nat) : Bool := decide (fld d .follower i Fol.fstate = 2)

/-- The current base tick's segment of a follower changed, in the history as well. -/
def changeFol (d : Dev) (i : Nat) (f : Follower → Follower) : Dev :=
  let hist := match d.hist with
    | t :: ts => { t with fol := Tab.set Follower.reset t.fol i (f (Tab.get Follower.reset t.fol i)) } :: ts
    | [] => []
  setFol { d with hist := hist } i (f (getFol d i))

/-- A follower whose domain has lost its clock: LOCKING, and no stamp of the base tick is valid (R64; that stamps latched
before the loss are withheld with it: DESIGN CHOICE, assumption log 74). -/
def folStop (d : Dev) (i : Nat) : Dev :=
  setFld (changeFol d i fun x => { x with tracking := false }) .follower i Fol.fstate 1

/-- Where the strobe of an edge comes, in 1/128 of a local tick from tick 0 of the edge before: as measured, else by the
nominal periods (assumption log 74). -/
def strobePos (strobes : List Nat) (d : Dev) (i : Nat) : Nat :=
  strobes.getD i ((getFol d i).frac + (128 * btNs d / folTickNs i).floor.toNat)

/-- A load at tick K of the edge: TSH(n) and the interval from the edge to that tick at the new increment (R61). -/
def loadValue (d : Dev) (i frac : Nat) : Nat :=
  d.ts.tsh.total + folDelay d i + folInc d i * (128 * folStart i - frac) / 128

/-- A follower loaded after its lock (R64). Its interval scale and the coarse count begin at 0 (assumption log 74). -/
def loadedFol (d : Dev) (i p : Nat) : Follower :=
  { tracking := true, base := loadValue d i (p % 128) - folStart i * folInc d i, frac := p % 128, incOld := folInc d i
    inc := folInc d i, err := 0, load := some (loadValue d i (p % 128)), step := false, stepFrom := none, scale := 0
    ticks := 0 }

/-- E(n) = TSH(n) + δ × (TSH rate) − F, with F the value at the strobe (Table TS.2). -/
def folError (d : Dev) (i p : Nat) : Int :=
  ((d.ts.tsh.total + folDelay d i : Nat) : Int) - (getFol d i).at (folStart i) (folSpread i) p

/-- A follower carried over the strobe at a position of the tick before, with its error spread, or with a hard load. -/
def nextFol (d : Dev) (i p : Nat) (hard : Bool) : Follower :=
  let x := getFol d i
  let k := folStart i
  { tracking := true, base := x.tick k (folSpread i) (p / 128), frac := p % 128
    incOld := if p / 128 < k then x.incOld else x.inc
    inc := folInc d i, err := folError d i p, load := if hard then some (loadValue d i (p % 128)) else none, step := hard
    stepFrom := none, scale := x.scaleAt k (p / 128), ticks := x.ticks + p / 128 }

/-- One follower at an edge: OFF without its domain, LOCKING without its PLL, loaded at the first edge after lock (R64),
otherwise realigned, or hard-loaded beyond REALIGN_LIMIT_NS (R61). A follower whose port newly starts while its PLL is
locked is loaded in the same way, and this load counts in RELOCK_LOADS too, of which R64 does not speak (DESIGN CHOICE,
assumption log 76). LAST_ERR is cut to 2^-16 ns (assumption log 73). -/
def folEdge (strobes : List Nat) (d : Dev) (i : Nat) : Dev :=
  let off := { getFol d i with tracking := false }
  if !folPresent d i ∨ d.pwr.phase = .mainOff ∨ d.pwr.phase = .railsWait then setFld (setFol d i off) .follower i Fol.fstate 0
  else if !fastRuns d ∨ !bit d.pwr.plls (folPll i) then setFld (setFol d i off) .follower i Fol.fstate 1
  else
    let p := strobePos strobes d i
    if !folTracks d i then
      bumpFld (setFld (setFol d i (loadedFol d i p)) .follower i Fol.fstate 2) .follower i Fol.relockLoads
    else
      let e := folError d i p
      let r := getRec d .follower i
      let r := setS r Fol.lastErr (satInt 32 (e / (2 ^ 24 : Nat)))
      let ps := (roundFree ((e.natAbs * 1000 : Nat) / (2 ^ 40 : Rat))).toNat
      let r := setF r Fol.maxErrPs (max (getF r Fol.maxErrPs) (min 65535 ps))
      let d := setRec d .follower i r
      if e.natAbs > fld d .follower i Fol.realignLimitNs * 2 ^ 40 then
        let x := nextFol d i p true
        let d := changeFol d i fun y => { y with stepFrom := some (p - folBack i) }
        raise (bumpFld (setFol d i x) .follower i Fol.hardLoads) (srcId 0x34 i)
      else setFol d i (nextFol d i p false)

/-- Every follower at an edge. -/
def folEdges (strobes : List Nat) (d : Dev) : Dev := (List.range 18).foldl (folEdge strobes) d

/-! ### Commands (Table TS.5) -/

/-- A timescale record as read (Table TS.6). -/
def tscRecord (d : Dev) (i : Nat) : Nat :=
  let t := getTs d i
  setF (setF (setF (setF (setF 0 Tsc.time t.tw96) Tsc.btAt d.bt) Tsc.inc t.inc) Tsc.set (b2n t.set)) Tsc.stepSource
    t.stepSource

def btPayload (n : Nat) : List Byte := leBytes 8 n

/-- The INC entry of a clamp report, reported as DEPENDENT (R347). TS_RATE carries no record, so the spec names no bit
numbers: those of INC in Table TS.6 are given (DESIGN CHOICE, assumption log 75). -/
def incEntry (req applied : Nat) : List ClampEntry := if req = applied then [] else [⟨95, 24, 0, .dependent, req, applied⟩]

def tsReadCmd : Cmd :=
  { op := 0x1000, readBy := [.c, .p]
    check := fun _ p _ => if p.length = 4 ∧ (rdLe p 0 1 ≤ 2 ∨ rdLe p 0 1 = 0xFF) then none else some .badLength
    body := fun _ p d =>
      let i := rdLe p 0 1
      .done .ok ((if i = 0xFF then [0, 1, 2] else [i]).flatMap fun i => leBytes 32 (tscRecord d i)) [] d }

def tsIndexCheck (n : Nat) : Ctx → List Byte → Dev → Option Status :=
  fun _ p _ => if p.length = n ∧ rdLe p 0 1 ≤ 2 then none else some .badLength

/-- TS_RATE is refused while the servo of a master is enabled, and for TSH while SELECT is not NONE (R41). -/
def rateRefused (d : Dev) (i : Nat) : Bool :=
  if i = 2 then decide (fld d .steer 0 Steer.select ≠ 0) else flag d .servo i Srv.servoEn

def tsRateCmd : Cmd :=
  { op := 0x1001, writeBy := [.c], writeCls := .live, isWrite := fun _ => true
    check := tsIndexCheck 16
    body := fun _ p d =>
      let i := rdLe p 0 1
      let req := rdLe p 4 12 % 2 ^ 72
      if rateRefused d i then .done .state [] [] d
      else
        let inc := confineInc (incNomAhead d) req
        .done .ok (leBytes 12 inc ++ btPayload (nextEdge d)) (incEntry req inc) (defer d (.rate i inc)) }

/-- The edge an APPLY_BT names (R46): the next one for 0, otherwise one 2 to 100,000,000 base ticks ahead. -/
def applyEdge (d : Dev) (n : Nat) : Option Nat :=
  if n = 0 then some (nextEdge d) else if d.bt + 2 ≤ n ∧ n ≤ d.bt + 100000000 then some n else none

def tsSetCmd : Cmd :=
  { op := 0x1002, writeBy := [.c], writeCls := .live, isWrite := fun _ => true
    check := tsIndexCheck 24
    body := fun x p d =>
      let i := rdLe p 0 1
      let tw := rdLe p 4 12
      let ns := tw / 2 ^ 16 % 2 ^ 32
      let total := twTotal (setF tw ⟨47, 16⟩ (min ns 999999999))
      match applyEdge d (rdLe p 16 8) with
      | some n => if (getTs d i).set then .done .state [] [] d else .wait .edge (deferAt d n (.set i total ns x.fn x.door))
      | none => .done .state [] [] d }

def tsStepCmd : Cmd :=
  { op := 0x1003, writeBy := [.c], writeCls := .live, isWrite := fun _ => true
    check := tsIndexCheck 24
    body := fun x p d =>
      let i := rdLe p 0 1
      let off : Int := toInt 64 (rdLe p 4 8) * (2 ^ 40 : Nat) + (rdLe p 12 2 * 2 ^ 24 : Nat)
      match applyEdge d (rdLe p 16 8) with
      | some n => if (getTs d i).set then .done .state [] [] d else .wait .edge (deferAt d n (.step i off x.fn x.door))
      | none => .done .state [] [] d }

/-- A seed of either master is in progress (R264): both are its source or destination. -/
def seedInProgress (d : Dev) : Bool :=
  [0, 1].any fun i => decide (fld d .servoStatus i SrvSt.seedState = 1) || decide (fld d .servoStatus i SrvSt.seedState = 2)

def clearRefused (d : Dev) (i : Nat) : Bool :=
  let s := fld d .steer 0 Steer.select
  if i = 2 then decide (s ≠ 0) else decide (s = i + 1) || seedInProgress d

def tsClearCmd : Cmd :=
  { op := 0x1004, writeBy := [.c], writeCls := .live, isWrite := fun _ => true
    check := tsIndexCheck 4
    body := fun _ p d =>
      let i := rdLe p 0 1
      if clearRefused d i then .done .state [] [] d else .done .ok (btPayload (nextEdge d)) [] (defer d (.clear i)) }

/-- TSH_STEER: a write takes effect, or is refused, at the next edge, where its selection is tested (R42, R56). -/
def tshSteerCmd : Cmd :=
  { op := 0x1005, readBy := [.c, .p], writeBy := [.c], writeCls := .live, isWrite := recordIsWrite 0
    check := fun _ p _ => if recordLenOk 0 .steer p then none else some .badLength
    body := fun x p d =>
      if recordIsWrite 0 p then .wait .edge (defer d (.steer (carried 0 .steer p) x.fn x.door))
      else readReply .steer (getRec d .steer 0) d }

def followerCmd : Cmd :=
  RecSpec.cmd { kind := .follower, ib := 1, inSet := idxBelow 18, present := folPresent,
                image := plainImage .follower, apply := atNextEdge .follower } 0x1006 [.c, .p] [.c]

def execTsRead (m : Msg) (s : State) : Host.Outcome State Fault Refusal := mailbox tsReadCmd m s
def execTsRate (m : Msg) (s : State) : Host.Outcome State Fault Refusal := mailbox tsRateCmd m s
def execTsSet (m : Msg) (s : State) : Host.Outcome State Fault Refusal := mailbox tsSetCmd m s
def execTsStep (m : Msg) (s : State) : Host.Outcome State Fault Refusal := mailbox tsStepCmd m s
def execTsClear (m : Msg) (s : State) : Host.Outcome State Fault Refusal := mailbox tsClearCmd m s
def execTshSteer (m : Msg) (s : State) : Host.Outcome State Fault Refusal := mailbox tshSteerCmd m s
def execFollower (m : Msg) (s : State) : Host.Outcome State Fault Refusal := mailbox followerCmd m s

end Sys2Proof.Machine
end

