-- ==== Sys2Proof/Machine/Views.lean ====
section
/-! DEFINITION. Views and leap seconds (03_time_views.md): the view equation, the leap state and its sources, the smear
windows, and the VIEW and LEAP commands. Instants are integers in units of 2^-32 ns. -/

namespace Sys2Proof.Machine

open Sys2Proof

/-! ### Leaps (R73) -/

/-- One second in units of 2^-32 ns. -/
def sec32 : Int := 10 ^ 9 * 2 ^ 32

/-- The switch instant S of a leap, in TAI seconds. -/
def LeapEv.switch (l : LeapEv) : Int := l.m + min l.dOld l.dNew

def dNow (d : Dev) : Int := sfld d .leap 0 Leap.dNowS

def leapKnown (d : Dev) : Bool := flag d .leap 0 Leap.leapKnown

/-- D(s) (R73): the difference in effect at a TSH instant, which may lie before the leap last switched or after the
pending one. -/
def diffAt (d : Dev) (s : Int) : Int :=
  match d.leap.pending with
  | some l =>
    if l.switch * sec32 ≤ s then l.dNew
    else match d.leap.last with
      | some q => if s < q.switch * sec32 then q.dOld else dNow d
      | none => dNow d
  | none =>
    match d.leap.last with
    | some q => if s < q.switch * sec32 then q.dOld else dNow d
    | none => dNow d

/-! ### The view equation (R67, R69, R80) -/

/-- OFFSET of a view record, in units of 2^-32 ns. -/
def viewOffset (r : Nat) : Int := getS r View.offsetNs * (2 ^ 32 : Nat) + getF r View.offsetFrac

/-- The smear term at an instant inside or beyond a window (R80), rounded toward zero. -/
def smearTerm (w : SmearWin) (s : Int) : Int :=
  let dd := (w.leap.dNew - w.leap.dOld) * sec32
  if s < w.w0 then 0 else if s < w.w1 then Int.tdiv (dd * (s - w.w0)) (w.w1 - w.w0) else dd

/-- The smear windows of a view: of the leap being smeared, and of the pending one. -/
def getSmear (d : Dev) (v : Nat) : List SmearWin := Tab.get [] d.leap.smear v

/-- The view's smear window that contains the instant. A view never smears two leaps at once (R80). -/
def smearingWin (d : Dev) (v : Nat) (s : Int) : Option SmearWin :=
  (getSmear d v).find? fun w => decide (w.w0 ≤ s) && decide (s < w.w1)

/-- The instant lies inside the view's smear window. -/
def smearingAt (d : Dev) (v : Nat) (s : Int) : Bool := (smearingWin d v s).isSome

/-- B(s) of a view. -/
def viewBase (d : Dev) (v : Nat) (s : Int) : Int := s + viewOffset (getRec d .view v)

/-- V(s) before the floor of R69 (R67). -/
def viewRaw (d : Dev) (v : Nat) (s : Int) : Int :=
  let r := getRec d .view v
  let b := s + viewOffset r
  match getF r View.kind with
  | 1 => b - diffAt d s * sec32
  | 2 =>
    match smearingWin d v s with
    | some w => b - w.leap.dOld * sec32 - smearTerm w s
    | none => b - diffAt d s * sec32
  | _ => b

/-- V(s) as NS96: a negative value reads 0 (R69). -/
def viewValue (d : Dev) (v : Nat) (s : Int) : Nat := (viewRaw d v s).toNat % 2 ^ 96

/-- A view record as read: VALUE, FLOOR and SMEARING at the latest edge. -/
def viewImage (d : Dev) (v : Nat) : Nat :=
  let s : Int := tshNs96 d
  let r := getRec d .view v
  let r := setF (setF r View.value (viewValue d v s)) View.btAt d.bt
  setF (setF r View.floor (b2n (decide (viewRaw d v s < 0)))) View.smearing (b2n (smearingAt d v s))

/-! ### Conversion (R83, R84) -/

/-- An NTP timestamp of a view value: 32 bits of seconds, 32 of fraction, truncated (R83). -/
def ntpStamp (v : Nat) : Nat :=
  let nano := v / 2 ^ 32
  let f := v % 2 ^ 32
  (nano / 10 ^ 9 + 2208988800) % 2 ^ 32 * 2 ^ 32 + (nano % 10 ^ 9 * 2 ^ 32 + f) / 10 ^ 9 % 2 ^ 32

/-- A PTP timestamp of an instant: secondsField, nanosecondsField and the sub-nanosecond part in 2^-16 ns (R84). -/
def ptpStamp (b : Nat) : Nat × Nat × Nat :=
  let nano := b / 2 ^ 32
  (nano / 10 ^ 9 % 2 ^ 48, nano % 10 ^ 9, b % 2 ^ 32 / 2 ^ 16)

/-! ### Leap-derived fields (R82) -/

/-- The leap window of a leap contains the instant (R82). -/
def LeapEv.inWindow (l : LeapEv) (s : Int) : Bool :=
  decide (((l.m : Int) - 86400 + l.dOld) * sec32 ≤ s) && decide (s < ((l.m : Int) + l.dNew) * sec32)

/-- A leap's window contains the instant: +1 an inserted second, −1 a deleted one, 0 outside. The window of the leap
last switched runs on past S (R82), whether or not another has become pending. -/
def leapWindow (d : Dev) (s : Int) : Int :=
  match (d.leap.pending.toList ++ d.leap.last.toList).find? fun l => l.inWindow s with
  | some l => l.dNew - l.dOld
  | none => 0

/-- NTP LI of a view at an instant (Table VIEW.2). -/
def viewLi (d : Dev) (v : Nat) (s : Int) : Nat :=
  if fld d .view v View.kind = 1 then (if leapWindow d s > 0 then 1 else if leapWindow d s < 0 then 2 else 0) else 0

/-! ### Sources of the leap state (R74–R76) -/

/-- D_old of the first entry of a host table, which R74 leaves open: D_NEW − 1 or D_NEW + 1. -/
def firstOld (m : Nat) (dn : Int) : Int := if Config.firstLeapInserts m dn then dn - 1 else dn + 1

/-- A host entry has S ≤ the TAI second given. S of the first entry is M + D_NEW or a second less. -/
def hostPast (t : Int) (prev : Option Int) (m : Nat) (dn : Int) : Bool :=
  match prev with
  | some p => decide (m + min p dn ≤ t)
  | none =>
    if m + dn ≤ t then true else if t < m + dn - 1 then false else decide (m + min (firstOld m dn) dn ≤ t)

/-- The host source at a TAI second (R74): D_NOW from the latest entry with S ≤ TSH, the pending leap from the first
entry after it. -/
def hostSource (t : Int) : Option Int → List (Nat × Int) → Option (Int × Option LeapEv)
  | none, [] => none
  | some p, [] => some (p, none)
  | prev, (m, dn) :: rest =>
    if hostPast t prev m dn then hostSource t (some dn) rest
    else
      let o := match prev with | some p => p | none => firstOld m dn
      some (o, some ⟨m, o, dn⟩)

/-- The GPS source (R75). Once its leap has been reached the source gives D_NEW with no pending leap, though R75 speaks
only of ΔtLS (DEDUCED from R73, assumption log 77): a satellite may go on sending the old ΔtLS for a time. -/
def gpsSource (d : Dev) (t : Int) : Option (Int × Option LeapEv) :=
  match d.leap.gps with
  | none => none
  | some g =>
    let now := g.dtLs + 19
    if g.dtLsf = g.dtLs then some (now, none)
    else
      let l : LeapEv := ⟨g.m, now, g.dtLsf + 19⟩
      if l.switch ≤ t then some (l.dNew, none) else some (now, some l)

/-- The GPS source is valid (R75): an antenna's reference is QUALIFIED, or its last acceptance is recent. -/
def gpsValid (d : Dev) : Bool :=
  d.leap.gps.isSome && (!d.leap.gpsLapsed || [0, 1].any fun r => decide (fld d .refStatus r RefSt.state = 2))

def hostValid (d : Dev) : Bool := !d.leap.host.isEmpty && !d.leap.hostExpired

/-- The two sources at the current TSH, where valid. -/
def hostNow (d : Dev) : Option (Int × Option LeapEv) :=
  if hostValid d then hostSource (tshSec d) none d.leap.host else none

def gpsNow (d : Dev) : Option (Int × Option LeapEv) := if gpsValid d then gpsSource d (tshSec d) else none

/-- SOURCE_NOW's code and the source in use (R76). -/
def sourceInUse (d : Dev) : Nat × Option (Int × Option LeapEv) :=
  let h := hostNow d
  let g := gpsNow d
  let pick (a b : Nat × Option (Int × Option LeapEv)) := if a.2.isSome then a else if b.2.isSome then b else (0, none)
  match fld d .leap 0 Leap.policy with
  | 0 => pick (1, h) (2, g)
  | 1 => pick (2, g) (1, h)
  | 2 => pick (1, h) (0, none)
  | _ => pick (2, g) (0, none)

/-! ### Smear windows (R80, R81) -/

/-- The window of a view for a leap: W0 and W1 (R80). -/
def windowFor (r : Nat) (l : LeapEv) : Int × Int :=
  let w0 := (l.switch - getF r View.smearLeadS) * sec32
  (w0, w0 + getF r View.smearLenS * sec32)

def setSmear (d : Dev) (v : Nat) (w : List SmearWin) : Dev :=
  { d with leap := { d.leap with smear := Tab.set [] d.leap.smear v w } }

/-- The windows of a view that end after the current TSH. -/
def liveWindows (d : Dev) (v : Nat) : List SmearWin := (getSmear d v).filter fun w => decide ((tshNs96 d : Int) < w.w1)

/-- The views that smear: created, of KIND SMEAR. -/
def smearViews (d : Dev) : List Nat :=
  ((listed d .view).filter fun e => getF e.2 View.created = 1 ∧ getF e.2 View.kind = 2).map (·.1)

/-- A view's window for a leap opened: when its W0 has passed it starts now, compressed and counted (R81). -/
def openWindow (l : LeapEv) (d : Dev) (v : Nat) : Dev :=
  let (w0, w1) := windowFor (getRec d .view v) l
  let now : Int := tshNs96 d
  if w0 < now then
    raise (bumpFld (setSmear d v (liveWindows d v ++ [⟨now, w1, l⟩])) .view v View.smearCompressed) (srcId 0x42 v)
  else setSmear d v (liveWindows d v ++ [⟨w0, w1, l⟩])

/-- A leap has become pending: each SMEAR view gets its window, beside one that still runs. -/
def openWindows (d : Dev) (l : LeapEv) : Dev := (smearViews d).foldl (openWindow l) d

/-- The windows of a leap given up, of every view. -/
def closeWindows (d : Dev) (l : LeapEv) : Dev :=
  (smearViews d).foldl (fun d v => setSmear d v ((getSmear d v).filter fun w => decide (w.leap ≠ l))) d

/-- A view's window has begun for the leap given. -/
def windowBegun (d : Dev) (l : LeapEv) : Bool :=
  (smearViews d).any fun v => (getSmear d v).any fun w => decide (w.leap = l) && decide (w.w0 ≤ (tshNs96 d : Int))

/-! ### Evaluation of the leap state (R76–R79) -/

/-- The tenants whose views follow the leap state. -/
def leapTenants (d : Dev) : List Nat :=
  (boundTenants d).filter fun t =>
    let k := fld d .view (tenantView d t) View.kind
    decide (k = 1) || decide (k = 2)

/-- The pending leap of the record replaced; tenants of UTC and SMEAR views get their LEAP event (Table HOST.8). -/
def setPending (d : Dev) (p : Option LeapEv) : Dev :=
  if d.leap.pending = p then d
  else
    let d := match d.leap.pending with | some l => closeWindows d l | none => d
    let r := getRec d .leap 0
    let r := match p with
      | some l => setF (setS (setF r Leap.pending 1) Leap.dPendingS l.dNew) Leap.mPendingS l.m
      | none => setF (setF (setF r Leap.pending 0) Leap.dPendingS 0) Leap.mPendingS 0
    let d := setRec { d with leap := { d.leap with pending := p } } .leap 0 r
    let d := match p with | some l => openWindows d l | none => d
    tenantEvent d (leapTenants d) evLeap

/-- S of a leap is less than 60 s after the current TSH. -/
def tooSoon (d : Dev) (l : LeapEv) : Bool := decide (l.switch * sec32 < (tshNs96 d : Int) + 60 * sec32)

/-- What a source asks would change the leap state in a way R78 forbids; a forced write may change D_NOW. -/
def leapRefused (d : Dev) (force : Bool) (want : Int × Option LeapEv) : Bool :=
  (!force && decide (want.1 ≠ dNow d))
    || (match d.leap.pending with
        | some l => decide (want.2 ≠ some l) && (tooSoon d l || windowBegun d l)
        | none => false)
    || (match want.2 with
        | some l => decide (d.leap.pending ≠ some l) && tooSoon d l
        | none => false)

/-- MISMATCH (R76): set and raised when both sources are valid and come to differ. -/
def markMismatch (d : Dev) : Dev :=
  let diff : Bool := match hostNow d, gpsNow d with | some a, some b => decide (a ≠ b) | _, _ => false
  let d' := { d with leap := { d.leap with differ := diff } }
  if diff && !d.leap.differ then raise (setFld d' .leap 0 Leap.mismatch 1) (srcId 0x40 0) else d'

/-- A forced D_NOW (R78): every UTC and SMEAR view steps by it, so the leap last switched and the windows that still
smear it are given up (DESIGN CHOICE, assumption log 77), and the tenants concerned are told. -/
def forceNow (d : Dev) : Dev :=
  let d := match d.leap.last with | some l => closeWindows d l | none => d
  tenantEvent (raise { d with leap := { d.leap with last := none } } (srcId 0x41 0)) (leapTenants d) evLeap

/-- The leap state evaluated against the source in use (R76–R79). A forced write moves D_NOW only while the host is the
source in use: it is the host's. -/
def evalLeap (d : Dev) (force : Bool) : Dev :=
  let d := markMismatch d
  match sourceInUse d with
  | (_, none) =>
    if leapKnown d then setFld (setFld d .leap 0 Leap.leapStale 1) .leap 0 Leap.sourceNow 0
    else setFld (setRec d .leap 0 (setF (getRec d .leap 0) Leap.dNowS (fld d .leap 0 Leap.dFallbackS)))
           .leap 0 Leap.sourceNow 0
  | (src, some want) =>
    if !leapKnown d then
      let r := setF (setF (setS (getRec d .leap 0) Leap.dNowS want.1) Leap.leapKnown 1) Leap.sourceNow src
      let d := setRec d .leap 0 r
      match want.2 with
      | some l => if tooSoon d l then setFld d .leap 0 Leap.leapStale 1
                  else setPending (setFld d .leap 0 Leap.leapStale 0) (some l)
      | none => setFld d .leap 0 Leap.leapStale 0
    else if leapRefused d (force && decide (src = 1)) want then
      bumpFld (setFld d .leap 0 Leap.leapStale 1) .leap 0 Leap.leapRefused
    else
      let forced := decide (want.1 ≠ dNow d)
      let r := setF (setF (setS (getRec d .leap 0) Leap.dNowS want.1) Leap.leapStale 0) Leap.sourceNow src
      let d := setRec d .leap 0 r
      setPending (if forced then forceNow d else d) want.2

/-! ### LEAP_TABLE (R74, R78) -/

/-- One request entry: its position, M, D_NEW and the entry's bits as sent. -/
def leapEntries (es : List (Nat × Nat)) : List (Nat × Nat × Int × Nat) :=
  es.map fun e => (e.1, e.2 % 2 ^ 64, toInt 16 (e.2 / 2 ^ 64), e.2)

/-- An insertion into a list kept in order of M. -/
def insertByM (e : Nat × Nat × Int × Nat) : List (Nat × Nat × Int × Nat) → List (Nat × Nat × Int × Nat)
  | [] => [e]
  | x :: xs => if x.2.1 ≤ e.2.1 then x :: insertByM e xs else e :: x :: xs

/-- The kept entries in order of M and the report of those dropped, or whose reserved bits were cleared (R74, R349). -/
def keepEntries : Option (Nat × Int) → List (Nat × Nat × Int × Nat) → List (Nat × Int) × List ClampEntry
  | _, [] => ([], [])
  | prev, (i, m, dn, raw) :: rest =>
    let bad := decide (m % 86400 ≠ 0) ||
      (match prev with
       | some (pm, pd) => decide (m < pm + 28 * 86400) || decide ((dn - pd).natAbs ≠ 1)
       | none => false)
    if bad then
      let (ks, rs) := keepEntries prev rest
      (ks, ⟨127, 0, i, .dropped, raw, 0⟩ :: rs)
    else
      let (ks, rs) := keepEntries (some (m, dn)) rest
      let res := raw / 2 ^ 80
      ((m, dn) :: ks, (if res = 0 then rs else ⟨127, 80, i, .reserved, res, 0⟩ :: rs))

/-- A LEAP_TABLE write at its edge: it is refused whole when R78 forbids what it would do, which it does only while the
host is the source in use with it. -/
def applyLeapTable (d : Dev) (force : Bool) (expires : Nat) (es : List (Nat × Nat)) (f : Fn) (door : Nat) : Dev :=
  let (ks, rs) := keepEntries none ((leapEntries es).foldl (fun l e => insertByM e l) [])
  let utc : Int := tshSec d - dNow d
  let expired := decide (expires ≠ 0) && decide ((expires : Int) ≤ utc)
  let d1 := { d with leap := { d.leap with host := ks, hostExpired := expired, hostExpires := expires } }
  let refused := match sourceInUse d1 with
    | (src, some want) => decide (src = 1) && leapKnown d && leapRefused d1 force want
    | _ => false
  if refused then
    complete (bumpFld (setFld d .leap 0 Leap.leapStale 1) .leap 0 Leap.leapRefused) f door .state [] []
  else
    let d1 := setFld (setFld d1 .leap 0 Leap.hostEntries ks.length) .leap 0 Leap.hostExpiresS expires
    let d2 := evalLeap d1 force
    complete d2 f door .ok (recBytes .leap (getRec d2 .leap 0)) rs

/-! ### Views at an edge -/

/-- The windows of a SMEAR view created now: of the pending leap, and of the leap last switched while it is smeared. -/
def createdWindows (d : Dev) (v : Nat) : List SmearWin :=
  ((d.leap.last.toList ++ d.leap.pending.toList).map fun l =>
    let (w0, w1) := windowFor (getRec d .view v) l
    (⟨w0, w1, l⟩ : SmearWin)).filter fun w => decide ((tshNs96 d : Int) < w.w1)

/-- VIEW_CREATE at its edge (R70); a view already created keeps its state. -/
def applyViewCreate (d : Dev) (v r : Nat) : Dev :=
  if flag d .view v View.created then d
  else
    let d := setRec d .view v (setF (mergeRw viewFields (getRec d .view v) r) View.created 1)
    if fld d .view v View.kind = 2 then setSmear d v (createdWindows d v) else d

def applyViewClear (d : Dev) (v : Nat) : Dev :=
  setSmear (setRec d .view v (resetRec d.variant .view v)) v []

/-- The smear parameters of a view take effect; its window of the pending leap follows them. A write that moves W0 into
the past starts the window at this edge, compressed and counted as R81 has it for a leap that becomes pending late: R81
does not name the case, and R70 lets nothing here step a view (DESIGN CHOICE, assumption log 77). -/
def applyViewSmear (d : Dev) (v r : Nat) : Dev :=
  let d := setRec d .view v
    (setF (setF (getRec d .view v) View.smearLenS (getF r View.smearLenS)) View.smearLeadS (getF r View.smearLeadS))
  match d.leap.pending with
  | some l =>
    if (getSmear d v).any fun w => decide (w.leap = l) then
      openWindow l (setSmear d v ((getSmear d v).filter fun w => decide (w.leap ≠ l))) v
    else d
  | none => d

/-! ### Commands (Table VIEW.3) -/

/-- OFFSET, in units of 2^-32 ns, is confined by KIND (R72), and SMEAR_LEAD_S by SMEAR_LEN_S (R81); both limits refer to
another field. An OFFSET outside its range takes the bound, a whole number of nanoseconds. -/
def viewDep (raw : Nat) (f : Fld) (acc req : Nat) : Option (Nat × Reason) :=
  let b : Int := (if getF acc View.kind = 3 then 2 ^ 62 else 10 ^ 9 : Nat)
  let x := viewOffset raw
  let out := decide (x < -b * 2 ^ 32) || decide (b * 2 ^ 32 < x)
  if f = View.offsetNs then
    (if out ∧ ofInt 64 (if x < 0 then -b else b) ≠ req then some (ofInt 64 (if x < 0 then -b else b), .dependent) else none)
  else if f = View.offsetFrac then (if out ∧ req ≠ 0 then some (0, .dependent) else none)
  else if f = View.smearLeadS then
    if req > getF acc View.smearLenS then some (getF acc View.smearLenS, .dependent) else none
  else none

def viewCheck (n : Nat) : Ctx → List Byte → Dev → Option Status :=
  fun _ p _ => if p.length = n ∧ rdLe p 0 2 ≤ 255 then none else some .badLength

/-- A VIEW_CREATE of the view awaits its edge. A second one before it is answered as one aimed at a created view, which
R70 leaves open (DESIGN CHOICE, assumption log 77). -/
def createDue (d : Dev) (v : Nat) : Bool :=
  d.atEdge.any fun e => match e.2 with | .viewCreate w _ => decide (w = v) | _ => false

def viewCreateCmd : Cmd :=
  { op := 0x1100, writeBy := [.c], writeCls := .live, isWrite := fun _ => true
    check := viewCheck 52
    body := fun _ p d =>
      let v := rdLe p 0 2
      if flag d .view v View.created ∨ createDue d v then .done .state [] [] d
      else
        let (r, es) := clampRecord viewFields (fun f => viewDep (rdLe p 4 48) f) 0 (getRec d .view v) (rdLe p 4 48)
        .done .ok (recBytes .view (viewImage (applyViewCreate d v r) v)) es (defer d (.viewCreate v r)) }

/-- VIEW_READ of one view or of all; a tenant VF reads its own view alone (R85). -/
def viewReadCmd : Cmd :=
  { op := 0x1101, readBy := [.c, .p]
    admits := fun x p d ok => ok || (match x.vfTenant, x.acting with
      | some t, _ => decide (rdLe p 0 2 = tenantView d t)
      | none, some t => decide (rdLe p 0 2 = tenantView d t)
      | none, none => false)
    check := fun _ p _ => if p.length = 4 ∧ (rdLe p 0 2 ≤ 255 ∨ rdLe p 0 2 = 0xFFFF) then none else some .badLength
    body := fun _ p d =>
      let v := rdLe p 0 2
      let vs := if v = 0xFFFF then List.range 256 else [v]
      .done .ok (vs.flatMap fun v => recBytes .view (viewImage d v)) [] (vs.foldl (fun d v => readClear d .view v) d) }

/-- From 60 s before W0 until W1 of a view's window (R81). -/
def smearProtected (d : Dev) (v : Nat) : Bool :=
  (getSmear d v).any fun w => decide (w.w0 - 60 * sec32 ≤ (tshNs96 d : Int)) && decide ((tshNs96 d : Int) < w.w1)

/-- VIEW_SMEAR (R81). A view that is not created takes the parameters too: R70 says only what holds of a created one
(DESIGN CHOICE, assumption log 77). -/
def viewSmearCmd : Cmd :=
  { op := 0x1102, writeBy := [.c], writeCls := .live, isWrite := fun _ => true
    check := viewCheck 12
    body := fun _ p d =>
      let v := rdLe p 0 2
      if smearProtected d v then .done .state [] [] d
      else
        let cur := getRec d .view v
        let len := rdLe p 4 4
        let lead := rdLe p 8 4
        let len' := nearest 3600 172800 len
        let lead' := if lead > len' then len' else lead
        let es := (if len' = len then [] else [⟨255, 238, 0, .range, len, len'⟩])
          ++ (if lead' = lead then [] else [⟨237, 220, 0, .dependent, lead, lead'⟩])
        let r := setF (setF cur View.smearLenS len') View.smearLeadS lead'
        .done .ok (recBytes .view (viewImage (applyViewSmear d v r) v)) es (defer d (.viewSmear v r)) }

/-- A binding of a tenant to the view awaits the next edge. -/
def bindDue (d : Dev) (v : Nat) : Bool :=
  d.atEdge.any fun e => decide (e.1 ≤ nextEdge d) &&
    match e.2 with | .bind _ _ _ w => decide (w = v) | .tenantView _ w _ _ => decide (w = v) | _ => false

def viewClearCmd : Cmd :=
  { op := 0x1103, writeBy := [.c], writeCls := .live, isWrite := fun _ => true
    check := viewCheck 4
    body := fun _ p d =>
      let v := rdLe p 0 2
      if fld d .view v View.tenantsBound ≠ 0 ∨ bindDue d v then .done .state [] [] d
      else .done .ok (btPayload (nextEdge d)) [] (defer d (.viewClear v)) }

/-- LEAP_TABLE: FORCE at 0, EXPIRES_S at 4, the count at 12, the entries from 16. -/
def leapTableCmd : Cmd :=
  { op := 0x1110, writeBy := [.c], writeCls := .live, isWrite := fun _ => true, locks := fun _ => [0x0003]
    check := fun _ p _ =>
      if 14 ≤ p.length ∧ rdLe p 12 2 ≤ 64 ∧ p.length = 16 + 16 * rdLe p 12 2 then none else some .badLength
    body := fun x p d =>
      let n := rdLe p 12 2
      .wait .edge (defer d (.leapTable (decide (rdLe p 0 1 ≠ 0)) (rdLe p 4 8)
        ((List.range n).map fun i => (i, rdLe p (16 + 16 * i) 16)) x.fn x.door)) }

/-- The kept host table as 16-byte entries. -/
def hostTableBytes (d : Dev) : List Byte :=
  d.leap.host.flatMap fun e => leBytes 8 e.1 ++ leBytes 2 (ofInt 16 e.2) ++ leBytes 6 0

def leapReadCmd : Cmd :=
  { op := 0x1111, readBy := [.c, .p], check := lens [0]
    body := fun _ _ d => .done .ok (recBytes .leap (getRec d .leap 0) ++ hostTableBytes d) [] (readClear d .leap 0) }

/-- A LEAP_POLICY write at its edge: the leap state is evaluated again (R74). -/
def applyLeapPolicy (d : Dev) (r : Nat) : Dev :=
  evalLeap (setRec d .leap 0 (mergeRw leapFields (getRec d .leap 0) r)) false

def leapPolicyCmd : Cmd :=
  { op := 0x1112, writeBy := [.c], writeCls := .live, isWrite := fun _ => true, check := lens [4]
    body := fun _ p d =>
      let cur := getRec d .leap 0
      let fb := rdLe p 2 2
      let fb' : Int := nearestInt 10 255 (toInt 16 fb)
      let pol := rdLe p 0 1
      let pol' := if pol ≤ 3 then pol else 0
      let es := (if ofInt 16 fb' = fb then [] else [⟨239, 224, 0, .range, fb, ofInt 16 fb'⟩])
        ++ (if pol' = pol then [] else [⟨223, 222, 0, .enum, pol, pol'⟩])
      let r := setF (setS cur Leap.dFallbackS fb') Leap.policy pol'
      .done .ok (recBytes .leap (getRec (applyLeapPolicy d r) .leap 0)) es (defer d (.leapPolicy r)) }

/-! ### Events -/

/-- The switch instant of the pending leap (R73): D_NEW becomes D_NOW and the source's next leap, if any, is taken up. -/
def leapSwitch (d : Dev) : Dev :=
  match d.leap.pending with
  | none => d
  | some l =>
    if (tshNs96 d : Int) < l.switch * sec32 then d
    else
      let d := { d with leap := { d.leap with pending := none, last := some l } }
      let r := setF (setF (setF (setS (getRec d .leap 0) Leap.dNowS l.dNew) Leap.pending 0) Leap.dPendingS 0) Leap.mPendingS 0
      evalLeap (setRec d .leap 0 r) false

/-- The UTC count has reached EXPIRES_S (R74). -/
def hostExpiry (d : Dev) : Dev :=
  let e := d.leap.hostExpires
  if e = 0 ∨ (tshSec d : Int) - dNow d < e then d
  else evalLeap { d with leap := { d.leap with hostExpired := true } } false

/-- Seven days after the last acceptance of GPS UTC parameters (R75). -/
def gpsLapse (d : Dev) : Dev :=
  if d.leap.gps.isSome ∧ 604800 * 10 ^ 9 ≤ (d.bt - fld d .leap 0 Leap.gpsAcceptBt) * btNs d then
    evalLeap { d with leap := { d.leap with gpsLapsed := true } } false
  else d

/-- GPS parameters accepted since the edge before take effect (R68, R75). -/
def applyGpsLeap (d : Dev) (g : GpsLeap) (accepted : Nat) : Dev :=
  let before := gpsNow d
  let d := setFld { d with leap := { d.leap with gps := some g, gpsLapsed := false } } .leap 0 Leap.gpsAcceptBt accepted
  if gpsNow d = before then d else evalLeap d false

def execViewCreate (m : Msg) (s : State) : Host.Outcome State Fault Refusal := mailbox viewCreateCmd m s
def execViewRead (m : Msg) (s : State) : Host.Outcome State Fault Refusal := mailbox viewReadCmd m s
def execViewSmear (m : Msg) (s : State) : Host.Outcome State Fault Refusal := mailbox viewSmearCmd m s
def execViewClear (m : Msg) (s : State) : Host.Outcome State Fault Refusal := mailbox viewClearCmd m s
def execLeapTable (m : Msg) (s : State) : Host.Outcome State Fault Refusal := mailbox leapTableCmd m s
def execLeapRead (m : Msg) (s : State) : Host.Outcome State Fault Refusal := mailbox leapReadCmd m s
def execLeapPolicy (m : Msg) (s : State) : Host.Outcome State Fault Refusal := mailbox leapPolicyCmd m s

end Sys2Proof.Machine
end

