-- ==== Sys2Proof/Machine/Queues.lean ====
section
/-! DEFINITION. The packet buffer and the transmit queues (R92, R94, R95, R103, R104, R127, R128): space, admission,
what a lost frame counts, flushes, and the link state that gates them. -/

namespace Sys2Proof.Machine

open Sys2Proof

/-! ### Ports -/

def getPort (d : Dev) (p : Nat) : PortSt := Tab.get PortSt.reset d.ports p

def setPort (d : Dev) (p : Nat) (x : PortSt) : Dev := { d with ports := Tab.set PortSt.reset d.ports p x }

def portQueue (d : Dev) (p q : Nat) : List TxFrame := Tab.get [] (getPort d p).queues q

def setQueue (d : Dev) (p q : Nat) (l : List TxFrame) : Dev :=
  let x := getPort d p
  setPort d p { x with queues := Tab.set [] x.queues q l }

def linkState (d : Dev) (p : Nat) : Nat := fld d .portStatus p PrtSt.linkState

def linkUp (d : Dev) (p : Nat) : Bool := decide (linkState d p = 3)

def octMode (d : Dev) (p : Nat) : Nat := fld d .octet (p / 8) Oct.mode

/-- Lanes of a port in the current mode (Table PORT.1). -/
def portLanes (d : Dev) (p : Nat) : Nat :=
  match octMode d p with | 4 => 8 | 1 | 2 | 3 => 2 | 5 | 6 => 1 | _ => 0

/-- Byte time, block time and D_TX of the port's mode in ps, and the receive stamp availability in ns (Table STAMP.1). -/
def bytePs (d : Dev) (p : Nat) : Nat :=
  match octMode d p with | 4 => 20 | 1 | 2 | 3 => 80 | 5 => 320 | _ => 800

def dTxPs (d : Dev) (p : Nat) : Nat :=
  match octMode d p with | 4 => 88000 | 1 | 2 | 3 => 96000 | 5 => 44000 | 6 => 52000 | _ => 0

def rxAvailNs (d : Dev) (p : Nat) : Nat :=
  match octMode d p with | 4 => 110 | 1 | 2 | 3 => 120 | 5 => 60 | 6 => 70 | _ => 0

/-- Picoseconds in units of 2^-32 ns. -/
def ps32 (ps : Rat) : Rat := ps * 2 ^ 32 / 1000

/-- The indexes of the port statistics (Table PORT.7) beyond the transmit queues'. -/
def bumpPort (d : Dev) (p n : Nat) (k : Nat := 1) : Dev := bumpStat d .port p n 64 k

def bumpLaunch (d : Dev) (p n : Nat) (k : Nat := 1) : Dev := bumpStat d .launch p n 64 k

def bumpNtp (d : Dev) (t n : Nat) (k : Nat := 1) : Dev := bumpStat d .ntp t n 64 k

def bumpNts (d : Dev) (t n : Nat) (k : Nat := 1) : Dev := bumpStat d .nts t n 64 k

def bumpPtp (d : Dev) (t n : Nat) (k : Nat := 1) : Dev := bumpStat d .ptp t n 64 k

/-- An instant within the current base tick, which the model leaves free. -/
def nowNs96 (d : Dev) : Nat × Dev :=
  let (v, d) := draw d
  (tshNs96 d + v % (d.ts.tsh.inc / 256 + 1), d)

/-- An instant of TSH has come, or comes before the next base-tick edge. -/
def reached (d : Dev) (s : Nat) : Bool := decide (s < tshNs96 d + d.ts.tsh.inc / 256 + 1)

/-! ### Space (R94, R95) -/

/-- The length of a frame on the wire from its destination address through its FCS, padded (R105). -/
def TxFrame.len (f : TxFrame) : Nat := max 60 f.bytes.length + 4

/-- A queue's occupancy. -/
def occupancy (d : Dev) (p q : Nat) : Nat := ((portQueue d p q).map TxFrame.len).foldl (· + ·) 0

/-- A received frame's stored length in 64-byte units of space. -/
def rxSpace (x : Desc) : Nat := (x.pkt.bytes.length + 63) / 64 * 64

/-- Every descriptor that holds a received frame: queued, in a context, or waiting for the management processor. -/
def heldDescs (d : Dev) : List Desc :=
  d.arr.queue.map (·.2) ++ (d.arr.ctx.filterMap fun e => e.2.map (·.desc)) ++ d.ptp.inbox.map (·.2)

def sumOf {α : Type} (l : List α) (f : α → Nat) : Nat := l.foldl (fun n x => n + f x) 0

def maxFrame (d : Dev) (p : Nat) : Nat := fld d .port p Prt.maxFrame

/-- What the frame in progress on a port holds in an area: MAX_FRAME bytes until its end (R94). -/
def rxCurHeld (d : Dev) (p : Nat) (a : Area) : Nat :=
  match (getPort d p).rxCur with
  | some c => if c.area = some a then maxFrame d p else 0
  | none => 0

/-- Receive space a port's frames hold in an area. -/
def rxHeld (d : Dev) (p : Nat) (a : Area) : Nat :=
  sumOf ((heldDescs d).filter fun x => decide (x.pkt.port = p) && decide (x.area = a)) rxSpace + rxCurHeld d p a

/-- The frames in a port's queues. -/
def queued (d : Dev) (p : Nat) : List TxFrame := (List.range 8).flatMap fun q => portQueue d p q

def txHeld (d : Dev) (a : Area) : Nat :=
  sumOf (List.range 16) fun p => sumOf ((queued d p).filter fun f => decide (f.area = a)) TxFrame.len

/-- Frames of Q0–Q3 in the transmit reserve. -/
def txHeldLow (d : Dev) : Nat :=
  sumOf (List.range 16) fun p => sumOf ((List.range 4).flatMap fun q => portQueue d p q) fun f =>
    if f.area = .reserve then TxFrame.len f else 0

def kib : Nat := 1024

def rxReserve (d : Dev) (p : Nat) : Nat := fld d .port p Prt.rxReserveKib * kib

def txReserve : Nat := 2 * 1024 * kib

/-- LISTEN's admission (R95, R435). -/
def listening (d : Dev) : Bool := d.pwr.sharedGated

def sharedSize (d : Dev) : Nat :=
  if listening d then 0 else 32 * 1024 * kib - txReserve - sumOf (portList d) (rxReserve d)

def sharedHeld (d : Dev) : Nat := sumOf (List.range 16) (fun p => rxHeld d p .shared) + txHeld d .shared

/-- Where a received frame is admitted, if anywhere (R94, R95). -/
def rxAdmit (d : Dev) (p : Nat) : Option Area :=
  if rxHeld d p .reserve + maxFrame d p ≤ rxReserve d p then some .reserve
  else if sharedHeld d + maxFrame d p ≤ sharedSize d then some .shared
  else none

/-- Where a frame for a queue is admitted, if anywhere (R94, R95, R127). -/
def txAdmit (d : Dev) (p q : Nat) (f : TxFrame) : Option Area :=
  let n := TxFrame.len f
  let fits := decide (occupancy d p q + n ≤ getF (fld d .port p Prt.qLimitKib) ⟨16 * q + 15, 16 * q⟩ * kib)
    && (decide (q ≠ 7) || decide ((portQueue d p 7).length < 8192))
  let res := decide (txHeld d .reserve + n ≤ txReserve)
  let shr := decide (sharedHeld d + n ≤ sharedSize d)
  if !fits then none
  else if listening d then
    if res && (decide (4 ≤ q) || decide (txHeldLow d < 1024 * kib)) then some .reserve else none
  else if 4 ≤ q ∧ res then some .reserve
  else if shr then some .shared
  else none

/-! ### What a frame counts -/

/-- Why a frame did not leave. -/
inductive TxLoss where
  | linkDown | full | aged | stepAbort | noStamp | flushed | modeChange
deriving DecidableEq, Repr

/-- The tenant's counters for a lost frame (R180, R213, R245); a frame removed by a reset or a mode change counts nowhere
(R134). -/
def lostTenant (d : Dev) (w : TxWho) (l : TxLoss) : Dev :=
  match l with
  | .flushed => d
  | _ => match w with
    | .ntp t _ => countTenant (bumpNtp d t 26) t 12
    | .nts t _ => countTenant (bumpNts d t 19) t 12
    | .ptp t _ _ _ => countTenant (bumpPtp d t 20) t 12
    | _ => d

/-- The write-back of a host's frame that was not sent (Table STAMP.6). -/
def lostHost (d : Dev) (w : TxWho) (l : TxLoss) : Dev :=
  match w with
  | .host fn ring slot cookie _ =>
    let st := match l with
      | .linkDown => 1 | .full => 2 | .aged => 2 | .stepAbort => 4 | .noStamp => 5 | .flushed => 6 | .modeChange => 6
    txReady d fn ring slot (txWb st cookie none false)
  | _ => d

def lost (d : Dev) (w : TxWho) (l : TxLoss) : Dev := lostHost (lostTenant d w l) w l

/-- What an admitted frame counts (Tables NTP.9 and PTP.8). -/
def admitted (d : Dev) (w : TxWho) : Dev :=
  match w with
  | .ntp t (some n) => countTenant (bumpNtp d t n) t (if n = 27 then 4 else 5)
  | .ptp t n _ _ => countTenant (bumpPtp d t n) t (if n < 2 then 1 else 3)
  | _ => d

/-! ### Admission (R92, R94, R104, R127, R128) -/

/-- A frame placed in Q7: by L, after frames of equal L; with L already past, at the head. -/
def insertLaunch (l : Nat) (f : TxFrame) : List TxFrame → List TxFrame
  | [] => [f]
  | g :: gs => match g.launch with
    | some x => if x.l ≤ l then g :: insertLaunch l f gs else f :: g :: gs
    | none => g :: insertLaunch l f gs

/-- A launch as the engine hands it on: its lateness fields follow at its submission. -/
def launchAt (t l : Nat) : Launch := { l := l, tenant := t, tolPs := 0, policy := 0, sendMaxUs := 0 }

/-- A launch with the lateness fields of its tenant's launch record as they stand at the submission (R132). -/
def submitLaunch (d : Dev) (x : Launch) : Launch :=
  let r := getRec d .launch x.tenant
  { x with tolPs := getF r Lch.lateTolPs, policy := getF r Lch.latePolicy, sendMaxUs := getF r Lch.lateSendMaxUs }

/-- A frame offered to a queue. -/
def enqueue (d : Dev) (p q : Nat) (f : TxFrame) : Dev :=
  if !linkUp d p then lost (bumpPort d p 41) f.who .linkDown
  else
    let (now, d) := if q = 7 then nowNs96 d else (0, d)
    let l := match f.launch with | some x => x.l | none => 0
    if q = 7 ∧ now + 60000 * 2 ^ 32 < l then bumpLaunch d p 6
    else match txAdmit d p q f with
      | none =>
        let d := bumpPort d p (32 + q)
        lost (if f.who = .beacon then bumpPort d p 46 else d) f.who .full
      | some a =>
        let f := { f with area := a, admitBt := d.bt, launch := f.launch.map (submitLaunch d) }
        let old := portQueue d p q
        admitted (setQueue d p q (if q ≠ 7 then old ++ [f] else if l < now then f :: old else insertLaunch l f old)) f.who

/-- Every queue of a port emptied. Each frame counts once in TX_LINK_DOWN_DROP at a link down (R92), and so at a mode
change, which flushes as a link down does (R89), Q7 apart, whose frames then count nowhere (R134). A mode change is
written back as FLUSHED (Table STAMP.6). -/
def flushQueues (d : Dev) (p : Nat) (l : TxLoss) : Dev :=
  (List.range 8).foldl (fun d q =>
    let fs := portQueue d p q
    let l := if l = .modeChange ∧ q = 7 then TxLoss.flushed else l
    let d := setQueue d p q []
    let d := setPort d p { getPort d p with kerfIdle := none }
    fs.foldl (fun d f => lost (if l = .linkDown ∨ l = .modeChange then bumpPort d p 41 else d) f.who l) d) d

/-! ### Link state (R91) -/

/-- The tenants a port's link affects (Table HOST.8): an active address entry on the port, or the tenant of its
multicast instance. -/
def portTenants (d : Dev) (p : Nat) : List Nat :=
  let byAddr := (listed d .addrEntry).filterMap fun e =>
    if getF e.2 Addr.family ≠ 0 ∧ bit (getF e.2 Addr.portMask) p then some (getF e.2 Addr.tenant) else none
  let byPtp := if fld d .ptpPort p PPort.role = 1 then [fld d .ptpPort p PPort.tenant] else []
  (byAddr ++ byPtp).dedup.filter fun t => tenantState d t ≠ 0

/-- LINK_STATE changes: its trace record and trigger (R450, R451), and the PORT bits when it leaves or enters UP. -/
def setLink (d : Dev) (p s : Nat) : Dev :=
  let old := linkState d p
  if old = s then d
  else
    let d := setFld d .portStatus p PrtSt.linkState s
    let d := traceMac d 2 p 0 s 0 0
    let d := if bit (fld d .scribe 0 Scr.macPortMask) p then autoTrigger d 3 5 0 else d
    if old = 3 ∨ s = 3 then tenantEvent d (portTenants d p) evPort else d

end Sys2Proof.Machine
end

