-- ==== Sys2Proof/Machine/Served.lean ====
section
/-! DEFINITION. The served state (R31, R175, R176): what the AON presents to the engines at a base tick, the root delay
and dispersion of an answer, and the state a tenant is served in. -/

namespace Sys2Proof.Machine

open Sys2Proof

/-- The servo fields of the selected master. -/
def selServo (d : Dev) (f : Fld) : Nat :=
  let s := fld d .steer 0 Steer.select
  if s = 0 then 0 else fld d .servoStatus (s - 1) f

/-- The service state of the current base tick. -/
def svcNow (d : Dev) : Svc :=
  let s := fld d .steer 0 Steer.select
  { bt := d.bt, leap := d.leap, leapRec := getRec d .leap 0, views := listed d .view, tshSet := d.ts.tsh.set, select := s
    servoState := selServo d SrvSt.servoState, dispBase := selServo d SrvSt.dispBaseNs
    rootDelay := selServo d SrvSt.rootDelayNs
    offset := if s = 1 then sfld d .steer 0 Steer.offsetA else if s = 2 then sfld d .steer 0 Steer.offsetB else 0
    growthBt := d.bt - (if s = 2 then d.ts.updBtB else d.ts.updBtA), lastUpdate := selServo d SrvSt.lastUpdate
    refKind := if s = 0 then 7 else selServo d SrvSt.activeKind }

/-- The device with the views and the leap state of a base tick, under which times of that tick are converted (R26,
R63). -/
def atSvc (d : Dev) (v : Svc) : Dev :=
  let d := (listed d .view).foldl (fun d e => setRec d .view e.1 (resetRec d.variant .view e.1)) d
  let d := v.views.foldl (fun d e => setRec d .view e.1 e.2) d
  setRec { d with leap := v.leap } .leap 0 v.leapRec

/-! ### The base ticks kept for stamps (R63) -/

/-- How many base ticks are kept: more than the longest frame at the lowest rate takes (assumption log 74). -/
def histDepth : Nat := 512

/-- What the current base tick leaves for its stamps. -/
def tickNow (d : Dev) : Tick :=
  { bt := d.bt, tsh := tshNs96 d, fol := d.ts.fol, svc := svcNow d, shims := listed d .shim
    offA := (offsetsNow d).1, offB := (offsetsNow d).2 }

/-- The edge is over: its tick becomes the latest. -/
def pushTick (d : Dev) : Dev := { d with hist := (tickNow d :: d.hist).take histDepth }

/-- An event of the edge itself that follows it: the tick's parameters are those after it. -/
def refreshTick (d : Dev) : Dev :=
  match d.hist with
  | t :: ts => if t.bt = d.bt then { d with hist := { t with svc := svcNow d } :: ts } else d
  | [] => d

/-- The service state of the base tick a stamp belongs to. -/
def svcOf (d : Dev) (s : Nat) : Svc := match tickOf d s with | some t => t.svc | none => svcNow d

/-- The device with the views and the leap state under which a stamp is converted. -/
def atStamp (d : Dev) (s : Nat) : Dev := atSvc d (svcOf d s)

/-- Nanoseconds in units of 2^-16 s, rounded up and saturating (R176). -/
def short16 (ns : Rat) : Nat := min 0xFFFFFFFF (ns * 65536 / 10 ^ 9).ceil.toNat

/-- A 16.16 s value in ns. -/
def ofShort16 (n : Nat) : Rat := (n : Rat) * 10 ^ 9 / 65536

/-- The growth term of R31, 15 µs per second since the last servo update, in ns. -/
def growthNs (d : Dev) (v : Svc) : Rat := (v.growthBt : Rat) * btNs d * 15 / 10 ^ 6

/-- The root dispersion before rounding, in ns. -/
def rootDispNs (d : Dev) (t : Nat) (v : Svc) : Rat :=
  (v.dispBase : Rat) + (v.offset.natAbs : Rat) / 65536 + growthNs d v + ofShort16 (fld d .ntp t Ntp.rootDispAdd)

/-- Root delay and root dispersion of an answer (R176). -/
def rootDelay (d : Dev) (t : Nat) (v : Svc) : Nat :=
  let add := fld d .ntp t Ntp.rootDelayAdd
  if !v.tshSet ∨ v.select = 0 then add else short16 ((v.rootDelay : Rat) + ofShort16 add)

def rootDisp (d : Dev) (t : Nat) (v : Svc) : Nat :=
  if !v.tshSet ∨ v.select = 0 then 0xFFFFFFFF else short16 (rootDispNs d t v)

/-- The served state of a tenant (R175): 0 UNSET, 1 UNSYNC, 2 SYNC_LOCKED, 3 SYNC_HOLDOVER. -/
def servedState (d : Dev) (t : Nat) (v : Svc) : Nat :=
  if !v.tshSet then 0
  else if v.select = 0 ∨ v.servoState = 0 ∨ v.servoState = 1 then 1
  else if ofShort16 (rootDisp d t v) > (fld d .ntp t Ntp.maxDispMs : Rat) * 10 ^ 6 then 1
  else if v.servoState = 2 then 2 else 3

/-- The served state is UNSET or UNSYNC. -/
def isAlarm (n : Nat) : Bool := decide (n ≤ 1)

/-! ### Leap events at an edge -/

def execLeapSwitch (s : State) : Host.Outcome State Fault Refusal := whenOn s fun d => refreshTick (leapSwitch d)
def execHostLeapTableExpiry (s : State) : Host.Outcome State Fault Refusal := whenOn s fun d => refreshTick (hostExpiry d)
def execGpsLeapValidityLapse (s : State) : Host.Outcome State Fault Refusal := whenOn s fun d => refreshTick (gpsLapse d)

end Sys2Proof.Machine
end

