-- ==== Sys2Proof/Machine/Slots.lean ====
section
/-! DEFINITION. The nodes of the array and what their cycles count (R21–R25, R139–R141, R148, R164, R165, R443): node
states, threads and their round-robin issue, the slot classes, and the counters of engine cycles. -/

namespace Sys2Proof.Machine

open Sys2Proof

/-! ### Nodes -/

def getNode (d : Dev) (c : Nat) : NodeDyn := Tab.get NodeDyn.reset d.arr.nodes c

def setNode (d : Dev) (c : Nat) (x : NodeDyn) : Dev :=
  { d with arr := { d.arr with nodes := Tab.set NodeDyn.reset d.arr.nodes c x } }

def nodeReset (d : Dev) (c : Nat) : Nat := fld d .nodeStatus c NodeSt.reset

def nodeFenced (d : Dev) (c : Nat) : Bool := flag d .nodeStatus c NodeSt.fenced

/-- The node, or an ancestor of it, is fenced: a fenced nest leaves dispatch with everything in it (R146, R153). -/
def fencedAt (d : Dev) (c : Nat) : Bool := (lineage c).any fun a => nodeFenced d a

/-- The node takes descriptors (R22): ON, RUN, not FENCED. -/
def nodeUp (d : Dev) (c : Nat) : Bool :=
  decide (nodePower d c = 0) && decide (nodeReset d c = 0) && !fencedAt d c

/-- A node and its present descendants. -/
def subtree (d : Dev) (c : Nat) : List Nat := c :: descendants d.variant c

/-- The engines of a node. -/
def nodeEngines (d : Dev) (c : Nat) : List Nat := (subtree d c).filter (· < 128)

/-! ### Contexts and threads (R139, R140) -/

def ctxAt (d : Dev) (e t : Nat) : Option Context := Tab.get none d.arr.ctx (8 * e + t)

def setCtx (d : Dev) (e t : Nat) (x : Option Context) : Dev :=
  { d with arr := { d.arr with ctx := Tab.set none d.arr.ctx (8 * e + t) x } }

/-- CONTEXTS_BUSY of a node. -/
def contextsBusy (d : Dev) (c : Nat) : Nat :=
  (d.arr.ctx.filter fun e => e.2.isSome && isAncestorOrSelf c (e.1 / 8)).length

/-- A context of the node is free. -/
def hasFree (d : Dev) (c : Nat) : Bool := decide (contextsBusy d c < 8 * (nodeEngines d c).length)

/-- The child a nest passes a descriptor to: the least CONTEXTS_BUSY, then the lowest index (R22). -/
def pickChild (d : Dev) (c : Nat) : Option Nat :=
  ((nodesPresent d.variant).filter fun n => parentOf n = some c ∧ nodeUp d n ∧ hasFree d n).foldl (fun best n =>
    match best with
    | none => some n
    | some b => if contextsBusy d n < contextsBusy d b then some n else some b) none

/-- The threads of an engine that hold contexts, from the one after the last issuer on, with wrap-around. -/
def threadsAfter (d : Dev) (e last : Nat) : List (Nat × Context) :=
  ((List.range 8).map fun k => (last + 1 + k) % 8).filterMap fun t => (ctxAt d e t).map fun x => (t, x)

/-- What a thread waits for in a phase of its handling (Table ARRAY.1). -/
def CtxPhase.waits : CtxPhase → ThreadState
  | .client | .grant | .ring => .waitTable
  | .openCookie | .auth | .mint | .seal => .waitAead
  | .credit _ => .waitTx

/-- The state of a thread in one cycle. How long the jig image runs before it reaches the wait of its phase is its own, so
in each cycle before that wait ends the thread is READY, in WAIT_FETCH, or in that wait, by a free number. -/
def threadState (v t : Nat) (x : Context) : ThreadState :=
  match v / 3 ^ t % 3 with | 0 => .ready | 1 => .waitFetch | _ => x.phase.waits

/-- The thread that issues: the first READY one of the order. -/
def issuer (v : Nat) : List (Nat × Context) → Option (Nat × Context)
  | [] => none
  | (t, x) :: rest => if threadState v t x = .ready then some (t, x) else issuer v rest

/-- The slot class, by its engine event (Table OBS.2), of a cycle without an issue: decided by the thread at the
round-robin position (R164); NO_PACKET while POWER is GATING or WAKING (R165). -/
def idleClass (on : Bool) (v : Nat) (held : List (Nat × Context)) : Nat :=
  match held with
  | [] => 3
  | (t, x) :: _ =>
    if !on then 3
    else match threadState v t x with
      | .waitFetch => 4 | .waitAead => 5 | .waitTable => 6 | .waitTx => 7 | _ => 3

/-- The RETIRED event of the service of a context. -/
def retiredEvent (x : Context) : Nat :=
  if x.nts.isSome then 42
  else match x.desc.service with
    | .ntp => 41 | .bcast _ _ => 41 | .ptp => 43 | .sched _ _ => 43 | .arp => 44 | .nd => 44 | _ => 45

/-! ### Counters of cycles (R442, R443) -/

/-- A state event counts cycles in LEVEL and entries in EDGE (R443). -/
def levelMode (d : Dev) (i : Nat) : Bool := decide (fld d .ctrEvent i CEv.mode = 1)

/-- A state event that holds, or does not, throughout some cycles: LEVEL counts them, EDGE an entry at the first. -/
def levelCount (d : Dev) (i n : Nat) (holds : Bool) : Dev :=
  if n = 0 then d
  else
    let was := Tab.get 0 d.obs.asserted i
    let d := if was = b2n holds then d else { d with obs := { d.obs with asserted := Tab.set 0 d.obs.asserted i (b2n holds) } }
    if !holds then d else if levelMode d i then bumpCtr d i n else if was = 0 then bumpCtr d i else d

/-- The cycles in which a thread holds a context; its entries are the allocations (Table OBS.2). -/
def busyCount (d : Dev) (i n : Nat) : Dev := if levelMode d i then bumpCtr d i n else d

/-- An allocation counted in EDGE. -/
def entryCount (d : Dev) (i : Nat) : Dev := if levelMode d i then d else bumpCtr d i

/-- Counters of what the spec does not place in time: each takes a free part of a number. -/
def freeParts (is : List Nat) (n : Nat) (d : Dev) : Dev :=
  is.foldl (fun d i => let (x, d) := drawUpTo d n; bumpCtr d i x) d

/-- Engine cycles as one number. -/
def cycleAt (d : Dev) (p : Nat) : Nat := d.bt * cyclesPerBt d + p

/-- The window of R148, in engine cycles. -/
def shareWindow : Nat := 16384

/-- What has been taken within the window that ends at a cycle. -/
def recentUses (now : Nat) (l : List ShareUse) : List ShareUse := l.filter fun u => decide (now < u.cycle + shareWindow)

/-- An issue slot of a thread (R148, R164, R165): RETIRED, or WASTED where the issue was cancelled. -/
def issueSlot (d : Dev) (e t : Nat) (x : Context) (cycle : Nat) (wasted : Bool) : Dev :=
  let d := setNode d e { getNode d e with lastIssue := t }
  let d := bumpCtr d (engineCtr e (if wasted then 2 else 1))
  let d := if wasted then d else bumpCtr d (engineCtr e (retiredEvent x))
  let d := countTenant d x.desc.tenant 21
  { d with arr := { d.arr with slotUses := d.arr.slotUses ++ [⟨cycle, x.desc.tenant, x.node, 1⟩] } }

/-- One cycle of an engine that holds contexts. -/
def engineCycle (on : Bool) (e cycle : Nat) (d : Dev) : Dev :=
  let (v, d) := draw d
  let held := threadsAfter d e (getNode d e).lastIssue
  match issuer v held with
  | some (t, x) => issueSlot d e t x cycle (decide (v / 3 ^ 8 % 2 = 1))
  | none => bumpCtr d (engineCtr e (idleClass on v held))

def engineCycles (on : Bool) (e : Nat) : Nat → Nat → Dev → Dev
  | 0, _, d => d
  | n + 1, cycle, d => engineCycles on e n (cycle + 1) (engineCycle on e cycle d)

/-- The threads of an engine that wait for space in the lane arbiter (R152). -/
def arbFull (d : Dev) (e : Nat) : Bool :=
  (Tab.get [] d.arr.laneFull (e / 8)).any fun j => match j.owner with | .thread k _ => decide (k / 8 = e) | _ => false

/-- The cycles of an engine counted: one slot class each, and its state events. -/
def settleEngine (d : Dev) (e n p : Nat) : Dev :=
  let on := decide (nodePower d e = 0)
  let held := threadsAfter d e 7
  let now := cycleAt d p
  let d := bumpCtr d (engineCtr e 0) n
  let d := if on then d else bumpCtr d (engineCtr e 47) n
  let d := held.foldl (fun d h =>
    countTenant (busyCount d (engineCtr e (8 + h.1)) n) h.2.desc.tenant 23 n) d
  let d := levelCount d (engineCtr e 33) n (arbFull d e)
  let d := levelCount d (engineCtr e 38) n (held.any fun h => h.2.oldImage)
  if held.isEmpty then bumpCtr d (engineCtr e 3) n
  else
    let d := engineCycles on e n (now - n) d
    let d := { d with arr := { d.arr with slotUses := recentUses now d.arr.slotUses } }
    freeParts ([35, 39, 46].map (engineCtr e)) n d

/-- Jobs wait in a level-1 nest's arbiter, by nest. -/
def waitingJobs (d : Dev) (k : Nat) : List LaneJob := Tab.get [] d.arr.laneQueue k

def laneRun (d : Dev) (l : Nat) : Option LaneRun := Tab.get none d.arr.lanes l

/-- The cycles of a nest counted. What its instruction memory fetches is left free. -/
def settleNest (d : Dev) (c n : Nat) : Dev :=
  let e := nestCtr c
  let waits := d.arr.queue.any fun x => decide (x.1 = c)
  let d := bumpCtr d (e 0) n
  let d := levelCount d (e 3) n waits
  let d := levelCount d (e 4) n (waits && (pickChild d c).isNone)
  if c < 144 then
    let k := c - 128
    let d := levelCount d (e 20) n !(waitingJobs d k).isEmpty
    let d := levelCount d (e 21) n (decide ((waitingJobs d k).length = 64))
    let d := levelCount d (e 22) n ((laneRun d (2 * k)).isSome && (laneRun d (2 * k + 1)).isSome)
    freeParts ([16, 17].map e) n d
  else d

/-- The cycle counters of a node brought up to an instant. A gated node counts nothing (R165), nor does one whose clock is
lost. -/
def settleAt (d : Dev) (c p : Nat) : Dev :=
  let old := Tab.get 0 d.obs.settled c
  let n := (d.bt - old / 512) * cyclesPerBt d + p - old % 512
  let d := { d with obs := { d.obs with settled := Tab.set 0 d.obs.settled c (d.bt * 512 + p) } }
  if nodePower d c = 2 ∨ !bit d.pwr.plls 0 then d
  else if c < 128 then settleEngine d c n p
  else settleNest d c n

def settleSome (d : Dev) (cs : List Nat) : Dev :=
  let (p, d) := cycleNow d
  cs.foldl (fun d c => settleAt d c p) d

def settle (d : Dev) (c : Nat) : Dev := settleSome d [c]

def settleAll (d : Dev) : Dev := settleSome d (nodesPresent d.variant)

/-- Every node's counters brought up to the engine cycle last given. -/
def settleEdge (d : Dev) : Dev := (nodesPresent d.variant).foldl (fun d c => settleAt d c d.obs.phase) d

/-- Before a node's own state changes: it and its ancestors, whose choice of a child it may change. -/
def settleLine (d : Dev) (c : Nat) : Dev := settleSome d (lineage c)

/-- A context enters a wait of its handling. -/
def enterPhase (d : Dev) (k : Nat) (x : Context) : Dev := setCtx (settle d (k / 8)) (k / 8) (k % 8) (some x)

end Sys2Proof.Machine
end

