-- ==== Sys2Proof/Machine/Array.lean ====
section
/-! DEFINITION. The responder array (01_architecture.md, 06_responder_array.md): node states, gating, waking, resets and
fences, the dispatch queues, the spreading rule, contexts, jig images, and the array's commands and events. -/

namespace Sys2Proof.Machine

open Sys2Proof

/-! ### Nodes -/

/-- The node, or an ancestor of it, is gated by command (R163). -/
def cmdGated (d : Dev) (c : Nat) : Bool := (lineage c).any fun a => flag d .nodeFlags a NodeFl.cmdGated

def properAncestors (c : Nat) : List Nat := (lineage c).drop 1

def setPower (d : Dev) (c v : Nat) : Dev := setFld d .nodeStatus c NodeSt.power v

/-! ### Contexts (R140) -/

/-- The contexts held in a node. -/
def contextsIn (d : Dev) (c : Nat) : List (Nat × Context) :=
  d.arr.ctx.filterMap fun e => if isAncestorOrSelf c (e.1 / 8) then e.2.map fun x => (e.1, x) else none

/-- The service code of the FLOW records (Table OBS.8) of a descriptor, NTS apart. -/
def serviceCode : Service → Nat
  | .ntp => 0 | .bcast _ _ => 0 | .ptp => 2 | .sched _ _ => 2 | .arp => 3 | .nd => 4 | _ => 5

/-! ### The lane arbiter (R152) -/

def setWaiting (d : Dev) (k : Nat) (l : List LaneJob) : Dev :=
  { d with arr := { d.arr with laneQueue := Tab.set [] d.arr.laneQueue k l } }

def setFull (d : Dev) (k : Nat) (l : List LaneJob) : Dev :=
  { d with arr := { d.arr with laneFull := Tab.set [] d.arr.laneFull k l } }

def setLane (d : Dev) (l : Nat) (r : Option LaneRun) : Dev :=
  { d with arr := { d.arr with lanes := Tab.set none d.arr.lanes l r } }

/-- The arbiter of a nest holds 64 waiting jobs. -/
def arbiterSize : Nat := 64

/-- Jobs of threads that found the arbiter full enter it as space frees, the oldest first. -/
def refillArbiter (d : Dev) (k : Nat) : Dev :=
  let q := waitingJobs d k
  let f := Tab.get [] d.arr.laneFull k
  let n := arbiterSize - q.length
  if f.isEmpty then d else setFull (setWaiting d k (q ++ f.take n)) k (f.drop n)

/-- The jobs of a packet that have not started are withdrawn; one on a lane runs on (R141). -/
def withdrawJobs (d : Dev) (key packet : Nat) : Dev :=
  let k := key / 64
  let mine (j : LaneJob) : Bool := decide (j.owner = .thread key packet)
  if (waitingJobs d k).any mine || (Tab.get [] d.arr.laneFull k).any mine then
    let d := settle d (128 + k)
    let d := setWaiting d k ((waitingJobs d k).filter fun j => !mine j)
    refillArbiter (setFull d k ((Tab.get [] d.arr.laneFull k).filter fun j => !mine j)) k
  else d

/-- A level-1 nest loses its jobs, with the key material on its lanes, as it is gated or reset. -/
def clearLanes (d : Dev) (k : Nat) : Dev := setLane (setLane (setFull (setWaiting d k []) k []) (2 * k) none) (2 * k + 1) none

/-- The level-1 nests of a node, as 0–15. -/
def nestsOf (d : Dev) (c : Nat) : List Nat := ((subtree d c).filter fun n => decide (128 ≤ n) && decide (n < 144)).map (· - 128)

/-! ### The end of a context (R140, R141) -/

/-- A thread's context given up; OLD_CONTEXTS follows (R157). -/
def freeContext (d : Dev) (k : Nat) (x : Context) : Dev :=
  let d := withdrawJobs (settleLine d (k / 8)) k x.packet
  let d := setCtx d (k / 8) (k % 8) none
  if x.oldImage then setFld d .jigStatus 0 Jig.oldContexts (fld d .jigStatus 0 Jig.oldContexts - 1) else d

/-- A context ends with its packet handled (R140); the outcome is the statistic it moved, 0xFFFF for none. -/
def releaseContext (d : Dev) (k : Nat) (x : Context) (outcome : Nat) : Dev :=
  let code := if x.nts.isSome then 1 else serviceCode x.desc.service
  traceFlow (freeContext d k x) 1 (k / 8) x.desc.tenant code (k % 8) outcome x.packet (x.desc.pkt.stamp / 2 ^ 32 % 2 ^ 64)

/-- A context abandoned: its packet is dropped and counted once in DROP_CONTEXT_LOST (R23, R24, R141). -/
def abandonContext (d : Dev) (k : Nat) (x : Context) : Dev :=
  let code := if x.nts.isSome then 1 else serviceCode x.desc.service
  let d := countTenant (countNode (freeContext d k x) (k / 8) 17) x.desc.tenant 16
  traceFlow d 2 (k / 8) x.desc.tenant code (k % 8) 0xFFFF x.packet (x.desc.pkt.stamp / 2 ^ 32 % 2 ^ 64)

def abandonIn (d : Dev) (c : Nat) : Dev := (contextsIn d c).foldl (fun d e => abandonContext d e.1 e.2) d

/-- ENGINE_EXCEPTION with its code (1 TIMEOUT, 2 JIG_ASSERT), tenant and thread (R404). -/
def engineException (d : Dev) (k code tenant : Nat) : Dev :=
  raise (countNode d (k / 8) 36) (srcId 0x20 (k / 8)) (code * 2 ^ 24 + tenant * 2 ^ 12 + k % 8)

/-! ### Dispatch queues (R143–R146) -/

def pinNode (d : Dev) (t : Nat) : Nat :=
  let r := getRec d .tenantArray t
  nodeCode (getF r TArr.pinLevel) (getF r TArr.pinIndex)

/-- The tenant's enabled fallback node. -/
def fallbackNode (d : Dev) (t : Nat) : Option Nat :=
  let r := getRec d .tenantArray t
  if getF r TArr.fallbackEn = 1 then some (nodeCode (getF r TArr.fallbackLevel) (getF r TArr.fallbackIndex)) else none

/-- A descriptor is held at the node (R25): it is being woken, or GATING or GATED because of LISTEN, and neither gated by
command nor in reset nor fenced. -/
def holds (d : Dev) (c : Nat) : Bool :=
  !cmdGated d c && decide (nodeReset d c = 0) && !fencedAt d c
    && (decide (nodePower d c = 3)
      || (decide (nodePower d c ≠ 0) && flag d .nodeFlags c NodeFl.listenGated))

/-- The target of a descriptor enqueued now (R144), with whether it is the fallback node. -/
def targetOf (d : Dev) (t : Nat) : Option (Nat × Bool) :=
  let p := pinNode d t
  if nodeUp d p ∨ holds d p then some (p, false)
  else match fallbackNode d t with
    | some f => if nodeUp d f then some (f, true) else none
    | none => none

def tenantQueued (d : Dev) (t : Nat) : Nat := (d.arr.queue.filter fun e => e.2.tenant = t).length

/-- A nest's own event; an engine has none of these. -/
def countNest (d : Dev) (c k : Nat) (n : Nat := 1) : Dev := if c < 128 then d else countNode d c k n

/-- A descriptor at its place in the order of storing. -/
def insertDesc (c : Nat) (x : Desc) : List (Nat × Desc) → List (Nat × Desc)
  | [] => [(c, x)]
  | e :: es => if e.2.order ≤ x.order then e :: insertDesc c x es else (c, x) :: e :: es

/-- A descriptor enqueued under R144; a new one also under the limit of R145. -/
def place (d : Dev) (x : Desc) (isNew : Bool) : Dev :=
  match targetOf d x.tenant with
  | none => countNest (countTenant d x.tenant 17) (pinNode d x.tenant) 8
  | some (c, fb) =>
    if isNew ∧ fld d .tenantArray x.tenant TArr.dispatchLimit < tenantQueued d x.tenant + 1 then
      countNest (countTenant d x.tenant 18) c 6
    else
      let d := countNest (if c < 128 then d else settle d c) c 1
      let d := if fb then countNest d c 9 else d
      let d := if holds d c then countNest d c 5 else d
      { d with arr := { d.arr with queue := insertDesc c x d.arr.queue } }

/-- A new descriptor: the age limits of now govern it (R150). -/
def dispatch (d : Dev) (x : Desc) : Dev :=
  let n := d.arr.nextOrder
  let r := getRec d .tenantArray x.tenant
  place { d with arr := { d.arr with nextOrder := n + 1 } }
    { x with order := n, ageUs := getF r TArr.dispatchAgeUs, holdMs := getF r TArr.holdAgeMs } true

/-- The descriptors queued at some nodes handled as newly enqueued, their order and age, with its limits, kept (R146). -/
def requeue (d : Dev) (cs : List Nat) : Dev :=
  let moved := d.arr.queue.filter fun e => cs.contains e.1
  let d := if moved.isEmpty then d else settleSome d (cs.filter (128 ≤ ·))
  let d := { d with arr := { d.arr with queue := d.arr.queue.filter fun e => !cs.contains e.1 } }
  moved.foldl (fun d e => place (countNest d e.1 10) e.2 false) d

/-! ### Events of nodes (Table HOST.8) -/

/-- The tenants whose pin node or enabled fallback node is the node, an ancestor or a descendant. -/
def nodeTenants (d : Dev) (c : Nat) : List Nat :=
  let near (x : Nat) : Bool := isAncestorOrSelf c x || isAncestorOrSelf x c
  (tenantsInUse d).filter fun t =>
    near (pinNode d t) || (match fallbackNode d t with | some f => near f | none => false)

def nodeEvent (d : Dev) (c : Nat) : Dev := tenantEvent d (nodeTenants d c) evNode

/-- The tenants of an AEAD lane: NTS on, and a pin node that contains the lane's nest or lies within it. -/
def laneEvent (d : Dev) (lane : Nat) : Dev :=
  let n := 128 + lane / 2
  tenantEvent d ((tenantsInUse d).filter fun t =>
    flag d .nts t Nts.ntsEn && (isAncestorOrSelf (pinNode d t) n || isAncestorOrSelf n (pinNode d t))) evLane

/-! ### Gating (R23, R161, R163) -/

/-- A power-gate request: the node and its descendants that are powered enter GATING, and a wake that one already GATING
was to have is given up. -/
def gateRequest (d : Dev) (c : Nat) (listen : Bool) : Dev :=
  let mark (d : Dev) (n : Nat) : Dev := if listen then setFld d .nodeFlags n NodeFl.listenGated 1 else d
  (subtree d c).foldl (fun d n =>
    if nodePower d n = 0 ∨ nodePower d n = 3 then
      let d := mark (setPower (settleLine d n) n 1) n
      setNode d n { getNode d n with gateBt := some d.bt, wakeBt := none, logicOnly := false, rewake := none }
    else if nodePower d n = 1 then mark (setNode d n { getNode d n with rewake := none }) n
    else d) d

/-! ### Retention of the client table (R188) -/

/-- A clear: the table empty, a new hash key drawn, the sweeper at bucket 0, a retention measured afresh. -/
def clearClients (d : Dev) : Dev :=
  let (k, d) := draw d
  { d with ct := { entries := [], key := k % 2 ^ 128, sweep := 0, sweepAt := d.ct.sweepAt,
                   retainedFrom := d.ct.retainedFrom.map fun _ => d.bt } }

/-- Every node is GATED: the table is in retention. -/
def allGated (d : Dev) : Bool := (nodesPresent d.variant).all fun c => decide (nodePower d c = 2)

/-- The table leaves retention once a node is no longer GATED: cleared after 2^20 coarse ticks, else resumed. -/
def retentionExit (d : Dev) : Dev :=
  match d.ct.retainedFrom with
  | some n =>
    if allGated d then d
    else
      let d := if 2 ^ 20 ≤ (d.bt - n) / 16384 then clearClients d else d
      { d with ct := { d.ct with retainedFrom := none } }
  | none => d

/-! ### Waking (R159, R160) -/

/-- A wake request at one node: GATED it starts to wake, GATING it wakes once GATED, and WAKING or ON there is nothing to
do (R109). `logic` names its dispatch logic alone. -/
def startWake (d : Dev) (c : Nat) (logic : Bool) : Dev :=
  let x := getNode d c
  if nodePower d c = 2 then
    let x := { x with wakeBt := some d.bt, wakeUs := fld d .array 0 Arr.wakeTimeoutUs, logicOnly := logic, rewake := none }
    retentionExit (setNode (setPower (settle d c) c 3) c x)
  else if nodePower d c = 1 then setNode d c { x with rewake := some (logic && x.rewake.getD true) }
  else d

/-- GATED: the contexts still held are abandoned, the lanes lose their jobs, and the node counts nothing from here on. A
wake requested meanwhile follows. -/
def gateDone (d : Dev) (c : Nat) : Dev :=
  let d := abandonIn d c
  let done := (subtree d c).filter fun n => nodePower d n = 1
  let d := done.foldl (fun d n =>
    let d := countNest (settleLine d n) n 13
    let d := if 128 ≤ n ∧ n < 144 then clearLanes d (n - 128) else d
    setNode (setPower d n 2) n { getNode d n with gateBt := none }) d
  done.foldl (fun d n => match (getNode d n).rewake with
    | some logic => startWake (setNode d n { getNode d n with rewake := none }) n logic
    | none => d) d

/-- The table enters retention with the last node. -/
def noteRetention (d : Dev) : Dev :=
  if allGated d ∧ d.ct.retainedFrom.isNone then { d with ct := { d.ct with retainedFrom := some d.bt } } else d

/-- A GATING node reaches GATED when its contexts drain, or 10 µs after the request (R23). -/
def powerGateComplete (d : Dev) (c : Nat) : Dev :=
  match (getNode d c).gateBt with
  | some n =>
    if nodePower d c = 1 ∧ (contextsBusy d c = 0 ∨ 10000 ≤ (d.bt - n + 1) * btNs d) then noteRetention (gateDone d c) else d
  | none => d

/-- A wake request: the node and its descendants not gated by command, and the dispatch logic of its GATED
ancestors. -/
def wakeRequest (d : Dev) (c : Nat) : Dev :=
  if cmdGated d c then d
  else if nodePower d c = 0 ∨ nodePower d c = 3 then countNest d c 11
  else
    let d := countNest d c 11
    let d := (properAncestors c).foldl (fun d a => startWake d a true) d
    (subtree d c).foldl (fun d n => if cmdGated d n then d else startWake d n false) d

/-- On leaving LISTEN and at start-up every node not gated by command is woken (R161). -/
def wakeEvery (d : Dev) : Dev :=
  (nodesPresent d.variant).foldl (fun d n => if cmdGated d n then d else startWake d n false) d

def nodeOn (d : Dev) (c : Nat) : Dev :=
  if nodePower d c = 3 then
    let d := setPower (settleLine d c) c 0
    let d := setFld (setFld d .nodeFlags c NodeFl.wakeFailed 0) .nodeFlags c NodeFl.listenGated 0
    setNode d c { getNode d c with wakeBt := none, lastGrantBt := d.bt, idleMs := fld d .array 0 Arr.idleGateMs }
  else d

/-- The nodes of one wake reach ON together (Table ARRAY.5). -/
def wakeComplete (d : Dev) (c : Nat) : Dev :=
  if nodePower d c = 3 then (properAncestors c ++ subtree d c).foldl nodeOn d else d

/-- A node not ON within WAKE_TIMEOUT_US of its request; its descriptors are handled as if it were gated by command. -/
def wakeTimeout (d : Dev) (c : Nat) : Dev :=
  match (getNode d c).wakeBt with
  | some n =>
    if nodePower d c = 3 ∧ (getNode d c).wakeUs * 1000 ≤ (d.bt - n + 1) * btNs d then
      let d := setFld (setPower (settleLine d c) c 2) .nodeFlags c NodeFl.wakeFailed 1
      let d := setNode d c { getNode d c with wakeBt := none, logicOnly := false }
      let d := nodeEvent (raise (countNest d c 12) (srcId 0x21 c)) c
      -- for R144 the node counts as gated by command while its queue is moved
      let was := fld d .nodeFlags c NodeFl.cmdGated
      let d := requeue (setFld d .nodeFlags c NodeFl.cmdGated 1) [c]
      noteRetention (setFld d .nodeFlags c NodeFl.cmdGated was)
    else d
  | none => d

/-- In LISTEN, a woken node idle for IDLE_GATE_MS, or an ancestor woken for its dispatch logic whose children are all
GATED (R161). -/
def idleRegate (d : Dev) (c : Nat) : Dev :=
  let x := getNode d c
  let idle := x.idleMs
  let due := if x.logicOnly then
      ((descendants d.variant c).filter fun n => parentOf n = some c).all fun n => decide (nodePower d n = 2)
    else decide (idle ≠ 0) && decide (idle * 1000000 ≤ (d.bt - x.lastGrantBt + 1) * btNs d)
  if power d = 1 ∧ nodePower d c = 0 ∧ due then gateRequest d c true else d

/-! ### Resets and fences (R24, R146, R153, R413) -/

/-- A bit of the reset cause register set (R422), with its edge. -/
def setCause (d : Dev) (b : Nat) : Dev :=
  setFld (setFld d .resetCause 0 RCause.cause (setBit (fld d .resetCause 0 RCause.cause) b true)) .resetCause 0
    RCause.lastResetBt d.bt

/-- NODE_RESET at its edge: contexts and lane jobs dropped, queues handled under R146; a reset in progress of a descendant
goes on as part of this one. With an ancestor in reset or GATED it has no effect of its own: the door waits for the
ancestor, or is answered at once. -/
def applyNodeReset (d : Dev) (c : Nat) (f : Fn) (door : Nat) : Dev :=
  match (properAncestors c).find? fun a => decide (nodeReset d a = 1) with
  | some a => setNode d a { getNode d a with doors := (getNode d a).doors ++ [⟨f, door, none⟩] }
  | none =>
    if (properAncestors c).any fun a => decide (nodePower d a = 2) then complete d f door .ok (leBytes 8 d.bt) []
    else
      let below := (descendants d.variant c).flatMap fun n => (getNode d n).doors
      let d := (descendants d.variant c).foldl (fun d n =>
        setNode (setFld d .nodeStatus n NodeSt.reset 2) n { getNode d n with resetEnd := none, doors := [] }) (settleLine d c)
      let x := getNode d c
      let d := setNode d c { x with resetEnd := some (d.bt + 1), doors := x.doors ++ below ++ [⟨f, door, none⟩] }
      let d := setFld (countNest d c 14) .nodeStatus c NodeSt.reset 1
      let d := (nestsOf d c).foldl clearLanes (abandonIn d c)
      nodeEvent (requeue d (subtree d c)) c

/-- The lanes of a level-1 nest return to service with its reset. -/
def returnLanes (d : Dev) (c : Nat) : Dev :=
  [2 * (c - 128), 2 * (c - 128) + 1].foldl (fun d l =>
    if bit d.arr.lanesOut l then laneEvent { d with arr := { d.arr with lanesOut := setBit d.arr.lanesOut l false } } l
    else d) d

/-- A door that has waited for a node's reset is answered. -/
def endNodeWait (d : Dev) (w : NodeWait) : Dev :=
  complete d w.fn w.door .ok (match w.power with
    | some (bt, c) => leBytes 8 bt ++ leBytes 4 (nodePower d c)
    | none => leBytes 8 d.bt) []

/-- The end of a node's reset: the node and its descendants return to RUN, unfenced; the memory of a nest fenced by its
instruction memory has been reloaded, which needs the firmware (R413). -/
def nodeResetRelease (d : Dev) (c : Nat) : Dev :=
  match (getNode d c).resetEnd with
  | some n =>
    let reload := (subtree d c).any fun x => (getNode d x).reload
    if n ≤ d.bt ∧ (!reload || fwRuns d) then
      let doors := (getNode d c).doors
      let d := (subtree d c).foldl (fun d x =>
        let d := setFld (setFld (settleLine d x) .nodeStatus x NodeSt.reset 0) .nodeStatus x NodeSt.fenced 0
        let d := setNode d x { getNode d x with resetEnd := none, reload := false, doors := [] }
        if 128 ≤ x ∧ x < 144 then returnLanes d x else d) d
      let d := setCause d 14
      doors.foldl endNodeWait d
    else d
  | none => d

/-- A node withdrawn from dispatch by a fault reaction. -/
def fenceNode (d : Dev) (c : Nat) : Dev :=
  if nodeFenced d c then d
  else nodeEvent (requeue (countNest (setFld (settleLine d c) .nodeStatus c NodeSt.fenced 1) c 15) (subtree d c)) c

/-- A lane withdrawn (R153): the job it runs completes or fails, and it takes no other; a nest with no lane left is fenced. -/
def withdrawLane (d : Dev) (l : Nat) : Dev :=
  if bit d.arr.lanesOut l then d
  else
    let d := laneEvent { d with arr := { d.arr with lanesOut := setBit d.arr.lanesOut l true } } l
    if bit d.arr.lanesOut (l / 2 * 2) && bit d.arr.lanesOut (l / 2 * 2 + 1) then fenceNode d (128 + l / 2) else d

/-- Lanes in service of an engine's nest. -/
def lanesIn (d : Dev) (e : Nat) : List Nat :=
  if d.variant = .e then []
  else [e / 8 * 2, e / 8 * 2 + 1].filter fun l => !bit d.arr.lanesOut l

/-! ### The grant (R22, R147, R148) -/

/-- The path R22 names from a node down to an engine. -/
def route (d : Dev) : Nat → Nat → List Nat
  | 0, c => [c]
  | fuel + 1, c =>
    if c < 128 then [c]
    else match pickChild d c with
      | some n => c :: route d fuel n
      | none => [c]

/-- The path from a node that takes descriptors to an engine with a free thread, if R22 names one. -/
def pathTo (d : Dev) (c : Nat) : Option (List Nat) :=
  if !nodeUp d c ∨ !hasFree d c then none
  else
    let p := route d 3 c
    match p.getLast? with
    | some e => if e < 128 then some p else none
    | none => none

/-- The heads of the tenant queues that may be granted at an engine: each with its node and path. -/
def candidates (d : Dev) (e : Nat) : List (Nat × Desc × List Nat) :=
  let heads := d.arr.queue.foldl (fun (l : List (Nat × Desc)) x =>
    if l.any fun y => decide (y.1 = x.1) && decide (y.2.tenant = x.2.tenant) then l else l ++ [x]) []
  heads.filterMap fun x =>
    if isAncestorOrSelf x.1 e then
      match pathTo d x.1 with
      | some p => if p.getLast? = some e then some (x.1, x.2, p) else none
      | none => none
    else none

/-! ### Shares (R147, R148, R152) -/

/-- A candidate of the choice of R147: what it has used, its target, its weight, and what decides a tie. -/
structure Share where
  used : Nat
  target : Rat
  weight : Nat
  order : Nat
  tenant : Nat
deriving DecidableEq, Repr

/-- The candidate of the least ratio; ties go to the older, then to the lower tenant index. -/
def leastBy {α : Type} (ratio : Share → Rat) : List (α × Share) → Option (α × Share)
  | [] => none
  | x :: xs => match leastBy ratio xs with
    | none => some x
    | some y =>
      if ratio y.2 < ratio x.2 then some y
      else if ratio x.2 < ratio y.2 then some x
      else if y.2.order < x.2.order then some y
      else if x.2.order < y.2.order then some x
      else if y.2.tenant < x.2.tenant then some y
      else some x

/-- The choice of R147: the tenant furthest below its minimum, else the weighted share. -/
def chooseShare {α : Type} (cs : List (α × Share)) : Option α :=
  match leastBy (fun c => (c.used : Rat) / c.target) (cs.filter fun c => (c.2.used : Rat) < c.2.target) with
  | some c => some c.1
  | none => (leastBy (fun c => (c.used : Rat) / c.weight) cs).map (·.1)

/-- What a tenant queued at a node has taken within the window. -/
def usedIn (l : List ShareUse) (now t c : Nat) : Nat :=
  sumOf ((recentUses now l).filter fun u => decide (u.tenant = t) && decide (u.node = c)) (·.amount)

/-- target(t, X) of R148, for a minimum share field and a capacity per cycle of the window. -/
def shareTarget (d : Dev) (t c : Nat) (f : Fld) (perCycle : Rat) : Rat :=
  if pinNode d t = c then (fld d .tenantArray t f : Rat) / 1000 * perCycle * shareWindow else 0

/-- The slot share of a descriptor queued at a node. -/
def slotShare (d : Dev) (now c : Nat) (x : Desc) : Share :=
  { used := usedIn d.arr.slotUses now x.tenant c
    target := shareTarget d x.tenant c TArr.slotMinPermille ((nodeEngines d c).length : Nat)
    weight := fld d .tenantArray x.tenant TArr.slotWeight, order := x.order, tenant := x.tenant }

/-- lanes(X) of R152: the lanes in service in its level-1 nests; for an engine a quarter of its nest's. -/
def lanesOf (d : Dev) (c : Nat) : Rat :=
  if c < 128 then ((lanesIn d c).length : Rat) / 4
  else ((sumOf (nestsOf d c) fun k => (lanesIn d (8 * k)).length : Nat) : Rat)

/-- The lane share of a job. -/
def laneShare (d : Dev) (now : Nat) (j : LaneJob) : Share :=
  { used := usedIn d.arr.laneUses now j.tenant j.node
    target := shareTarget d j.tenant j.node TArr.laneMinPermille (lanesOf d j.node)
    weight := fld d .tenantArray j.tenant TArr.laneWeight, order := j.order, tenant := j.tenant }

/-- The job a nest's arbiter gives a lane next: of the oldest job of each tenant and node, the one R147 chooses. -/
def chooseJob (d : Dev) (k now : Nat) : Option LaneJob :=
  let heads := (waitingJobs d k).foldl (fun (l : List LaneJob) j =>
    if l.any fun y => decide (y.tenant = j.tenant) && decide (y.node = j.node) then l else l ++ [j]) []
  chooseShare (heads.map fun j => (j, laneShare d now j))

/-- The descriptor has waited too long (R145). -/
def tooOld (d : Dev) (x : Desc) : Bool :=
  let age := (d.bt - x.storedBt) * btNs d
  if getF x.pkt.status RxSt.wakeHeld = 1 then decide (x.holdMs * 1000000 < age) else decide (x.ageUs * 1000 < age)

def removeDesc (d : Dev) (c : Nat) (x : Desc) : Dev :=
  let d := if c < 128 then d else settle d c
  { d with arr := { d.arr with queue := d.arr.queue.filter fun e => e.2.order ≠ x.order } }

/-- The descriptor granted at an engine now, with its node and path; heads too old are dropped on the way (R145). -/
def nextGrant (fuel now : Nat) (d : Dev) (e : Nat) : Option (Nat × Desc × List Nat) × Dev :=
  match fuel with
  | 0 => (none, d)
  | fuel + 1 =>
    match chooseShare ((candidates d e).map fun c => (c, slotShare d now c.1 c.2.1)) with
    | none => (none, d)
    | some (c, x, p) =>
      if tooOld d x then nextGrant fuel now (countNode (countNest (countTenant (removeDesc d c x) x.tenant 19) c 7) e 40) e
      else (some (c, x, p), d)

/-- The grant at an engine, the slots of every engine counted up to it. -/
def grantAt (d : Dev) (e : Nat) : Option (Nat × Desc × List Nat) × Dev :=
  if (candidates d e).isEmpty then (none, d)
  else
    let d := settleAll d
    nextGrant (d.arr.queue.length + 1) (cycleAt d d.obs.phase) d e

/-- The free threads of an engine; which one takes a descriptor is left free. -/
def freeThreads (d : Dev) (e : Nat) : List Nat := (List.range 8).filter fun t => (ctxAt d e t).isNone

/-- The nests of a path pass a descriptor down (Table OBS.3). -/
def countPath (d : Dev) : List Nat → Dev
  | c :: n :: rest =>
    let i := if n < 128 then n % 8 else if n < 144 then (n - 128) % 4 else n - 144
    countPath (countNest (countNest d c 2) c (24 + i)) (n :: rest)
  | _ => d

/-- The records that govern a frame of a tenant from its grant on (R137, R200, R246). -/
def governKinds (t : Nat) : List (RecKind × Nat) :=
  [(.ntp, t), (.bcast, t), (.nts, t), (.launch, t), (.ptp, t)] ++ (List.range 16).map (fun i => (.access, 16 * t + i))
    ++ (List.range 16).map fun p => (.ptpPort, p)

def governing (d : Dev) (t : Nat) : Tab Nat := d.recs.filter fun e => (governKinds t).any fun g => decide (g.1.key g.2 = e.1)

/-- The device as a context reads its tenant's records. -/
def governed (d : Dev) (x : Context) : Dev :=
  let keys := (governKinds x.desc.tenant).map fun g => g.1.key g.2
  { d with recs := x.recs.foldl (fun l e => Tab.set 0 l e.1 e.2) (d.recs.filter fun e => !keys.contains e.1) }

/-- A context allocated at an engine for a descriptor (R140), counted and traced; the thread it took. -/
def allocate (d : Dev) (c e code : Nat) (x : Desc) (p : List Nat) : Nat × Context × Dev :=
  let (v, d) := draw d
  let ts := freeThreads d e
  let t := ts.getD (v % max 1 ts.length) 0
  let d := countPath (removeDesc (settleLine d e) c x) p
  let idle := fld d .array 0 Arr.idleGateMs
  let d := (lineage e).foldl (fun d n => setNode d n { getNode d n with lastGrantBt := d.bt, idleMs := idle }) d
  let n := d.arr.nextPacket
  let ctx : Context :=
    { desc := x, node := c, allocBt := d.bt, timeoutUs := fld d .array 0 Arr.contextTimeoutUs
      view := tenantView d x.tenant, oldImage := false, packet := n % 2 ^ 32, phase := .client, nts := none
      recs := governing d x.tenant, scratch := [], regs := [] }
  let d := { d with arr := { d.arr with nextPacket := n + 1 } }
  let d := countNode (countNode d e 16) e (18 + code)
  let d := entryCount d (engineCtr e (8 + t))
  let d := countTenant d x.tenant 20
  let d := traceFlow d 0 e x.tenant code t 0xFFFF ctx.packet (x.pkt.stamp / 2 ^ 32 % 2 ^ 64)
  (8 * e + t, ctx, setCtx d e t (some ctx))

/-- A context held for its timeout is abandoned (R141). -/
def contextTimeout (d : Dev) (e t : Nat) : Dev :=
  match ctxAt d e t with
  | some x =>
    if x.timeoutUs * 1000 ≤ (d.bt - x.allocBt + 1) * btNs d then
      engineException (abandonContext d (8 * e + t) x) (8 * e + t) 1 x.desc.tenant
    else d
  | none => d

/-! ### Jig images (R154–R158) -/

/-- JIG_SVN_MIN (R381). -/
def jigSvnMin (d : Dev) : Nat := popCount 64 d.key.otp.jigSvnTherm

def jigImage (key : Nat) (bs : List Byte) : JigImage :=
  ⟨rdLe bs 8 4, rdLe bs 12 4, rdLe bs 6 2, rdLe bs 16 4, bs, key⟩

/-- The reason code of Table ARRAY.4 of an image's first failing check among 1–5 (R154), under a jig key. -/
def jigChecks (d : Dev) (key : Nat) (bs : List Byte) : Nat :=
  let code := bs.drop 128
  let n := rdLe bs 20 4
  if bs.length < 128 ∨ slice bs 0 4 ≠ [0x41, 0x58, 0x4A, 0x47] ∨ rdLe bs 4 2 ≠ 1 ∨ bs.length ≠ 128 + n
      ∨ n < 4096 ∨ 131072 < n ∨ n % 16 ≠ 0 then 1
  else if !p256.verifies key (sha256 (slice bs 0 64)) (rdBe bs 64 64) then 2
  else if sha256 code ≠ slice bs 32 32 then 3
  else if rdLe bs 12 4 < jigSvnMin d then 4
  else if !bit (rdLe bs 24 4) (Variant.code d.variant) then 5
  else 0

/-- All six checks, for an upload (R156). -/
def jigReason (d : Dev) (bs : List Byte) : Nat :=
  let r := jigChecks d d.pwr.running.jigKey bs
  if r ≠ 0 then r else if rdLe bs 6 2 ≠ d.pwr.running.tableAbi then 6 else 0

/-- The checks of R154 on the copy of the active image (R158), under the firmware that has booted. The image shipped with
the device passed its checks under its own key. -/
def copyReason (d : Dev) (x : JigImage) : Nat :=
  if !x.bytes.isEmpty then jigReason d x.bytes
  else if x.signKey ≠ d.pwr.running.jigKey then 2
  else if x.svn < jigSvnMin d then 4
  else if x.abi ≠ d.pwr.running.tableAbi then 6
  else 0

/-- The jig status record (Table ARRAY.10). -/
def jigStatusImage (d : Dev) : Nat :=
  let a := d.arr.active
  let r := setF (setF (setF (getRec d .jigStatus 0) Jig.activeVersion a.version) Jig.activeSvn a.svn) Jig.activeAbi a.abi
  match d.arr.staged with
  | some s => setF (setF (setF r Jig.stagedVersion s.version) Jig.stagedAbi s.abi) Jig.stagedValid 1
  | none => r

def jigBytes (d : Dev) : List Byte := leBytes 32 (jigStatusImage d)

/-- The verification and loading of an upload has finished (R156): accepted, or DENIED with the staged image invalid. -/
def jigUploadDone (d : Dev) (f : Fn) (door : Nat) (bs : List Byte) : Dev :=
  let r := jigReason d bs
  let d := setFld { d with arr := { d.arr with staged := if r = 0 then some (jigImage d.pwr.running.jigKey bs) else none } }
    .jigStatus 0 Jig.lastReason r
  complete d f door (if r = 0 then .ok else .denied) (jigBytes d) []

/-- The nests are ON (R157). -/
def nestsOn (d : Dev) : Bool :=
  (List.range (n1Count d.variant)).all fun k => decide (nodePower d (128 + k) = 0)

/-- The banks swap at one edge (R157): the contexts of now run the previous image to their end. Nothing changes where the
staged image or a nest has gone since the command. -/
def applyJigSwap (d : Dev) (f : Fn) (door : Nat) : Dev :=
  match if nestsOn d then d.arr.staged else none with
  | none => complete d f door .state [] []
  | some s =>
    let d := settleAll d
    let ctx := d.arr.ctx.map fun e => (e.1, e.2.map fun x => { x with oldImage := true })
    let n := (ctx.filter fun e => e.2.isSome).length
    let d := { d with arr := { d.arr with active := s, staged := none, ctx := ctx } }
    let d := setFld (setFld d .jigStatus 0 Jig.oldContexts n) .jigStatus 0 Jig.switchBt d.bt
    complete d f door .ok (jigBytes d) []

/-- The last context of the previous image has ended (R157). -/
def oldDrained (d : Dev) : Dev :=
  if d.arr.ctx.any fun e => match e.2 with | some x => x.oldImage | none => false then d
  else setFld d .jigStatus 0 Jig.oldContexts 0

/-! ### Commands (Table ARRAY.6) -/

/-- Level and index of a node as a payload carries them: in the encodable set, and the node's code. -/
def nodeInSet (p : List Byte) : Bool :=
  let i := rdLe p 1 1
  match rdLe p 0 1 with | 0 => decide (i < 128) | 1 => decide (i < 16) | 2 => decide (i < 4) | 3 => decide (i = 0) | _ => false

def nodeArg (p : List Byte) : Nat := nodeCode (rdLe p 0 1) (rdLe p 1 1)

def nodeArgPresent (d : Dev) (p : List Byte) : Bool := nodePresent d.variant (rdLe p 0 1) (rdLe p 1 1)

/-- A node's status word as read; FAULT_LATCHED is VALID of the node's fault record (R408). -/
def nodeStatusImage (d : Dev) (c : Nat) : Nat :=
  setF (setF (getRec d .nodeStatus c) NodeSt.contextsBusy (contextsBusy d c)) NodeSt.faultLatched
    (fld d .faultRec c FRec.valid)

def nodeStatusCmd : Cmd :=
  { op := 0x0120, readBy := [.c, .p]
    check := fun _ p d =>
      if p.length ≠ 4 ∨ !(nodeInSet p || decide (rdLe p 0 1 = 0xFF)) then some .badLength
      else if nodeInSet p && !nodeArgPresent d p then some .notPresent else none
    body := fun _ p d =>
      let cs := if rdLe p 0 1 = 0xFF then nodesPresent d.variant else [nodeArg p]
      .done .ok (cs.flatMap fun c => leBytes 4 (nodeStatusImage d c) ++ leBytes 4 (getRec d .nodeFlags c)) [] d }

def arrayConfigCmd : Cmd :=
  RecSpec.cmd { kind := .array, ib := 0, image := plainImage .array, apply := atNextEdge .array } 0x0121 [.c, .p] [.c]

/-- The sum of a share over the other tenants pinned at an engine or at an ancestor of it. -/
def shareAt (d : Dev) (t e : Nat) (f : Fld) : Nat :=
  sumOf ((listed d .tenantArray).filter fun x =>
    x.1 ≠ t ∧ isAncestorOrSelf (nodeCode (getF x.2 TArr.pinLevel) (getF x.2 TArr.pinIndex)) e) fun x => getF x.2 f

/-- The largest share that keeps every sum of R149 within 1,000 at a pin node. -/
def shareRoom (d : Dev) (t pin : Nat) (f : Fld) : Nat :=
  (nodeEngines d pin).foldl (fun n e => min n (1000 - shareAt d t e f)) 1000

/-- The limits of Table ARRAY.9 that refer to the nodes present, to other fields and to other tenants. -/
def tArrDep (d : Dev) (t req : Nat) : Dep := fun f acc v =>
  let pin := nodeCode (getF acc TArr.pinLevel) (getF acc TArr.pinIndex)
  let idx (lvl x : Nat) : Nat := if nodePresent d.variant lvl x then x else 0
  if f = TArr.pinIndex then
    (if nodePresent d.variant (getF acc TArr.pinLevel) v then none else some (0, .absent))
  else if f = TArr.fallbackEn then
    let lvl := getF req TArr.fallbackLevel
    let fb := nodeCode lvl (idx lvl (getF req TArr.fallbackIndex))
    if v = 1 ∧ (isAncestorOrSelf fb pin ∨ isAncestorOrSelf pin fb) then some (0, .dependent) else none
  else if f = TArr.fallbackIndex then
    (if nodePresent d.variant (getF acc TArr.fallbackLevel) v then none else some (0, .absent))
  else if f = TArr.slotMinPermille then
    (if shareRoom d t pin f < v then some (shareRoom d t pin f, .dependent) else none)
  else if f = TArr.laneMinPermille then
    let m := if d.variant = .e then 0 else shareRoom d t pin f
    (if m < v then some (m, .dependent) else none)
  else none

def tenantArrayCmd : Cmd :=
  RecSpec.cmd { kind := .tenantArray, ib := 2, inSet := tenantIdx, image := plainImage .tenantArray, dep := tArrDep
                apply := atNextEdge .tenantArray } 0x3010 [.c, .p, .v] [.c] .live (tenantAt 0)

/-- NODE_POWER (R23, R24, R163): GATE or UNGATE of a node by command. Under an ancestor in reset it waits for the
ancestor and has no effect of its own. -/
def nodePowerBody (x : Ctx) (p : List Byte) (d : Dev) : Reply :=
  let c := nodeArg p
  let answer (d : Dev) : Reply := .done .ok (leBytes 8 d.bt ++ leBytes 4 (nodePower d c)) [] d
  let above := properAncestors c
  let gated := above.any fun a => decide (nodePower d a = 2)
  match above.find? fun a => decide (nodeReset d a = 1) with
  | some a =>
    if rdLe p 2 1 = 1 ∧ gated = true then .done .state [] [] d
    else .wait .edge (setNode d a { getNode d a with doors := (getNode d a).doors ++ [⟨x.fn, x.door, some (d.bt, c)⟩] })
  | none =>
    if rdLe p 2 1 = 0 then
      if gated then answer d
      else
        let d := gateRequest d c false
        let d := (subtree d c).foldl (fun d n => setFld d .nodeFlags n NodeFl.listenGated 0) d
        let d := setFld d .nodeFlags c NodeFl.cmdGated 1
        let d := if power d = 0 then requeue d (subtree d c) else d
        answer (nodeEvent d c)
    else if gated then .done .state [] [] d
    else
      let was := flag d .nodeFlags c NodeFl.cmdGated
      let d := wakeRequest (setFld d .nodeFlags c NodeFl.cmdGated 0) c
      answer (if was then nodeEvent d c else d)

def nodePowerCmd : Cmd :=
  { op := 0x5120, writeBy := [.c], isWrite := fun _ => true, writeCls := .live
    check := fun _ p d =>
      if p.length ≠ 4 ∨ !nodeInSet p ∨ 1 < rdLe p 2 1 then some .badLength
      else if !nodeArgPresent d p then some .notPresent else none
    body := nodePowerBody }

def nodeResetCmd : Cmd :=
  { op := 0x5121, writeBy := [.c], isWrite := fun _ => true, writeCls := .live
    check := fun _ p d =>
      if p.length ≠ 4 ∨ !nodeInSet p then some .badLength
      else if !nodeArgPresent d p then some .notPresent else none
    body := fun x p d => .wait .edge (defer d (.nodeReset (nodeArg p) x.fn x.door)) }

def jigUploadCmd : Cmd :=
  { op := 0x0310, writeBy := [.c], isWrite := fun _ => true, writeCls := .live, locks := fun _ => [0x0001]
    check := fun _ p _ => if p.length ≤ 128 + 131072 then none else some .badLength
    body := fun _ p d =>
      if fld d .jigStatus 0 Jig.oldContexts ≠ 0 then .done .state [] [] d else .wait (.jigUpload p) d }

def jigActivateCmd : Cmd :=
  { op := 0x0311, writeBy := [.c], isWrite := fun _ => true, writeCls := .live, check := lens [8]
    body := fun x p d =>
      match applyEdge d (rdLe p 0 8) with
      | some n =>
        if d.arr.staged.isNone ∨ !nestsOn d then .done .state [] [] d else .wait .edge (deferAt d n (.jigSwap x.fn x.door))
      | none => .done .state [] [] d }

def jigStatusCmd : Cmd :=
  { op := 0x0312, readBy := [.c, .p], check := lens [0], body := fun _ _ d => .done .ok (jigBytes d) [] d }

def execNodeStatus (m : Msg) (s : State) : Host.Outcome State Fault Refusal := mailbox nodeStatusCmd m s
def execArrayConfig (m : Msg) (s : State) : Host.Outcome State Fault Refusal := mailbox arrayConfigCmd m s
def execTenantArray (m : Msg) (s : State) : Host.Outcome State Fault Refusal := mailbox tenantArrayCmd m s
def execNodePowerGate (m : Msg) (s : State) : Host.Outcome State Fault Refusal := mailbox nodePowerCmd (withByte 2 0 m) s
def execNodePowerUngate (m : Msg) (s : State) : Host.Outcome State Fault Refusal :=
  mailbox nodePowerCmd (withByte 2 1 m) s
def execNodeReset (m : Msg) (s : State) : Host.Outcome State Fault Refusal := mailbox nodeResetCmd m s
def execJigUpload (m : Msg) (s : State) : Host.Outcome State Fault Refusal := mailbox jigUploadCmd m s
def execJigActivate (m : Msg) (s : State) : Host.Outcome State Fault Refusal := mailbox jigActivateCmd m s
def execJigStatus (m : Msg) (s : State) : Host.Outcome State Fault Refusal := mailbox jigStatusCmd m s

/-! ### Events -/

def execContextTimeout (engine : Fin 128) (thread : Fin 8) (s : State) : Host.Outcome State Fault Refusal :=
  onPath s fun d => contextTimeout d engine.val thread.val

def execPowerGateComplete (node : Fin 149) (s : State) : Host.Outcome State Fault Refusal :=
  whenOn s fun d => powerGateComplete d node.val

def execIdleRegate (node : Fin 149) (s : State) : Host.Outcome State Fault Refusal :=
  onPath s fun d => idleRegate d node.val

def execNodeResetRelease (node : Fin 149) (s : State) : Host.Outcome State Fault Refusal :=
  whenOn s fun d => nodeResetRelease d node.val

def execJigOldContextsDrained (s : State) : Host.Outcome State Fault Refusal := onPath s oldDrained

end Sys2Proof.Machine
end

