-- ==== Sys2Proof/Machine/Gnss.lean ====
section
/-! DEFINITION. The GNSS baseband's hardware and navigation data (11_gnss_baseband.md): interference suppression,
acquisition, channels, bit and subframe synchronisation, LNAV decoding. Bit positions of LNAV words and its parity are
those of IS-GPS-200 (assumption log). -/

namespace Sys2Proof.Machine

open Sys2Proof

/-! ### Antennas and channels -/

def getChan (d : Dev) (i : Nat) : Channel := Tab.get Channel.idle d.gnss.chans i

def setChan (d : Dev) (i : Nat) (x : Channel) : Dev :=
  { d with gnss := { d.gnss with chans := Tab.set Channel.idle d.gnss.chans i x } }

def getAnt (d : Dev) (a : Nat) : Antenna := Tab.get Antenna.reset d.gnss.ants a

def setAnt (d : Dev) (a : Nat) (x : Antenna) : Dev :=
  { d with gnss := { d.gnss with ants := Tab.set Antenna.reset d.gnss.ants a x } }

def antPresent (d : Dev) (a : Nat) : Bool := decide (a < antennaCount d.variant)

/-- The GNSS domain works: its PLL is locked and the fast domains run. -/
def gnssRuns (d : Dev) : Bool := fastRuns d && bit d.pwr.plls 2

/-- An antenna's hardware works (R270). -/
def antRuns (d : Dev) (a : Nat) : Bool := gnssRuns d && antPresent d a && flag d .gnssAnt a GAnt.enable

/-- The channels of an antenna. -/
def chansOf (a : Nat) : List Nat := (List.range 24).map (24 * a + ·)

def tracking (d : Dev) (i : Nat) : Bool := decide ((getChan d i).state = 2)

def anyTracking (d : Dev) (a : Nat) : Bool := (chansOf a).any (tracking d)

/-- Every channel of an antenna IDLE, every flag cleared (Table GNSS.1); its read-clear counters stay. -/
def idleChans (d : Dev) (a : Nat) : Dev := (chansOf a).foldl (fun d i => setChan d i Channel.idle) d

/-- PRNs of an antenna wait for the acquisition engine. -/
def wantPrns (d : Dev) (a : Nat) (l : List (Nat × Bool)) : Dev :=
  let x := getAnt d a
  setAnt d a { x with want := (x.want.filter fun w => !(l.map (·.1)).contains w.1) ++ l }

/-- Every PRN a search covers (R274), wanted of an antenna that is enabled; none of one that is not. -/
def searchAll (d : Dev) (a : Nat) (cold : Bool) : Dev :=
  let on := antPresent d a && flag d .gnssAnt a GAnt.enable
  setAnt d a { getAnt d a with want := if on then (List.range 32).map fun p => (p + 1, cold) else [] }

/-- The engine's search of an antenna is given up. -/
def dropSearch (d : Dev) (a : Nat) : Dev :=
  match d.gnss.acq with
  | some r => if r.ant = a then { d with gnss := { d.gnss with acq := none } } else d
  | none => d

/-- SEARCHING of Table GNSS.8. -/
def searching (d : Dev) (a : Nat) : Bool := match d.gnss.acq with | some r => decide (r.ant = a) | none => false

/-- A channel becomes LOST: it is freed at once, and its PRN is searched again (R275). -/
def loseChan (d : Dev) (i : Nat) : Dev :=
  let prn := (getChan d i).prn
  wantPrns (setChan d i { Channel.idle with prn := prn, state := 3, since := d.bt }) (i / 24) [(prn, false)]

/-- A channel that may take a PRN. -/
def chanFree (d : Dev) (i : Nat) : Bool :=
  let s := (getChan d i).state
  decide (s = 0) || decide (s = 3)

/-- The channel of an antenna that a PRN occupies. -/
def chanOfPrn (d : Dev) (a prn : Nat) : Option Nat :=
  (chansOf a).find? fun i => decide ((getChan d i).prn = prn) && !chanFree d i

/-- A channel assigned to a PRN with the code phase, in half chips, and the Doppler, in Hz, of its detection. -/
def assignChan (d : Dev) (i prn code : Nat) (hz : Int) : Dev :=
  setChan d i { Channel.idle with prn := prn, state := 1, since := d.bt, startCode := code, startHz := hz }

/-- A detected PRN takes the channel paired with the one it has on the other antenna, otherwise the lowest free channel;
it is then offered to the paired channel with the code phase and Doppler of its detection (R275). -/
def assignPrn (a : Nat) (d : Dev) (prn code : Nat) (hz : Int) : Dev :=
  if (chanOfPrn d a prn).isSome then d
  else
    let other := 1 - a
    let place := match chanOfPrn d other prn with
      | some j => if chanFree d (24 * a + j % 24) then some (24 * a + j % 24) else none
      | none => (chansOf a).find? (chanFree d)
    match place with
    | none => d
    | some i =>
      let d := assignChan d i prn code hz
      let pair := 24 * other + i % 24
      if antRuns d other && (chanOfPrn d other prn).isNone && chanFree d pair then assignChan d pair prn code hz else d

/-! ### The acquisition engine (R274) -/

/-- The Doppler bins of a cold search, and of one about a predicted Doppler: the first bin and how many. -/
def coldBins : Nat × Nat := (0, 41)

def narrowBins (hz : Int) : Nat × Nat := ((max 0 (min 36 (roundHalf (((hz + 10000 : Int) : Rat) / 500) - 2))).toNat, 5)

/-- What the firmware holds of a PRN's orbit: its ephemeris, else its almanac page. -/
def orbitWords (d : Dev) (prn : Nat) : List Nat :=
  match Tab.get none d.gnss.eph prn with
  | some e => e.words
  | none => Tab.get [] d.gnss.alm prn

/-- The bins in which a PRN is searched on an antenna. -/
def searchBins (d : Dev) (a : Nat) (w : Nat × Bool) : Nat × Nat :=
  let r := getRec d .gnssPos a
  let orbit := orbitWords d w.1
  if w.2 ∨ orbit.isEmpty ∨ getF r GPos.posState ≠ 2 ∨ !d.ts.tsh.set then coldBins
  else narrowBins (Config.gnssDoppler orbit (tshNs96 d) (getS r GPos.xMm, getS r GPos.yMm, getS r GPos.zMm))

/-- The free engine takes the PRNs that wait of the first antenna that has some; the firmware tells it the bins. -/
def startSearch (d : Dev) : Dev :=
  if d.gnss.acq.isSome ∨ !fwRuns d then d
  else match [0, 1].find? fun a => antRuns d a && !(getAnt d a).want.isEmpty with
    | none => d
    | some a =>
      let prns := (getAnt d a).want.map fun w => (w.1, searchBins d a w)
      let d := setAnt d a { getAnt d a with want := [] }
      { d with gnss := { d.gnss with
        acq := some { ant := a, fromBt := d.bt, nc := fld d .gnssDev 0 GDev.acqNc, prns := prns } } }

/-- The ns a search takes: its capture, then ACQ_NC transforms of 40 µs a bin. -/
def AcqRun.duration (r : AcqRun) : Nat :=
  r.nc * 1000000 + (r.prns.foldl (fun n p => n + p.2.2) 0) * r.nc * 40000

/-- A cell found counts as a detection: in a bin that was searched, and far enough above the mean. -/
def detects (d : Dev) (r : AcqRun) (x : Detection) : Bool :=
  decide (fld d .gnssDev 0 GDev.acqThreshDb * 100 ≤ x.excess)
    && r.prns.any fun p => decide (p.1 = x.prn.val + 1) && decide (p.2.1 ≤ x.bin.val) && decide (x.bin.val < p.2.1 + p.2.2)

/-- The Doppler of a bin's centre. -/
def dopplerOf (bin : Nat) : Int := 500 * bin - 10000

/-- A search completes, the firmware assigns what it detected (R274, R275), and the engine is free for the next. -/
def acquisition (d : Dev) (a : Nat) (found : List Detection) : Dev :=
  match d.gnss.acq with
  | none => d
  | some r =>
    if r.ant ≠ a ∨ !antRuns d a ∨ !fwRuns d ∨ (d.bt - r.fromBt) * btNs d < r.duration then d
    else startSearch ((found.filter (detects d r)).foldl (fun d x => assignPrn a d (x.prn.val + 1) x.code.val (dopplerOf x.bin.val))
      { d with gnss := { d.gnss with acq := none } })

/-! ### Signal input (R271–R273) -/

/-- Samples blanked by some pulses among the first n (R271): each run above the threshold, and the hold after it. The pulses
are in rising order. -/
def blankedSamples (thresh hold n : Nat) (ps : List Pulse) : Nat :=
  (ps.foldl (fun (s : Nat × Nat) p =>
    if p.above ≤ thresh ∨ p.count = 0 then s
    else
      let lo := max s.1 (min n p.first)
      let hi := max lo (min n (p.first + p.count + hold))
      (hi, s.2 + (hi - lo))) (0, 0)).2

/-- Samples a second of an antenna's converter (R270). -/
def sampleRate : Nat := 65472000

/-- The fraction of some samples, in ppm. -/
def ppm (k n : Nat) : Nat := (roundFree ((k : Rat) * 10 ^ 6 / n)).toNat

/-- BLANK_PPM over an interval of a second divided by a rate: 0 with BLANK_EN 0. -/
def blankPpm (d : Dev) (a rate : Nat) (ps : List Pulse) : Nat :=
  let r := getRec d .gnssAnt a
  let n := sampleRate / rate
  if getF r GAnt.blankEn = 0 then 0
  else ppm (blankedSamples (getF r GAnt.blankThreshDb * 100) (getF r GAnt.blankHoldNs * 65472 / 1000000) n ps) n

def notchFld (n : Nat) : Fld := ⟨64 + 24 * n + 23, 64 + 24 * n⟩

def notchOn (d : Dev) (a n : Nat) : Bool := bit (fld d .gnssAntStatus a GAntSt.notchActive) n

def setNotch (d : Dev) (a n : Nat) (on : Bool) (hz : Int) : Dev :=
  let r := getRec d .gnssAntStatus a
  let d := setRec d .gnssAntStatus a
    (setS (setF r GAntSt.notchActive (setBit (getF r GAntSt.notchActive) n on)) (notchFld n) hz)
  if on then d else setAnt d a { getAnt d a with below := Tab.set none (getAnt d a).below n none }

def notchHz (d : Dev) (a n : Nat) : Int := sfld d .gnssAntStatus a (notchFld n)

/-- No notch is active and no spectrum counts (R272). -/
def clearNotches (d : Dev) (a : Nat) : Dev :=
  let d := (List.range 4).foldl (fun d n => setNotch d a n false 0) d
  endEpisode (setAnt d a { getAnt d a with bins := [] }) (srcId 0x53 a)

/-- The frequency of a spectrum bin at baseband: 1,024 bins over 16.368 MS/s, to the nearest Hz. -/
def binHz (k : Nat) : Int := roundHalf ((if k < 512 then (k : Int) else (k : Int) - 1024 : Int) * 16368000 / 1024)

/-- The bin nearest a frequency at baseband. -/
def hzBin (hz : Int) : Nat := ((roundHalf ((hz : Rat) * 1024 / 16368000) + 1024) % 1024).toNat

/-- Twice the median of the powers of a spectrum. -/
def medianTwice (power : List Nat) : Nat :=
  let l := power.insertionSort (· ≤ ·)
  l.getD 511 0 + l.getD 512 0

/-- The bins of a spectrum that exceed the median bin by some dB. -/
def hotBins (db : Nat) (power : List Nat) : List Nat :=
  let m := medianTwice power
  (List.range 1024).filter fun k => decide (m ^ 10 * 10 ^ db ≤ (2 * power.getD k 0) ^ 10)

/-- An interferer at a bin (R272): covered by a notch within 50 kHz, given the lowest free notch, or without one. -/
def interferer (a : Nat) (d : Dev) (k : Nat) : Dev :=
  let near := (List.range 4).any fun n => notchOn d a n && decide ((notchHz d a n - binHz k).natAbs ≤ 50000)
  if near then d
  else match (List.range 4).find? fun n => !notchOn d a n with
    | some n => setNotch d a n true (binHz k)
    | none => startEpisode d (srcId 0x53 a)

/-- A notch follows its interferer, and notes since when the bin at its frequency has stayed below the threshold. -/
def trackNotch (a : Nat) (hot : List Nat) (tracked : List Int) (d : Dev) (n : Nat) : Dev :=
  if !notchOn d a n then d
  else
    let d := match tracked[n]? with | some hz => setNotch d a n true hz | none => d
    let x := getAnt d a
    let from_ := if hot.contains (hzBin (notchHz d a n)) then none else some ((Tab.get none x.below n).getD d.bt)
    setAnt d a { x with below := Tab.set none x.below n from_ }

/-- One spectrum (R272): the powers of its 1,024 bins, and the frequencies the active notches now track. The NOTCH_FULL
episode ends when a notch is free. -/
def spectrum (d : Dev) (a : Nat) (power : List Nat) (tracked : List Int) : Dev :=
  if !antRuns d a || !flag d .gnssAnt a GAnt.notchEn then setAnt d a { getAnt d a with bins := [] }
  else if power.length ≠ 1024 then d
  else
    let hot := hotBins (fld d .gnssAnt a GAnt.notchThreshDb) power
    let d := (List.range 4).foldl (trackNotch a hot tracked) d
    let x := getAnt d a
    let bins := hot.foldl (fun t k => Tab.set 0 t k (min 3 (Tab.get 0 x.bins k + 1))) ([] : Tab Nat)
    let d := setAnt d a { x with bins := bins }
    let d := if (List.range 4).all (notchOn d a) then d else endEpisode d (srcId 0x53 a)
    (hot.filter fun k => Tab.get 0 bins k = 3).foldl (interferer a) d

/-- A notch is released once its interferer has stayed below the threshold for 1 s (R272). -/
def notchRelease (d : Dev) (a n : Nat) : Dev :=
  match Tab.get none (getAnt d a).below n with
  | some b =>
    if notchOn d a n ∧ 10 ^ 9 ≤ (d.bt - b) * btNs d then endEpisode (setNotch d a n false 0) (srcId 0x53 a) else d
  | none => d

/-- A condition over a whole TSH second, once an episode. -/
def episodeIf (d : Dev) (b : Bool) (id : Nat) : Dev := if b then startEpisode d id else endEpisode d id

/-- The report of a TSH second (R271, R273): the gain at its end and the least in it in 0.01 dB, how many samples were at full
scale, and the pulses. -/
def agcReport (d : Dev) (a gain least clipped : Nat) (pulses : List Pulse) : Dev :=
  if !antRuns d a then d
  else
    let clip := ppm clipped sampleRate
    let blank := blankPpm d a 1 pulses
    let r := getRec d .gnssAntStatus a
    let d := setRec d .gnssAntStatus a
      (setF (setF (setF r GAntSt.agcGainCdb (min 4800 gain)) GAntSt.clipPpm clip) GAntSt.blankPpm blank)
    let d := episodeIf d (decide (4800 ≤ least)) (srcId 0x50 a)
    let d := episodeIf d (decide (1000 < clip)) (srcId 0x51 a)
    episodeIf d (decide (100000 < blank)) (srcId 0x52 a)

/-! ### Tracking (R276–R278) -/

def chanRuns (d : Dev) (i : Nat) : Bool := antRuns d (i / 24)

def pullInTimeout (d : Dev) (i : Nat) : Dev :=
  let x := getChan d i
  if chanRuns d i ∧ x.state = 1 ∧ 500 * 10 ^ 6 ≤ (d.bt - x.since) * btNs d then loseChan d i else d

/-- CARRIER_LOCK lost: bit and frame synchronisation go with it, and the next epoch with lock carries SLIP. -/
def carrierLost (x : Channel) : Channel :=
  { x with lockBt := none, bitSync := false, frameSync := false, inverted := false, slip := true, badRun := 0, cands := []
           words := [] }

/-- CARRIER_LOCK set at an edge: the whole cycles of the phase are taken off (R284), and the windows of R278 begin. -/
def carrierLocked (x : Channel) (bt : Nat) (phase : Int) : Channel :=
  { x with lockBt := some bt, phaseBase := phase / 65536 * 65536, windowBt := bt }

/-- The loops' report of 100 ms: in PULL_IN a code peak within ±1 chip and a frequency error below 25 Hz, within 500 ms;
in TRACKING the Costas indicator sets or clears CARRIER_LOCK, and CN0 is held to CN0_LOSS_DBHZ. -/
def carrierCheck (d : Dev) (i : Nat) (v : PullReport) (r : LoopReport) : Dev :=
  let x := getChan d i
  if !chanRuns d i then d
  else if x.state = 1 then
    if v.peak.natAbs ≤ 16 ∧ v.freq.natAbs < 25000 ∧ (d.bt - x.since) * btNs d ≤ 500 * 10 ^ 6 then
      setChan d i { x with state := 2, codeLock := true }
    else d
  else if x.state = 2 then
    let low := decide (r.cn0.toNat < fld d .gnssAnt (i / 24) GAnt.cn0LossDbhz * 100)
    let x := { x with cn0 := r.cn0.toNat, lowBt := if low then some (x.lowBt.getD d.bt) else none }
    setChan d i
      (if 800 ≤ r.costas ∧ x.lockBt.isNone then carrierLocked x d.bt r.phase
       else if r.costas < 500 ∧ x.lockBt.isSome then carrierLost x else x)
  else d

/-- CN0 has been below CN0_LOSS_DBHZ for CN0_LOSS_MS. -/
def cn0Loss (d : Dev) (i : Nat) : Dev :=
  match (getChan d i).lowBt with
  | some b =>
    if chanRuns d i ∧ tracking d i ∧ fld d .gnssAnt (i / 24) GAnt.cn0LossMs * 10 ^ 6 ≤ (d.bt - b) * btNs d then loseChan d i
    else d
  | none => d

/-- The position of the largest count of a window of R278, where it is at least 10 and four times every other. -/
def bitPosition (counts : List Nat) : Option Nat :=
  let best := counts.foldl max 0
  if counts.length = 20 ∧ 10 ≤ best ∧ (counts.erase best).all (fun c => 4 * c ≤ best) then
    counts.findIdx? fun c => decide (c = best)
  else none

/-- The end of a window of 100 bits (R278). The two bits before the stream's first were not received: they are free. -/
def bitSyncWindow (d : Dev) (i : Nat) (counts : List Nat) : Dev :=
  let x := getChan d i
  if !chanRuns d i ∨ x.state ≠ 2 ∨ x.lockBt.isNone ∨ x.bitSync ∨ (d.bt - x.windowBt) * btNs d < 2 * 10 ^ 9 then d
  else match bitPosition counts with
    | some p =>
      let (v, d) := draw d
      setChan d i { x with bitSync := true, bitPos := p, bits := 0, stream := v % 4, cands := [], words := [] }
    | none => setChan d i { x with windowBt := d.bt }

/-! ### LNAV words (R279) -/

/-- Bit n of a word, 1 the first received. -/
def navBit (w n : Nat) : Bool := w.testBit (30 - n)

/-- The 24 data bits of a word, given D30 of the word before. -/
def navData (d30 : Bool) (w : Nat) : Nat := (w / 64) ^^^ (if d30 then 2 ^ 24 - 1 else 0)

/-- Bits a to b of the data of a word. -/
def navField (data a b : Nat) : Nat := data / 2 ^ (24 - b) % 2 ^ (b - a + 1)

/-- The parity of IS-GPS-200: bits 25 to 30 against the data bits and the two bits before the word. -/
def parityOk (d29 d30 : Bool) (w : Nat) : Bool :=
  let data := navData d30 w
  let x (s : Bool) (l : List Nat) : Bool := l.foldl (fun b i => xor b (data.testBit (24 - i))) s
  (x d29 [1, 2, 3, 5, 6, 10, 11, 12, 13, 14, 17, 18, 20, 23] == navBit w 25)
    && (x d30 [2, 3, 4, 6, 7, 11, 12, 13, 14, 15, 18, 19, 21, 24] == navBit w 26)
    && (x d29 [1, 3, 4, 5, 7, 8, 12, 13, 14, 15, 16, 19, 20, 22] == navBit w 27)
    && (x d30 [2, 4, 5, 6, 8, 9, 13, 14, 15, 16, 17, 20, 21, 23] == navBit w 28)
    && (x d30 [1, 3, 5, 6, 7, 9, 10, 14, 15, 16, 17, 18, 21, 22, 24] == navBit w 29)
    && (x d29 [3, 5, 6, 8, 9, 10, 11, 13, 15, 19, 22, 23, 24] == navBit w 30)

/-- The preamble 1000 1011. -/
def navPreamble : Nat := 0x8B

/-- The last w bits of a stream in a polarity, but for the n latest. -/
def streamBits (stream : Nat) (inverted : Bool) (n w : Nat) : Nat :=
  let v := stream / 2 ^ n % 2 ^ w
  if inverted then 2 ^ w - 1 - v else v

/-- The word that ended n bits ago in a stream, judged with the two bits before it. -/
def wordAt (stream : Nat) (inverted : Bool) (n : Nat) : NavWord :=
  let w := streamBits stream inverted n 30
  let before := streamBits stream inverted (n + 30) 2
  { ok := parityOk (before.testBit 1) (before.testBit 0) w, data := navData (before.testBit 0) w, raw := w }

/-- The TOW count of a HOW that passes checks 1 and 2 of R279. -/
def howTow (w : NavWord) : Option Nat :=
  let tow := navField w.data 1 17
  let id := navField w.data 20 22
  if w.ok && decide (tow < 100800) && decide (1 ≤ id) && decide (id ≤ 5) then some tow else none

/-! ### Candidates (R279) -/

/-- What a candidate comes to at a stream bit: it stays open as given, fails, or gives FRAME_SYNC. -/
inductive CandStep where
  | stays (c : Candidate)
  | fails
  | syncs
deriving DecidableEq, Repr

/-- The checks of a candidate that fall due at stream bit n. -/
def candStep (stream n : Nat) (c : Candidate) : CandStep :=
  let w := wordAt stream c.inverted 0
  let keepIf (b : Bool) : CandStep := if b then .stays c else .fails
  match n - c.start with
  | 29 => keepIf w.ok
  | 59 => (match howTow w with | some t => .stays { c with tow := some t } | none => .fails)
  | 307 => keepIf (decide (streamBits stream c.inverted 0 8 = navPreamble))
  | 329 => keepIf w.ok
  | 359 => (match howTow w, c.tow with
      | some u, some t => if u = (t + 1) % 100800 then .syncs else .fails
      | _, _ => .fails)
  | _ => .stays c

/-- A candidate that opens with stream bit n as the last of its preamble. -/
def candOpens (stream n : Nat) : List Candidate :=
  if n < 7 then []
  else if stream % 256 = navPreamble then [⟨n - 7, false, none⟩]
  else if stream % 256 = 255 - navPreamble then [⟨n - 7, true, none⟩]
  else []

/-! ### Navigation data (R281, R282) -/

/-- The TSH-scale instant at which GPS time began. -/
def gpsEpoch : Int := 315964819

def weekSec : Int := 604800

/-- The GPS week of the current TSH. -/
def tshWeek (d : Dev) : Int := ((tshSec d : Int) - gpsEpoch) / weekSec

/-- A 10-bit week number resolved (R282). -/
def fullWeek (d : Dev) (wn : Nat) : Nat :=
  if d.ts.tsh.set then
    let w := tshWeek d
    (w + ((wn : Int) - w + 512) % 1024 - 512).toNat
  else
    let b : Int := fld d .gnssDev 0 GDev.wnBase
    (b + ((wn : Int) - b) % 1024).toNat

def getParts (d : Dev) (prn : Nat) : NavParts := Tab.get NavParts.none d.gnss.parts prn

def setParts (d : Dev) (prn : Nat) (x : NavParts) : Dev :=
  { d with gnss := { d.gnss with parts := Tab.set NavParts.none d.gnss.parts prn x } }

def getEph (d : Dev) (prn : Nat) : Option Ephemeris := Tab.get none d.gnss.eph prn

/-- The ephemeris of a PRN is taken up when the issues of data of its three subframes agree. -/
def takeEphemeris (d : Dev) (prn : Nat) : Dev :=
  let p := getParts d prn
  let w (l : List Nat) (n : Nat) := l.getD (n - 1) 0
  if p.sub1 = [] ∨ p.sub2 = [] ∨ p.sub3 = [] then d
  else
    let iodc := navField (w p.sub1 8) 1 8
    if iodc = navField (w p.sub2 3) 1 8 ∧ iodc = navField (w p.sub3 10) 1 8 then
      let e : Ephemeris :=
        { words := p.sub1 ++ p.sub2 ++ p.sub3, week := fullWeek d (navField (w p.sub1 3) 1 10), tow := p.tow1
          toe := 16 * navField (w p.sub2 10) 1 16, health := navField (w p.sub1 3) 17 22 }
      { d with gnss := { d.gnss with eph := Tab.set none d.gnss.eph prn (some e) } }
    else d

/-- The current GPS week as the firmware knows it for a PRN's decode. -/
def currentWeek (d : Dev) (prn : Nat) : Option Int :=
  if d.ts.tsh.set then some (tshWeek d) else (getEph d prn).map fun e => (e.week : Int)

/-- The UTC parameters of subframe 4 page 18 (R75, R281): M is the midnight at the end of day DN of week WNLSF, resolved
within −127 to +128 weeks of the current one. -/
def utcDecode (week : Int) (l : List Nat) : GpsLeap :=
  let w9 := l.getD 8 0
  let w10 := l.getD 9 0
  let lsf : Int := navField w9 9 16
  let full := week + (lsf - week + 127) % 256 - 127
  { dtLs := toInt 8 (navField w9 1 8), dtLsf := toInt 8 (navField w10 1 8)
    m := (315964800 + 86400 * (7 * full + navField w9 17 24)).toNat }

/-- A decode delivered to the leap logic: accepted when another satellite has given the same (R75), with effect at the
next edge (R68). -/
def deliverUtc (d : Dev) (prn : Nat) (g : GpsLeap) : Dev :=
  let same := d.leap.gpsSeen.any fun e => decide (e.1 ≠ prn) && decide (e.2 = some g)
  let d := { d with leap := { d.leap with gpsSeen := Tab.set none d.leap.gpsSeen prn (some g) } }
  if same then defer d (.gpsLeap g d.bt) else d

/-- The PRN whose almanac a page of subframe 4 or 5 carries, by the SV ID of its third word. -/
def almanacPrn (id : Nat) (l : List Nat) : Option Nat :=
  let sv := navField (l.getD 2 0) 3 8
  if (id = 4 ∨ id = 5) ∧ 1 ≤ sv ∧ sv ≤ 32 then some sv else none

/-- A subframe whose every word passed parity is decoded by the firmware (R281); its TOW count is the next one's start. -/
def decodeSub (d : Dev) (prn id tow : Nat) (l : List Nat) : Dev :=
  let p := getParts d prn
  let d := match almanacPrn id l with
    | some sv => { d with gnss := { d.gnss with alm := Tab.set [] d.gnss.alm sv l } }
    | none => d
  match id with
  | 1 => takeEphemeris (setParts d prn { p with sub1 := l, tow1 := 6 * ((tow + 100799) % 100800)
                                                health := some (navField (l.getD 2 0) 17 22) }) prn
  | 2 => takeEphemeris (setParts d prn { p with sub2 := l }) prn
  | 3 => takeEphemeris (setParts d prn { p with sub3 := l }) prn
  | 4 =>
    if navField (l.getD 2 0) 3 8 = 56 then
      let d := { d with gnss := { d.gnss with
        iono := navField (l.getD 2 0) 9 24 * 2 ^ 48 + l.getD 3 0 * 2 ^ 24 + l.getD 4 0 } }
      match currentWeek d prn with
      | some w => deliverUtc d prn (utcDecode w l)
      | none => d
    else d
  | _ => d

/-! ### The bit stream of a channel (R278–R280) -/

/-- The candidates of a channel at stream bit n: those dropped count in FALSE_PREAMBLE; the first that passes every check
sets FRAME_SYNC, unless it is set. -/
def judgeCands (d : Dev) (i n : Nat) : Dev :=
  let c := getChan d i
  let steps := c.cands.map fun x => (x, candStep c.stream n x)
  let kept := steps.filterMap fun e => match e.2 with | .stays x => some x | _ => none
  let failed := (steps.filter fun e => decide (e.2 = .fails)).length
  let d := bumpFld d .gnssChan i GCh.falsePreamble failed
  let d := setChan d i { c with cands := kept ++ (if c.frameSync then [] else candOpens c.stream n) }
  match if c.frameSync then none else steps.find? fun e => decide (e.2 = .syncs) with
  | none => d
  | some (x, _) =>
    let w (k : Nat) : NavWord := wordAt c.stream x.inverted k
    let c := getChan d i
    setChan d i { c with frameSync := true, inverted := x.inverted, slip := c.slip || x.inverted, bound := x.start + 300
                         tow := x.tow.getD 0, words := [w 30, w 0], badRun := 0 }

/-- The HOW of a subframe in FRAME_SYNC (R280): good where preamble, parities and TOW count are; the second bad one in a
row clears FRAME_SYNC, and candidates open afresh. -/
def boundaryCheck (d : Dev) (i : Nat) (tlm how : NavWord) : Dev :=
  let c := getChan d i
  let good := tlm.ok && how.ok && decide (tlm.raw / 2 ^ 22 = navPreamble)
    && decide (navField how.data 1 17 = (c.tow + 1) % 100800)
  if good then setChan d i { c with badRun := 0 }
  else if c.badRun = 0 then setChan d i { c with badRun := 1 }
  else setChan d i { c with frameSync := false, badRun := 0, cands := [], words := [] }

/-- The last word of a subframe: the subframe joins the last five, is decoded where it is good and whole, and the next
begins. -/
def subframeEnd (d : Dev) (i : Nat) : Dev :=
  let c := getChan d i
  let next := (c.tow + 1) % 100800
  let d := setChan d i { c with words := [], bound := c.bound + 300, tow := next
                                subframes := (c.words.map (·.raw) :: c.subframes).take 5 }
  if c.badRun = 0 ∧ c.words.all (·.ok) ∧ fwRuns d then
    decodeSub d c.prn (navField ((c.words.map (·.data)).getD 1 0) 20 22) next (c.words.map (·.data))
  else d

/-- A word of a subframe in FRAME_SYNC: beside TLM and HOW, one that fails parity counts in PARITY_ERR. -/
def wordEnd (d : Dev) (i : Nat) : Dev :=
  let c := getChan d i
  let w := wordAt c.stream c.inverted 0
  let ws := c.words ++ [w]
  let d := setChan d i { c with words := ws }
  let d := if 3 ≤ ws.length ∧ !w.ok then bumpFld d .gnssChan i GCh.parityErr else d
  match ws with
  | [tlm, how] => boundaryCheck d i tlm how
  | _ => if ws.length = 10 then subframeEnd d i else d

/-- One bit of the stream, from the sum of its 20 prompt values: 1 where it is positive, free where it is 0. -/
def receiveBit (i : Nat) (d : Dev) (sum : Int) : Dev :=
  let (v, d) := if sum = 0 then draw d else (if 0 < sum then 1 else 0, d)
  let c := getChan d i
  let n := c.bits
  let was := c.frameSync
  let d := judgeCands (setChan d i { c with bits := n + 1, stream := (2 * c.stream + v % 2) % 2 ^ 64 }) i n
  if was ∧ (n + 1 - c.bound) % 30 = 0 then wordEnd d i else d

/-- Bits of a channel in BIT_SYNC. -/
def subframe (d : Dev) (i : Nat) (sums : List Int) : Dev :=
  if chanRuns d i && (getChan d i).bitSync then sums.foldl (receiveBit i) d else d

/-! ### Events -/

def onGnss (s : State) (f : Dev → Dev) : Host.Outcome State Fault Refusal :=
  whenOn s fun d => if gnssRuns d then f d else d

def execSpectrumMonitor (ant : Fin 2) (power : List Nat) (tracked : List Int) (s : State) :
    Host.Outcome State Fault Refusal :=
  onGnss s fun d => spectrum d ant.val power tracked

def execNotchRelease (ant : Fin 2) (notch : Fin 4) (s : State) : Host.Outcome State Fault Refusal :=
  onGnss s fun d => notchRelease d ant.val notch.val

def execAgcSecondReport (ant : Fin 2) (gain least : BitVec 16) (clipped : Nat) (pulses : List Pulse) (s : State) :
    Host.Outcome State Fault Refusal :=
  onGnss s fun d => agcReport d ant.val gain.toNat least.toNat clipped pulses

def execAcquisitionComplete (ant : Fin 2) (found : List Detection) (s : State) : Host.Outcome State Fault Refusal :=
  onGnss s fun d => acquisition d ant.val found

def execPullInTimeout (ch : Fin 48) (s : State) : Host.Outcome State Fault Refusal :=
  onGnss s fun d => pullInTimeout d ch.val

def execCarrierLockCheck (ch : Fin 48) (pull : PullReport) (loops : LoopReport) (s : State) :
    Host.Outcome State Fault Refusal :=
  onGnss s fun d => carrierCheck d ch.val pull loops

def execCn0Loss (ch : Fin 48) (s : State) : Host.Outcome State Fault Refusal := onGnss s fun d => cn0Loss d ch.val

def execBitSyncWindow (ch : Fin 48) (counts : List Nat) (s : State) : Host.Outcome State Fault Refusal :=
  onGnss s fun d => bitSyncWindow d ch.val counts

def execSubframeReceived (ch : Fin 48) (sums : List Int) (s : State) : Host.Outcome State Fault Refusal :=
  onGnss s fun d => subframe d ch.val sums

end Sys2Proof.Machine
end

