-- ==== Sys2Proof/Machine/GnssFix.lean ====
section
/-! DEFINITION. GNSS measurement epochs, time solution, surveys and the spoof check, and the GNSS commands
(11_gnss_baseband.md). -/

namespace Sys2Proof.Machine

open Sys2Proof

/-! ### Ephemerides at an instant (R281, R282) -/

/-- The full week of a time of week in s near a reference time of week in a reference week. -/
def nearWeek (week : Nat) (ref tow : Rat) : Int :=
  if tow + 302400 < ref then week + 1 else if ref + 302400 < tow then (week : Int) - 1 else week

/-- A time of week of a PRN's signal in seconds of GPS time since its epoch, by the week of its ephemeris. -/
def gpsSeconds (e : Ephemeris) (tow : Rat) : Rat := (nearWeek e.week e.tow tow : Rat) * 604800 + tow

/-- EPH_VALID at a transmit time of week (R281): within 4 h of toe. -/
def ephValidAt (e : Ephemeris) (tow : Rat) : Bool :=
  let toe : Rat := (nearWeek e.week e.tow e.toe : Rat) * 604800 + e.toe
  let t := gpsSeconds e tow
  decide (t - toe ≤ 14400) && decide (toe - t ≤ 14400)

def healthy (d : Dev) (prn : Nat) : Bool :=
  match (getParts d prn).health with
  | some h => decide (h = 0)
  | none => match getEph d prn with | some e => decide (e.health = 0) | none => true

/-- TX_TOW_MS of a channel in FRAME_SYNC (R284): the start of its subframe, the bits received of it, and the ms since. -/
def txTowMs (x : Channel) (m : ChanMeas) : Nat := (x.tow * 6000 + 20 * (x.bits - x.bound) + m.ms) % 604800000

/-- CODE_PHASE, below 1,023 chips. -/
def codePhase (m : ChanMeas) : Nat := m.codePhase.toNat % (1023 * 2 ^ 22)

/-- The transmit time of week in s of a latched channel (R284). -/
def txTime (x : Channel) (m : ChanMeas) : Rat := (txTowMs x m : Rat) / 1000 + (codePhase m : Rat) / (1023 * 2 ^ 22 * 1000)

/-! ### Measurement blocks (R283–R285) -/

/-- Epochs per second. -/
def epochRate (d : Dev) : Nat :=
  match fld d .gnssDev 0 GDev.epochRate with | 0 => 1 | 1 => 2 | 2 => 5 | _ => 10

/-- The measurement epoch that lies in the current base tick, in 2^-32 ns. -/
def epochInstant (d : Dev) : Option Nat :=
  let step := 10 ^ 9 / epochRate d * 2 ^ 40
  let lo := d.ts.tsh.total
  let e := (lo + step - 1) / step * step
  if e < lo + d.ts.tsh.inc then some (e / 2 ^ 8) else none

def lockMs (d : Dev) (x : Channel) : Nat :=
  match x.lockBt with | some b => min (2 ^ 32 - 1) (btToMs d (d.bt - b)) | none => 0

/-- CARRIER_PHASE (R284): without the whole cycles taken off at CARRIER_LOCK, with the half-cycle correction of R279. -/
def carrierPhase (x : Channel) (m : ChanMeas) : Int := m.carrier - x.phaseBase + (if x.inverted then 2 ^ 15 else 0)

/-- The powers of the nine taps (R276): tap j lags the prompt by j × TAP_SPACING sixteenths of a chip. -/
def tapPowers (d : Dev) (i : Nat) (m : ChanMeas) : List Nat :=
  let sp := fld d .gnssAnt (i / 24) GAnt.tapSpacing
  (List.range 9).map fun j => (m.corr.getD (32 + j * sp - 4 * sp) 0).toNat

/-- The entry of a channel (Table GNSS.2); an IDLE channel's is all zero. -/
def chanEntry (d : Dev) (i : Nat) (m : ChanMeas) : List Byte :=
  let x := getChan d i
  if x.state = 0 then leBytes 32 0
  else
    let slip := x.slip && x.lockBt.isSome
    let flags := b2n x.codeLock + 2 * b2n x.lockBt.isSome + 4 * b2n x.bitSync + 8 * b2n x.frameSync + 16 * b2n slip
      + 32 * b2n x.frameSync
    leBytes 1 x.prn ++ leBytes 1 flags ++ leBytes 2 m.cn0.toNat ++ leBytes 4 (if x.frameSync then txTowMs x m else 0)
      ++ leBytes 4 (codePhase m) ++ leBytes 8 (ofInt 64 (carrierPhase x m)) ++ leBytes 4 (ofInt 32 m.doppler)
      ++ leBytes 4 (lockMs d x) ++ leBytes 4 0

def noMeas : ChanMeas := { cn0 := 0, ms := 0, codePhase := 0, carrier := 0, doppler := 0, corr := [] }

/-- The channels present. -/
def chanCount (d : Dev) : Nat := 24 * antennaCount d.variant

/-- The epoch lies between the edge of a hard load of follower 17 and its load tick, whose latch carries FOLLOWER_STEP
(R61). -/
def epochStep (d : Dev) (e : Nat) : Bool :=
  let x := getFol d 17
  x.step && decide (e * 2 ^ 8 ≤ max (x.base + folStart 17 * x.incOld) (x.load.getD 0))

def measBlock (d : Dev) (n e : Nat) (x : EpochData) : List Byte :=
  let two := decide (antennaCount d.variant = 2)
  let gain (a : Nat) := fld d .gnssAntStatus a GAntSt.agcGainCdb
  let flags := b2n (epochStep d e) + 2 * b2n d.ts.tsh.set + 4 * b2n (flag d .gnssAnt 0 GAnt.enable)
    + 8 * b2n (two && flag d .gnssAnt 1 GAnt.enable)
  leBytes 12 e ++ leBytes 4 n ++ leBytes 8 d.bt ++ leBytes 1 (fld d .gnssDev 0 GDev.epochRate)
    ++ leBytes 1 flags ++ leBytes 2 (chanCount d) ++ leBytes 2 (gain 0) ++ leBytes 2 (if two then gain 1 else 0)
    ++ leBytes 4 (blankPpm d 0 (epochRate d) x.pulses0)
    ++ leBytes 4 (if two then blankPpm d 1 (epochRate d) x.pulses1 else 0) ++ leBytes 24 0
    ++ (List.range (chanCount d)).flatMap fun i => chanEntry d i (x.chans.getD i noMeas)

/-- A latched channel: what its status entry shows, and SLIP given once. -/
def latchChan (x : EpochData) (d : Dev) (i : Nat) : Dev :=
  let c := getChan d i
  if c.state = 0 then d
  else
    let m := x.chans.getD i noMeas
    let shown := c.slip && c.lockBt.isSome
    setChan d i { c with cn0 := m.cn0.toNat, doppler := m.doppler, carrier := carrierPhase c m
                         taps := tapPowers d i m, slipShown := shown, slip := c.slip && !shown }

/-! ### Time solution (R286, R287) -/

/-- A channel used: its index, ephemeris, transmit time of week. -/
structure Used where
  chan : Nat
  eph : Ephemeris
  tx : Rat

/-- The position an antenna's elevations are taken from: the held one, or the mean of its survey so far. -/
def antPosition (d : Dev) (a : Nat) : Option (Int × Int × Int) :=
  let r := getRec d .gnssPos a
  let x := getAnt d a
  if getF r GPos.posState = 2 then some (getS r GPos.xMm, getS r GPos.yMm, getS r GPos.zMm)
  else if x.fixes = 0 then none
  else some (x.sum.1 / x.fixes, x.sum.2.1 / x.fixes, x.sum.2.2 / x.fixes)

/-- The elevation mask admits a satellite. -/
def aboveMask (d : Dev) (e : Ephemeris) (tx : Rat) (pos : Option (Int × Int × Int)) : Bool :=
  match pos with
  | some p => decide ((fld d .gnssDev 0 GDev.elevMaskDeg : Rat) ≤ Config.gnssElevation e.words tx p)
  | none => true

/-- The channels of an antenna that meet R286. -/
def usable (d : Dev) (a : Nat) (x : EpochData) : List Used :=
  (chansOf a).filterMap fun i =>
    let c := getChan d i
    let m := x.chans.getD i noMeas
    match getEph d c.prn with
    | some e =>
      let tx := txTime c m
      if c.frameSync && ephValidAt e tx && healthy d c.prn
          && decide (fld d .gnssDev 0 GDev.cn0MaskDbhz * 100 ≤ m.cn0.toNat) && aboveMask d e tx (antPosition d a) then
        some ⟨i, e, tx⟩
      else none
    | none => none

/-- A solution: the receive time in GPS seconds, the residuals in s, the position it rests on, the channels used and
excluded. -/
structure Solution where
  held : Bool
  time : Rat
  resid : List Rat
  pos : Int × Int × Int
  used : List Used
  excluded : List Nat

/-- The satellite clock correction of an ephemeris at a transmit time (R286), in s: af0, af1 and af2 about toc, the
relativistic term, less TGD, with the scales of IS-GPS-200. -/
def clockCorrection (e : Ephemeris) (tx : Rat) : Rat :=
  let f (word a b : Nat) : Nat := navField (e.words.getD (word - 1) 0) a b
  let t := tx - 16 * (f 8 9 24 : Rat)
  let t := if 302400 < t then t - 604800 else if t < -302400 then t + 604800 else t
  (toInt 22 (f 10 1 22) : Rat) / 2 ^ 31 + (toInt 16 (f 9 9 24) : Rat) / 2 ^ 43 * t
    + (toInt 8 (f 9 1 8) : Rat) / 2 ^ 55 * (t * t) + Config.gnssRelativity e.words tx
    - (toInt 8 (f 7 17 24) : Rat) / 2 ^ 31

/-- The speed of light in m/s. -/
def lightSpeed : Rat := 299792458

/-- The receive time a channel predicts from a position (R286), in GPS seconds. -/
def predicted (d : Dev) (pos : Int × Int × Int) (u : Used) : Rat :=
  gpsSeconds u.eph u.tx + Config.gnssRange u.eph.words u.tx pos / lightSpeed - clockCorrection u.eph u.tx
    + Config.gnssIono d.gnss.iono u.eph.words u.tx pos
    + 247 / 100 / (Config.gnssSin u.eph.words u.tx pos + 121 / 10000) / lightSpeed

/-- The weighted mean of the predictions, and each channel's residual. -/
def timeSolve (d : Dev) (pos : Int × Int × Int) (us : List Used) : Rat × List Rat :=
  let ts := us.map (predicted d pos)
  let ws := us.map fun u => Config.gnssSin u.eph.words u.tx pos ^ 2
  let t := sumRat ((ts.zip ws).map fun e => e.1 * e.2) / sumRat ws
  (t, ts.map (· - t))

/-- One solution of some channels: HELD with the held position, SURVEY_FIX with four channels and PDOP at most 6. -/
def solveOnce (d : Dev) (held : Option (Int × Int × Int)) (us : List Used) (excl : List Nat) : Option Solution :=
  match held with
  | some p => if us.isEmpty then none else
      let (t, r) := timeSolve d p us
      some ⟨true, t, r, p, us, excl⟩
  | none => if us.length < 4 then none else
      let (p, pdop) := Config.gnssFix d.gnss.iono (us.map fun u => (u.eph.words, u.tx))
      if pdop > 6 then none else
      let (t, r) := timeSolve d p us
      some ⟨false, t, r, p, us, excl⟩

/-- The channel with the largest residual. -/
def worst (us : List Used) (rs : List Rat) : Option (Used × Rat) :=
  (us.zip rs).foldl (fun best e => match best with
    | some (u, r) => if |r| < |e.2| then some e else some (u, r)
    | none => some e) none

/-- The solution of an epoch: while five or more channels are used, one whose residual exceeds RAIM_NS is excluded and
the solution repeated, at most twice. -/
def solve (d : Dev) (held : Option (Int × Int × Int)) : Nat → List Used → List Nat → Option Solution
  | 0, us, ex => solveOnce d held us ex
  | fuel + 1, us, ex =>
    match solveOnce d held us ex with
    | none => none
    | some s =>
      match worst us s.resid with
      | some (u, r) =>
        if 5 ≤ us.length ∧ (fld d .gnssDev 0 GDev.raimNs : Rat) < |r| * 10 ^ 9 then
          solve d held fuel (us.filter fun v => v.chan ≠ u.chan) (ex ++ [u.chan])
        else some s
      | none => some s

/-- The TSH-scale instant of a GPS time less an instant in 2^-32 ns, in 2^-16 ns: g of R287. -/
def gError (gps : Rat) (epoch : Nat) : Int :=
  roundFree (((gps + gpsEpoch) * 10 ^ 9 - (epoch : Rat) / 2 ^ 32) * 2 ^ 16)

def residMs (s : Solution) : Rat := meanRat (s.resid.map fun r => r * r)

/-! ### Surveys and the held position (R288, R289) -/

def add3 (a b : Int × Int × Int) : Int × Int × Int := (a.1 + b.1, a.2.1 + b.2.1, a.2.2 + b.2.2)

def sqr3 (a : Int × Int × Int) : Int × Int × Int := (a.1 * a.1, a.2.1 * a.2.1, a.2.2 * a.2.2)

/-- The square of the standard deviation of the mean, over the three axes together; none below two fixes. -/
def surveyVar (x : Antenna) : Option Rat :=
  if x.fixes < 2 then none
  else
    let n : Rat := x.fixes
    let v (s q : Int) : Rat := ((q : Rat) - (s : Rat) * s / n) / (n - 1) / n
    some (v x.sum.1 x.sqr.1 + v x.sum.2.1 x.sqr.2.1 + v x.sum.2.2 x.sqr.2.2)

/-- The position of an antenna is held. -/
def holdPosition (d : Dev) (a : Nat) (p : Int × Int × Int) : Dev :=
  let r := getRec d .gnssPos a
  let r := setS (setS (setS r GPos.xMm p.1) GPos.yMm p.2.1) GPos.zMm p.2.2
  setRec d .gnssPos a (setF (setF r GPos.posState 2) GPos.heldBt d.bt)

/-- Nothing is held or surveyed: a survey starts from zero. -/
def dropSurvey (d : Dev) (a : Nat) : Dev :=
  setAnt d a { getAnt d a with fixes := 0, sum := (0, 0, 0), sqr := (0, 0, 0), seconds := 0, lastSecond := none }

def restartSurvey (d : Dev) (a : Nat) : Dev :=
  let r := getRec d .gnssPos a
  setRec (dropSurvey d a) .gnssPos a (setF (setF (setF r GPos.posState 1) GPos.surveyDoneS 0) GPos.sigmaMm 0)

/-- A SURVEY_FIX joins the survey of its antenna; the mean is held when the survey is long and tight enough. -/
def surveyFix (d : Dev) (a : Nat) (p : Int × Int × Int) (epoch : Nat) : Dev :=
  let x := getAnt d a
  let sec := epoch / (10 ^ 9 * 2 ^ 32)
  let x := { x with fixes := x.fixes + 1, sum := add3 x.sum p, sqr := add3 x.sqr (sqr3 p), lastSecond := some sec
                    seconds := if x.lastSecond = some sec then x.seconds else x.seconds + 1 }
  let d := setAnt d a x
  let v := surveyVar x
  let sigma := match v with | some q => min 65535 (sqrtRound q) | none => 65535
  let r := getRec d .gnssPos a
  let d := setRec d .gnssPos a (setF (setF (setF r GPos.posState 1) GPos.surveyDoneS (min (2 ^ 24 - 1) x.seconds))
    GPos.sigmaMm sigma)
  let lim : Rat := getF r GPos.surveySigmaMm
  let tight : Bool := match v with | some q => decide (q ≤ lim * lim) | none => false
  if getF r GPos.surveyS ≤ x.seconds ∧ tight then
    let mean (s : Int) : Int := roundFree ((s : Rat) / x.fixes)
    holdPosition d a (mean x.sum.1, mean x.sum.2.1, mean x.sum.2.2)
  else d

/-- POSITION_SUSPECT (R289): six channels or more with an RMS above RAIM_NS over 600 s. -/
def suspectCheck (d : Dev) (a epoch : Nat) (s : Option Solution) : Dev :=
  let x := getAnt d a
  let sec := epoch / (10 ^ 9 * 2 ^ 32)
  let bad : Bool := match s with
    | some s => s.held && decide (6 ≤ s.used.length)
        && decide ((fld d .gnssDev 0 GDev.raimNs : Rat) ^ 2 < residMs s * 10 ^ 18)
    | none => false
  if bad then
    let from_ := match x.suspect with | some (b, l) => if sec ≤ l + 1 then b else d.bt | none => d.bt
    let d := setAnt d a { x with suspect := some (from_, sec) }
    if 600 * 10 ^ 9 ≤ (d.bt - from_) * btNs d then startEpisode d (srcId 0x54 a) else d
  else endEpisode (setAnt d a { x with suspect := none }) (srcId 0x54 a)

/-- The time solution record of an epoch (Table GNSS.12). -/
def solutionRecord (d : Dev) (a : Nat) (epoch : Nat) (s : Option Solution) : Nat :=
  let tracked := ((chansOf a).filter (tracking d)).length
  let r := setF (setF 0 GSol.epochBt d.bt) GSol.satsTracked tracked
  match s with
  | none => r
  | some s =>
    let ms := roundFree (s.time * 1000)
    let r := setS r GSol.gErr (satInt 96 (gError s.time epoch))
    let r := setF r GSol.residRmsPs (min (2 ^ 32 - 1) (sqrtRound (residMs s * 10 ^ 24)))
    let r := setF (setF r GSol.satsUsed s.used.length) GSol.satsExcluded s.excluded.length
    let tdop := Config.gnssTdop (s.used.map fun u => (u.eph.words, u.tx)) s.pos
    let r := setF r GSol.tdopX100 (min 65535 (roundFree (tdop * 100)).toNat)
    let r := setF r GSol.fix (if s.held then 2 else 1)
    setF (setF r GSol.week (ms / 604800000 % 4096).toNat) GSol.towMs (ms % 604800000).toNat

/-- The firmware's work on an epoch for one antenna. -/
def solveAntenna (epoch : Nat) (x : EpochData) (d : Dev) (a : Nat) : Dev :=
  if !antRuns d a then d
  else
    let held := if fld d .gnssPos a GPos.posState = 2 then antPosition d a else none
    let s := solve d held 2 (usable d a x) []
    let d := setRec d .gnssSol a (solutionRecord d a epoch s)
    let ex := match s with | some s => s.excluded | none => []
    let d := (chansOf a).foldl (fun d i =>
      let c := getChan d i
      if c.state = 0 then d else setChan d i { c with excluded := ex.contains i }) d
    let d := suspectCheck d a epoch s
    match s with
    | none => d
    | some s =>
      let d := deposit d a (.gnss (gError s.time epoch) s.held) epoch
      if s.held then d else surveyFix d a s.pos epoch

/-! ### Baseline and spoof check (R290–R292) -/

def baseline (d : Dev) : Int × Int × Int :=
  let r := getRec d .gnssBase 0
  (getS r GBl.bxMm, getS r GBl.byMm, getS r GBl.bzMm)

def holdBaseline (d : Dev) (b : Int × Int × Int) : Dev :=
  let r := getRec d .gnssBase 0
  let r := setS (setS (setS r GBl.bxMm b.1) GBl.byMm b.2.1) GBl.bzMm b.2.2
  setRec d .gnssBase 0 (setF (setF r GBl.blState 2) GBl.blHeldBt d.bt)

/-- The baseline survey starts once ANT0's position is held. -/
def startBaseline (d : Dev) : Dev :=
  if d.variant = .f ∧ fld d .gnssBase 0 GBl.blMode = 0 ∧ fld d .gnssBase 0 GBl.blState = 0
      ∧ fld d .gnssPos 0 GPos.posState = 2 then
    setFld { d with gnss := { d.gnss with blFrom := d.bt, blSecond := false } } .gnssBase 0 GBl.blState 1
  else d

/-- What R290 asks of a survey's result: an integer ratio of at least 3, and sigmas of at most 5 mm. -/
def fitGood (b : BaselineFit) : Bool :=
  decide (3 ≤ b.ratio) && decide (b.sigma.1 ≤ 5) && decide (b.sigma.2.1 ≤ 5) && decide (b.sigma.2.2 ≤ 5)

/-- BL_SURVEY_S ends: the baseline is held, or a second run begins, or the survey fails and starts again. -/
def baselineEnd (d : Dev) (b : Option BaselineFit) : Dev :=
  if fld d .gnssBase 0 GBl.blState = 1
      ∧ fld d .gnssBase 0 GBl.blSurveyS * 10 ^ 9 ≤ (d.bt - d.gnss.blFrom) * btNs d then
    match b.filter fitGood with
    | some b => holdBaseline d b.base
    | none =>
      let again := d.gnss.blSecond
      let d := { d with gnss := { d.gnss with blFrom := d.bt, blSecond := !again } }
      if again then raise d (srcId 0x55 0) else d
  else d

/-- The common set of the 1 Hz epoch, elevation apart. -/
def commonPairs (d : Dev) (x : EpochData) : List (Nat × Int × Rat) :=
  (List.range 24).filterMap fun k =>
    let a := getChan d k
    let b := getChan d (k + 24)
    let good (c : Channel) : Bool :=
      decide (c.state = 2) && c.frameSync && decide (10000 ≤ lockMs d c) && !c.slipShown && c.lockBt.isSome
    if good a && good b && decide (a.prn = b.prn) then some (k, b.carrier - a.carrier, txTime a (x.chans.getD k noMeas))
    else none

/-- A value less a whole number of cycles, in (−1/2, 1/2]. -/
def wrapCycle (x : Rat) : Rat := x - (x - 1 / 2).ceil

/-- The single differences of R291 of the pairs above the elevation mask. -/
def singleDiffs (d : Dev) : List Rat :=
  let pos := antPosition d 0
  d.gnss.pairs.filterMap fun e =>
    match getEph d (getChan d e.1).prn, pos with
    | some eph, some p =>
      if aboveMask d eph e.2.2 pos then
        some ((e.2.1 : Rat) / 65536 - Config.gnssProject eph.words e.2.2 p (baseline d))
      else none
    | _, _ => none

/-- The spoof check, once per second (R291, R292). -/
def spoofCheck (d : Dev) : Dev :=
  if d.variant ≠ .f then d
  else
    let r := getRec d .gnssBase 0
    let ds := singleDiffs d
    let d := { d with gnss := { d.gnss with pairs := [] } }
    let st := getF r GBl.spoofState
    if getF r GBl.spoofEn = 0 then
      setRec { d with gnss := { d.gnss with tripRun := 0, clearRun := 0 } } .gnssBase 0 (setF r GBl.spoofState 3)
    else
      let r := setF r GBl.commonSats ds.length
      if getF r GBl.blState ≠ 2 ∨ fld d .gnssPos 0 GPos.posState ≠ 2 ∨ ds.length < 4 then
        setRec d .gnssBase 0 (setF r GBl.spoofState (if st = 2 then 2 else 0))
      else
        let beta := Config.circularMean ds
        let q := meanRat (ds.map fun x => wrapCycle (x - beta) ^ 2)
        let r := setF r GBl.lineBiasMcyc (roundFree ((beta - beta.floor) * 1000) % 1000).toNat
        let r := setF r GBl.residRmsMcyc (min 65535 (sqrtRound (q * 10 ^ 6)))
        let lim : Rat := getF r GBl.spoofRmsMcyc
        let bad := decide (lim * lim < q * 10 ^ 6)
        let trip := if bad then d.gnss.tripRun + 1 else 0
        let clear := if bad then 0 else d.gnss.clearRun + 1
        let d := { d with gnss := { d.gnss with tripRun := trip, clearRun := clear } }
        if st = 2 then
          setRec d .gnssBase 0 (setF r GBl.spoofState (if getF r GBl.spoofClearS ≤ clear then 1 else 2))
        else if getF r GBl.spoofTripS ≤ trip then
          raise (setRec d .gnssBase 0 (bumpF (setF r GBl.spoofState 2) GBl.suspectEvents)) (srcId 0x56 0)
        else setRec d .gnssBase 0 (setF r GBl.spoofState 1)

/-! ### The epoch -/

/-- The firmware's work on a block: solutions, surveys, and the common set of the 1 Hz epoch. -/
def epochWork (d : Dev) (e : Nat) (x : EpochData) : Dev :=
  if !fwRuns d || epochStep d e then d
  else
    let d := [0, 1].foldl (solveAntenna e x) d
    let d := startBaseline d
    if e % (10 ^ 9 * 2 ^ 32) = 0 then { d with gnss := { d.gnss with pairs := commonPairs d x } } else d

/-- A measurement epoch (R283), once in its base tick: the block is written into the ring, and the firmware works on it. -/
def epoch (d : Dev) (x : EpochData) : Dev :=
  if !folTracks d 17 ∨ d.gnss.epochBt = some d.bt then d
  else match epochInstant d with
    | none => d
    | some e =>
      let n := (d.gnss.blocks + 1) % 2 ^ 32
      let l := d.gnss.ring ++ [(n, measBlock d n e x)]
      let d := { d with gnss := { d.gnss with
        ring := l.drop (l.length - 16), blocks := n, epochBt := some d.bt } }
      epochWork ((List.range (chanCount d)).foldl (latchChan x) d) e x

/-! ### Record writes at a whole TSH second (R295) -/

/-- GNSS_POSITION taking effect (R288, R289). -/
def applyPosition (d : Dev) (a v : Nat) : Dev :=
  let r := mergeRw gPosFields (getRec d .gnssPos a) v
  let d := setRec d .gnssPos a r
  if getF r GPos.posMode = 1 then holdPosition d a (getS r GPos.xMm, getS r GPos.yMm, getS r GPos.zMm)
  else restartSurvey d a

/-- GNSS_BASELINE taking effect (R290): a written baseline is held; a change to SURVEY discards what was held. -/
def applyBaseline (d : Dev) (v : Nat) : Dev :=
  let old := getRec d .gnssBase 0
  let r := mergeRw gBlFields old v
  if getF r GBl.blMode = 1 then
    let d := setRec d .gnssBase 0 r
    holdBaseline d (baseline d)
  else if getF old GBl.blMode = 1 then setRec d .gnssBase 0 (setF r GBl.blState 0)
  else
    let keep (f : Fld) (r : Nat) := if getF old GBl.blState = 2 then setF r f (getF old f) else r
    setRec d .gnssBase 0 (keep GBl.bxMm (keep GBl.byMm (keep GBl.bzMm r)))

/-- GNSS_ANTENNA taking effect (R270, R272): a disabled antenna's channels are IDLE, an enabled one is searched. -/
def applyAntenna (d : Dev) (a v : Nat) : Dev :=
  let was := flag d .gnssAnt a GAnt.enable
  let d := setRec d .gnssAnt a (mergeRw gAntFields (getRec d .gnssAnt a) v)
  let on := flag d .gnssAnt a GAnt.enable
  let d := if flag d .gnssAnt a GAnt.notchEn && on then d else clearNotches d a
  if on && !was then searchAll d a false
  else if was && !on then searchAll (dropSearch (idleChans d a) a) a false
  else d

def applyGnss (d : Dev) (w : RecKind × Nat × Nat) : Dev :=
  match w.1 with
  | .gnssAnt => applyAntenna d w.2.1 w.2.2
  | .gnssPos => applyPosition d w.2.1 w.2.2
  | .gnssBase => applyBaseline d w.2.2
  | k => setRec d k w.2.1 (mergeRw k.fields (getRec d k w.2.1) w.2.2)

/-- Every waiting GNSS record write, at a whole TSH second. -/
def gnssSecond (d : Dev) : Dev :=
  let ws := d.gnss.writes
  ws.foldl applyGnss { d with gnss := { d.gnss with writes := [] } }

def atSecond (k : RecKind) (d : Dev) (i v : Nat) : Dev :=
  { d with gnss := { d.gnss with writes := d.gnss.writes ++ [(k, i, v)] } }

/-! ### Resets (Table GNSS.4) -/

/-- Channels IDLE on both antennas. -/
def gnssIdle (d : Dev) : Dev := idleChans (idleChans d 0) 1

/-- The GNSS domain is reset: channels IDLE, the ring cleared, SEQUENCE 0; enabled antennas search again. -/
def gnssDomainReset (d : Dev) : Dev :=
  let d := gnssIdle d
  let d := { d with gnss := { d.gnss with ring := [], blocks := 0, pairs := [], acq := none, epochBt := none } }
  [0, 1].foldl (fun d a => searchAll (clearNotches d a) a false) d

/-- A search in progress whose firmware has gone is made again. -/
def searchLost (d : Dev) : Dev :=
  match d.gnss.acq with
  | some r => wantPrns { d with gnss := { d.gnss with acq := none } } r.ant (r.prns.map fun p => (p.1, false))
  | none => d

/-- Management memory is cleared: ephemerides, decodes and survey progress are lost. -/
def gnssMemoryLost (d : Dev) : Dev :=
  let d := searchLost d
  let d := { d with gnss := { d.gnss with eph := [], parts := [], alm := [], iono := 0, pairs := [], tripRun := 0, clearRun := 0
                                          blFrom := d.bt, blSecond := false }
                    leap := { d.leap with gpsSeen := [] } }
  [0, 1].foldl (fun d a =>
    let d := setAnt d a { getAnt d a with suspect := none }
    setRec (if fld d .gnssPos a GPos.posState = 1 then restartSurvey d a else dropSurvey d a) .gnssSol a 0) d

/-- The GNSS PLL has lost lock. -/
def gnssPllLost (d : Dev) : Dev := [0, 1].foldl (fun d a => searchAll (dropSearch d a) a false) (gnssIdle d)

/-! ### Commands (Table GNSS.3) -/

def gnssConfigCmd : Cmd :=
  RecSpec.cmd { kind := .gnssDev, ib := 0, index := fun _ => 0, image := plainImage .gnssDev, apply := atSecond .gnssDev }
    0x1300 [.c, .p] [.c]

def antIdx (p : List Byte) : Bool := idxBelow 2 p

def gnssAntennaCmd : Cmd :=
  RecSpec.cmd { kind := .gnssAnt, ib := 1, inSet := antIdx, present := antPresent, image := plainImage .gnssAnt
                apply := atSecond .gnssAnt } 0x1301 [.c, .p] [.c]

/-- The antenna status record as read (Table GNSS.8). -/
def antStatus (d : Dev) (a : Nat) : Nat :=
  let r := getRec d .gnssAntStatus a
  let r := setF r GAntSt.chTracking ((chansOf a).filter (tracking d)).length
  let r := setF r GAntSt.chFrameSync ((chansOf a).filter fun i => (getChan d i).frameSync).length
  setF r GAntSt.searching (b2n (searching d a))

def oneAntenna (all : Bool) : Ctx → List Byte → Dev → Option Status := fun _ p d =>
  let a := rdLe p 0 1
  if p.length ≠ 4 then some .badLength
  else if all ∧ a = 0xFF then none
  else if 2 ≤ a then some .badLength
  else if !antPresent d a then some .notPresent else none

def gnssStatusCmd : Cmd :=
  { op := 0x1302, readBy := [.c, .p], check := oneAntenna true
    body := fun _ p d =>
      let a := rdLe p 0 1
      .done .ok ((if a = 0xFF then [0, 1].filter (antPresent d) else [a]).flatMap fun a => leBytes 32 (antStatus d a)) [] d }

/-- The time of week in s by which a channel's ephemeris is judged (R281): that of its signal, or TSH's. -/
def ephTow (d : Dev) (x : Channel) : Option Rat :=
  if x.frameSync then some (6 * x.tow) else if d.ts.tsh.set then some ((((tshSec d : Int) - gpsEpoch) % weekSec : Int) : Rat) else none

/-- A channel status entry (Table GNSS.9). -/
def chanStatus (d : Dev) (i : Nat) : Nat :=
  let x := getChan d i
  let r := getRec d .gnssChan i
  let r := setF (setF r GCh.prn x.prn) GCh.cstate x.state
  let r := setF (setF (setF (setF r GCh.codeLock (b2n x.codeLock)) GCh.carrierLock (b2n x.lockBt.isSome))
    GCh.bitSync (b2n x.bitSync)) GCh.frameSync (b2n x.frameSync)
  let eph : Bool := match getEph d x.prn, ephTow d x with | some e, some t => ephValidAt e t | _, _ => false
  let r := setF (setF (setF r GCh.excluded (b2n x.excluded)) GCh.unhealthy (b2n (decide (x.prn ≠ 0) && !healthy d x.prn)))
    GCh.ephValid (b2n (decide (x.prn ≠ 0) && eph))
  setF (setF (setF r GCh.cn0Cdbhz x.cn0) GCh.dopplerMillihz (ofInt 32 x.doppler)) GCh.lockMs (lockMs d x)

def gnssChannelsCmd : Cmd :=
  { op := 0x1303, readBy := [.c, .p], check := oneAntenna false
    body := fun _ p d =>
      let is := chansOf (rdLe p 0 1)
      .done .ok (is.flatMap fun i => leBytes 16 (chanStatus d i)) [] (is.foldl (fun d i => readClear d .gnssChan i) d) }

def gnssMeasCmd : Cmd :=
  { op := 0x1304, readBy := [.c, .p], check := lens [4]
    body := fun _ p d =>
      let n := rdLe p 0 4
      let b := if n = 0xFFFFFFFF then d.gnss.ring.getLast? else d.gnss.ring.find? fun e => e.1 = n
      match b with
      | some e => .done .ok e.2 [] d
      | none => .done .state [] [] d }

/-- A position is held only within 6,300,000,000–6,400,000,000 mm of the Earth's centre (R289). -/
def positionDep (req : Nat) : Dep := fun f _ v =>
  let x := getS req GPos.xMm
  let y := getS req GPos.yMm
  let z := getS req GPos.zMm
  let q := x * x + y * y + z * z
  if f = GPos.posMode ∧ v = 1 ∧ (q < 6300000000 ^ 2 ∨ 6400000000 ^ 2 < q) then some (0, .dependent) else none

/-- A baseline is held only at a length of 300–50,000 mm (R290). -/
def baselineDep (req : Nat) : Dep := fun f _ v =>
  let x := getS req GBl.bxMm
  let y := getS req GBl.byMm
  let z := getS req GBl.bzMm
  let q := x * x + y * y + z * z
  if f = GBl.blMode ∧ v = 1 ∧ (q < 300 ^ 2 ∨ 50000 ^ 2 < q) then some (0, .dependent) else none

/-- A command with an operation code at an offset (Table CMD.14): 0 read, 1 write, 2 RESURVEY. -/
def surveyCmd (op off : Nat) (k : RecKind) (index : List Byte → Nat) (present : Dev → Nat → Bool) (dep : Nat → Dep)
    (resurvey : Dev → Nat → Dev) : Cmd :=
  { op := op, readBy := [.c, .p], writeBy := [.c], writeCls := .live, isWrite := fun p => decide (rdLe p off 1 ≠ 0)
    check := fun _ p d =>
      let o := rdLe p off 1
      if 2 < o ∨ 2 ≤ index p ∨ p.length ≠ (if o = 1 then 4 + k.bytes else 4) then some .badLength
      else if !present d (index p) then some .notPresent else none
    body := fun _ p d =>
      let i := index p
      match rdLe p off 1 with
      | 0 => readReply k (getRec d k i) (readClear d k i)
      | 1 =>
        let req := rdLe p 4 k.bytes
        let (v, es) := clampRecord k.fields (dep req) 0 (getRec d k i) req
        .done .ok (recBytes k (mergeRw k.fields (getRec d k i) v)) es (atSecond k d i v)
      | _ =>
        let d := resurvey d i
        .done .ok (recBytes k (getRec d k i)) [] d }

def gnssPositionCmd : Cmd :=
  surveyCmd 0x1305 1 .gnssPos (fun p => rdLe p 0 1) antPresent positionDep fun d a =>
    restartSurvey (setFld d .gnssPos a GPos.posMode 0) a

def gnssBaselineCmd : Cmd :=
  surveyCmd 0x1306 0 .gnssBase (fun _ => 0) (fun d _ => decide (d.variant = .f)) baselineDep fun d _ =>
    startBaseline (setFld (setFld d .gnssBase 0 GBl.blMode 0) .gnssBase 0 GBl.blState 0)

def gnssSolutionCmd : Cmd :=
  { op := 0x1307, readBy := [.c, .p], check := oneAntenna false
    body := fun _ p d => .done .ok (recBytes .gnssSol (getRec d .gnssSol (rdLe p 0 1))) [] d }

/-- The last five subframes of a channel, oldest first, then the tap powers of its latest epoch. -/
def subframeBytes (x : Channel) : List Byte :=
  let word (l : List Nat) (n : Nat) : List Byte := leBytes 4 (l.getD n 0)
  let subs := (List.range 5).flatMap fun s =>
    (List.range 10).flatMap (word (if s < 5 - x.subframes.length then [] else x.subframes.getD (4 - s) []))
  subs ++ (List.range 9).flatMap (word x.taps)

def gnssSubframesCmd : Cmd :=
  { op := 0x1308, readBy := [.c]
    check := fun _ p d =>
      if p.length ≠ 4 ∨ 48 ≤ rdLe p 0 1 then some .badLength
      else if !antPresent d (rdLe p 0 1 / 24) then some .notPresent else none
    body := fun _ p d => .done .ok (subframeBytes (getChan d (rdLe p 0 1))) [] d }

/-- Every channel of the antenna IDLE and a cold search started. -/
def gnssRestartCmd : Cmd :=
  { op := 0x1309, writeBy := [.c], writeCls := .live, isWrite := fun _ => true, check := oneAntenna false
    body := fun _ p d =>
      let a := rdLe p 0 1
      .done .ok (btPayload d.bt) [] (searchAll (dropSearch (idleChans d a) a) a true) }

def execGnssConfig (m : Msg) (s : State) : Host.Outcome State Fault Refusal := mailbox gnssConfigCmd m s
def execGnssAntenna (m : Msg) (s : State) : Host.Outcome State Fault Refusal := mailbox gnssAntennaCmd m s
def execGnssStatus (m : Msg) (s : State) : Host.Outcome State Fault Refusal := mailbox gnssStatusCmd m s
def execGnssChannels (m : Msg) (s : State) : Host.Outcome State Fault Refusal := mailbox gnssChannelsCmd m s
def execGnssMeas (m : Msg) (s : State) : Host.Outcome State Fault Refusal := mailbox gnssMeasCmd m s
def execGnssPosition (m : Msg) (s : State) : Host.Outcome State Fault Refusal := mailbox gnssPositionCmd m s
def execGnssPositionResurvey (m : Msg) (s : State) : Host.Outcome State Fault Refusal :=
  mailbox gnssPositionCmd (withByte 1 2 m) s
def execGnssBaseline (m : Msg) (s : State) : Host.Outcome State Fault Refusal := mailbox gnssBaselineCmd m s
def execGnssBaselineResurvey (m : Msg) (s : State) : Host.Outcome State Fault Refusal :=
  mailbox gnssBaselineCmd (withByte 0 2 m) s
def execGnssSolution (m : Msg) (s : State) : Host.Outcome State Fault Refusal := mailbox gnssSolutionCmd m s
def execGnssSubframes (m : Msg) (s : State) : Host.Outcome State Fault Refusal := mailbox gnssSubframesCmd m s
def execGnssRestart (m : Msg) (s : State) : Host.Outcome State Fault Refusal := mailbox gnssRestartCmd m s

def execGnssEpoch (e : EpochData) (s : State) : Host.Outcome State Fault Refusal := onGnss s fun d => epoch d e

def execBaselineSurveyEnd (b : Option BaselineFit) (s : State) : Host.Outcome State Fault Refusal :=
  onGnss s fun d => if fwRuns d then baselineEnd d b else d

end Sys2Proof.Machine
end

