-- ==== Sys2Proof/Machine/Clients.lean ====
section
/-! DEFINITION. The client table (R183–R188) and the response quota (R324). -/

namespace Sys2Proof.Machine

open Sys2Proof

/-! ### Entries (Table NTP.5) -/

def entValid (e : Nat) : Bool := bit e 0

def entKod (e : Nat) : Bool := bit e 1

def entTick (e : Nat) : Nat := getF e ⟨23, 2⟩

def entScore (e : Nat) : Nat := getF e ⟨47, 24⟩

def entPrint (e : Nat) : Nat := getF e ⟨63, 48⟩

def mkEntry (fp score tick : Nat) (kod : Bool) : Nat := fp * 2 ^ 48 + score * 2 ^ 24 + tick * 4 + b2n kod * 2 + 1

def ctEntry (d : Dev) (i : Nat) : Nat := Tab.get 0 d.ct.entries i

def setEntry (d : Dev) (i v : Nat) : Dev := { d with ct := { d.ct with entries := Tab.set 0 d.ct.entries i v } }

/-- The current coarse tick, modulo 2^22. -/
def coarseTick (d : Dev) : Nat := d.bt / 16384 % 2 ^ 22

/-- A leak per coarse tick for a rate in milli-requests per second. -/
def leakOf (d : Dev) (mrps : Nat) : Nat :=
  max 1 (roundHalf ((mrps * 65536 * 16384 * btNs d : Nat) / (10 ^ 12 : Nat) : Rat)).toNat

def sweepLeak (d : Dev) : Nat := leakOf d (fld d .cls 0 Cls.sweepMrps)

/-- An entry's score decayed to the current coarse tick. -/
def decayed (d : Dev) (e leak : Nat) : Nat := entScore e - (coarseTick d + 2 ^ 22 - entTick e) % 2 ^ 22 * leak

/-- An address with the bits beyond a prefix length cleared. -/
def prefixOf (w addr len : Nat) : Nat := addr / 2 ^ (w - len) * 2 ^ (w - len)

/-- The hash of the client key of a source address (R184), by the records of a tenant. -/
def clientHash (d : Dev) (t : Nat) (v6 : Bool) (src : Nat) : Nat :=
  let r := getRec d .ntp t
  let a := if v6 then prefixOf 128 src (getF r Ntp.v6PrefixLen) else prefixOf 32 src (getF r Ntp.v4PrefixLen)
  sipHash d.ct.key (Config.clientKeyBytes t (getF r Ntp.tenantGen) v6 a)

/-! ### The update (R185, R186) -/

/-- The way a client takes: its own, else the lowest invalid one, else the one of the lowest decayed score; with whether
it is new and whether a valid entry is overwritten. -/
def chooseWay (d : Dev) (bucket fp : Nat) : Nat × Bool × Bool :=
  let ways := (List.range 4).map fun w => (w, ctEntry d (4 * bucket + w))
  match ways.find? fun e => entValid e.2 && decide (entPrint e.2 = fp) with
  | some e => (e.1, false, false)
  | none => match ways.find? fun e => !entValid e.2 with
    | some e => (e.1, true, false)
    | none =>
      let leak := sweepLeak d
      let best := ways.foldl (fun (b : Nat × Nat) e => if decayed d e.2 leak < b.2 then (e.1, decayed d e.2 leak) else b)
        (0, decayed d (ctEntry d (4 * bucket)) leak)
      (best.1, true, true)

/-- One request against the client table, by its tenant's NTP record: over its limit, to be told by a RATE Kiss-o'-Death,
and the device. -/
def clientUpdate (d : Dev) (r h access : Nat) : Bool × Bool × Dev :=
  let bucket := h % 2 ^ 20
  let fp := h / 2 ^ 20 % 2 ^ 16
  let (w, isNew, evict) := chooseWay d bucket fp
  let i := 4 * bucket + w
  let e := if isNew then mkEntry fp 0 (coarseTick d) false else ctEntry d i
  let d := if isNew then bumpFld d .ct 0 Ct.inserts else d
  let d := if evict then bumpFld d .ct 0 Ct.evictions else d
  let s := min (decayed d e (leakOf d (getF r Ntp.sustainMrps)) + 65536) 0xFFFFFF
  let isOver := decide (getF r Ntp.burst * 65536 < s)
  let sent := isOver && entKod e
  let kod := isOver && decide (getF r Ntp.rateAction = 0) && !sent && decide (access = 0)
  (isOver, kod, setEntry d i (mkEntry fp s (coarseTick d) (sent || kod)))

/-! ### Sweeps (R187) -/

/-- The sweeper at its next bucket, one each coarse tick. -/
def sweepBucket (d : Dev) : Dev :=
  if d.ct.retainedFrom.isSome ∨ d.bt / 16384 ≤ d.ct.sweepAt then d
  else
    let b := d.ct.sweep
    let leak := sweepLeak d
    let d := (List.range 4).foldl (fun d w =>
      let i := 4 * b + w
      let e := ctEntry d i
      if !entValid e then d
      else
        let s := decayed d e leak
        if s = 0 then bumpFld (setEntry d i 0) .ct 0 Ct.sweepFreed
        else setEntry d i (mkEntry (entPrint e) s (coarseTick d) (entKod e))) d
    { d with ct := { d.ct with sweep := (b + 1) % 2 ^ 20, sweepAt := d.bt / 16384 } }

/-! ### The response quota (R324) -/

def getBucket (d : Dev) (t : Nat) : Bucket := Tab.get ⟨0, 0⟩ d.host.buckets t

def setBucket (d : Dev) (t : Nat) (b : Bucket) : Dev :=
  { d with host := { d.host with buckets := Tab.set ⟨0, 0⟩ d.host.buckets t b } }

def quotaRefill (d : Dev) (t : Nat) : Nat :=
  max 1 (roundHalf ((fld d .tenant t Ten.quotaRate * btNs d * 2 ^ 32 : Nat) / (10 ^ 9 : Nat) : Rat)).toNat

/-- The bucket set full (at bind, and when the service tables are rebuilt). -/
def fillBucket (d : Dev) (t : Nat) : Dev := setBucket d t ⟨fld d .tenant t Ten.quotaBurst * 2 ^ 32, d.bt⟩

/-- One draw from the quota of a tenant. -/
def quotaDraw (d : Dev) (t : Nat) : Bool × Dev :=
  if !flag d .tenant t Ten.quotaEn then (true, d)
  else
    let b := getBucket d t
    let level := min (b.level + (d.bt - b.lastBt) * quotaRefill d t) (fld d .tenant t Ten.quotaBurst * 2 ^ 32)
    if level < 2 ^ 32 then (false, setBucket d t ⟨level, d.bt⟩) else (true, setBucket d t ⟨level - 2 ^ 32, d.bt⟩)

/-! ### Commands and events -/

/-- The client table record as read. -/
def ctImage (d : Dev) : Nat :=
  setF (getRec d .ct 0) Ct.entriesUsed ((d.ct.entries.filter fun e => entValid e.2).length)

def ctStatusCmd : Cmd :=
  { op := 0x3104, readBy := [.c, .p], check := lens [0]
    body := fun _ _ d => readReply .ct (ctImage d) (readClear d .ct 0) }

/-- CT_FLUSH clears the client table and the grant table (R188, R235). -/
def ctFlushCmd : Cmd :=
  { op := 0x3105, writeBy := [.c], isWrite := fun _ => true, writeCls := .live, check := lens [0]
    body := fun _ _ d =>
      let d := clearClients d
      .done .ok (leBytes 8 d.bt) [] { d with ptp := { d.ptp with grants := [] } } }

def execCtStatus (m : Msg) (s : State) : Host.Outcome State Fault Refusal := mailbox ctStatusCmd m s
def execCtFlush (m : Msg) (s : State) : Host.Outcome State Fault Refusal := mailbox ctFlushCmd m s

def execCtSweep (s : State) : Host.Outcome State Fault Refusal := onPath s sweepBucket

def execCtRetentionExit (s : State) : Host.Outcome State Fault Refusal := whenOn s retentionExit

end Sys2Proof.Machine
end

