-- ==== Sys2Proof/Machine/Ports.lean ====
section
/-! DEFINITION. Ethernet ports (04_ethernet_ports.md, 05_timestamps_and_launch.md): octet modes, link events, pauses, the
MAC's choice of the next frame, stamps and insertion, scheduled departure, beacons, and the PORT, STAMP and SHIM
commands. -/

namespace Sys2Proof.Machine

open Sys2Proof

/-! ### Stamps (R116, R119, R126) -/

/-- The octet's SerDes PLL runs, which clocks the MAC, PCS and FEC of its ports (R17). -/
def serdesUp (d : Dev) (p : Nat) : Bool := bit d.pwr.plls (3 + p / 8)

/-- A port's shim record as in effect at the base tick a value belongs to (R116, R119). -/
def shimOf (d : Dev) (p s : Nat) : Nat :=
  match tickOf d s with
  | some t => ((t.shims.find? fun e => decide (e.1 = p)).map (·.2)).getD (resetRec d.variant .shim p)
  | none => getRec d .shim p

/-- A lane trim of a shim record in ps. -/
def lanePs (r : Nat) (f : Fld) (l : Nat) : Int := toInt 16 (getF r f / 2 ^ (16 * l))

/-- A sum of an instant and terms whose rounding the spec does not give, as an instant of TSH. -/
def stampOf (base : Nat) (terms : Rat) : Nat := (roundFree ((base : Rat) + terms)).toNat % 2 ^ 96

/-- T_sym of R116 in ps: 53.125 Gb/s PAM4, two bits a symbol, or the NRZ rates of Table PORT.1. -/
def symbolPs (d : Dev) (p : Nat) : Rat :=
  match octMode d p with | 5 => 1000 / (25.78125 : Rat) | 6 => 1000 / (10.3125 : Rat) | _ => 2000 / (53.125 : Rat)

/-- s_rx (R116). The shims are those of the base tick to which the uncorrected stamp belongs. -/
def rxStamp (d : Dev) (f : RxFrame) : Nat :=
  let p := f.port.val
  let a := latched d p f.word
  let fixed := (f.symbol : Rat) * symbolPs d p - Config.dRx (octMode d p) f.lane.val
  let r := shimOf d p (stampOf a (ps32 fixed))
  stampOf a (ps32 (fixed + lanePs r Shm.rxLaneTrimPs f.lane.val) + (getS r Shm.rxShim : Rat) * 2 ^ 16)

/-- s_tx of a frame whose first block passes the insertion point there (R119). The shims are those of the base tick to
which F_ins belongs. -/
def txStamp (d : Dev) (p : Nat) (a : LocalAt) (l : Nat) : Nat :=
  let f := latched d p a
  let r := shimOf d p f
  stampOf f (ps32 ((dTxPs d p : Rat) + lanePs r Shm.txLaneTrimPs l + Config.dLane (octMode d p) l)
    + (getS r Shm.txShim : Rat) * 2 ^ 16)

/-! ### Insertion (R124, R125) -/

/-- The UDP header a frame carries, by its parse under the port's OUTER_TPID (R101, R125). -/
def udpAt (d : Dev) (p : Nat) (bs : List Byte) : Option Nat :=
  let q := parseFrame (fld d .port p Prt.outerTpid) bs
  if q.l4Type = 1 ∧ q.frag = false ∧ (q.l3Type = 1 ∨ q.l3Type = 2) then some q.l4 else none

/-- Zeros up to 60 bytes (R105). -/
def padFrame (bs : List Byte) : List Byte := bs ++ List.replicate (60 - bs.length) 0

/-- The bytes that leave: checksums computed, then the insertion written and the UDP checksum repaired (R105, R124,
R125). The stamp is converted under the parameters of its base tick (R63); one that lies beyond the latest edge is
converted under those of the latest (assumption log 74). -/
def finalBytes (d : Dev) (p : Nat) (f : TxFrame) (s : Nat) : List Byte :=
  let bs := padFrame (computeSums f.bytes f.csumIp4 f.csumL4 f.l3 f.l4)
  match f.insert with
  | .none => bs
  | .ntpT3 => insertRepair bs f.insertOff (beBytes 8 (ntpStamp (viewValue (atStamp d s) f.view s))) (udpAt d p bs)
  | .oneStep =>
    let (sec, ns, sub) := ptpStamp (viewBase (atStamp d s) f.view s).toNat
    let bs := insertRepair bs (f.insertOff + 34) (beBytes 6 sec ++ beBytes 4 ns) (udpAt d p bs)
    insertRepair bs (f.insertOff + 8) (beBytes 8 ((rdBe bs (f.insertOff + 8) 8 + sub) % 2 ^ 64)) (udpAt d p bs)

/-- The bytes of the frame being sent. -/
def curBytes (d : Dev) (p : Nat) (c : TxCurrent) : List Byte := finalBytes d p c.frame (c.stamp.getD 0)

/-! ### Link events (R91, R92, R480) -/

/-- The lanes of a port as bits of its octet. -/
def laneBits (d : Dev) (p : Nat) : Nat := (2 ^ portLanes d p - 1) * 2 ^ (p % 8)

/-- Auto-negotiation or training runs on the port (R86). -/
def trains (d : Dev) (p : Nat) : Bool :=
  let o := getRec d .octet (p / 8)
  decide (getF o Oct.mode = 1 ∨ getF o Oct.mode = 2) && decide (getF o Oct.anEnable = 1 ∨ getF o Oct.ltEnable = 1)

/-- LINK_STATE of a port whose link begins again. -/
def startState (d : Dev) (p : Nat) : Nat := if !portStarts d p then 0 else if trains d p then 2 else 1

def clearLocks (d : Dev) (p : Nat) : Dev :=
  setFld (setFld (setFld d .portStatus p PrtSt.laneLock 0) .portStatus p PrtSt.alignLock 0) .portStatus p PrtSt.fecLock 0

/-- The port begins or ends sending Remote Fault (R87, R91). -/
def sendFault (d : Dev) (p : Nat) (on : Bool) : Dev :=
  let x := getPort d p
  if x.sendsFault = on then d else emit (setPort d p { x with sendsFault := on }) (.remoteFault p on)

/-- The link of a port begins again: without locks, it sends Remote Fault while it exists (R87). -/
def linkBegins (d : Dev) (p : Nat) : Dev := sendFault (setLink d p (startState d p)) p (portStarts d p)

/-- A frame in progress on transmit is truncated, at a point the spec leaves open, and ended with an error code (R89); a
host's descriptor is written back as FLUSHED, also at a PORT_RESTART, for which Table STAMP.6 names no code of a frame
cut in progress (DESIGN CHOICE, assumption log 78). -/
def truncateTx (d : Dev) (p : Nat) : Dev :=
  let x := getPort d p
  match x.cur with
  | some c =>
    let bs := curBytes d p c
    let (n, d) := drawUpTo d (bs.length - 1)
    lostHost (emit (setPort d p { x with cur := none }) (.cutFrame p (bs.take n))) c.frame.who .flushed
  | none => d

/-- A frame in progress on receive ends as a fragment: its space is freed, its stamp never delivered (R97). -/
def endRx (d : Dev) (p : Nat) : Dev :=
  let x := getPort d p
  if x.rxCur.isSome then bumpPort (setPort d p { x with rxCur := none }) p 7 else d

/-- A port restarts its paths under a cause of loss for its queues (R89, R480): the frames in progress are ended, the
queues are flushed, the locks are given up. -/
def restartPaths (d : Dev) (p : Nat) (l : TxLoss) : Dev :=
  let d := flushQueues (truncateTx (endRx d p) p) p l
  let x := getPort d p
  clearLocks (setPort d p { x with lossFrom := none, remoteFrom := none }) p

/-- PORT_RESTART at its edge (R480). -/
def applyPortRestart (d : Dev) (p : Nat) (f : Fn) (door : Nat) : Dev :=
  let up := linkUp d p
  let d := if up then setFld d .portStatus p PrtSt.linkDownBt d.bt else d
  let d := if up then restartPaths d p .linkDown else restartPaths d p .flushed
  let d := linkBegins d p
  complete d f door .ok (padTo 4 (leBytes 1 (linkState d p))) []

/-- An octet record at its edge (R89): a change ends the frames, queues and links of the ports of the old mode. -/
def applyOctet (d : Dev) (o v : Nat) : Dev :=
  let old := getRec d .octet o
  let new := mergeRw octFields old v
  if new = old then d
  else
    let before := (portList d).filter fun p => p / 8 = o
    let d := before.foldl (fun d p => restartPaths d p .modeChange) d
    let d := setRec d .octet o (setF new Oct.appliedBt d.bt)
    ((List.range 8).map (8 * o + ·)).foldl linkBegins d

/-- Lock loss on lanes of a port (R91, R97): each lane that lost CDR lock raises CDR_LOSS; the frame in progress on
receive is a fragment; Remote Fault is sent. -/
def lockLoss (d : Dev) (p lanes cdr : Nat) (inFrame : Bool) : Dev :=
  let mine := lanes &&& laneBits d p
  if !portStarts d p ∨ mine = 0 then d
  else
    let inFrame := inFrame || (getPort d p).rxCur.isSome
    let d := setPort d p { getPort d p with rxCur := none }
    let d := if inFrame ∧ linkUp d p then bumpPort d p 7 else d
    let d := (List.range 8).foldl (fun d l =>
      if bit (mine &&& cdr) l then raise d (srcId 0x30 (p / 8 * 8 + l)) else d) d
    let locks := fld d .portStatus p PrtSt.laneLock
    let d := setFld d .portStatus p PrtSt.laneLock (locks - (locks &&& mine))
    let d := setFld (setFld d .portStatus p PrtSt.alignLock 0) .portStatus p PrtSt.fecLock 0
    let x := getPort d p
    let d := if x.lossFrom.isNone then setPort d p { x with lossFrom := some d.bt } else d
    let d := sendFault d p true
    if linkState d p = 4 then setLink d p 1 else d

/-- Base ticks since the lock loss or the received Remote Fault in progress began. -/
def faultSpan (d : Dev) (p : Nat) : Option Nat :=
  let x := getPort d p
  match x.lossFrom, x.remoteFrom with
  | some a, some b => some (d.bt - min a b)
  | some a, none => some (d.bt - a)
  | none, some b => some (d.bt - b)
  | none, none => none

/-- The port's mode uses RS-FEC (R87). -/
def usesFec (d : Dev) (p : Nat) : Bool := decide (1 ≤ octMode d p) && decide (octMode d p ≤ 4)

/-- The locks of a port that is locked, aligned and deskewed; Remote Fault is no longer sent. -/
def setLocks (d : Dev) (p : Nat) : Dev :=
  let d := setPort d p { getPort d p with lossFrom := none }
  sendFault (setFld (setFld (setFld d .portStatus p PrtSt.laneLock (laneBits d p)) .portStatus p PrtSt.alignLock 1)
    .portStatus p PrtSt.fecLock (b2n (usesFec d p))) p false

/-- A lock with no fault signalled, and the lane skew measured at it (R93). -/
def fullLock (d : Dev) (p : Nat) (skew : List Int) : Dev :=
  let d := setLocks d p
  setPort d p { getPort d p with remoteFrom := none, skew := skew }

/-- A loss that ends within LINK_DOWN_DELAY_US (R91). -/
def shortLossEnd (d : Dev) (p : Nat) (skew : List Int) : Dev :=
  match faultSpan d p with
  | none => d
  | some n =>
    if linkUp d p ∧ serdesUp d p ∧ n * btNs d ≤ fld d .port p Prt.linkDownDelayUs * 1000 + btNs d then
      fullLock (bumpPort d p 19) p skew
    else d

/-- A loss that has lasted LINK_DOWN_DELAY_US (R91, R92). -/
def linkDownDelay (d : Dev) (p : Nat) : Dev :=
  match faultSpan d p with
  | none => d
  | some n =>
    if linkUp d p ∧ fld d .port p Prt.linkDownDelayUs * 1000 ≤ (n + 1) * btNs d then
      let x := getPort d p
      let d := setFld d .portStatus p PrtSt.linkDownBt d.bt
      let d := bumpPort d p 44
      let d := raise d (srcId 0x31 p)
      let d := setLink d p (if x.lossFrom.isSome then 1 else 4)
      flushQueues d p .linkDown
    else d

/-- Lanes locked, aligned and deskewed, FEC locked, no fault signalled (R91). -/
def linkComesUp (d : Dev) (p : Nat) (skew : List Int) : Dev :=
  if !portStarts d p ∨ !serdesUp d p ∨ linkUp d p then d
  else setLink (setFld (fullLock d p skew) .portStatus p PrtSt.linkUpBt d.bt) p 3

/-- The link partner signals Remote Fault (R91), which the receive path sees only while it is locked: a lock loss has
then ended, in an UP link within LINK_DOWN_DELAY_US. -/
def remoteFault (d : Dev) (p : Nat) : Dev :=
  if !portStarts d p ∨ !serdesUp d p then d
  else
    let x := getPort d p
    if linkUp d p then
      let d := if x.lossFrom.isSome then bumpPort d p 19 else d
      let d := setLocks d p
      setPort d p { getPort d p with remoteFrom := some (x.remoteFrom.getD d.bt) }
    else setLink (setLocks d p) p 4

/-- A change of lane skew at an alignment marker without loss of alignment lock (R117): applied, and counted. -/
def skewChange (d : Dev) (p : Nat) (skew : List Int) : Dev :=
  let x := getPort d p
  if fld d .portStatus p PrtSt.alignLock = 0 ∨ x.lossFrom.isSome ∨ x.skew = skew then d
  else bumpLaunch (setPort d p { x with skew := skew }) p 13

/-! ### Pause (R106–R108) -/

/-- 512 bit times (Table PORT.5). -/
def quantumPs (d : Dev) (p : Nat) : Nat := 64 * bytePs d p

/-- The time during which any queue was paused, added up to now: whole base ticks, and a free part of those at its
ends. -/
def pauseSettle (d : Dev) (p : Nat) (goesOn : Bool) : Dev :=
  let x := getPort d p
  match x.anyPausedFrom with
  | none => d
  | some n =>
    let (v, d) := drawUpTo d (2 * btNs d)
    let d := bumpPort d p 42 ((d.bt - n) * btNs d + v - btNs d)
    setPort d p { x with anyPausedFrom := if goesOn then some d.bt else none }

def setPaused (d : Dev) (p m : Nat) : Dev :=
  let old := fld d .portStatus p PrtSt.paused
  let d := setFld d .portStatus p PrtSt.paused m
  let x := getPort d p
  if old = 0 ∧ m ≠ 0 then setPort d p { x with anyPausedFrom := some d.bt }
  else if old ≠ 0 ∧ m = 0 then pauseSettle d p false else d

/-- The queues of a pause class: all eight in PAUSE mode. -/
def classQueues (d : Dev) (p c : Nat) : Nat := if fld d .port p Prt.flowMode = 1 then 0xFF else 2 ^ c

def pauseOf (d : Dev) (p c : Nat) : Option Pause := Tab.get none (getPort d p).paused c

/-- A class paused or released; PAUSED shows every queue that a paused class holds. -/
def setPause (d : Dev) (p c : Nat) (x : Option Pause) : Dev :=
  let y := getPort d p
  let t := Tab.set none y.paused c x
  setPaused (setPort d p { y with paused := t }) p
    (t.foldl (fun m e => match e.2 with | some z => m ||| z.mask | none => m) 0)

/-- A pause time obeyed for a class: whether a queue was affected, and the device after it. The time runs from an instant
of the current base tick; the queues are those of the mode in effect, which a later change of FLOW_MODE does not free
(DESIGN CHOICE, assumption log 78). -/
def pauseClass (d : Dev) (p c quanta : Nat) : Bool × Dev :=
  if bit (fld d .portStatus p PrtSt.wdHoldoff) c then (false, d)
  else if quanta = 0 then
    if (pauseOf d p c).isSome then (true, setPause (traceMac d 3 p 0 c 0 0) p c none) else (false, d)
  else
    let d := traceMac d 3 p 0 c 0 quanta
    let (v, d) := drawUpTo d (btNs d * 1000)
    let since := match pauseOf d p c with | some x => x.since | none => d.bt
    (true, setPause d p c (some ⟨since, d.bt * btNs d * 1000 + v + quanta * quantumPs d p, classQueues d p c⟩))

/-- A PAUSE (0x0001) or PFC (0x0101) frame (R106, R107). -/
def pauseFrame (d : Dev) (p : Nat) (bs : List Byte) : Dev :=
  let d := bumpPort d p 14
  let op := rdBe bs 14 2
  let mode := fld d .port p Prt.flowMode
  let (hit, d) :=
    if op = 1 ∧ mode = 1 then pauseClass d p 0 (rdBe bs 16 2)
    else if op = 0x0101 ∧ mode = 2 then
      (List.range 8).foldl (fun (h, d) c =>
        if bit (rdBe bs 16 2) c && bit (fld d .port p Prt.pfcEnable) c then
          let (h', d) := pauseClass d p c (rdBe bs (18 + 2 * c) 2)
          (h || h', d)
        else (h, d)) (false, d)
    else (false, d)
  if hit then d else bumpPort d p 15

/-- The pause time of a class ends before the next edge (R107). -/
def pauseExpiry (d : Dev) (p c : Nat) : Dev :=
  match pauseOf d p c with
  | some x => if x.endPs ≤ (d.bt + 1) * btNs d * 1000 then setPause d p c none else d
  | none => d

/-- The watchdog breaks a pause that has lasted PAUSE_WD_MS (R108). -/
def pauseWatchdog (d : Dev) (p c : Nat) : Dev :=
  match pauseOf d p c with
  | none => d
  | some x =>
    if fld d .port p Prt.pauseWdMs * 1000000 ≤ (d.bt - x.since + 1) * btNs d then
      let d := setPause d p c none
      let h := fld d .portStatus p PrtSt.wdHoldoff
      let ms := fld d .port p Prt.pauseHoldoffMs
      let d := if ms = 0 then d
        else
          let d := setFld d .portStatus p PrtSt.wdHoldoff (h ||| 2 ^ c)
          let y := getPort d p
          setPort d p { y with holdoffEnd := Tab.set 0 y.holdoffEnd c (d.bt + (ms * 1000000 + btNs d - 1) / btNs d) }
      let d := traceMac (bumpPort d p 43) 4 p 0 c 0 0
      tenantEvent (raise d (srcId 0x32 p)) (portTenants d p) evPort
    else d

/-- The holdoff of a class ends PAUSE_HOLDOFF_MS after the break (R108). -/
def pauseHoldoffEnd (d : Dev) (p c : Nat) : Dev :=
  let h := fld d .portStatus p PrtSt.wdHoldoff
  let x := getPort d p
  if Tab.get 0 x.holdoffEnd c ≤ d.bt + 1 then
    setFld (setPort d p { x with holdoffEnd := Tab.set 0 x.holdoffEnd c 0 }) .portStatus p PrtSt.wdHoldoff (h - (h &&& 2 ^ c))
  else d

/-! ### Scheduled departure (R129–R133) -/

/-- The time from a frame boundary to the first bit of the destination address: the preamble, in 2^-32 ns. -/
def preamble (d : Dev) (p : Nat) : Rat := ps32 (8 * bytePs d p)

/-- G(L) (R129): the block edge nearest to L of the grid that contains a measured edge, the earlier on a tie; with the
number of blocks it lies after that edge. -/
def launchEdge (d : Dev) (p edge l : Nat) : Int × Rat :=
  let block := ps32 (8 * bytePs d p)
  let j := (((l : Rat) - edge) / block - 1 / 2).ceil
  (j, edge + j * block)

/-- The deadline D: the later of G(L) and L + LATE_TOL_PS (R132). -/
def Launch.deadline (x : Launch) (g : Rat) : Rat := max g (x.l + ps32 x.tolPs)

/-- The end of the wait under policy SEND (R132). -/
def Launch.expiry (x : Launch) : Nat := x.l + x.sendMaxUs * 1000 * 2 ^ 32

/-- A lateness case counted (R132, R133): the statistic of the port, the tenant's and NTS's. Case 1 is on time, 2 late in
tolerance, 3 discarded, 4 late and sent, 5 expired. -/
def countLaunch (d : Dev) (p : Nat) (f : TxFrame) (case_ : Nat) (conflict : Bool) : Dev :=
  let d := bumpLaunch d p (case_ - 1)
  let d := if conflict then bumpLaunch d p 5 else d
  let stat := match case_ with | 1 => 20 | 2 => 21 | 4 => 22 | 3 => 23 | _ => 24
  let late (d : Dev) (t : Nat) : Dev :=
    match case_ with | 1 => d | 2 | 4 => countTenant d t 14 | _ => countTenant d t 15
  match f.who with
  | .nts t true =>
    let d := bumpNts d t stat
    late (if conflict then bumpNts d t 25 else d) t
  | .nts t false => late d t
  | .ntp t _ => late d t
  | _ => d

/-- G(L) falls before the end of the previous Q7 frame and its gap (R133). -/
def conflicts (d : Dev) (p : Nat) (g : Rat) : Bool := decide (g < (getPort d p).q7End)

/-- A launch judged: its trace record with the lateness in 2^-16 ns, and its counts. -/
def judgeLaunch (d : Dev) (p : Nat) (f : TxFrame) (case_ : Nat) (late g : Rat) : Dev :=
  countLaunch (traceMac d 6 p 7 case_ 0 (ofInt 64 (roundFree (late / 2 ^ 16)))) p f case_ (conflicts d p g)

/-- The Q7 frame at a place, and the device without it. -/
def takeQ7 (d : Dev) (p n : Nat) : Option (TxFrame × Launch × Dev) :=
  let l := portQueue d p 7
  match l[n]? with
  | some f => f.launch.map fun x => (f, x, setQueue d p 7 (l.take n ++ l.drop (n + 1)))
  | none => none

/-- A frame not started by its deadline D under policy DISCARD, with a measured block edge (R132). -/
def launchDeadline (d : Dev) (p n : Nat) (a : LaunchEdge) : Dev :=
  match takeQ7 d p n with
  | some (f, x, d') =>
    let (_, g) := launchEdge d p (txStamp d p a.edge a.lane.val) x.l
    if x.policy = 0 ∧ reached d (x.deadline g).floor.toNat then judgeLaunch d' p f 3 (x.deadline g - x.l) g else d
  | none => d

/-- A late frame under policy SEND not started by L + LATE_SEND_MAX_US. -/
def launchExpiry (d : Dev) (p n : Nat) (a : LaunchEdge) : Dev :=
  match takeQ7 d p n with
  | some (f, x, d') =>
    if x.policy = 1 ∧ reached d x.expiry then
      judgeLaunch d' p f 5 ((x.expiry : Rat) - x.l) (launchEdge d p (txStamp d p a.edge a.lane.val) x.l).2
    else d
  | none => d

/-- Q7 heads that a start now would find past their deadline are removed first, as R132 removes them at that instant. -/
def dropLate (fuel : Nat) (d : Dev) (p start : Nat) : Dev :=
  match fuel with
  | 0 => d
  | fuel + 1 =>
    match takeQ7 d p 0 with
    | some (f, x, d') =>
      let (_, g) := launchEdge d p start x.l
      if x.policy = 0 ∧ x.deadline g < start then dropLate fuel (judgeLaunch d' p f 3 (x.deadline g - x.l) g) p start
      else if x.policy = 1 ∧ x.expiry < start then dropLate fuel (judgeLaunch d' p f 5 ((x.expiry : Rat) - x.l) g) p start
      else d
    | none => d

/-! ### Starting a frame (R103, R104, R130) -/

/-- Heads of a queue older than AGE_LIMIT_US are dropped (R104). -/
def dropAged (fuel : Nat) (d : Dev) (p q : Nat) : Dev :=
  match fuel with
  | 0 => d
  | fuel + 1 =>
    match portQueue d p q with
    | f :: fs =>
      if fld d .port p Prt.ageLimitUs * 1000 < (d.bt - f.admitBt) * btNs d then
        dropAged fuel (lost (bumpPort (setQueue d p q fs) p 40) f.who .aged) p q
      else d
    | [] => d

/-- The kerf test of R130, with the start the frame's destination address would have now. -/
def kerfFits (d : Dev) (p : Nat) (f : TxFrame) (start : Nat) (g : Rat) : Bool :=
  decide ((start : Rat) - preamble d p + ps32 ((TxFrame.len f + 20 : Nat) * bytePs d p) ≤ g - preamble d p)

/-- G(L) of the Q7 head, with its distance from a start now; none without a head. Without valid stamps the port measures
no block edge: the head waits and cuts no kerf (DESIGN CHOICE, assumption log 78). -/
def q7Edge (d : Dev) (p start : Nat) (tracks : Bool) : Option (Int × Rat) :=
  match portQueue d p 7 with
  | f :: _ => if tracks then f.launch.map fun x => launchEdge d p start x.l else none
  | [] => none

/-- The highest queue whose head may start (R103, R130), whether the kerf holds an unpaused head back, and the device
with such heads counted once each. -/
def pickQueue (d : Dev) (p start : Nat) (tracks : Bool) : Option Nat × Bool × Dev :=
  let paused := fld d .portStatus p PrtSt.paused
  let d := [6, 5, 4].foldl (fun d q => dropAged (portQueue d p q).length d p q) d
  let edge := q7Edge d p start tracks
  let ready := match edge with | some (j, _) => decide (j ≤ 0) | none => false
  if ready && !bit paused 7 then (some 7, false, d)
  else
    [6, 5, 4, 3, 2, 1, 0].foldl (fun (got, held, d) q =>
      match got with
      | some g => (some g, held, d)
      | none =>
        if bit paused q then (none, held, d)
        else match portQueue d p q with
          | [] => (none, held, d)
          | f :: fs =>
            let fits := match edge with | some (_, g) => kerfFits d p f start g | none => true
            if fits then (some q, held, d)
            else if f.kerfHeld then (none, true, d)
            else (none, true, traceMac (bumpLaunch (setQueue d p q ({ f with kerfHeld := true } :: fs)) p 7) 5 p q 0
              (TxFrame.len f) 0)) (none, false, d)

/-- The launch of a Q7 frame judged at its start (R132). -/
def judgeStart (d : Dev) (p : Nat) (f : TxFrame) (start : Nat) : Dev :=
  match f.launch with
  | none => d
  | some x =>
    let (j, g) := launchEdge d p start x.l
    let e : Rat := (start : Rat) - x.l
    judgeLaunch d p f (if j = 0 then 1 else if e ≤ ps32 x.tolPs then 2 else 4) e g

/-- A calibration frame departs (R122). -/
def loopDeparts (d : Dev) (w : TxWho) (s : Option Nat) : Dev :=
  match w, s with
  | .loop tx _ seq, some s =>
    let x := getPort d tx
    setPort d tx { x with loop := x.loop.map fun r =>
      { r with open_ := r.open_.map fun e => if e.1 = seq then (seq, some (s, d.bt)) else e } }
  | _, _ => d

/-- The frame at the head of a queue starts (R119, R120, R126). -/
def startFrame (d : Dev) (t : TxStart) (q : Nat) (f : TxFrame) (rest : List TxFrame) : Dev :=
  let p := t.port.val
  let d := setQueue d p q rest
  let tracks := latchTracks d p t.ins
  if f.insert ≠ .none ∧ ¬ tracks then lost (bumpLaunch d p 10) f.who .noStamp
  else
    let step := latchStep d p t.ins
    let aborted := step && (decide (f.insert ≠ .none) || decide (q = 7))
    let s := txStamp d p t.ins t.lane.val
    let d := if q = 7 then judgeStart d p f s else d
    let d := if aborted then bumpLaunch d p 9 else d
    let d := if 100 < t.serDiffPs then raise (bumpLaunch d p 11) (srcId 0x33 p) else d
    let d := traceMac d 1 p q 0 (TxFrame.len f) (s / 2 ^ 32)
    let d := if aborted then lostTenant d f.who .stepAbort else d
    let stamp := if tracks then some s else none
    let d := loopDeparts d f.who stamp
    let x := getPort d p
    setPort d p { x with
      cur := some { frame := f, queue := q, stamp := stamp, step := step, aborted := aborted }
      q7End := if q = 7 then (s : Rat) + ps32 ((TxFrame.len f + 12 : Nat) * bytePs d p) else x.q7End }

/-- The idle time that the kerf has made ends at a boundary (R130). -/
def endKerfIdle (d : Dev) (p : Nat) (boundary : Rat) : Dev :=
  let x := getPort d p
  match x.kerfIdle with
  | some n => bumpLaunch (setPort d p { x with kerfIdle := none }) p 8 ((boundary - n) / 2 ^ 32).floor.toNat
  | none => d

/-- The MAC at a frame boundary (R103); one at which the kerf leaves the port idle begins the idle time that
KERF_IDLE_NS counts (R130). -/
def txFrameStart (d : Dev) (t : TxStart) : Dev :=
  let p := t.port.val
  let x := getPort d p
  if !linkUp d p ∨ !serdesUp d p ∨ x.lossFrom.isSome ∨ x.remoteFrom.isSome ∨ x.cur.isSome ∨ scanHeld d then d
  else
    let start := txStamp d p t.ins t.lane.val
    let boundary : Rat := (start : Rat) - preamble d p
    let tracks := latchTracks d p t.ins
    let d := if tracks then dropLate (portQueue d p 7).length d p start else d
    let (q, held, d) := pickQueue d p start tracks
    match q with
    | none =>
      if !held then endKerfIdle d p boundary
      else if (getPort d p).kerfIdle.isNone then setPort d p { getPort d p with kerfIdle := some boundary }
      else d
    | some q =>
      let d := endKerfIdle d p boundary
      match portQueue d p q with
      | f :: fs => startFrame d t q f fs
      | [] => d

/-- A departed two-step Sync's stamp returns to the array, and a client's Delay_Req stamp to its instance (R239, R243). -/
def stampReturns (d : Dev) (c : TxCurrent) : Dev :=
  match c.frame.who, c.stamp with
  | .ptp _ _ _ (some u), some s =>
    if c.aborted then d else { d with ptp := { d.ptp with followUps := d.ptp.followUps ++ [{ u with stamp := s }] } }
  | .client m (some seq), st =>
    let i := Tab.get ClientInst.reset d.ptp.clients m
    let ex := i.exchange.map fun e =>
      if e.reqSeq = some seq then { e with t3 := st, bad := e.bad || st.isNone || c.step } else e
    { d with ptp := { d.ptp with clients := Tab.set ClientInst.reset d.ptp.clients m { i with exchange := ex } } }
  | _, _ => d

/-- The last byte of a frame crosses the ball (R136). -/
def txFrameEnd (d : Dev) (p : Nat) : Dev :=
  let x := getPort d p
  match x.cur with
  | none => d
  | some c =>
    let bs := curBytes d p c
    let d := setPort d p { x with cur := none }
    let d := bumpPort (bumpPort d p (23 + c.queue)) p 31 (TxFrame.len c.frame)
    let d := emit d (.frame p bs c.aborted)
    let d := stampReturns d c
    match c.frame.who with
    | .host fn ring slot cookie ts =>
      txReady d fn ring slot (txWb (if c.aborted then 4 else 0) cookie (if ts then c.stamp else none) (ts && c.step))
    | .beacon => bumpPort d p 45
    | _ => d

/-! ### Host transmit descriptors (Table STAMP.3, R136, R332) -/

/-- A VF's tenant's view, or the view a PF's descriptor names. -/
def descView (d : Dev) (f : Fn) (x : Nat) : Nat :=
  match f.vf with
  | some v => match vfTenant d f.ep.val v.val with | some t => tenantView d t | none => getF x TxDesc.view
  | none => getF x TxDesc.view

/-- A descriptor keeps every entry of its Clamp column (Table STAMP.3). A tenant VF's VIEW is ignored. -/
def descOk (d : Dev) (f : Fn) (p x : Nat) : Bool :=
  let n := getF x TxDesc.bufLen
  let op := getF x TxDesc.insertOp
  let off := getF x TxDesc.insertOffset
  decide (14 ≤ n) && decide (n ≤ maxFrame d p - 4) && decide (getF x TxDesc.csumL4 ≤ 2) && decide (op ≤ 2)
    && (decide (op = 0) || decide (getF x TxDesc.csumL4 ≠ 2))
    && decide (getF x ⟨169, 160⟩ = 0) && decide (getF x ⟨119, 96⟩ = 0) && decide (getF x ⟨63, 0⟩ = 0)
    && decide (14 ≤ getF x TxDesc.l3Offset) && decide (getF x TxDesc.l3Offset ≤ 30)
    && decide (getF x TxDesc.l3Offset + 20 ≤ getF x TxDesc.l4Offset)
    && (decide (op ≠ 1) || decide (off + 8 ≤ n)) && (decide (op ≠ 2) || decide (off + 44 ≤ n))
    && (f.vf.isSome || flag d .view (getF x TxDesc.view) View.created)

/-- A descriptor at the head of a transmit ring is fetched when its queue has MAX_FRAME of room (R332), with its frame's
bytes. -/
def fetchDescriptor (d : Dev) (f : Fn) (r : Nat) (frame : List Byte) : Dev :=
  let ring := getRing d f true r
  let p := ringFld d f true r Rng.port
  match ring.posted with
  | [] => d
  | desc :: rest =>
    let x := desc.toNat
    let q := getF x TxDesc.queue
    let room := decide (occupancy d p q + maxFrame d p ≤ getF (fld d .port p Prt.qLimitKib) ⟨16 * q + 15, 16 * q⟩ * kib)
    if !ringEnabled d f true r ∨ !live d f ∨ !fnExists d f ∨ !room then d
    else
      let slot := (ringFld d f true r Rng.consumer + ring.inFlight.length) % 65536
      let d := setRing d f true r { ring with posted := rest, inFlight := ring.inFlight ++ [(slot, none)] }
      let cookie := getF x TxDesc.cookie
      if !descOk d f p x then txReady d f r slot (txWb 3 cookie none false)
      else
        enqueue d p q
          { bytes := slice frame 0 (getF x TxDesc.bufLen)
            insert := match getF x TxDesc.insertOp with | 1 => .ntpT3 | 2 => .oneStep | _ => .none
            insertOff := getF x TxDesc.insertOffset, view := descView d f x
            csumIp4 := decide (getF x TxDesc.csumIp4 = 1), csumL4 := getF x TxDesc.csumL4
            l3 := getF x TxDesc.l3Offset, l4 := getF x TxDesc.l4Offset, launch := none, admitBt := d.bt, area := .none
            who := .host f r slot cookie (decide (getF x TxDesc.tsReq = 1)), kerfHeld := false }

/-! ### Beacons (R111, R112) -/

/-- The bytes of one reference's REF_STATE in a beacon. -/
def refStateByte (d : Dev) (r : Nat) : List Byte :=
  leBytes 1 (fld d .refStatus r RefSt.state * 64 + fld d .refStatus r RefSt.reason % 64)

/-- Generation k as stored (Table CMD.6). -/
def tagBytes (d : Dev) (k : Nat) : List Byte := slice (Tab.get [] d.key.otp.tags k) 0 256

/-- The condition of generation k (R360): 0 EMPTY, 1 VALID, 2 INVALID. -/
def tagState (d : Dev) (k : Nat) : Nat :=
  let b := tagBytes d k
  let n := rdLe b 6 2
  if b.all fun x => decide (x = 0) then 0
  else if slice b 0 4 = [0x41, 0x58, 0x55, 0x54] ∧ rdLe b 4 1 = k ∧ rdLe b 5 1 = 1 ∧ n ≤ 240 ∧ rdLe b 8 4 = 0
      ∧ rdLe b (16 + n) (240 - n) = 0 ∧ rdLe b 12 4 = crc32c (slice b 0 12 ++ slice b 16 n) then 1
  else 2

/-- The current generation: the VALID one with the highest k. -/
def tagCurrent (d : Dev) : Option Nat := (List.range 16).reverse.find? fun k => decide (tagState d k = 1)

/-- The current generation as stored; 256 zero bytes when there is none. -/
def currentTag (d : Dev) : List Byte :=
  match tagCurrent d with
  | some k => tagBytes d k
  | none => List.replicate 256 0

/-- The beacon payload (Table PORT.6). -/
def beaconPayload (d : Dev) (p : Nat) : List Byte :=
  let st := getRec d .steer 0
  let flags := getF st Steer.offsetAValid * 8 + getF st Steer.offsetBValid * 4 + getF st Steer.offsetASat * 2
    + getF st Steer.offsetBSat
  let lp := getRec d .leap 0
  let bs := beBytes 4 0x41584842 ++ beBytes 1 1 ++ beBytes 1 p ++ beBytes 1 d.key.lifeCycle ++ beBytes 1 (power d)
    ++ beBytes 4 (fld d .beacon p Bcn.sequence) ++ beBytes 8 d.bt ++ beBytes 12 d.ts.tsh.tw96
    ++ beBytes 1 (getF st Steer.steerState) ++ beBytes 1 (getF st Steer.select)
    ++ beBytes 1 (fld d .servoStatus 0 SrvSt.servoState) ++ beBytes 1 (fld d .servoStatus 1 SrvSt.servoState)
    ++ beBytes 8 (getF st Steer.offsetA) ++ beBytes 8 (getF st Steer.offsetB) ++ beBytes 1 flags
    ++ beBytes 1 (fld d .faultStatus 0 FSt.gravest) ++ beBytes 2 (fld d .faultRec 149 FRec.source)
    ++ beBytes 2 (fld d .faultRec 149 FRec.count) ++ beBytes 2 (fld d .resetCause 0 RCause.cause)
    ++ (List.range 10).flatMap (refStateByte d) ++ beBytes 1 (getF lp Leap.dNowS)
    ++ beBytes 1 (getF lp Leap.leapKnown * 4 + getF lp Leap.leapStale * 2 + getF lp Leap.pending)
    ++ currentTag d
  bs ++ List.replicate (336 - bs.length) 0

/-- The beacon's frame (R112). -/
def beaconFrame (d : Dev) (p : Nat) : TxFrame :=
  let r := getRec d .beacon p
  let tags := if getF r Bcn.vlanEn = 1 then vlanTag 0x8100 (getF r Bcn.vlanPcp) (getF r Bcn.vlanVid) else []
  let src := fld d .port p Prt.stationMac
  let pl := beaconPayload d p
  let udp4 := getF r Bcn.encap = 1
  let l3 := 14 + tags.length
  let port := getF r Bcn.udpPort
  let bs := if udp4 then
      ethHeader (getF r Bcn.destMac) src tags 0x0800
        ++ ip4Header 0 64 17 (getF r Bcn.srcIp4) (getF r Bcn.destIp4) (8 + pl.length) ++ udpHeader port port pl.length ++ pl
    else ethHeader (getF r Bcn.destMac) src tags 0x88B5 ++ pl
  { bytes := bs, insert := .none, insertOff := 0, view := 0, csumIp4 := decide udp4, csumL4 := if udp4 then 1 else 0
    l3 := l3, l4 := l3 + 20, launch := none, admitBt := 0, area := .none, who := .beacon, kerfHeld := false }

/-- The conditions of R111. -/
def beaconRuns (d : Dev) (p : Nat) : Bool :=
  decide (fld d .beacon p Bcn.beaconPeriodMs ≠ 0) && decide (fld d .port p Prt.stationMac ≠ 0) && linkUp d p
    && decide (power d ≤ 1) && pathRuns d

/-- BEACON_PERIOD_MS after the previous attempt: SEQUENCE advances and a beacon is queued in Q4. -/
def beaconDue (d : Dev) (p : Nat) : Dev :=
  let x := getPort d p
  if beaconRuns d p ∧ fld d .beacon p Bcn.beaconPeriodMs * 1000000 ≤ (d.bt + 1 - x.beaconBt) * btNs d then
    let d := setPort d p { x with beaconBt := d.bt }
    let d := setFld d .beacon p Bcn.sequence (fld d .beacon p Bcn.sequence + 1)
    enqueue d p 4 (beaconFrame d p)
  else d

/-! ### Commands (Tables PORT.8 and STAMP.7) -/

def portIdx (p : List Byte) : Bool := idxBelow 16 p

/-- MODE against the lanes of the variant (R88), and the training bits against MODE. -/
def octetDep (d : Dev) (o _req : Nat) : Dep := fun f acc v =>
  if f = Oct.mode then (if v = 4 ∧ d.variant = .e ∧ o = 0 then some (0, .absent) else none)
  else if f = Oct.anEnable ∨ f = Oct.ltEnable then
    (if (getF acc Oct.mode = 1 ∨ getF acc Oct.mode = 2) ∨ v = 0 then none else some (0, .dependent))
  else none

/-- The lanes of an octet are present (R88). -/
def octetPresent (d : Dev) (o : Nat) : Bool := decide (8 * o < laneCount d.variant)

def portOctetCmd : Cmd :=
  RecSpec.cmd { kind := .octet, ib := 1, inSet := idxBelow 2, present := octetPresent, image := plainImage .octet
                dep := octetDep
                answer := fun d o r =>
                  if mergeRw octFields (getRec d .octet o) r = getRec d .octet o then r
                  else setF r Oct.appliedBt (nextEdge d)
                apply := atNextEdge .octet } 0x2000 [.c, .p] [.c]

/-- STATION_MAC is unicast; the receive reserves of the existing ports stay within 16 MiB (R94). -/
def portDep (d : Dev) (p _req : Nat) : Dep := fun f _ v =>
  if f = Prt.stationMac then (if bit v 40 then some (0, .enum) else none)
  else if f = Prt.rxReserveKib then
    let others := sumOf ((portList d).filter (· ≠ p)) fun q => fld d .port q Prt.rxReserveKib
    if 16384 < others + nearest 64 2048 v then some (16384 - others, .dependent) else none
  else none

def portConfigCmd : Cmd :=
  RecSpec.cmd { kind := .port, ib := 1, inSet := portIdx, present := portStarts, image := plainImage .port, dep := portDep
                apply := atNextEdge .port } 0x2001 [.c, .p] [.c]

/-- A port status record as read (Table PORT.11); the space counts are shown in KiB, their rounding left open. -/
def portStatusImage (d : Dev) (p : Nat) : Nat :=
  let rx := rxHeld d p .reserve + rxHeld d p .shared
  let tx := sumOf (queued d p) TxFrame.len
  let r := setF (getRec d .portStatus p) PrtSt.rxInUseKib (roundFree ((rx : Rat) / kib)).toNat
  setF r PrtSt.txInUseKib (roundFree ((tx : Rat) / kib)).toNat

def portStatusCmd : Cmd :=
  { op := 0x2002, readBy := [.c, .p]
    check := fun _ p d =>
      if p.length ≠ 4 ∨ !(portIdx p || decide (rdLe p 0 1 = 0xFF)) then some .badLength
      else if portIdx p && !portStarts d (rdLe p 0 1) then some .notPresent else none
    body := fun _ p d =>
      let ps := if rdLe p 0 1 = 0xFF then List.range 16 else [rdLe p 0 1]
      .done .ok (ps.flatMap fun i => leBytes 32 (portStatusImage d i)) [] d }

/-- The check of a command that names one port. -/
def onePort : Ctx → List Byte → Dev → Option Status := fun _ p d =>
  if p.length ≠ 4 ∨ !portIdx p then some .badLength else if !portStarts d (rdLe p 0 1) then some .notPresent else none

/-- A statistics block as 64-bit values in index order, and the device after the read has cleared it (R113). -/
def statBlock (d : Dev) (k : StatKind) (i n : Nat) : List Byte × Dev :=
  ((List.range n).flatMap fun j => leBytes 8 (getStat d k i j), clearStats d k i)

def portStatsCmd : Cmd :=
  { op := 0x2003, readBy := [.c], check := onePort
    body := fun _ p d =>
      let i := rdLe p 0 1
      let (b, d) := statBlock (pauseSettle d i true) .port i 47
      .done .ok b [] d }

/-- An enabled pattern needs a mask (R110), and its target a node that is present. -/
def wakeDep (d : Dev) (_ req : Nat) : Dep := fun f acc v =>
  if f = Wake.enable then (if v = 1 ∧ getF req Wake.maskF = 0 then some (0, .dependent) else none)
  else if f = Wake.targetIndex then
    (if nodePresent d.variant (getF acc Wake.targetLevel) v then none else some (0, .absent))
  else none

def wakePatternCmd : Cmd :=
  RecSpec.cmd { kind := .wakePattern, ib := 2, index := fun p => rdLe p 0 1 * 16 + rdLe p 1 1
                inSet := fun p => portIdx p && decide (rdLe p 1 1 < 16), present := fun d i => portStarts d (i / 16)
                image := plainImage .wakePattern, dep := wakeDep, apply := atNextEdge .wakePattern } 0x2004 [.c, .p] [.c]

/-- VLAN_VID is limited only while VLAN_EN is 1. -/
def vidDep (en vid : Fld) : Dep := fun f acc v =>
  if f = vid then (if getF acc en = 1 ∧ (v = 0 ∨ v = 4095) then some (nearest 1 4094 v, .dependent) else some (v, .dependent))
  else none

def beaconCmd : Cmd :=
  RecSpec.cmd { kind := .beacon, ib := 1, inSet := portIdx, present := portStarts, image := plainImage .beacon
                dep := fun _ _ _ => vidDep Bcn.vlanEn Bcn.vlanVid, apply := atNextEdge .beacon } 0x2005 [.c, .p] [.c]

def portRestartCmd : Cmd :=
  { op := 0x2006, writeBy := [.c], isWrite := fun _ => true, writeCls := .live
    check := fun _ p d =>
      let i := rdLe p 0 1
      if p.length ≠ 4 ∨ !portIdx p then some .badLength
      else if laneCount d.variant ≤ i then some .notPresent
      else if octMode d i = 0 then some .state
      else if !portStarts d i then some .notPresent else none
    body := fun x p d => .wait .edge (defer d (.portRestart (rdLe p 0 1) x.fn x.door)) }

/-- A shim record as read: D_TX and the stamp availability of the current mode (Table STAMP.1), in 2^-16 ns. -/
def shimImage (d : Dev) (p : Nat) : Nat :=
  setF (setF (getRec d .shim p) Shm.txLatency (dTxPs d p * 65536 / 1000)) Shm.rxAvailable (rxAvailNs d p * 65536)

/-- Trims of lanes the port does not have are 0 (R137). -/
def shimDep (d : Dev) (p _req : Nat) : Dep := fun f _ v =>
  let lane := (f.lsb - 192) % 128 / 16
  if 192 ≤ f.lsb ∧ f.lsb < 448 ∧ portLanes d p ≤ lane ∧ v ≠ 0 then some (0, .dependent) else none

def shimCmd : Cmd :=
  RecSpec.cmd { kind := .shim, ib := 1, inSet := portIdx, present := portStarts, image := shimImage, dep := shimDep
                answer := fun d _ r => setF r Shm.shimBt (nextEdge d)
                apply := atNextEdge .shim } 0x2100 [.c, .p] [.c]

/-- The calibration resource of a port (Table MBX.4). -/
def shimLock (p : Nat) : Nat := 0x20 + p

def shimLoopCmd : Cmd :=
  { op := 0x2101, writeBy := [.c], isWrite := fun _ => true, writeCls := .live
    locks := fun p => [shimLock (rdLe p 0 1), shimLock (rdLe p 1 1)]
    check := fun _ p d =>
      if p.length ≠ 4 ∨ 16 ≤ rdLe p 0 1 ∨ 16 ≤ rdLe p 1 1 then some .badLength
      else if !portStarts d (rdLe p 0 1) ∨ !portStarts d (rdLe p 1 1) then some .notPresent else none
    body := fun x p d =>
      let tx := rdLe p 0 1
      let rx := rdLe p 1 1
      if !linkUp d tx ∨ !linkUp d rx then .done .state [] [] d
      else
        let run : LoopRun := { fn := x.fn, door := x.door, rx := rx, count := max 1 (rdLe p 2 2), sent := 0
                               nextBt := nextEdge d, open_ := [], got := 0, sum := 0, least := 0, most := 0 }
        .wait (.shimLoop tx rx (rdLe p 2 2)) (setPort d tx { getPort d tx with loop := some run }) }

/-! ### Calibration frames (R122) -/

/-- A calibration frame: 64 bytes with FCS, EtherType 0x88B5, subtype 0xC1, the sending port and the sequence. R122 gives
no addresses: it goes from the sending port's STATION_MAC to the receiving port's (DESIGN CHOICE, assumption log 78). -/
def loopFrame (d : Dev) (tx rx seq : Nat) : TxFrame :=
  { bytes := padFrame (ethHeader (fld d .port rx Prt.stationMac) (fld d .port tx Prt.stationMac) [] 0x88B5 ++ beBytes 1 0xC1
      ++ beBytes 1 tx ++ beBytes 4 seq)
    insert := .none, insertOff := 0, view := 0, csumIp4 := false, csumL4 := 0, l3 := 14, l4 := 34, launch := none
    admitBt := 0, area := .none, who := .loop tx rx seq, kerfHeld := false }

/-- A SHIM_LOOP run at an edge: one calibration frame a microsecond into Q6. -/
def loopEdge (d : Dev) (p : Nat) : Dev :=
  let x := getPort d p
  match x.loop with
  | some r =>
    if r.sent < r.count ∧ r.nextBt ≤ d.bt then
      let r' := { r with sent := r.sent + 1, nextBt := r.nextBt + usToBt d 1, open_ := r.open_ ++ [(r.sent, none)] }
      enqueue (setPort d p { x with loop := some r' }) p 6 (loopFrame d p r.rx r.sent)
    else d
  | none => d

/-- A calibration frame has not departed and will not: it stands in no queue and is not being sent. -/
def loopGone (d : Dev) (p : Nat) (r : LoopRun) (seq : Nat) : Bool :=
  !((portQueue d p 6).any fun f => decide (f.who = .loop p r.rx seq))
    && (match (getPort d p).cur with | some c => decide (c.frame.who ≠ .loop p r.rx seq) | none => true)

/-- The run is over: every frame is sent, and received, or lost 1 ms after its departure. -/
def loopOver (d : Dev) (p : Nat) (r : LoopRun) : Bool :=
  decide (r.count ≤ r.sent) && r.open_.all fun e =>
    match e.2 with
    | some (_, b) => decide (1000000 ≤ (d.bt - b) * btNs d)
    | none => loopGone d p r e.1

/-- A received frame is a calibration frame of a run to this port. -/
def isLoopFrame (d : Dev) (p : Nat) (q : Parsed) (bs : List Byte) : Bool :=
  decide (q.vlanCount = 0) && decide (q.etherType = 0x88B5) && decide (rdBe bs q.l3 1 = 0xC1)
    && decide (rdBe bs (q.l3 + 1) 1 < 16)
    && (match (getPort d (rdBe bs (q.l3 + 1) 1)).loop with | some r => decide (r.rx = p) | none => false)

/-- A calibration frame received within 1 ms of its departure, with its stamp: s_rx − s_tx in 2^-16 ns, the rounding
left open. -/
def loopArrives (d : Dev) (q : Parsed) (bs : List Byte) (stamp : Nat) : Dev :=
  let tx := rdBe bs (q.l3 + 1) 1
  let seq := rdBe bs (q.l3 + 2) 4
  let x := getPort d tx
  match x.loop with
  | some r =>
    match r.open_.find? fun e => decide (e.1 = seq) with
    | some (_, some (s, b)) =>
      if (d.bt - b) * btNs d < 1000000 then
        let v := roundFree ((((stamp : Int) - s : Int) : Rat) / 2 ^ 16)
        let r := { r with open_ := r.open_.filter (fun e => decide (e.1 ≠ seq)), got := r.got + 1, sum := r.sum + v
                          least := if r.got = 0 then v else min r.least v, most := if r.got = 0 then v else max r.most v }
        setPort d tx { x with loop := some r }
      else d
    | _ => d
  | none => d

/-- SHIM_LOOP's answer when its run is over (R122). With no frame received the three delays are open. -/
def shimLoopDone (d : Dev) (f : Fn) (door tx count : Nat) : Dev :=
  match (getPort d tx).loop with
  | none => d
  | some r =>
    if !loopOver d tx r then d
    else
      let d := setPort d tx { getPort d tx with loop := none }
      let (a, d) := draw d
      let (b, d) := draw d
      let (c, d) := draw d
      let (mean, least, most) : Nat × Nat × Nat :=
        if r.got = 0 then (a, b, c)
        else (ofInt 64 (roundFree ((r.sum : Rat) / r.got)), ofInt 64 r.least, ofInt 64 r.most)
      complete d f door .ok (leBytes 4 r.sent ++ leBytes 4 r.got ++ leBytes 8 mean ++ leBytes 8 least ++ leBytes 8 most)
        (if count = 0 then [⟨31, 16, 0, .range, 0, 1⟩] else [])

def launchCmd : Cmd :=
  RecSpec.cmd { kind := .launch, ib := 2, inSet := tenantIdx, image := plainImage .launch, apply := atNextEdge .launch }
    0x2102 [.c, .p, .v] [.c] .live (tenantAt 0)

def launchStatsCmd : Cmd :=
  { op := 0x2103, readBy := [.c], check := onePort
    body := fun _ p d =>
      let (b, d) := statBlock d .launch (rdLe p 0 1) 14
      .done .ok b [] d }

def execPortOctet (m : Msg) (s : State) : Host.Outcome State Fault Refusal := mailbox portOctetCmd m s
def execPortConfig (m : Msg) (s : State) : Host.Outcome State Fault Refusal := mailbox portConfigCmd m s
def execPortStatus (m : Msg) (s : State) : Host.Outcome State Fault Refusal := mailbox portStatusCmd m s
def execPortStats (m : Msg) (s : State) : Host.Outcome State Fault Refusal := mailbox portStatsCmd m s
def execWakePattern (m : Msg) (s : State) : Host.Outcome State Fault Refusal := mailbox wakePatternCmd m s
def execBeacon (m : Msg) (s : State) : Host.Outcome State Fault Refusal := mailbox beaconCmd m s
def execPortRestart (m : Msg) (s : State) : Host.Outcome State Fault Refusal := mailbox portRestartCmd m s
def execShim (m : Msg) (s : State) : Host.Outcome State Fault Refusal := mailbox shimCmd m s
def execShimLoop (m : Msg) (s : State) : Host.Outcome State Fault Refusal := mailbox shimLoopCmd m s
def execLaunch (m : Msg) (s : State) : Host.Outcome State Fault Refusal := mailbox launchCmd m s
def execLaunchStats (m : Msg) (s : State) : Host.Outcome State Fault Refusal := mailbox launchStatsCmd m s

/-! ### Events -/

def execLockLoss (port : Fin 16) (lanes cdr : BitVec 8) (inFrame : Bool) (s : State) :
    Host.Outcome State Fault Refusal :=
  onPath s fun d => lockLoss d port.val lanes.toNat cdr.toNat inFrame

def execLinkDownDelayExpiry (port : Fin 16) (s : State) : Host.Outcome State Fault Refusal :=
  onPath s fun d => linkDownDelay d port.val

def execLinkUp (x : LaneSkew) (s : State) : Host.Outcome State Fault Refusal :=
  onPath s fun d => linkComesUp d x.port.val x.skew

def execRemoteFaultReceived (port : Fin 16) (s : State) : Host.Outcome State Fault Refusal :=
  onPath s fun d => remoteFault d port.val

def execShortLockLossEnd (x : LaneSkew) (s : State) : Host.Outcome State Fault Refusal :=
  onPath s fun d => shortLossEnd d x.port.val x.skew

def execSkewChange (x : LaneSkew) (s : State) : Host.Outcome State Fault Refusal :=
  onPath s fun d => skewChange d x.port.val x.skew

def execPauseExpiry (port : Fin 16) (cls : Fin 8) (s : State) : Host.Outcome State Fault Refusal :=
  onPath s fun d => pauseExpiry d port.val cls.val

def execPauseWatchdog (port : Fin 16) (cls : Fin 8) (s : State) : Host.Outcome State Fault Refusal :=
  onPath s fun d => pauseWatchdog d port.val cls.val

def execPauseHoldoffEnd (port : Fin 16) (cls : Fin 8) (s : State) : Host.Outcome State Fault Refusal :=
  onPath s fun d => pauseHoldoffEnd d port.val cls.val

def execTxFrameStart (t : TxStart) (s : State) : Host.Outcome State Fault Refusal := onPath s fun d => txFrameStart d t

def execTxFrameEnd (port : Fin 16) (s : State) : Host.Outcome State Fault Refusal :=
  onPath s fun d => txFrameEnd d port.val

def execLaunchDeadline (port : Fin 16) (place : Nat) (edge : LaunchEdge) (s : State) : Host.Outcome State Fault Refusal :=
  onPath s fun d => launchDeadline d port.val place edge

def execLaunchSendMaxExpiry (port : Fin 16) (x : WaitingLaunch) (s : State) : Host.Outcome State Fault Refusal :=
  onPath s fun d => launchExpiry d port.val x.place x.edge

def execHostTxDescriptorFetch (fn : Fn) (ring : Fin 64) (frame : List Byte) (s : State) :
    Host.Outcome State Fault Refusal :=
  onPath s fun d => fetchDescriptor d fn ring.val frame

def execBeaconPeriod (port : Fin 16) (s : State) : Host.Outcome State Fault Refusal :=
  onPath s fun d => beaconDue d port.val

end Sys2Proof.Machine
end

