-- ==== Sys2Proof/Machine/Receive.lean ====
section
/-! DEFINITION. From the wire to the array: the receive rules R96–R102 and R109, the classifier (R167–R170, R231), the
address table and the classifier's commands. -/

namespace Sys2Proof.Machine

open Sys2Proof

/-! ### The address table (R167, R168) -/

/-- The address entries configured active: index and record. -/
def liveEntries (d : Dev) : List (Nat × Nat) := (listed d .addrEntry).filter fun e => getF e.2 Addr.family ≠ 0

/-- The active entries of the table: none after KEEP-TIME until the processor has rebuilt it (R34). -/
def activeEntries (d : Dev) : List (Nat × Nat) := if d.pwr.tablesLost then [] else liveEntries d

/-- A frame's VLAN key matches an entry. -/
def vlanMatches (r : Nat) (q : Parsed) : Bool :=
  match getF r Addr.vlanMatch with
  | 0 => decide (q.vlanCount = 0)
  | 1 => decide (q.vlanCount = 1) && decide (q.outerVid = getF r Addr.outerVid)
  | 2 => decide (q.vlanCount = 2) && decide (q.outerVid = getF r Addr.outerVid)
      && decide (q.innerVid = getF r Addr.innerVid)
  | _ => decide (q.vlanCount ≤ 2)

/-- The active entry of an address on a port under a frame's VLAN key. -/
def lookupEntry (d : Dev) (p : Nat) (q : Parsed) (v6 : Bool) (addr : Nat) : Option (Nat × Nat) :=
  (activeEntries d).find? fun e =>
    decide (getF e.2 Addr.family = (if v6 then 2 else 1)) && decide (getF e.2 Addr.address = addr)
      && bit (getF e.2 Addr.portMask) p && vlanMatches e.2 q

/-- One frame could match both VLAN keys. -/
def vlanClash (a b : Nat) : Bool :=
  let ma := getF a Addr.vlanMatch
  let mb := getF b Addr.vlanMatch
  decide (ma = 3) || decide (mb = 3)
    || (decide (ma = mb) && (decide (ma = 0)
      || (decide (getF a Addr.outerVid = getF b Addr.outerVid)
        && (decide (ma = 1) || decide (getF a Addr.innerVid = getF b Addr.innerVid)))))

/-- The device once the address entry writes that wait for the edge have been made. -/
def entriesSoon (d : Dev) : Dev :=
  d.atEdge.foldl (fun d e => match e.2 with
    | .write .addrEntry i v => setRec d .addrEntry i (mergeRw addrFields (getRec d .addrEntry i) v)
    | _ => d) d

/-- The lowest active entry, other than the one written, that conflicts with a record. -/
def conflictOf (d : Dev) (i r : Nat) : Option Nat :=
  ((liveEntries (entriesSoon d)).find? fun e =>
    decide (e.1 ≠ i) && decide (getF e.2 Addr.family = getF r Addr.family)
      && decide (getF e.2 Addr.address = getF r Addr.address)
      && decide (getF e.2 Addr.portMask &&& getF r Addr.portMask ≠ 0) && vlanClash e.2 r).map (·.1)

/-- An address that is not a unicast source (R173, the first two cases). -/
def badUnicast (v6 : Bool) (a : Nat) : Bool :=
  if v6 then decide (a = 0) || decide (a = 1) || decide (a / 2 ^ 120 = 0xFF)
  else decide (a / 2 ^ 24 = 0) || decide (a / 2 ^ 24 = 127) || decide (a / 2 ^ 28 = 14) || decide (a = 0xFFFFFFFF)

/-- The MAC that answers for an entry on a port (R178). -/
def answerMac (d : Dev) (p r : Nat) : Nat :=
  if getF r Addr.useStationMac = 1 then fld d .port p Prt.stationMac else getF r Addr.entryMac

/-! ### The destination filter (R96) -/

def isMulticast (mac : Nat) : Bool := bit mac 40

/-- The multicast destinations of a port's PTP instance (R231, R242). -/
def ptpMac (d : Dev) (p mac : Nat) : Bool :=
  let r := getRec d .ptpPort p
  decide (getF r PPort.role ≠ 0) &&
    match getF r PPort.transport with
    | 0 => decide (mac = if getF r PPort.l2Dest = 0 then 0x011B19000000 else 0x0180C200000E)
    | 1 => decide (mac = 0x01005E000181)
    | _ => decide (mac = 0x333300000181)

/-- The solicited-node addresses of the active IPv6 entries that answer (R195). -/
def solicitedMac (d : Dev) (mac : Nat) : Bool :=
  (activeEntries d).any fun e =>
    decide (getF e.2 Addr.family = 2) && decide (getF e.2 Addr.answerArpNd = 1)
      && decide (mac = 0x3333FF000000 + getF e.2 Addr.address % 2 ^ 24)

/-- The destination MAC of an NTP broadcast to an address (R192). -/
def groupMac (v6 : Bool) (a : Nat) : Nat :=
  if v6 then 0x333300000000 + a % 2 ^ 32 else if a / 2 ^ 28 = 14 then 0x01005E000000 + a % 2 ^ 23 else 2 ^ 48 - 1

/-- The multicast destinations of the NTP broadcasts configured on a port (R96). -/
def bcastListed (d : Dev) (p mac : Nat) : Bool :=
  isMulticast mac && (listed d .bcast).any fun e =>
    decide (getF e.2 Bc.bcastEn = 1) && bit (getF e.2 Bc.portMask) p
      && decide (groupMac (decide (getF e.2 Bc.bcastFamily = 2)) (getF e.2 Bc.destAddr) = mac)

def daPasses (d : Dev) (p mac : Nat) : Bool :=
  let r := getRec d .port p
  decide (getF r Prt.promisc = 1) || decide (mac = getF r Prt.stationMac) || decide (mac = 2 ^ 48 - 1)
    || (isMulticast mac && decide (getF r Prt.allMulticast = 1)) || ptpMac d p mac || solicitedMac d mac
    || bcastListed d p mac
    || (decide (mac ≠ 0) && (activeEntries d).any fun e => decide (getF e.2 Addr.entryMac = mac))

/-! ### Wake patterns (R109, R110) -/

/-- The offsets a pattern's MASK selects. -/
def maskOffsets (m : Nat) : List Nat := (List.range 1024).filter fun i => bit m i

def patternMatches (r : Nat) (bs : List Byte) : Bool :=
  let os := maskOffsets (getF r Wake.maskF)
  decide (getF r Wake.enable = 1) && os.all (fun i => decide (i < bs.length))
    && decide (crc16 (os.map fun i => bs.getD i 0) = getF r Wake.checkCrc16)

/-- In LISTEN: whether the frame is dropped, and the device after its match has been counted and its wake requested. -/
def wakeTest (d : Dev) (p : Nat) (bs : List Byte) : Bool × Dev :=
  if power d ≠ 1 then (false, d)
  else
    match (List.range 16).find? fun w => patternMatches (getRec d .wakePattern (16 * p + w)) bs with
    | none => (decide (fld d .port p Prt.nomatchAction = 1), d)
    | some w =>
      let i := 16 * p + w
      let d := bumpFld (bumpPort d p 17) .wakePattern i Wake.matches
      let r := getRec d .wakePattern i
      match getF r Wake.action with
      | 0 => (false, wakeRequest d (nodeCode (getF r Wake.targetLevel) (getF r Wake.targetIndex)))
      | 1 => (false, d)
      | _ => (true, d)

/-! ### The classifier (R169, R170, R231) -/

/-- Where a frame goes. -/
inductive Bound where
  | unclaimed
  /-- The client instance of a master. -/
  | client (master : Nat)
  | tenant (t : Nat) (service : Service) (entry : Nat) (multicast : Bool)
deriving DecidableEq, Repr

/-- The master of a port's client instance. -/
def clientRole (d : Dev) (p : Nat) : Option Nat :=
  match fld d .ptpPort p PPort.role with | 2 => some 0 | 3 => some 1 | _ => none

/-- The port's own PTP instance takes a multicast frame of a transport (0 L2, 1 UDP4, 2 UDP6). -/
def bindInstance (d : Dev) (p transport : Nat) : Bound :=
  let r := getRec d .ptpPort p
  if getF r PPort.role = 1 ∧ getF r PPort.transport = transport then .tenant (getF r PPort.tenant) .ptp 0 true
  else match clientRole d p with
    | some m => .client m
    | none => .unclaimed

/-- A truncated frame is answered by no jig image: its tenant's punt policy decides (R99). -/
def Bound.truncated (b : Bound) (trunc : Bool) : Bound :=
  match b with
  | .tenant t _ i mc => if trunc then .tenant t .bad i mc else b
  | _ => b

/-- A frame of EtherType 0x88F7. -/
def bindL2 (d : Dev) (p dst : Nat) : Bound :=
  match clientRole d p with
  | some m => .client m
  | none => if ptpMac d p dst then bindInstance d p 0 else .unclaimed

/-- An address looked up with the arrival port and the VLAN key. -/
def bindAddr (d : Dev) (p : Nat) (q : Parsed) (v6 : Bool) (addr : Nat) (s : Service) : Bound :=
  match lookupEntry d p q v6 addr with
  | none => .unclaimed
  | some (i, r) =>
    match clientRole d p with
    | some m => if s = .ptp ∧ fld d .ptpPort p PPort.clientEntry = i then .client m else .tenant (getF r Addr.tenant) s i false
    | none => .tenant (getF r Addr.tenant) s i false

/-- The service of an IP frame by the first row of Table NTP.1 that applies, and the address it is looked up under. -/
def ipService (q : Parsed) (bs : List Byte) (trunc : Bool) : Service × Nat :=
  if trunc ∨ q.l3Status = 1 ∨ q.l4Status = 1 then (.bad, q.ipDst)
  else if q.optExt ∨ q.frag then (.slowpath, q.ipDst)
  else if q.l3Type = 2 ∧ q.proto = 58 ∧ rdBe bs q.l4 1 = 135 then (.nd, rdBe bs (q.l4 + 8) 16)
  else if q.l4Type = 1 ∧ rdBe bs (q.l4 + 2) 2 = 123 then (.ntp, q.ipDst)
  else if q.l4Type = 1 ∧ (rdBe bs (q.l4 + 2) 2 = 319 ∨ rdBe bs (q.l4 + 2) 2 = 320) then (.ptp, q.ipDst)
  else (.other, q.ipDst)

def isPtpGroup (v6 : Bool) (a : Nat) : Bool :=
  if v6 then decide (a = 0xFF02 * 2 ^ 112 + 0x181) || decide (a = 0xFF0E * 2 ^ 112 + 0x181) else decide (a = 0xE0000181)

def classify (d : Dev) (p : Nat) (q : Parsed) (bs : List Byte) (trunc : Bool) : Bound :=
  if q.vlanCount = 3 ∨ d.pwr.tablesLost = true then .unclaimed
  else if q.etherType = 0x88F7 then (bindL2 d p q.dst).truncated trunc
  else if q.l3Type = 1 ∨ q.l3Type = 2 then
    let v6 := decide (q.l3Type = 2)
    let (s, a) := ipService q bs trunc
    if s = .ptp ∧ isPtpGroup v6 a then bindInstance d p q.l3Type else bindAddr d p q v6 a s
  else if q.etherType = 0x0806 then (bindAddr d p q false (rdBe bs (q.l3 + 24) 4) .arp).truncated trunc
  else .unclaimed

/-- An unclaimed frame (R170). -/
def unclaimed (d : Dev) (x : RxPkt) : Dev :=
  if fld d .cls 0 Cls.unclaimedAction = 0 then bumpStat d .cls x.port 0 64
  else
    let (ok, d) := deliver d (pfOf (controllerEp d)) 0
      { stamp := x.stamp, status := x.status, port := x.port, kind := 1, puntClass := 0, tenant := 0 } x.bytes
    bumpStat d .cls x.port (if ok then 1 else 2) 64

/-! ### Address conflicts (R196) -/

/-- An address conflict counted for the entry's tenant and raised. -/
def addrConflict (d : Dev) (p r : Nat) : Dev :=
  raise (bumpNtp d (getF r Addr.tenant) 32) (srcId 0x36 p)

/-- The options of a Neighbor Discovery message: every length non-zero, and whether a type is among them with the
address it carries. -/
def ndOption (ty : Nat) : Nat → List Byte → Option (Option Nat)
  | 0, _ => some none
  | fuel + 1, bs =>
    if bs.length = 0 then some none
    else
      let n := rdBe bs 1 1 * 8
      if n = 0 ∨ bs.length < n then none
      else match ndOption ty fuel (bs.drop n) with
        | none => none
        | some r => if rdBe bs 0 1 = ty then some (some (rdBe bs 2 6)) else some r

/-- The address of this device that a frame claims, whether it is IPv6, and the link-layer address it claims it for: the
sender of an ARP frame, the target of a Neighbor Advertisement or of a solicitation from ::. -/
def claimedAddr (q : Parsed) (bs : List Byte) : Option (Bool × Nat × Nat) :=
  let m := slice bs q.l4 q.l4Len
  let ty := rdBe m 0 1
  if q.vlanCount = 3 then none
  else if q.etherType = 0x0806 then some (false, rdBe bs (q.l3 + 14) 4, rdBe bs (q.l3 + 8) 6)
  else if q.l3Type = 2 ∧ q.proto = 58 ∧ q.l3Status ≠ 1 ∧ q.l4Status ≠ 1 ∧ (ty = 136 ∨ (ty = 135 ∧ q.ipSrc = 0)) then
    match ndOption (if ty = 136 then 2 else 1) (m.length + 1) (m.drop 24) with
    | some (some a) => some (true, rdBe m 8 16, a)
    | _ => some (true, rdBe m 8 16, q.src)
  else none

/-- The conflict a frame shows with an active entry of its port and VLAN key, whoever the frame is for. A frame whose
checksums fail shows none. -/
def conflictCheck (d : Dev) (p : Nat) (q : Parsed) (bs : List Byte) : Dev :=
  match claimedAddr q bs with
  | some (v6, a, mac) => match lookupEntry d p q v6 a with
    | some (_, e) => if mac ≠ answerMac d p e then addrConflict d p e else d
    | none => d
  | none => d

/-! ### The receive path (R96–R102, R116, R118) -/

/-- A stored frame handed to the classifier and enqueued. -/
def claim (d : Dev) (x : RxPkt) (q : Parsed) (area : Area) : Dev :=
  let desc (t : Nat) (s : Service) (i : Nat) (mc : Bool) : Desc :=
    { pkt := x, area := area, tenant := t, service := s, entry := i, storedBt := d.bt, order := 0, multicast := mc
      ageUs := 0, holdMs := 0 }
  let d := conflictCheck d x.port q x.bytes
  match classify d x.port q x.bytes (decide (getF x.status RxSt.trunc = 1)) with
  | .unclaimed => unclaimed d x
  | .client m => { d with ptp := { d.ptp with inbox := d.ptp.inbox ++ [(m, desc 0 .ptp 0 true)] } }
  | .tenant t s i mc => dispatch d (desc t s i mc)

/-- A frame counted in RX_FRAMES_OK: stamped at its word edge (R118), stored with the service state of the base tick its
stamp belongs to (R26, R63), and classified; a calibration frame is consumed before that (R122). -/
def storeFrame (d : Dev) (f : RxFrame) (q : Parsed) (area : Area) : Dev :=
  let p := f.port.val
  let len := f.bytes.length + 4
  let trunc := decide (maxFrame d p < len)
  let bytes := if trunc then f.bytes.take (maxFrame d p - 4) else f.bytes
  let d := bumpPort (bumpPort d p 0) p 1 len
  let d := if q.dst = 2 ^ 48 - 1 then bumpPort d p 2 else if isMulticast q.dst then bumpPort d p 3 else d
  let d := if trunc then bumpPort d p 8 else d
  let valid := latchTracks d p f.word && !f.tagLost
  let d := if valid then d else bumpLaunch d p 12
  let stamp := if valid then rxStamp d f else 0
  let st := setF (statusWord q trunc bytes.length) RxSt.stampValid (b2n valid)
  let st := setF st RxSt.followerStep (b2n (valid && latchStep d p f.word))
  let st := setF st RxSt.wakeHeld (b2n (decide (power d = 1)))
  let d := traceMac d 0 p 0 0 len (stamp / 2 ^ 32)
  if isLoopFrame d p q f.bytes then (if valid then loopArrives d q f.bytes stamp else d)
  else
    claim d { bytes := bytes, status := st, stamp := stamp, port := p, svc := if valid then svcOf d stamp else svcNow d } q area

/-- A MAC control frame (R106): PAUSE or PFC, or another, counted. -/
def macControl (d : Dev) (f : RxFrame) (q : Parsed) : Dev :=
  let p := f.port.val
  let op := rdBe f.bytes q.l3 2
  if q.vlanCount = 0 ∧ f.fcsOk ∧ ¬ f.fecBad ∧ (q.dst = 0x0180C2000001 ∨ q.dst = fld d .port p Prt.stationMac)
      ∧ (op = 0x0001 ∨ op = 0x0101) then pauseFrame d p f.bytes
  else bumpPort d p 16

/-- A received frame through the cases of R100, first to last, with what its admission gave when its start was
reported. A refused frame's bytes are counted with its FCS, of which R98 does not speak (DESIGN CHOICE, assumption
log 78). Codewords and their errors exist only where the mode uses FEC (R87). -/
def receiveFrame (d : Dev) (f : RxFrame) (cur : Option RxCurrent) : Dev :=
  let p := f.port.val
  let fec := usesFec d p
  let d := if fec then bumpPort (bumpPort (bumpPort d p 20 f.cwCorrected) p 21 f.cwBad) p 22 f.symErr else d
  let q := parseFrame (fld d .port p Prt.outerTpid) f.bytes
  let admitted := match cur with
    | some c => if c.refused then none else match c.area with | some a => some a | none => rxAdmit d p
    | none => rxAdmit d p
  if f.fragment then bumpPort d p 7
  else if f.bytes.length + 4 < 64 then bumpPort d p 6
  else if q.etherType ≠ 0x8808 ∧ ¬ daPasses d p q.dst then bumpPort d p 11
  else if q.etherType = 0x8808 then macControl d { f with fecBad := fec && f.fecBad } q
  else match admitted with
    | none => bumpPort (bumpPort d p 9) p 10 (f.bytes.length + 4)
    | some area =>
      if fec ∧ f.fecBad then bumpPort d p 5
      else if !f.fcsOk then bumpPort d p 4
      else
        let (dropped, d) := wakeTest d p (f.bytes.take (maxFrame d p - 4))
        let punt := decide (fld d .port p Prt.badCsumAction = 1)
        if q.l3Status = 1 ∧ ¬ punt then bumpPort d p 12
        else if q.l4Status = 1 ∧ ¬ punt then bumpPort d p 13
        else if dropped then bumpPort d p 18
        else storeFrame d f q area

/-- The start of a frame: filtered by its destination address and, unless it is a MAC control frame, admitted, holding
MAX_FRAME bytes from then on (R94, R96). -/
def beginFrame (d : Dev) (p : Nat) (head : List Byte) : Dev :=
  let q := parseL2 (fld d .port p Prt.outerTpid) head
  let x := getPort d p
  let d := setPort d p { x with rxCur := none }
  let c : RxCurrent :=
    if q.etherType = 0x8808 ∨ ¬ daPasses d p q.dst then ⟨none, false⟩
    else match rxAdmit d p with | some a => ⟨some a, false⟩ | none => ⟨none, true⟩
  setPort d p { x with rxCur := some c }

/-- The receive path of a port works: its link is up, its lanes are locked and its clock runs. -/
def receives (d : Dev) (p : Nat) : Bool :=
  linkUp d p && serdesUp d p && (getPort d p).lossFrom.isNone && !scanHeld d

def frameReceive (d : Dev) (e : RxEvent) : Dev :=
  match e with
  | .begins p head => if receives d p.val then beginFrame d p.val head else d
  | .ends f =>
    let p := f.port.val
    if receives d p then
      let x := getPort d p
      receiveFrame (setPort d p { x with rxCur := none }) f x.rxCur
    else d

/-! ### Commands -/

/-- The limits of Table NTP.10 that refer to other fields and to the ports. -/
def addrDep (d : Dev) (req : Nat) : Dep := fun f acc v =>
  let group := bit (getF req Addr.entryMac) 40
  if f = Addr.family then
    let a := getF req Addr.address
    (if (v = 1 ∧ badUnicast false (a % 2 ^ 32)) ∨ (v = 2 ∧ badUnicast true a) then some (0, .dependent) else none)
  else if f = Addr.portMask then
    (if v &&& portMask d ≠ v then some (v &&& portMask d, .absent) else none)
  else if f = Addr.useStationMac then (if group ∧ v = 0 then some (1, .dependent) else none)
  else if f = Addr.entryMac then (if bit v 40 then some (0, .enum) else none)
  else if f = Addr.address then
    (if getF acc Addr.family = 1 ∧ 2 ^ 32 ≤ v then some (v % 2 ^ 32, .dependent) else none)
  else none

def addrEntryCmd : Cmd :=
  { op := 0x3020, readBy := [.c, .p], writeBy := [.c], isWrite := recordIsWrite 4, writeCls := .live
    check := fun _ p _ => if recordLenOk 4 .addrEntry p ∧ rdLe p 0 4 < 131072 then none else some .badLength
    body := fun _ p d =>
      let i := rdLe p 0 4
      if recordIsWrite 4 p then
        let req := carried 4 .addrEntry p
        let (v, es) := clampRecord addrFields (addrDep d req) 0 (getRec d .addrEntry i) req
        if getF v Addr.family = 0 then .done .ok (recBytes .addrEntry v) es (defer d (.write .addrEntry i v))
        else if !tenantBound d (getF v Addr.tenant) then .done .state [] [] d
        else match conflictOf d i v with
          | some j => .done .state (leBytes 4 j) [] d
          | none => .done .ok (recBytes .addrEntry v) es (defer d (.write .addrEntry i v))
      else readReply .addrEntry (getRec d .addrEntry i) d }

def clsConfigCmd : Cmd :=
  RecSpec.cmd { kind := .cls, ib := 0, image := plainImage .cls, apply := atNextEdge .cls } 0x3106 [.c, .p] [.c]

def clsStatsCmd : Cmd :=
  { op := 0x3107, readBy := [.c], check := onePort
    body := fun _ p d =>
      let (b, d) := statBlock d .cls (rdLe p 0 1) 3
      .done .ok b [] d }

def execAddrEntry (m : Msg) (s : State) : Host.Outcome State Fault Refusal := mailbox addrEntryCmd m s
def execClsConfig (m : Msg) (s : State) : Host.Outcome State Fault Refusal := mailbox clsConfigCmd m s
def execClsStats (m : Msg) (s : State) : Host.Outcome State Fault Refusal := mailbox clsStatsCmd m s

def execFrameReceive (e : RxEvent) (s : State) : Host.Outcome State Fault Refusal :=
  onPath s fun d => frameReceive d e

end Sys2Proof.Machine
end

