-- ==== Sys2Proof/Machine/Ntp.lean ====
section
/-! DEFINITION. NTP service (07_ntp_service.md): how a context ends, punts, request handling, answers, Kiss-o'-Death,
broadcasts, ARP and Neighbor Discovery, and the NTP commands. A context is named by its key, engine × 8 + thread. -/

namespace Sys2Proof.Machine

open Sys2Proof

/-! ### How a context ends (R140, R189, R190, R198) -/

/-- Table OBS.4's counters that the outcomes move. -/
def ctrAnswer : Nat := 1
def ctrKod : Nat := 2
def ctrInvalid : Nat := 8
def ctrPolicy : Nat := 9
def ctrRate : Nat := 10
def ctrUnserved : Nat := 11

/-- The jig image drops a frame: an NTP statistic and a tenant counter move. -/
def dropNtp (d : Dev) (k : Nat) (x : Context) (stat ctr : Nat) : Dev :=
  let t := x.desc.tenant
  releaseContext (countNode (countTenant (bumpNtp d t stat) t ctr) (k / 8) 26) k x stat

/-- A punt delivered or refused (R189, R190), by PUNT_MASK bit. -/
def puntNow (d : Dev) (k : Nat) (x : Context) (b : Nat) : Dev :=
  let t := x.desc.tenant
  let ring := fld d .tenant t Ten.puntRingMap / 4 ^ b % 4
  let (ok, d) := deliver (countNode d (k / 8) 25) (vfOf (tenantEp d t) (tenantVf d t)) ring
    { stamp := x.desc.pkt.stamp, status := x.desc.pkt.status, port := x.desc.pkt.port, kind := 0, puntClass := b,
      tenant := t } x.desc.pkt.bytes
  let (stat, ctr) := if ok then (23 - b, 6) else (25, 7)
  releaseContext (countTenant (bumpNtp d t stat) t ctr) k x stat

/-- What the jig image hands on, once credit is there. -/
def handOn (d : Dev) (k : Nat) (x : Context) (o : TxOut) : Dev :=
  match o with
  | .queue p q f oc => releaseContext (enqueue (countNode d (k / 8) 24) p q f) k x oc
  | .punt b => puntNow d k x b

/-- What the jig image hands on: at once, or after WAIT_TX; whether credit is missing is timing left free. -/
def submit (d : Dev) (k : Nat) (x : Context) (o : TxOut) : Dev :=
  let (v, d) := draw d
  if v % 2 = 1 then enterPhase (countNode d (k / 8) 34) k { x with phase := .credit o } else handOn d k x o

/-- A frame of a punt class (R189). -/
def punt (d : Dev) (k : Nat) (x : Context) (b : Nat) : Dev :=
  if bit (fld (governed d x) .ntp x.desc.tenant Ntp.puntMask) b then submit d k x (.punt b) else dropNtp d k x 24 ctrPolicy

/-! ### Reading a request -/

def parsed (d : Dev) (x : Context) : Parsed := parseFrame (fld d .port x.desc.pkt.port Prt.outerTpid) x.desc.pkt.bytes

/-- The offset and the length of a frame's UDP payload. -/
def udpPayload (bs : List Byte) (q : Parsed) : Nat × Nat := (q.l4 + 8, rdBe bs (q.l4 + 4) 2 - 8)

def stampUsable (st : Nat) : Bool := decide (getF st RxSt.stampValid = 1) && decide (getF st RxSt.followerStep = 0)

/-- A source address invalid under R173. -/
def badSource (d : Dev) (t : Nat) (v6 : Bool) (a : Nat) : Bool :=
  badUnicast v6 a || (activeEntries d).any fun e =>
    decide (getF e.2 Addr.tenant = t) && decide (getF e.2 Addr.family = (if v6 then 2 else 1))
      && decide (getF e.2 Addr.address = a)

/-- The access decision (R181): 0 ALLOW, 1 KOD_DENY, 2 KOD_RSTR, 3 DROP. -/
def accessOf (d : Dev) (t : Nat) (v6 : Bool) (a : Nat) : Nat :=
  let w := if v6 then 128 else 32
  let hit := (List.range 16).find? fun i =>
    let r := getRec d .access (16 * t + i)
    decide (getF r Acc.enable = 1) && decide (getF r Acc.family = (if v6 then 2 else 1))
      && decide (prefixOf w a (getF r Acc.prefixLen) = prefixOf w (getF r Acc.prefix_) (getF r Acc.prefixLen))
  match hit with
  | some i => fld d .access (16 * t + i) Acc.action
  | none => fld d .ntp t Ntp.defaultAccess

/-- The bytes after the header of a VN 4 request (R174). -/
inductive After where
  | plain | mac | malformed
  | extensions (uid : Bool)
deriving DecidableEq, Repr

/-- The extension walk of R174. -/
def walkEf : Nat → List Byte → Bool → Bool → After
  | 0, _, _, _ => .malformed
  | fuel + 1, bs, ef, uid =>
    let rem := bs.length
    if rem = 0 then (if ef then .extensions uid else .plain)
    else if rem = 20 ∨ rem = 24 then .mac
    else if rem < 16 then .malformed
    else
      let len := rdBe bs 2 2
      if len < 16 ∨ len % 4 ≠ 0 ∨ rem < len then .malformed
      else walkEf fuel (bs.drop len) true (uid || decide (rdBe bs 0 2 = 0x0104))

def afterHeader (vn : Nat) (bs : List Byte) : After :=
  if vn = 4 then walkEf (bs.length + 1) bs false false
  else if bs.length = 0 then .plain else if bs.length = 20 ∨ bs.length = 24 then .mac else .malformed

/-- What steps 1–8 of Table NTP.2 decide. -/
inductive Verdict where
  | drop (stat ctr : Nat)
  | punt (b : Nat)
  | nts
  /-- A client request past step 8; EF_ACTION ANSWER sets aside its extension fields. -/
  | request (efIgnored : Bool)
deriving DecidableEq, Repr

/-- NTS is served for the tenant (R4, R174). -/
def ntsServed (d : Dev) (t : Nat) : Bool := decide (d.variant ≠ .e) && flag d .nts t Nts.ntsEn

/-- The NTP payload of a frame. -/
def ntpBytes (d : Dev) (x : Context) : List Byte :=
  let (o, n) := udpPayload x.desc.pkt.bytes (parsed d x)
  slice x.desc.pkt.bytes o n

def ntpVn (b : List Byte) : Nat := rdBe b 0 1 / 8 % 8

def ntpMode (b : List Byte) : Nat := rdBe b 0 1 % 8

/-- Step 8 (R174). -/
def step8 (d : Dev) (t : Nat) (b : List Byte) : Verdict :=
  match afterHeader (ntpVn b) (b.drop 48) with
  | .plain => .request false
  | .mac => .punt 1
  | .malformed => .drop 12 ctrInvalid
  | .extensions uid =>
    if uid && ntsServed d t then .nts
    else match fld d .ntp t Ntp.efAction with
      | 0 => .request true
      | 1 => .drop 13 ctrPolicy
      | _ => .punt 0

/-- Steps 1–8 of Table NTP.2. -/
def ntpVerdict (d : Dev) (x : Context) : Verdict :=
  let q := parsed d x
  let b := ntpBytes d x
  let v6 := decide (q.l3Type = 2)
  let vn := ntpVn b
  let mode := ntpMode b
  if !stampUsable x.desc.pkt.status then .drop 6 ctrUnserved
  else if badSource d x.desc.tenant v6 q.ipSrc ∨ rdBe x.desc.pkt.bytes q.l4 2 = 0 then .drop 8 ctrInvalid
  else if b.length < 48 then .drop 9 ctrInvalid
  else if vn = 0 ∨ 5 ≤ vn then .drop 10 ctrInvalid
  else if mode = 6 ∨ mode = 7 then .punt 3
  else if mode = 1 ∨ mode = 2 then .punt 2
  else if (mode = 0 ∧ vn ≠ 1) ∨ mode = 4 ∨ mode = 5 then .drop 11 ctrInvalid
  else step8 (governed d x) x.desc.tenant b

/-- A frame that reaches step 8. -/
def isClientRequest (d : Dev) (x : Context) : Bool :=
  match ntpVerdict d x with
  | .nts => true
  | .request _ => true
  | .punt b => decide (b < 2)
  | .drop s _ => decide (s = 12 ∨ s = 13)

/-! ### Composition (R177, R178, R182) -/

/-- An answer frame's headers, built from the request (R178), over a UDP payload, and the offset of that payload. -/
def answerFrame (d : Dev) (x : Context) (payload : List Byte) : List Byte × Nat :=
  let q := parsed d x
  let bs := x.desc.pkt.bytes
  let r := getRec (governed d x) .ntp x.desc.tenant
  let mac := answerMac d x.desc.pkt.port (getRec d .addrEntry x.desc.entry)
  let dscp := if getF r Ntp.dscpCopy = 1 then q.dscp else getF r Ntp.dscp
  let udp := udpHeader 123 (rdBe bs q.l4 2) payload.length
  let len := 8 + payload.length
  let ip := if q.l3Type = 2 then ip6Header dscp (getF r Ntp.ttl) 17 q.ipDst q.ipSrc len
    else ip4Header dscp (getF r Ntp.ttl) 17 q.ipDst q.ipSrc len
  let head := ethHeader q.src mac q.tags q.etherType ++ ip ++ udp
  (head ++ payload, head.length)

/-- A composed frame as it goes to a queue: header checksums are left to the MAC (R105). -/
def txFrameOf (bytes : List Byte) (v6 : Bool) (l3 l4 : Nat) (who : TxWho) : TxFrame :=
  { bytes := bytes, insert := .none, insertOff := 0, view := 0, csumIp4 := !v6, csumL4 := 1, l3 := l3, l4 := l4
    launch := none, admitBt := 0, area := .none, who := who, kerfHeld := false }

/-- Poll of the answer: the request's, at least lo and at most 17. -/
def pollOf (req lo : Nat) : Nat := ofInt 8 (min 17 (max (lo : Int) (toInt 8 req)))

def ascii4 (a b c e : Nat) : List Byte := [BitVec.ofNat 8 a, BitVec.ofNat 8 b, BitVec.ofNat 8 c, BitVec.ofNat 8 e]

/-- The reference identifier (Table NTP.3). -/
def refidBytes (d : Dev) (t : Nat) (v : Svc) : List Byte :=
  let r := getRec d .ntp t
  if !v.tshSet then ascii4 0x49 0x4E 0x49 0x54
  else if getF r Ntp.refidMode = 1 then beBytes 4 (getF r Ntp.refid)
  else if v.select = 0 then ascii4 0x46 0x52 0x45 0x45
  else match v.refKind with
    | 0 => ascii4 0x47 0x50 0x53 0
    | 1 => ascii4 0x50 0x50 0x53 0
    | 2 => ascii4 0x46 0x52 0x45 0x51
    | 3 => ascii4 0x50 0x54 0x50 0
    | _ => ascii4 0x46 0x52 0x45 0x45

/-- The reference timestamp: the last servo update in the view at the base tick given. -/
def refStamp (d : Dev) (view : Nat) (v : Svc) : Nat :=
  if !v.tshSet ∨ v.select = 0 ∨ v.lastUpdate = 0 then 0 else ntpStamp (viewValue (atSvc d v) view v.lastUpdate)

/-- Bytes 0–23 of an answer: LI, VN, mode, stratum, poll, precision, root fields, reference fields. -/
def ntpHead (d : Dev) (t view : Nat) (v : Svc) (vn mode poll : Nat) (liAt : Int) : List Byte :=
  let r := getRec d .ntp t
  let st := servedState d t v
  let li := if isAlarm st then 3 else viewLi (atSvc d v) view liAt
  let stratum := if isAlarm st then 16 else if st = 2 then getF r Ntp.stratum else getF r Ntp.stratumHoldover
  beBytes 1 (li * 64 + vn * 8 + mode) ++ beBytes 1 stratum ++ beBytes 1 poll ++ beBytes 1 0xE1
    ++ beBytes 4 (rootDelay d t v) ++ beBytes 4 (rootDisp d t v) ++ refidBytes d t v ++ beBytes 8 (refStamp d view v)

/-- The 48-byte answer payload (Table NTP.3), its transmit timestamp as given. -/
def answerPayload (d : Dev) (x : Context) (b : List Byte) (t3 : Nat) : List Byte :=
  let d := governed d x
  let v := x.desc.pkt.svc
  let t := x.desc.tenant
  ntpHead d t x.view v (ntpVn b) 4 (pollOf (rdBe b 2 1) (fld d .ntp t Ntp.minPoll)) x.desc.pkt.stamp
    ++ slice b 40 8 ++ beBytes 8 (ntpStamp (viewValue (atSvc d v) x.view x.desc.pkt.stamp)) ++ beBytes 8 t3

/-- The code of a Kiss-o'-Death: 0 RATE, 1 DENY, 2 RSTR. -/
def kodCode : Nat → List Byte
  | 0 => ascii4 0x52 0x41 0x54 0x45
  | 1 => ascii4 0x44 0x45 0x4E 0x59
  | _ => ascii4 0x52 0x53 0x54 0x52

/-- A Kiss-o'-Death payload (Table NTP.4). -/
def kodPayload (d : Dev) (t : Nat) (b : List Byte) (kind : Nat) : List Byte :=
  let r := getRec d .ntp t
  let lo := if kind = 0 then max (getF r Ntp.minPoll) (getF r Ntp.ratePoll) else getF r Ntp.minPoll
  beBytes 1 (3 * 64 + ntpVn b * 8 + 4) ++ beBytes 1 0 ++ beBytes 1 (pollOf (rdBe b 2 1) lo) ++ beBytes 1 0xE1
    ++ beBytes 8 0 ++ kodCode kind ++ beBytes 8 0 ++ slice b 40 8 ++ slice b 40 8 ++ slice b 40 8

/-- A frame of the tenant's NTP service for Q5 of the arrival port, after its token of the response quota (R180). -/
def sendNtp (d : Dev) (k : Nat) (x : Context) (payload : List Byte) (insert : Bool) (stat ctr : Nat) (also : Dev → Dev) : Dev :=
  let t := x.desc.tenant
  let (ok, d) := quotaDraw d t
  if !ok then dropNtp d k x 16 ctrRate
  else
    let q := parsed d x
    let (bytes, off) := answerFrame d x payload
    let f := txFrameOf bytes (decide (q.l3Type = 2)) q.l3 (off - 8) (.ntp t none)
    let f := if insert then { f with insert := .ntpT3, insertOff := off + 40, view := x.view } else f
    submit (also (countTenant (bumpNtp d t stat) t ctr)) k x (.queue x.desc.pkt.port 5 f stat)

def sendKod (d : Dev) (k : Nat) (x : Context) (kind : Nat) : Dev :=
  sendNtp d k x (kodPayload (governed d x) x.desc.tenant (ntpBytes d x) kind) false (3 + kind) ctrKod id

/-! ### Steps 9–13 (Table NTP.2) -/

/-- Steps 11–13 of a request that is within its rate. -/
def ntpAnswer (d : Dev) (k : Nat) (x : Context) : Dev :=
  let t := x.desc.tenant
  let q := parsed d x
  let g := governed d x
  let a := accessOf g t (decide (q.l3Type = 2)) q.ipSrc
  let st := servedState g t x.desc.pkt.svc
  if a = 1 then sendKod d k x 1
  else if a = 2 then sendKod d k x 2
  else if isAlarm st ∧ fld g .ntp t Ntp.unsyncAction = 0 then dropNtp d k x 7 ctrUnserved
  else
    let ef := match ntpVerdict d x with | .request b => b | _ => false
    sendNtp d k x (answerPayload d x (ntpBytes d x) 0) true (if isAlarm st then 1 else 0) ctrAnswer
      (fun d => if ef then bumpNtp d t 2 else d)

/-- Step 10: the client table has answered (R185). -/
def ntpClient (d : Dev) (k : Nat) (x : Context) : Dev :=
  let t := x.desc.tenant
  let q := parsed d x
  let v6 := decide (q.l3Type = 2)
  let g := governed d x
  let (above, kod, d) := clientUpdate d (getRec g .ntp t) (clientHash g t v6 q.ipSrc) (accessOf g t v6 q.ipSrc)
  if kod then sendKod d k x 0 else if above then dropNtp d k x 15 ctrRate else ntpAnswer d k x

/-- Steps 9 and 10 of a client request: a context waits for the client table while RATE_EN is 1. -/
def ntpRequest (d : Dev) (k : Nat) (x : Context) : Dev :=
  let t := x.desc.tenant
  let q := parsed d x
  let g := governed d x
  if accessOf g t (decide (q.l3Type = 2)) q.ipSrc = 3 then dropNtp d k x 14 ctrPolicy
  else if flag g .ntp t Ntp.rateEn then enterPhase (countNode d (k / 8) 27) k { x with phase := .client }
  else ntpAnswer d k x

/-- The count of a request that reaches step 8, by its version. -/
def countVersion (d : Dev) (x : Context) : Dev :=
  if isClientRequest d x then bumpNtp d x.desc.tenant (32 + ntpVn (ntpBytes d x)) else d

/-! ### ARP and Neighbor Discovery (R194–R196) -/

/-- A reply of the array in Q4. -/
def sendReply (d : Dev) (k : Nat) (x : Context) (bytes : List Byte) (stat : Nat) : Dev :=
  submit d k x (.queue x.desc.pkt.port 4
    { txFrameOf bytes false 0 0 (.ntp x.desc.tenant (some stat)) with csumIp4 := false, csumL4 := 0 } stat)

/-- An ARP frame (R194). -/
def arpHandle (d : Dev) (k : Nat) (x : Context) : Dev :=
  let q := parsed d x
  let bs := x.desc.pkt.bytes
  let p := x.desc.pkt.port
  let o := q.l3
  let r := getRec d .addrEntry x.desc.entry
  let mac := answerMac d p r
  let isReq := rdBe bs o 2 = 1 ∧ rdBe bs (o + 2) 2 = 0x0800 ∧ rdBe bs (o + 4) 1 = 6 ∧ rdBe bs (o + 5) 1 = 4
    ∧ rdBe bs (o + 6) 2 = 1
  if getF r Addr.answerArpNd = 1 ∧ isReq then
    sendReply d k x (ethHeader q.src mac q.tags 0x0806 ++ beBytes 2 1 ++ beBytes 2 0x0800 ++ beBytes 1 6 ++ beBytes 1 4
      ++ beBytes 2 2 ++ beBytes 6 mac ++ beBytes 4 (getF r Addr.address) ++ slice bs (o + 8) 10) 30
  else punt d k x 6

/-- A Neighbor Solicitation valid under R195. -/
def ndValid (q : Parsed) (bs : List Byte) : Bool :=
  let m := slice bs q.l4 q.l4Len
  let target := rdBe m 8 16
  let opt := ndOption 1 (m.length + 1) (m.drop 24)
  decide (q.ttl = 255) && decide (rdBe m 1 1 = 0) && decide (24 ≤ m.length)
    && decide (fold16 (sumWords (pseudo true q.ipSrc q.ipDst 58 m.length) + sumWords m) = 65535)
    && decide (target / 2 ^ 120 ≠ 0xFF) && opt.isSome
    && (decide (q.ipSrc ≠ 0)
      || (decide (q.ipDst / 2 ^ 24 = (0xFF02 * 2 ^ 112 + 0x1FF000000) / 2 ^ 24) && decide (opt = some none)))

/-- The Neighbor Advertisement that answers (R195). -/
def ndAnswer (q : Parsed) (target mac : Nat) : List Byte :=
  let all := decide (q.ipSrc = 0)
  let dst := if all then 0xFF02 * 2 ^ 112 + 1 else q.ipSrc
  let body := beBytes 1 136 ++ beBytes 1 0 ++ beBytes 2 0 ++ beBytes 4 (if all then 2 ^ 29 else 3 * 2 ^ 29)
    ++ beBytes 16 target ++ beBytes 1 2 ++ beBytes 1 1 ++ beBytes 6 mac
  let sum := 65535 - fold16 (sumWords (pseudo true target dst 58 32) + sumWords body)
  ethHeader (if all then 0x333300000001 else q.src) mac q.tags 0x86DD ++ ip6Header 0 255 58 target dst 32
    ++ overwrite body 2 (beBytes 2 sum)

/-- A Neighbor Solicitation (R195). -/
def ndHandle (d : Dev) (k : Nat) (x : Context) : Dev :=
  let q := parsed d x
  let bs := x.desc.pkt.bytes
  let r := getRec d .addrEntry x.desc.entry
  if getF r Addr.answerArpNd = 0 then punt d k x 6
  else if !ndValid q bs then dropNtp d k x 12 ctrInvalid
  else sendReply d k x (ndAnswer q (rdBe bs (q.l4 + 8) 16) (answerMac d x.desc.pkt.port r)) 31

/-- A frame of service OTHER. -/
def otherHandle (d : Dev) (k : Nat) (x : Context) : Dev := punt d k x 6

/-! ### Broadcasts (R191–R193) -/

/-- The lowest-indexed active entry of a tenant with a family on a port. -/
def sourceEntry (d : Dev) (t p fam : Nat) : Option (Nat × Nat) :=
  (activeEntries d).find? fun e =>
    decide (getF e.2 Addr.tenant = t) && decide (getF e.2 Addr.family = fam) && bit (getF e.2 Addr.portMask) p

/-- The tags of an entry's VLAN key (R192). -/
def entryTags (d : Dev) (p r : Nat) : List Byte :=
  match getF r Addr.vlanMatch with
  | 1 => vlanTag 0x8100 0 (getF r Addr.outerVid)
  | 2 => vlanTag (fld d .port p Prt.outerTpid) 0 (getF r Addr.outerVid) ++ vlanTag 0x8100 0 (getF r Addr.innerVid)
  | _ => []

/-- A launch instant of the tenant's schedule, in NANOSECONDS of TSH (R191). -/
def bcastGrid (d : Dev) (t l : Nat) : Bool :=
  let r := getRec d .bcast t
  decide (l % (2 ^ getF r Bc.bcastPoll * 10 ^ 9) = getF r Bc.phaseMs * 10 ^ 6)

/-- A descriptor that a unit of the device places itself. -/
def ownDesc (d : Dev) (t p : Nat) (s : Service) : Desc :=
  { pkt := { bytes := [], status := 0, stamp := 0, port := p, svc := svcNow d }, area := .none, tenant := t, service := s,
    entry := 0, storedBt := d.bt, order := 0, multicast := false, ageUs := 0, holdMs := 0 }

/-- A wake request for the target node, as a WAKE pattern would make it, in LISTEN. -/
def wakeTarget (d : Dev) (t : Nat) : Dev :=
  if power d ≠ 1 then d else match targetOf d t with | some (c, _) => wakeRequest d c | none => d

/-- 20 µs before a launch instant (R191, R193). -/
def broadcastDue (d : Dev) (t p l : Nat) : Dev :=
  let r := getRec d .bcast t
  if d.pwr.tablesLost = false ∧ tenantBound d t ∧ getF r Bc.bcastEn = 1 ∧ bit (getF r Bc.portMask) p ∧ portStarts d p ∧ bcastGrid d t l
      ∧ reached d ((l - 20000) * 2 ^ 32) then
    if isAlarm (servedState d t (svcNow d)) then bumpNtp d t 28
    else if (sourceEntry d t p (getF r Bc.bcastFamily)).isNone then bumpNtp d t 29
    else wakeTarget (dispatch d (ownDesc d t p (.bcast p l))) t
  else d

/-- The engine composes a broadcast and submits it to Q7 (R192, R127). -/
def bcastHandle (d : Dev) (k : Nat) (x : Context) (p l : Nat) : Dev :=
  let t := x.desc.tenant
  let g := governed d x
  let b := getRec g .bcast t
  let n := getRec g .ntp t
  match sourceEntry d t p (getF b Bc.bcastFamily) with
  | none => releaseContext (countNode (bumpNtp d t 29) (k / 8) 26) k x 29
  | some (_, e) =>
    let (ok, d) := quotaDraw d t
    if !ok then dropNtp d k x 16 ctrRate
    else
      let v6 := decide (getF b Bc.bcastFamily = 2)
      let v := svcNow d
      let l32 : Nat := l * 2 ^ 32
      let payload := ntpHead g t x.view v (getF b Bc.bcastVn) 5 (getF b Bc.bcastPoll) l32 ++ beBytes 16 0
        ++ beBytes 8 (ntpStamp (viewValue d x.view l32))
      let dst := getF b Bc.destAddr
      let src := getF e Addr.address
      let dscp := getF n Ntp.dscp
      let len := 8 + payload.length
      let ip := if v6 then ip6Header dscp (getF n Ntp.ttl) 17 src dst len else ip4Header dscp (getF n Ntp.ttl) 17 src dst len
      let eth := ethHeader (groupMac v6 dst) (answerMac d p e) (entryTags d p e) (if v6 then 0x86DD else 0x0800)
      let f := txFrameOf (eth ++ ip ++ udpHeader 123 123 payload.length ++ payload) v6 eth.length (eth.length + ip.length)
        (.ntp t (some 27))
      let f := { f with launch := some (launchAt t l32) }
      submit d k x (.queue p 7 f 27)

/-! ### Commands (Table NTP.8) -/

def ntpConfigCmd : Cmd :=
  RecSpec.cmd { kind := .ntp, ib := 2, inSet := tenantIdx, image := plainImage .ntp, apply := atNextEdge .ntp }
    0x3100 [.c, .p, .v] [.c] .live (tenantAt 0)

/-- PREFIX_LEN by FAMILY, and the PREFIX bits beyond it. -/
def accDep : Dep := fun f acc v =>
  let w := if getF acc Acc.family = 2 then 128 else 32
  if f = Acc.prefixLen then (if w < v then some (w, .dependent) else none)
  else if f = Acc.prefix_ then
    let a := prefixOf w (v % 2 ^ w) (getF acc Acc.prefixLen)
    (if a = v then none else some (a, .dependent))
  else none

def ntpAccessCmd : Cmd :=
  RecSpec.cmd { kind := .access, ib := 3, index := fun p => rdLe p 0 2 * 16 + rdLe p 2 1
                inSet := fun p => tenantIdx p && decide (rdLe p 2 1 < 16), image := plainImage .access
                dep := fun _ _ _ => accDep, apply := atNextEdge .access } 0x3101 [.c, .p, .v] [.c] .live (tenantAt 0)

/-- The limits of Table NTP.11 that refer to the ports and to other fields. -/
def bcDep (d : Dev) : Dep := fun f acc v =>
  if f = Bc.portMask then (if v &&& portMask d ≠ v then some (v &&& portMask d, .absent) else none)
  else if f = Bc.phaseMs then
    let m := 2 ^ getF acc Bc.bcastPoll * 1000 - 1
    (if m < v then some (m, .dependent) else none)
  else if f = Bc.destAddr then
    (if getF acc Bc.bcastFamily = 2 then
      (if v / 2 ^ 120 = 0xFF then none else some (0xFF02 * 2 ^ 112 + 0x101, .dependent))
    else if 2 ^ 32 ≤ v then some (v % 2 ^ 32, .dependent) else none)
  else none

def ntpBcastCmd : Cmd :=
  RecSpec.cmd { kind := .bcast, ib := 2, inSet := tenantIdx, image := plainImage .bcast, dep := fun d _ _ => bcDep d
                apply := atNextEdge .bcast } 0x3102 [.c, .p, .v] [.c] .live (tenantAt 0)

/-- The check of a command that names one tenant. -/
def oneTenant : Ctx → List Byte → Dev → Option Status := fun _ p _ =>
  if p.length = 4 ∧ tenantIdx p then none else some .badLength

/-- A read of a tenant's statistics block, which clears it. -/
def tenantStats (op : Nat) (k : StatKind) (n : Nat) : Cmd :=
  { op := op, readBy := [.c, .v], tenant := tenantAt 0, check := oneTenant
    body := fun _ p d =>
      let (b, d) := statBlock d k (rdLe p 0 2) n
      .done .ok b [] d }

def ntpStatsCmd : Cmd := tenantStats 0x3103 .ntp 37

def execNtpConfig (m : Msg) (s : State) : Host.Outcome State Fault Refusal := mailbox ntpConfigCmd m s
def execNtpAccess (m : Msg) (s : State) : Host.Outcome State Fault Refusal := mailbox ntpAccessCmd m s
def execNtpBcast (m : Msg) (s : State) : Host.Outcome State Fault Refusal := mailbox ntpBcastCmd m s
def execNtpStats (m : Msg) (s : State) : Host.Outcome State Fault Refusal := mailbox ntpStatsCmd m s

def execBroadcastDue (tenant : Fin 4096) (port : Fin 16) (launch : Nat) (s : State) : Host.Outcome State Fault Refusal :=
  onPath s fun d => broadcastDue d tenant.val port.val launch

end Sys2Proof.Machine
end

