-- ==== Sys2Proof/Machine/Nts.lean ====
section
/-! DEFINITION. NTS service (08_nts_service.md): request handling, the jobs of the AEAD lanes, answers and rejects, the
master-key rings, wrapped keys, NTS_MINT and the NTS commands. -/

namespace Sys2Proof.Machine

open Sys2Proof

/-! ### Algorithms (Table NTS.1) and sealing (R202, R203) -/

/-- K of an AEAD_ID; none where Table NTS.1 does not list it. -/
def algKey (a : Nat) : Option Nat :=
  if a = 15 then some 32 else if a = 16 then some 48 else if a = 17 then some 64 else if a = 30 then some 16 else none

/-- The bit of an AEAD_ID in ALG_MASK, its place among REQ_ALG. -/
def algBit (a : Nat) : Nat := if a = 15 then 0 else if a = 16 then 1 else if a = 17 then 2 else 3

def nonceAccepted (a n : Nat) : Bool := if a = 30 then decide (n = 12) else decide (16 ≤ n) && decide (n ≤ 32)

def respNonce (a : Nat) : Nat := if a = 30 then 12 else 16

/-- K of a cookie's length, 40 + 2K. -/
def cookieKey (n : Nat) : Option Nat :=
  if n = 104 then some 32 else if n = 136 then some 48 else if n = 168 then some 64 else if n = 72 then some 16 else none

/-- What an algorithm seals under a key, with associated data and nonce: vector and ciphertext, or ciphertext and tag. -/
def sealed (alg : Nat) (key ad nonce pt : List Byte) : List Byte :=
  if alg = 30 then gcmSivSeal key nonce ad pt else sivSealFrom key (sivStart key) [ad, nonce] pt

/-- The plaintext of something so sealed, where it verifies. -/
def opened (alg : Nat) (key ad nonce ct : List Byte) : Option (List Byte) :=
  if alg = 30 then gcmSivOpen key nonce ad ct else sivOpenFrom key (sivStart key) [ad, nonce] ct

/-- The S2V value of a master key after CMAC(zero) and KEY_ID (R202). -/
def cookieS2v (key : List Byte) (keyId : Nat) : Nat :=
  let k1 := key.take 16
  s2vStep k1 (s2vStart k1) (beBytes 4 keyId)

/-- n random bytes. -/
def drawBytes (d : Dev) (n : Nat) : List Byte × Dev :=
  let (v, d) := draw d
  (beBytes n v, d)

/-- A cookie minted under a master key and the S2V value its slot holds (R203). -/
def mintCookie (d : Dev) (keyId : Nat) (key : List Byte) (s2v alg : Nat) (c2s s2c : List Byte) : List Byte × Dev :=
  let (nonce, d) := drawBytes d 16
  (beBytes 4 keyId ++ nonce ++ sivSealFrom key s2v [nonce] (beBytes 2 alg ++ beBytes 2 0 ++ c2s ++ s2c), d)

/-! ### The request (R206) -/

/-- The extension fields R174 has delimited: type, offset in the payload, and the whole field. -/
def splitEf : Nat → Nat → List Byte → List (Nat × Nat × List Byte)
  | 0, _, _ => []
  | fuel + 1, off, bs =>
    if bs.length = 0 then []
    else
      let n := max 4 (rdBe bs 2 2)
      (rdBe bs 0 2, off, bs.take n) :: splitEf fuel (off + n) (bs.drop n)

/-- The parts of a request that meets R206: the Unique Identifier field, the cookie, the placeholders, the associated
data, the authenticator's nonce and ciphertext, and whether other fields stand before the authenticator. -/
structure NtsReq where
  uid : List Byte
  cookie : List Byte
  places : Nat
  ad : List Byte
  nonce : List Byte
  cipher : List Byte
  others : Bool

def pad4 (n : Nat) : Nat := (n + 3) / 4 * 4

def ntsReq (b : List Byte) : Option NtsReq :=
  let efs := splitEf (b.length + 1) 48 (b.drop 48)
  let of (ty : Nat) : List (List Byte) := (efs.filter fun e => e.1 = ty).map fun e => e.2.2
  match of 0x0104, of 0x0204, of 0x0404, efs.getLast? with
  | [uid], [ck], [au], some (ty, off, _) =>
    let body := au.drop 4
    let n := rdBe body 0 2
    let c := rdBe body 2 2
    if ty ≠ 0x0404 ∨ uid.length < 36 ∨ 260 < uid.length ∨ (of 0x0304).any (fun p => decide (p.length ≠ ck.length))
        ∨ n < 12 ∨ 32 < n ∨ c < 16 ∨ 272 < c ∨ body.length < 4 + pad4 n + pad4 c then none
    else some { uid := uid, cookie := ck.drop 4, places := (of 0x0304).length, ad := b.take off, nonce := slice body 4 n,
                cipher := slice body (4 + pad4 n) c,
                others := efs.any fun e => !List.contains [0x0104, 0x0204, 0x0304, 0x0404] e.1 }
  | _, _, _, _ => none

/-! ### The key ring (R215) -/

def ringSlot (t s : Nat) : Nat := 3 * t + s

/-- KEY_ID and ROLE of a tenant's slots: one sample (R208). -/
def ringSample (d : Dev) (t : Nat) : List (Nat × Nat) :=
  (List.range 3).map fun s => (fld d .keyRing (ringSlot t s) KeyR.keyId, fld d .keyRing (ringSlot t s) KeyR.role)

/-- The slot whose usable key has a KEY_ID, in a sample. -/
def sampleFind (l : List (Nat × Nat)) (id : Nat) : Option Nat :=
  l.findIdx? fun e => decide (e.1 = id) && decide (2 ≤ e.2)

def sampleMint (l : List (Nat × Nat)) : Option Nat := l.findIdx? fun e => decide (e.2 = 3)

def masterKey (d : Dev) (t s : Nat) : List Byte := beBytes 32 (Tab.get 0 d.key.nts (ringSlot t s))

def masterS2v (d : Dev) (t s : Nat) : Nat := Tab.get 0 d.key.s2v (ringSlot t s)

/-- A key store slot written: its key, with the S2V value of the key and its KEY_ID. -/
def setMaster (d : Dev) (i v s2v : Nat) : Dev :=
  { d with key := { d.key with nts := Tab.set 0 d.key.nts i v, s2v := Tab.set 0 d.key.s2v i s2v } }

def zeroMaster (d : Dev) (i : Nat) : Dev := setMaster d i 0 0

/-! ### Outcomes (Table NTS.10) -/

def dropNts (d : Dev) (k : Nat) (x : Context) (stat ctr : Nat) : Dev :=
  let t := x.desc.tenant
  releaseContext (countNode (countTenant (bumpNts d t stat) t ctr) (k / 8) 26) k x stat

/-- A composed NTS frame for Q5, or for Q7 with its launch. -/
def ntsFrame (d : Dev) (x : Context) (payload : List Byte) (answer : Bool) : TxFrame :=
  let q := parsed d x
  let (bytes, off) := answerFrame d x payload
  txFrameOf bytes (decide (q.l3Type = 2)) q.l3 (off - 8) (.nts x.desc.tenant answer)

/-- The payload of an NTS NAK (R214). -/
def nakPayload (d : Dev) (x : Context) (q : NtsReq) : List Byte :=
  overwrite (kodPayload (governed d x) x.desc.tenant (ntpBytes d x) 1) 12 (ascii4 0x4E 0x54 0x53 0x4E) ++ q.uid

/-- A Reject outcome (R209): its statistic, and whether it comes of step 8. -/
def rejectNts (d : Dev) (k : Nat) (x : Context) (stat : Nat) (atAuth : Bool) : Dev :=
  let t := x.desc.tenant
  let mode := fld (governed d x) .nts t Nts.nakMode
  match ntsReq (ntpBytes d x) with
  | none => dropNts d k x 14 ctrInvalid
  | some q =>
    if mode = 0 ∨ (mode = 1 ∧ atAuth = false) then
      let (ok, d) := quotaDraw d t
      if !ok then dropNts d k x 17 ctrRate
      else submit (countTenant (bumpNts d t stat) t 13) k x
        (.queue x.desc.pkt.port 5 (ntsFrame d x (nakPayload d x q) false) stat)
    else dropNts (bumpNts d t 13) k x stat 13

/-! ### Lane jobs (R151–R153, Table NTS.2) -/

def blocks (n : Nat) : Nat := (n + 15) / 16

/-- The lane cycles of a job of a context (Table NTS.2). -/
def jobBlocks (kind : JobKind) (w : NtsWork) (q : NtsReq) : Nat :=
  let k := (cookieKey q.cookie.length).getD 0
  match kind with
  | .openCookie | .mint => 1 + 2 * blocks (4 + 2 * k)
  | .auth => (if w.alg = 30 then 6 else 3) + blocks q.ad.length + 2 * blocks (q.cipher.length - 16)
  | .seal =>
    let r := sumOf w.minted fun c => 4 + c.length
    (if w.alg = 30 then 6 else 2) + blocks (48 + q.uid.length) + 2 * blocks r

/-- The phase a context waits in for a job. -/
def JobKind.phase : JobKind → CtxPhase
  | .openCookie => .openCookie | .auth => .auth | .mint => .mint | .seal => .seal

/-- The context a job was submitted by, if it still waits for it. -/
def jobContext (d : Dev) (j : LaneJob) : Option (Nat × Context × NtsWork) :=
  match j.owner with
  | .door _ _ => none
  | .thread k packet =>
    match ctxAt d (k / 8) (k % 8) with
    | none => none
    | some x => match x.nts with
      | some w => if x.packet = packet ∧ x.phase = j.kind.phase then some (k, x, w) else none
      | none => none

/-- The key material a job takes into its lane. -/
def jobKey (d : Dev) (j : LaneJob) : List Byte :=
  match j.owner with
  | .door f n => (match (getDoor d f n).serving with | some (_, .mint _ _ _ key _ _) => beBytes 32 key | _ => [])
  | .thread _ _ =>
    match jobContext d j with
    | none => []
    | some (_, x, w) =>
      let ring (s : Option Nat) : List Byte := match s with | some s => masterKey d x.desc.tenant s | none => []
      match j.kind with
      | .openCookie => ring (match ntsReq (ntpBytes d x) with | some q => sampleFind w.sample (rdBe q.cookie 0 4) | none => none)
      | .auth => w.c2s
      | .mint => ring (sampleMint w.sample)
      | .seal => w.s2c

/-- A lane takes a job at an engine cycle. -/
def startJob (d : Dev) (k l : Nat) (j : LaneJob) (now : Nat) : Dev :=
  let run : LaneRun := { job := j, from_ := now, key := jobKey d j }
  let d := setWaiting d k ((waitingJobs d k).filter fun i => decide (i.order ≠ j.order))
  countNode (setLane (refillArbiter d k) l (some run)) (128 + k) 18

/-- The free lanes of a nest that are in service take the jobs R152 chooses. -/
def startLanes (d : Dev) (k now : Nat) : Dev :=
  [2 * k, 2 * k + 1].foldl (fun d l =>
    if bit d.arr.lanesOut l || (laneRun d l).isSome then d
    else match chooseJob d k now with
      | some j => startJob d k l j now
      | none => d) d

/-- A job given to a nest's arbiter, or held by its thread while the arbiter is full. -/
def enqueueJob (d : Dev) (k : Nat) (j : LaneJob) : Dev :=
  let d := settle d (128 + k)
  let n := d.arr.nextOrder
  let d := { d with arr := { d.arr with nextOrder := n + 1 } }
  let j := { j with order := n }
  let d := if (waitingJobs d k).length < arbiterSize then setWaiting d k (waitingJobs d k ++ [j])
    else setFull d k (Tab.get [] d.arr.laneFull k ++ [j])
  startLanes d k (cycleAt d d.obs.phase)

/-- A job of a context submitted (R151): the thread waits for it. -/
def submitJob (d : Dev) (k : Nat) (x : Context) (w : NtsWork) (q : NtsReq) (kind : JobKind) : Dev :=
  let d := enterPhase (countNode d (k / 8) 32) k { x with phase := kind.phase, nts := some w }
  enqueueJob d (k / 64) { owner := .thread k x.packet, kind := kind, tenant := x.desc.tenant, node := x.node
                          blocks := jobBlocks kind w q, order := 0 }

/-- The job of a lane ends at an engine cycle: its key material is cleared with it, and its blocks are counted, all of them
or, where it failed, a part that is left free. -/
def finishLane (d : Dev) (l : Nat) (r : LaneRun) (ok : Bool) (now : Nat) : Dev :=
  let d := settle d (128 + l / 2)
  let (n, d) := if ok then (r.job.blocks, d) else drawUpTo d r.job.blocks
  let d := countTenant (countNode (setLane d l none) (128 + l / 2) 19 n) r.job.tenant 22 n
  let use : ShareUse := ⟨now, r.job.tenant, r.job.node, n⟩
  { d with arr := { d.arr with laneUses := recentUses now (d.arr.laneUses ++ [use]) } }

/-- A job failed back: its packet is dropped (R153). -/
def jobFailed (d : Dev) (k : Nat) (x : Context) : Dev :=
  let d := countNode (countNode d (128 + k / 64) 23) (k / 8) 26
  releaseContext (countTenant d x.desc.tenant 16) k x 0xFFFF

/-! ### Table NTS.5 -/

def emptyWork : NtsWork :=
  { sample := [], ratePending := false, alg := 0, c2s := [], s2c := [], kod := none, toMint := 0, minted := [], l := 0
    head := [] }

/-- Step 4, and the wait for the ring sample of step 5. -/
def ntsRing (d : Dev) (k : Nat) (x : Context) (pending : Bool) : Dev :=
  match ntsReq (ntpBytes d x) with
  | none => dropNts d k x 14 ctrInvalid
  | some q =>
    if (cookieKey q.cookie.length).isNone then rejectNts d k x 10 false
    else enterPhase (countNode d (k / 8) 31) k { x with phase := .ring, nts := some { emptyWork with ratePending := pending } }

/-- Step 3: the client table has answered. -/
def ntsClient (d : Dev) (k : Nat) (x : Context) : Dev :=
  let t := x.desc.tenant
  let q := parsed d x
  let v6 := decide (q.l3Type = 2)
  let g := governed d x
  let (above, kod, d) := clientUpdate d (getRec g .ntp t) (clientHash g t v6 q.ipSrc) (accessOf g t v6 q.ipSrc)
  if above ∧ kod = false then dropNts d k x 16 ctrRate else ntsRing d k x kod

/-- Steps 1–3. -/
def ntsRequest (d : Dev) (k : Nat) (x : Context) : Dev :=
  let t := x.desc.tenant
  let q := parsed d x
  let x := { x with nts := some emptyWork }
  let g := governed d x
  if (ntsReq (ntpBytes d x)).isNone then dropNts d k x 14 ctrInvalid
  else if accessOf g t (decide (q.l3Type = 2)) q.ipSrc = 3 then dropNts d k x 15 ctrPolicy
  else if flag g .ntp t Ntp.rateEn then enterPhase (countNode d (k / 8) 27) k { x with phase := .client }
  else ntsRing d k x false

/-- The ring sample has been read (step 5): the cookie goes to the lane. -/
def ntsSampled (d : Dev) (k : Nat) (x : Context) (w : NtsWork) : Dev :=
  let l := ringSample d x.desc.tenant
  match ntsReq (ntpBytes d x) with
  | none => dropNts d k x 14 ctrInvalid
  | some q =>
    if (sampleFind l (rdBe q.cookie 0 4)).isNone then rejectNts d k x 9 false
    else submitJob d k x { w with sample := l } q .openCookie

/-- Step 7 and the authentication job. -/
def ntsOpened (d : Dev) (k : Nat) (x : Context) (w : NtsWork) (q : NtsReq) : Dev :=
  if !bit (fld (governed d x) .nts x.desc.tenant Nts.algMask) (algBit w.alg) ∨ !nonceAccepted w.alg q.nonce.length then
    rejectNts d k x 11 false
  else submitJob d k x w q .auth

/-- The cookie's plaintext under R204: AEAD_ID, C2S, S2C. -/
def cookieParts (len : Nat) (pt : List Byte) : Option (Nat × List Byte × List Byte) :=
  let a := rdBe pt 0 2
  match algKey a, cookieKey len with
  | some k, some k' => if k = k' ∧ rdBe pt 2 2 = 0 then some (a, slice pt 4 k, slice pt (4 + k) k) else none
  | _, _ => none

/-- An open counted in OPENS of the slot, while it holds the key of the sample. -/
def countOpen (d : Dev) (t s id : Nat) : Dev :=
  let i := ringSlot t s
  if fld d .keyRing i KeyR.keyId = id ∧ 2 ≤ fld d .keyRing i KeyR.role then bumpFld d .keyRing i KeyR.opens else d

/-- Step 6: the cookie has been opened with the key in the lane, or not. -/
def ntsOpenDone (d : Dev) (k : Nat) (x : Context) (w : NtsWork) (q : NtsReq) (key : List Byte) : Dev :=
  let t := x.desc.tenant
  let id := rdBe q.cookie 0 4
  match sampleFind w.sample id with
  | none => rejectNts d k x 9 false
  | some s =>
    match sivOpenFrom key (masterS2v d t s) [slice q.cookie 4 16] (q.cookie.drop 20) with
    | none => rejectNts d k x 10 false
    | some pt =>
      match cookieParts q.cookie.length pt with
      | none => rejectNts d k x 10 false
      | some (a, c2s, s2c) => ntsOpened (countOpen d t s id) k x { w with alg := a, c2s := c2s, s2c := s2c } q

/-- An authenticated Kiss-o'-Death (R214). -/
def ntsKod (d : Dev) (k : Nat) (x : Context) (w : NtsWork) (q : NtsReq) (kind : Nat) : Dev :=
  let t := x.desc.tenant
  let (ok, d) := quotaDraw d t
  if !ok then dropNts d k x 17 ctrRate
  else submitJob d k x { w with kod := some kind, head := kodPayload (governed d x) t (ntpBytes d x) kind } q .seal

/-- The answer's composition before its mints (R210–R212). -/
def ntsAnswer (d : Dev) (k : Nat) (x : Context) (w : NtsWork) (q : NtsReq) : Dev :=
  let t := x.desc.tenant
  let (ok, d) := quotaDraw d t
  if !ok then dropNts d k x 17 ctrRate
  else
    let g := governed d x
    let m := fld g .nts t Nts.maxCookies
    let d := if m < 1 + q.places then bumpNts d t 4 else d
    let l : Nat := (x.desc.pkt.stamp + fld g .launch t Lch.launchOffsetNs * 2 ^ 32) % 2 ^ 96
    let head := answerPayload d x (ntpBytes d x) (ntpStamp (viewValue d x.view l))
    let w := { w with l := l, head := head, toMint := min (1 + q.places) m }
    if (sampleMint w.sample).isSome then submitJob d k x w q .mint
    else submitJob (bumpNts d t 3) k x { w with toMint := 0 } q .seal

/-- Steps 9–12, after step 8 has passed. -/
def ntsAuthed (d : Dev) (k : Nat) (x : Context) (w : NtsWork) (q : NtsReq) : Dev :=
  let t := x.desc.tenant
  let p := parsed d x
  let d := bumpNts d t (27 + algBit w.alg)
  let d := if q.others ∨ 16 < q.cipher.length then bumpNts d t 5 else d
  let g := governed d x
  let a := accessOf g t (decide (p.l3Type = 2)) p.ipSrc
  if w.ratePending then ntsKod d k x w q 0
  else if a = 1 ∨ a = 2 then ntsKod d k x w q a
  else if isAlarm (servedState g t x.desc.pkt.svc) ∧ fld g .ntp t Ntp.unsyncAction = 0 then dropNts d k x 18 ctrUnserved
  else ntsAnswer d k x w q

/-- Step 8, with the key in the lane. -/
def ntsAuthDone (d : Dev) (k : Nat) (x : Context) (w : NtsWork) (q : NtsReq) (key : List Byte) : Dev :=
  if (opened w.alg key q.ad q.nonce q.cipher).isNone then rejectNts d k x 12 true else ntsAuthed d k x w q

/-- One cookie of an answer has been minted with the key in the lane; the next, or the seal. -/
def ntsMintDone (d : Dev) (k : Nat) (x : Context) (w : NtsWork) (q : NtsReq) (key : List Byte) : Dev :=
  match sampleMint w.sample with
  | none => submitJob d k x w q .seal
  | some s =>
    let id := (w.sample.getD s (0, 0)).1
    let (c, d) := mintCookie d id key (masterS2v d x.desc.tenant s) w.alg w.c2s w.s2c
    let w := { w with minted := w.minted ++ [c], toMint := w.toMint - 1 }
    submitJob d k x w q (if w.toMint = 0 then .seal else .mint)

/-- The authenticator field of an answer or Kiss-o'-Death. -/
def authEf (alg : Nat) (key nonce ad pt : List Byte) : List Byte :=
  let ct := sealed alg key ad nonce pt
  beBytes 2 0x0404 ++ beBytes 2 (8 + nonce.length + ct.length) ++ beBytes 2 nonce.length ++ beBytes 2 ct.length
    ++ nonce ++ ct

/-- The seal is done with the key in the lane: the answer goes to Q7 with its launch, the Kiss-o'-Death to Q5 (R213,
R214). -/
def ntsSealDone (d : Dev) (k : Nat) (x : Context) (w : NtsWork) (q : NtsReq) (key : List Byte) : Dev :=
  let t := x.desc.tenant
  let (nonce, d) := drawBytes d (respNonce w.alg)
  let pt := w.minted.flatMap fun c => beBytes 2 0x0204 ++ beBytes 2 (4 + c.length) ++ c
  let ad := w.head ++ q.uid
  let f := ntsFrame d x (ad ++ authEf w.alg key nonce ad pt) w.kod.isNone
  match w.kod with
  | some kind => submit (countTenant (bumpNts d t (6 + kind)) t ctrKod) k x (.queue x.desc.pkt.port 5 f (6 + kind))
  | none =>
    let f := { f with launch := some (launchAt t w.l) }
    let stat := if isAlarm (servedState (governed d x) t x.desc.pkt.svc) then 1 else 0
    submit (countTenant (bumpNts (bumpNts d t 2 w.minted.length) t stat) t ctrAnswer) k x
      (.queue x.desc.pkt.port 7 f stat)

/-- The job of a lane is back with its thread (R151, R153); where the thread has given its packet up, the result is
discarded. A job that needs a nonce fails while the random source withholds its output (R385). -/
def jobReturned (d : Dev) (r : LaneRun) (ok : Bool) : Dev :=
  match jobContext d r.job with
  | none => d
  | some (k, x, w) =>
    match ntsReq (ntpBytes d x) with
    | none => d
    | some q =>
      let nonce := decide (r.job.kind = .mint) || decide (r.job.kind = .seal)
      if !ok ∨ (nonce = true ∧ d.key.rngWithheld = true) then jobFailed d k x
      else match r.job.kind with
        | .openCookie => ntsOpenDone d k x w q r.key
        | .auth => ntsAuthDone d k x w q r.key
        | .mint => ntsMintDone d k x w q r.key
        | .seal => ntsSealDone d k x w q r.key

/-- The lane that runs the oldest job of a thread. -/
def laneOf (d : Dev) (e t : Nat) : Option (Nat × LaneRun) :=
  let mine := [e / 8 * 2, e / 8 * 2 + 1].filterMap fun l => (laneRun d l).bind fun r =>
    match r.job.owner with
    | .thread k _ => if k = 8 * e + t then some (l, r) else none
    | .door _ _ => none
  mine.foldl (fun best x => match best with
    | none => some x
    | some b => if x.2.from_ < b.2.from_ then some x else some b) none

/-- A lane has completed or failed the job of a thread; a job completes no sooner than its lane cycles allow. -/
def aeadJobComplete (d : Dev) (e t : Nat) (ok : Bool) : Dev :=
  match laneOf d e t with
  | none => d
  | some (l, r) =>
    if ok ∧ (d.bt + 1) * cyclesPerBt d < r.from_ + r.job.blocks then d
    else
      let d := settle d (128 + l / 2)
      let d := jobReturned (finishLane d l r ok (cycleAt d d.obs.phase)) r ok
      startLanes d (l / 2) (cycleAt d d.obs.phase)

/-! ### Ring changes (R216–R220) -/

/-- D of R216: CONTEXT_TIMEOUT_US in base ticks, rounded up. -/
def usableDelay (d : Dev) : Nat := (fld d .array 0 Arr.contextTimeoutUs * 1000 + btNs d - 1) / btNs d

def ringEntry (d : Dev) (t s : Nat) : Nat := getRec d .keyRing (ringSlot t s)

def ringPending (d : Dev) (t : Nat) : Bool := (List.range 3).any fun s => decide (getF (ringEntry d t s) KeyR.role = 1)

/-- The slot an install replaces: the lowest EMPTY one, else the non-MINT slot of the lowest USABLE_BT. -/
def installSlot (d : Dev) (t : Nat) : Nat :=
  match (List.range 3).find? fun s => decide (getF (ringEntry d t s) KeyR.role = 0) with
  | some s => s
  | none =>
    ((List.range 3).filter fun s => getF (ringEntry d t s) KeyR.role ≠ 3).foldl (fun best s =>
      if best = 3 ∨ getF (ringEntry d t s) KeyR.usableBt < getF (ringEntry d t best) KeyR.usableBt then s else best) 3

/-- A KEY_ID that is not 0 and not in a list, from a random number. -/
def freshId : Nat → List Nat → Nat → Nat
  | 0, _, v => v % 2 ^ 32
  | fuel + 1, l, v => if v % 2 ^ 32 = 0 ∨ l.contains (v % 2 ^ 32) then freshId fuel l (v + 1) else v % 2 ^ 32

def ringIds (d : Dev) (t : Nat) : List Nat := (ringSample d t).map (·.1)

/-- The 96-byte key ring record. -/
def ringBytes (d : Dev) (t : Nat) : List Byte := (List.range 3).flatMap fun s => leBytes 32 (ringEntry d t s)

def setPendingKey (d : Dev) (i : Nat) (p : Option PendingKey) : Dev :=
  { d with nts := { d.nts with pendingKeys := Tab.set none d.nts.pendingKeys i p } }

/-- An install at its edge (R216, stage 1). -/
def applyInstall (d : Dev) (t keyId origin key : Nat) (rotate : Bool) : Option Dev :=
  if ringPending d t then none
  else
    let s := installSlot d t
    let (v, d) := draw d
    let id := if keyId = 0 then freshId 4 (ringIds d t) v else keyId
    let r := setF (setF (setF (setF 0 KeyR.keyId id) KeyR.role 1) KeyR.origin origin) KeyR.usableBt (d.bt + usableDelay d)
    some (setPendingKey (setRec d .keyRing (ringSlot t s) r) (ringSlot t s) (some ⟨key, rotate⟩))

/-- A promotion (R217): none where the KEY_ID is not in the ring or PENDING. -/
def applyPromote (d : Dev) (t id : Nat) : Option Dev :=
  match sampleFind (ringSample d t) id with
  | none => none
  | some s =>
    let d := (List.range 3).foldl (fun d i =>
      if getF (ringEntry d t i) KeyR.role = 3 then setFld d .keyRing (ringSlot t i) KeyR.role 2 else d) d
    some (setFld (setFld d .keyRing (ringSlot t s) KeyR.role 3) .keyRing (ringSlot t s) KeyR.promoteBt d.bt)

/-- A ring cleared (R219): the keys are zeroized D base ticks later. -/
def applyRingClear (d : Dev) (t : Nat) : Dev :=
  let n := d.bt + usableDelay d
  (List.range 3).foldl (fun d s =>
    let i := ringSlot t s
    let d := setPendingKey (setRec d .keyRing i 0) i none
    { d with nts := { d.nts with zeroize := d.nts.zeroize ++ [(n, i)] } }) d

def answerRing (d : Dev) (t : Nat) (who : Option (Fn × Nat)) (st : Status) (tail : List Byte) : Dev :=
  match who with
  | some (f, door) => complete d f door st (if st = .ok then ringBytes d t ++ tail else []) []
  | none => d

/-- The reason code of an install's response, padded (R479). -/
def reasonTail (n : Nat) : List Byte := leBytes 4 n

/-- Why an import is refused at its edge, of checks 5 and 6 of Table NTS.9; 0 where it is not. -/
def importRefusal (d : Dev) (t id : Nat) : Nat :=
  if (ringIds d t).contains id then 5 else if ringPending d t then 6 else 0

/-- A scheduled change at its edge, and the answer of its door. -/
def applyRole (d : Dev) (op : RoleEdge) : Dev :=
  match op with
  | .install t id origin key rotate f door =>
    let tail := if rotate then [] else reasonTail 0
    let refusal := if origin = 1 then importRefusal d t id else 0
    if refusal ≠ 0 then complete d f door .state (ringBytes d t ++ reasonTail refusal) []
    else (match applyInstall d t id origin key rotate with
    | some d => answerRing d t (some (f, door)) .ok tail
    | none => answerRing d t (some (f, door)) .state [])
  | .promote t id f door =>
    (match applyPromote d t id with
    | some d => answerRing d t (some (f, door)) .ok []
    | none => answerRing d t (some (f, door)) .state [])
  | .clear t who => answerRing (applyRingClear d t) t who .ok []

def RoleEdge.tenant : RoleEdge → Nat
  | .install t _ _ _ _ _ _ => t
  | .promote t _ _ _ => t
  | .clear t _ => t

/-- The changes of a tenant's ring due at the edge, in the order requested. -/
def roleEdge (d : Dev) (t : Nat) : Dev :=
  let due := d.nts.edges.filter fun e => decide (e.1 ≤ d.bt) && decide (e.2.tenant = t)
  let d := { d with nts := { d.nts with
    edges := d.nts.edges.filter fun e => !(decide (e.1 ≤ d.bt) && decide (e.2.tenant = t)) } }
  due.foldl (fun d e => applyRole d e.2) d

/-- Stage 2 of an install: the key is written over the old one and the slot is usable; a rotation's promotion follows
(R216, R218). -/
def keyUsable (d : Dev) (t s : Nat) : Dev :=
  let i := ringSlot t s
  match Tab.get none d.nts.pendingKeys i with
  | none => d
  | some p =>
    if fld d .keyRing i KeyR.role = 1 ∧ fld d .keyRing i KeyR.usableBt ≤ d.bt then
      let s2v := cookieS2v (beBytes 32 p.key) (fld d .keyRing i KeyR.keyId)
      let d := setFld (setMaster (setPendingKey d i none) i p.key s2v) .keyRing i KeyR.role 2
      if p.promote then (applyPromote d t (fld d .keyRing i KeyR.keyId)).getD d else d
    else d

/-- Keys of a cleared ring zeroized once their edge has come. -/
def zeroizeDue (d : Dev) : Dev :=
  let due := d.nts.zeroize.filter fun e => e.1 ≤ d.bt
  let d := { d with nts := { d.nts with zeroize := d.nts.zeroize.filter fun e => !decide (e.1 ≤ d.bt) } }
  due.foldl (fun d e => if fld d .keyRing e.2 KeyR.role < 2 then zeroMaster d e.2 else d) d

/-! ### The owner wrap key (R222, R223) -/

def wrapKey (d : Dev) : Option Nat := if d.key.otp.wrapState = 1 then some d.key.otp.wrapKey else none

/-- The 16 bytes at the front of a blob (Table NTS.8). -/
def blobHead (wrapId keyId label : Nat) : List Byte :=
  [0x41, 0x58, 0x4E, 0x4B] ++ beBytes 2 1 ++ beBytes 2 wrapId ++ beBytes 4 keyId ++ beBytes 4 label

def exportBlob (d : Dev) (t s key : Nat) : List Byte × Dev :=
  let (nonce, d) := drawBytes d 16
  let head := blobHead d.key.otp.wrapId (getF (ringEntry d t s) KeyR.keyId) (fld d .nts t Nts.poolLabel)
  (head ++ nonce ++ sealed 15 (beBytes 32 key) head nonce (masterKey d t s), d)

/-- The checks of Table NTS.9 in order: the failing one's status and reason code, or the key and its KEY_ID. -/
def importCheck (d : Dev) (t : Nat) (b : List Byte) : (Status × Nat) ⊕ (Nat × Nat) :=
  if b.length ≠ 80 ∨ slice b 0 4 ≠ [0x41, 0x58, 0x4E, 0x4B] ∨ rdBe b 4 2 ≠ 1 then .inl (.denied, 1)
  else match wrapKey d with
    | none => .inl (.denied, 2)
    | some wk =>
      if rdBe b 6 2 ≠ d.key.otp.wrapId then .inl (.denied, 2)
      else if rdBe b 12 4 ≠ fld d .nts t Nts.poolLabel then .inl (.denied, 3)
      else match opened 15 (beBytes 32 wk) (slice b 0 16) (slice b 16 16) (b.drop 32) with
        | none => .inl (.denied, 4)
        | some key =>
          let id := rdBe b 8 4
          if id = 0 ∨ (ringIds d t).contains id then .inl (.state, 5)
          else if ringPending d t then .inl (.state, 6)
          else .inr (rdBe key 0 32, id)

/-! ### Commands (Table NTS.11) -/

def ntsDep (d : Dev) : Dep := fun f _ v =>
  if f = Nts.ntsEn then (if d.variant = .e ∧ v = 1 then some (0, .absent) else none)
  else if f = Nts.algMask then (if v = 0 then some (1, .range) else none)
  else none

def ntsConfigCmd : Cmd :=
  { RecSpec.cmd { kind := .nts, ib := 2, inSet := tenantIdx, image := plainImage .nts, dep := fun d _ _ => ntsDep d
                  apply := atNextEdge .nts } 0x3200 [.c, .p, .v] [.c] .svc (tenantAt 0) with readCls := .svc }

/-- A ring command answered at its edge. -/
def atRoleEdge (d : Dev) (n : Nat) (op : RoleEdge) : Reply :=
  .wait .edge { d with nts := { d.nts with edges := d.nts.edges ++ [(n, op)] } }

def svcWrite (op : Nat) (check : Ctx → List Byte → Dev → Option Status) (body : Ctx → List Byte → Dev → Reply) : Cmd :=
  { op := op, writeBy := [.c], isWrite := fun _ => true, writeCls := .svc, tenant := tenantAt 0, check := check
    body := body }

/-- The payload is n bytes and names a tenant. -/
def tenantLen (n : Nat) : Ctx → List Byte → Dev → Option Status := fun _ p _ =>
  if p.length = n ∧ tenantIdx p then none else some .badLength

def installCheck : Ctx → List Byte → Dev → Option Status := fun _ p _ =>
  if !tenantIdx p ∨ p.length < 12 ∨ 1 < rdLe p 2 1 ∨ (rdLe p 2 1 = 0 ∧ p.length ≠ 12) then some .badLength else none

/-- NTS_KEY_INSTALL (R216, R223): an import that fails a check answers its reason code. -/
def installBody (x : Ctx) (p : List Byte) (d : Dev) : Reply :=
  let t := rdLe p 0 2
  match applyEdge d (rdLe p 4 8) with
  | none => .done .state [] [] d
  | some n =>
    if rdLe p 2 1 = 0 then
      if ringPending d t ∨ d.key.rngWithheld then .done .state [] [] d
      else
        let (key, d) := draw d
        atRoleEdge d n (.install t 0 0 (key % 2 ^ 256) false x.fn x.door)
    else match importCheck d t (p.drop 12) with
      | .inl (st, reason) => .done st (ringBytes d t ++ reasonTail reason) [] d
      | .inr (key, id) => atRoleEdge d n (.install t id 1 key false x.fn x.door)

def ntsKeyInstallCmd : Cmd := svcWrite 0x3201 installCheck installBody

def ntsKeyPromoteCmd : Cmd :=
  svcWrite 0x3202 (tenantLen 16) fun x p d =>
    match applyEdge d (rdLe p 8 8) with
    | none => .done .state [] [] d
    | some n =>
      if !(ringIds d (rdLe p 0 2)).contains (rdLe p 4 4) ∨ rdLe p 4 4 = 0 then .done .state [] [] d
      else atRoleEdge d n (.promote (rdLe p 0 2) (rdLe p 4 4) x.fn x.door)

def ntsKeyRotateCmd : Cmd :=
  svcWrite 0x3203 (tenantLen 12) fun x p d =>
    match applyEdge d (rdLe p 4 8) with
    | none => .done .state [] [] d
    | some n =>
      if ringPending d (rdLe p 0 2) ∨ d.key.rngWithheld then .done .state [] [] d
      else
        let (key, d) := draw d
        atRoleEdge d n (.install (rdLe p 0 2) 0 0 (key % 2 ^ 256) true x.fn x.door)

def ntsKeyExportCmd : Cmd :=
  svcWrite 0x3204 (tenantLen 8) fun _ p d =>
    match wrapKey d, sampleFind (ringSample d (rdLe p 0 2)) (rdLe p 4 4) with
    | some wk, some s =>
      let (b, d) := exportBlob d (rdLe p 0 2) s wk
      .done .ok b [] d
    | _, _ => .done .state [] [] d

def ntsKeyRingCmd : Cmd :=
  { op := 0x3205, readBy := [.c, .p, .v], readCls := .svc, tenant := tenantAt 0, check := tenantLen 4
    body := fun _ p d =>
      let t := rdLe p 0 2
      .done .ok (ringBytes d t) [] ((List.range 3).foldl (fun d s => readClear d .keyRing (ringSlot t s)) d) }

def ntsKeyClearCmd : Cmd :=
  svcWrite 0x3206 (tenantLen 12) fun x p d =>
    match applyEdge d (rdLe p 4 8) with
    | none => .done .state [] [] d
    | some n => atRoleEdge d n (.clear (rdLe p 0 2) (some (x.fn, x.door)))

def ntsStatsCmd : Cmd := { tenantStats 0x3208 .nts 31 with readCls := .svc }

/-! ### NTS_MINT (R225) -/

/-- The tenant of an NTS_MINT: a VF's own, else the one its payload names. -/
def mintTenant (x : Ctx) (p : List Byte) : Nat :=
  match x.vfTenant with | some t => t | none => rdLe p 0 2

/-- Check 4: the controller host, the owning PF, a VF while MINT_VF_EN is 1. -/
def mintAdmits (x : Ctx) (p : List Byte) (d : Dev) : Bool :=
  let t := mintTenant x p
  if x.isPf then
    (match x.acting with | some a => decide (a = t) | none => true)
      && (x.holds d (some t) .c || x.holds d (some t) .o)
  else x.vfTenant.isSome && flag d .nts t Nts.mintVfEn

def mintCheck (x : Ctx) (p : List Byte) (_ : Dev) : Option Status :=
  if p.length < 8 ∨ (x.isPf = true ∧ tenantIdx p = false) then some .badLength
  else match algKey (rdLe p 2 2) with
    | some k => if p.length = 8 + 2 * k then none else some .badLength
    | none => none

/-- The level-1 nest the mint jobs run on. -/
def mintNest (d : Dev) (t : Nat) : Option Nat :=
  match targetOf d t with
  | none => none
  | some (c, _) =>
    if c < 128 then some (128 + c / 8) else if c < 144 then some c
    else (nodesPresent d.variant).find? fun n =>
      decide (128 ≤ n) && decide (n < 144) && isAncestorOrSelf c n && !nodeFenced d n && decide (nodeReset d n = 0)
        && !cmdGated d n && !(lanesIn d (8 * (n - 128))).isEmpty

/-- The number of cookies and its clamp entry; COUNT lies at payload bits 39–32. -/
def mintCount (p : List Byte) : Nat × List ClampEntry :=
  let c := rdLe p 4 1
  let n := nearest 1 8 c
  (n, if n = c then [] else [⟨39, 32, 0, .range, c, n⟩])

/-- WAKE_TIMEOUT_US in base ticks, rounded up. -/
def wakeLimit (d : Dev) : Nat := (fld d .array 0 Arr.wakeTimeoutUs * 1000 + btNs d - 1) / btNs d

/-- NTS_MINT: its checks, its nest with a wake request in LISTEN, then the wait for its jobs. -/
def mintBody (x : Ctx) (p : List Byte) (d : Dev) : Reply :=
  let t := mintTenant x p
  let alg := rdLe p 2 2
  if tenantState d t = 2 then .done .state [] [] d
  else if (algKey alg).isNone ∨ !bit (fld d .nts t Nts.algMask) (algBit alg) then .done .denied [] [] d
  else match sampleMint (ringSample d t), mintNest d t with
    | some s, some nest =>
      let d := if power d = 1 then wakeRequest d nest else d
      let id := getF (ringEntry d t s) KeyR.keyId
      .wait (.mint nest (d.bt + wakeLimit d) id (ofBe (masterKey d t s)) (mintCount p).1 []) d
    | _, _ => .done .state [] [] d

def ntsMintCmd : Cmd :=
  { op := 0x3207, writeBy := [.c, .o, .v], isWrite := fun _ => true, writeCls := .svc
    admits := fun x p d _ => mintAdmits x p d, check := mintCheck, body := mintBody }

/-- The messages whose doors wait for mint jobs. -/
def mintDoors (d : Dev) : List Posted :=
  d.mbx.doors.filterMap fun e => match e.2.serving with | some (po, .mint ..) => some po | _ => none

/-- A job is a door's. -/
def jobOfDoor (f : Fn) (door : Nat) (j : LaneJob) : Bool := decide (j.owner = .door f door)

/-- A door has jobs in a nest's arbiter or on its lanes. -/
def doorHasJobs (d : Dev) (k : Nat) (f : Fn) (door : Nat) : Bool :=
  (waitingJobs d k).any (jobOfDoor f door) || (Tab.get [] d.arr.laneFull k).any (jobOfDoor f door)
    || [2 * k, 2 * k + 1].any fun l => match laneRun d l with | some r => jobOfDoor f door r.job | none => false

/-- The jobs of a door that have not started are withdrawn. -/
def withdrawDoor (d : Dev) (k : Nat) (f : Fn) (door : Nat) : Dev :=
  let keep (l : List LaneJob) : List LaneJob := l.filter fun j => !jobOfDoor f door j
  refillArbiter (setFull (setWaiting d k (keep (waitingJobs d k))) k (keep (Tab.get [] d.arr.laneFull k))) k

/-- A waiting NTS_MINT at an edge: its jobs are submitted once its nest is ON, one a cookie; STATE where no nest has been ON
within WAKE_TIMEOUT_US (R225). -/
def mintSubmit (d : Dev) (po : Posted) : Dev :=
  let x := ctxOf d po.msg po.bt
  match (getDoor d x.fn x.door).serving with
  | some (_, .mint nest until_ _ _ jobs _) =>
    let k := nest - 128
    let p := copied po.msg
    let t := mintTenant x p
    if doorHasJobs d k x.fn x.door then d
    else if nodeUp d nest then
      let len := (algKey (rdLe p 2 2)).getD 0
      let job : LaneJob :=
        { owner := .door x.fn x.door, kind := .mint, tenant := t, node := pinNode d t
          blocks := 1 + 2 * blocks (4 + 2 * len), order := 0 }
      (List.range jobs).foldl (fun d _ => enqueueJob d k job) d
    else if until_ ≤ d.bt then complete d x.fn x.door .state [] []
    else d
  | _ => d

/-- A mint job of a door has run: the cookie, counted in MINT_ASSIST, joins the response, which goes with the last. STATE
while the random source withholds its output (R385). -/
def mintReturned (d : Dev) (k : Nat) (r : LaneRun) : Dev :=
  match r.job.owner with
  | .thread _ _ => d
  | .door f door =>
    match (getDoor d f door).serving with
    | some (po, .mint nest until_ id key jobs cs) =>
      let p := copied po.msg
      let t := r.job.tenant
      let alg := rdLe p 2 2
      let len := (algKey alg).getD 0
      if d.key.rngWithheld then complete (withdrawDoor d k f door) f door .state [] []
      else
        let (c, d) := mintCookie d id r.key (cookieS2v r.key id) alg (slice p 8 len) (slice p (8 + len) len)
        let d := bumpNts d t 26
        let (n, es) := mintCount p
        if jobs ≤ 1 then
          complete d f door .ok
            (leBytes 4 id ++ leBytes 1 n ++ leBytes 1 0 ++ leBytes 2 (40 + 2 * len) ++ cs ++ c) es
        else setDoor d f door { getDoor d f door with serving := some (po, .mint nest until_ id key (jobs - 1) (cs ++ c)) }
    | _ => d

/-- A lane whose job for a door has run by an edge. -/
def doorLane (d : Dev) : Option (Nat × LaneRun) :=
  (List.range 32).findSome? fun l => (laneRun d l).bind fun r =>
    match r.job.owner with
    | .door _ _ => if r.from_ + r.job.blocks ≤ d.bt * cyclesPerBt d then some (l, r) else none
    | .thread _ _ => none

/-- The jobs for doors that have run by an edge, each followed on its lane by the next. -/
def doorJobs : Nat → Dev → Dev
  | 0, d => d
  | fuel + 1, d =>
    match doorLane d with
    | none => d
    | some (l, r) =>
      let now := r.from_ + r.job.blocks
      doorJobs fuel (startLanes (mintReturned (finishLane d l r true now) (l / 2) r) (l / 2) now)

/-- The mint assist at an edge. -/
def mintEdge (d : Dev) : Dev :=
  let d := if pathRuns d then doorJobs 256 d else d
  if fwRuns d then (mintDoors d).foldl mintSubmit d else d

def execNtsConfig (m : Msg) (s : State) : Host.Outcome State Fault Refusal := mailbox ntsConfigCmd m s
def execNtsKeyInstallGenerate (m : Msg) (s : State) : Host.Outcome State Fault Refusal :=
  mailbox ntsKeyInstallCmd (withByte 2 0 m) s
def execNtsKeyInstallImport (m : Msg) (s : State) : Host.Outcome State Fault Refusal :=
  mailbox ntsKeyInstallCmd (withByte 2 1 m) s
def execNtsKeyPromote (m : Msg) (s : State) : Host.Outcome State Fault Refusal := mailbox ntsKeyPromoteCmd m s
def execNtsKeyRotate (m : Msg) (s : State) : Host.Outcome State Fault Refusal := mailbox ntsKeyRotateCmd m s
def execNtsKeyExport (m : Msg) (s : State) : Host.Outcome State Fault Refusal := mailbox ntsKeyExportCmd m s
def execNtsKeyRing (m : Msg) (s : State) : Host.Outcome State Fault Refusal := mailbox ntsKeyRingCmd m s
def execNtsKeyClear (m : Msg) (s : State) : Host.Outcome State Fault Refusal := mailbox ntsKeyClearCmd m s
def execNtsMint (m : Msg) (s : State) : Host.Outcome State Fault Refusal := mailbox ntsMintCmd m s
def execNtsStats (m : Msg) (s : State) : Host.Outcome State Fault Refusal := mailbox ntsStatsCmd m s

def execNtsKeyRoleEdge (tenant : Fin 4096) (s : State) : Host.Outcome State Fault Refusal :=
  whenOn s fun d => roleEdge d tenant.val

def execNtsKeyUsable (tenant : Fin 4096) (slot : Fin 3) (s : State) : Host.Outcome State Fault Refusal :=
  whenOn s fun d => keyUsable d tenant.val slot.val

def execAeadJobComplete (engine : Fin 128) (thread : Fin 8) (ok : Bool) (s : State) :
    Host.Outcome State Fault Refusal :=
  onPath s fun d => aeadJobComplete d engine.val thread.val ok

end Sys2Proof.Machine
end

