-- ==== Sys2Proof/Machine/Ptp.lean ====
section
/-! DEFINITION. PTP service (09_ptp_service.md): messages and their composition, unicast negotiation and grants, scheduled
messages, client instances, and the PTP commands and events. -/

namespace Sys2Proof.Machine

open Sys2Proof

/-! ### Messages (R234) -/

def ptpSync : Nat := 0
def ptpDelayReq : Nat := 1
def ptpFollowUp : Nat := 8
def ptpDelayResp : Nat := 9
def ptpAnnounce : Nat := 11
def ptpSignaling : Nat := 12

/-- The common header of Table PTP.2. -/
def ptpHeader (d : Dev) (t p type len domain flags0 flags1 corr seq logInt : Nat) : List Byte :=
  let control := if type = ptpSync then 0 else if type = ptpDelayResp then 3 else if type = ptpFollowUp then 2 else 5
  beBytes 1 type ++ beBytes 1 0x12 ++ beBytes 2 len ++ beBytes 1 domain ++ beBytes 1 0 ++ beBytes 1 flags0
    ++ beBytes 1 flags1 ++ beBytes 8 corr ++ beBytes 4 0 ++ beBytes 8 (fld d .ptp t Ptp.clockIdentity)
    ++ beBytes 2 (p + 1) ++ beBytes 2 seq ++ beBytes 1 control ++ beBytes 1 logInt

/-- secondsField, nanosecondsField and sub-nanosecond part of an instant in a view (R84). -/
def ptpTime (d : Dev) (view : Nat) (s : Int) : Nat × Nat × Nat := ptpStamp ((viewBase d view s).toNat % 2 ^ 96)

def stampBytes (x : Nat × Nat × Nat) : List Byte := beBytes 6 x.1 ++ beBytes 4 x.2.1

/-- The MAC and tags of a port record's multicast and client frames (R242, R234). -/
def pportTags (r : Nat) : List Byte :=
  if getF r PPort.vlanEn = 1 then vlanTag 0x8100 (getF r PPort.vlanPcp) (getF r PPort.vlanVid) else []

/-- A message on its way: the bytes of a frame around it, the offset of the message, and the IP offset. -/
structure PtpFrame where
  bytes : List Byte
  off : Nat
  v6 : Bool
  ip : Bool
  l3 : Nat

def PtpFrame.tx (f : PtpFrame) (who : TxWho) : TxFrame :=
  let x := txFrameOf f.bytes f.v6 f.l3 (f.off - 8) who
  if f.ip then x else { x with csumIp4 := false, csumL4 := 0 }

/-- A UDP frame of a tenant from an address entry. -/
def ptpUdp (d : Dev) (t p entry mac : Nat) (tags : List Byte) (v6 : Bool) (dst dport : Nat) (msg : List Byte) : PtpFrame :=
  let r := getRec d .addrEntry entry
  let dscp := fld d .ptp t Ptp.ptpDscp
  let ttl := fld d .ntp t Ntp.ttl
  let eth := ethHeader mac (answerMac d p r) tags (if v6 then 0x86DD else 0x0800)
  let ip := if v6 then ip6Header dscp ttl 17 (getF r Addr.address) dst (8 + msg.length)
    else ip4Header dscp ttl 17 (getF r Addr.address) dst (8 + msg.length)
  let head := eth ++ ip ++ udpHeader dport dport msg.length
  ⟨head ++ msg, head.length, v6, true, eth.length⟩

/-- A frame to the multicast destination of a port's instance (R242); none where a tenant has no source address. -/
def ptpGroup (d : Dev) (t p dport : Nat) (source : Nat → Option Nat) (msg : List Byte) : Option PtpFrame :=
  let r := getRec d .ptpPort p
  let tags := pportTags r
  match getF r PPort.transport with
  | 0 =>
    let mac := if getF r PPort.l2Dest = 0 then 0x011B19000000 else 0x0180C200000E
    let eth := ethHeader mac (fld d .port p Prt.stationMac) tags 0x88F7
    some ⟨eth ++ msg, eth.length, false, false, eth.length⟩
  | 1 => (source 1).map fun e => ptpUdp d t p e 0x01005E000181 tags false 0xE0000181 dport msg
  | _ => (source 2).map fun e => ptpUdp d t p e 0x333300000181 tags true (0xFF0E * 2 ^ 112 + 0x181) dport msg

/-- The source entry of a multicast instance (R192, R234). -/
def groupSource (d : Dev) (t p : Nat) (fam : Nat) : Option Nat := (sourceEntry d t p fam).map (·.1)

/-- A message as received: its bytes and whether an IP packet carried it. -/
def ptpMessage (d : Dev) (x : RxPkt) : List Byte × Parsed :=
  let q := parseFrame (fld d .port x.port Prt.outerTpid) x.bytes
  if q.etherType = 0x88F7 then (x.bytes.drop q.l3, q)
  else
    let (o, n) := udpPayload x.bytes q
    (slice x.bytes o n, q)

def msgType (b : List Byte) : Nat := rdBe b 0 1 % 16
def msgLen (b : List Byte) : Nat := rdBe b 2 2
def msgSeq (b : List Byte) : Nat := rdBe b 30 2
def msgSource (b : List Byte) : Nat := rdBe b 20 10

/-- Step 2 of Table PTP.1. -/
def msgMalformed (b : List Byte) : Bool :=
  decide (b.length < 34) || decide (msgLen b < 34) || decide (b.length < msgLen b) || decide (rdBe b 1 1 % 16 ≠ 2)
    || decide (rdBe b 0 1 / 16 ≠ 0)

/-! ### The grant table (R235, R238) -/

def grantEntry (d : Dev) (g : Nat) : Option GrantEntry := Tab.get none d.ptp.grants g

def setGrant (d : Dev) (g : Nat) (x : Option GrantEntry) : Dev :=
  { d with ptp := { d.ptp with grants := Tab.set none d.ptp.grants g x } }

/-- The entries of the table. -/
def grantList (d : Dev) : List (Nat × GrantEntry) := d.ptp.grants.filterMap fun e => e.2.map fun x => (e.1, x)

/-- The entry of a client. -/
def grantOf (d : Dev) (t fam addr portId : Nat) : Option (Nat × GrantEntry) :=
  (grantList d).find? fun e =>
    decide (e.2.tenant = t) && decide (e.2.family = fam) && decide (e.2.addr = addr) && decide (e.2.portId = portId)

/-- The grant of a message type; the types are Announce, Sync and Delay_Resp. -/
def GrantEntry.grant (x : GrantEntry) (type : Nat) : Option Grant :=
  if type = ptpAnnounce then x.announce else if type = ptpSync then x.sync else x.delay

def GrantEntry.setGrant (x : GrantEntry) (type : Nat) (g : Option Grant) : GrantEntry :=
  if type = ptpAnnounce then { x with announce := g } else if type = ptpSync then { x with sync := g }
  else { x with delay := g }

/-- A grant that has not expired. -/
def unexpired (d : Dev) (g : Option Grant) : Bool :=
  match g with | some g => decide (d.bt < g.expiryBt) | none => false

def GrantEntry.holdsNone (x : GrantEntry) : Bool := x.announce.isNone && x.sync.isNone && x.delay.isNone

/-- A grant ended: with the Announce grant the others end too (R238). -/
def endGrant (d : Dev) (x : GrantEntry) (type : Nat) : GrantEntry :=
  let y := x.setGrant type none
  let y := if type = ptpAnnounce then { y with sync := none, delay := none } else y
  if y.holdsNone ∧ ¬ x.holdsNone then { y with idleBt := d.bt } else y

/-- Messages per second of a period 2^p s. -/
def rateOf (p : Int) : Rat := (2 : Rat) ^ (-p)

/-- The granted rate of a type over the table, one entry apart, and over the multicast instances, one port apart. -/
def grantedRate (d : Dev) (type : Nat) (skip : Option Nat) (skipPort : Option Nat) : Rat :=
  let uni := (grantList d).foldl (fun (n : Rat) e =>
    if some e.1 = skip then n else match e.2.grant type with | some g => n + rateOf g.logPeriod | none => n) 0
  (List.range 16).foldl (fun (n : Rat) p =>
    let r := getRec d .ptpPort p
    if some p = skipPort ∨ getF r PPort.role ≠ 1 then n
    else n + rateOf (getS r (if type = ptpAnnounce then PPort.logAnnounce else if type = ptpSync then PPort.logSync
      else PPort.logDelay))) uni

/-- Table PTP.4. -/
def rateLimit (type : Nat) : Rat := if type = ptpAnnounce then 524288 else 8388608

/-- The Delay_Req bucket's level now (R238). -/
def bucketLevel (d : Dev) (x : GrantEntry) : Nat :=
  match x.delay with
  | none => 0
  | some g =>
    min (4 * 2 ^ 32)
      (x.bucket + (((d.bt - x.bucketBt) * btNs d : Nat) * 2 * rateOf g.logPeriod * 2 ^ 32 / 10 ^ 9).floor.toNat)

/-! ### Outcomes (Table PTP.8) -/

def dropPtp (d : Dev) (k : Nat) (x : Context) (stat ctr : Nat) : Dev :=
  let t := x.desc.tenant
  releaseContext (countNode (countTenant (bumpPtp d t stat) t ctr) (k / 8) 26) k x stat

/-- A message suppressed under R241: no tenant counter. -/
def suppressPtp (d : Dev) (k : Nat) (x : Context) : Dev :=
  releaseContext (countNode (bumpPtp d x.desc.tenant 22) (k / 8) 26) k x 22

/-- The instance's domain. -/
def domainOf (d : Dev) (x : Desc) : Nat :=
  if x.multicast then fld d .ptpPort x.pkt.port PPort.domain else fld d .ptp x.tenant Ptp.domain

/-- A message of a context to a queue of the arrival port. -/
def sendPtp (d : Dev) (k : Nat) (x : Context) (q : Nat) (f : PtpFrame) (stat : Nat) : Dev :=
  submit d k x (.queue x.desc.pkt.port q (f.tx (.ptp x.desc.tenant stat none none)) stat)

/-! ### Delay_Req (R232, R233) -/

/-- The Delay_Resp message. -/
def delayResp (d : Dev) (x : Context) (b : List Byte) : List Byte :=
  let t := x.desc.tenant
  let p := x.desc.pkt.port
  let ts := ptpTime (atSvc d x.desc.pkt.svc) x.view x.desc.pkt.stamp
  let corr := (rdBe b 8 8 + 2 ^ 64 - ts.2.2) % 2 ^ 64
  let logInt := if x.desc.multicast then ofInt 8 (sfld d .ptpPort p PPort.logDelay) else 0x7F
  ptpHeader d t p ptpDelayResp 54 (rdBe b 4 1) (if x.desc.multicast then 0 else 4) 0 corr (msgSeq b) logInt
    ++ stampBytes ts ++ slice b 20 10

/-- Steps 13–15. -/
def delayAnswer (d : Dev) (k : Nat) (x : Context) (b : List Byte) (q : Parsed) (e : Option GrantEntry) : Dev :=
  let t := x.desc.tenant
  let p := x.desc.pkt.port
  let gov := governed d x
  if servedState gov t x.desc.pkt.svc = 0 then dropPtp d k x 17 ctrUnserved
  else
    let (ok, d) := quotaDraw d t
    if !ok then dropPtp d k x 19 ctrRate
    else
      let msg := delayResp gov x b
      match e with
      | some g =>
        sendPtp d k x 4 (ptpUdp gov t p x.desc.entry g.mac g.tags (decide (q.l3Type = 2)) q.ipSrc 320 msg) 0
      | none => match ptpGroup gov t p 320 (groupSource gov t p) msg with
        | some f => sendPtp d k x 4 f 0
        | none => suppressPtp d k x

/-- Steps 11 and 12, with the client's entry read. -/
def delayGranted (d : Dev) (k : Nat) (x : Context) (b : List Byte) (q : Parsed) : Dev :=
  match grantOf d x.desc.tenant q.l3Type q.ipSrc (msgSource b) with
  | none => dropPtp d k x 15 ctrPolicy
  | some (g, e) =>
    if !unexpired d e.delay then dropPtp d k x 15 ctrPolicy
    else
      let n := bucketLevel d e
      if n < 2 ^ 32 then dropPtp d k x 18 ctrRate
      else delayAnswer (setGrant d g (some { e with bucket := n - 2 ^ 32, bucketBt := d.bt })) k x b q (some e)

/-! ### Unicast negotiation (R236, R237) -/

/-- The TLVs of a Signaling message: type and value. -/
def tlvs : Nat → List Byte → List (Nat × List Byte)
  | 0, _ => []
  | fuel + 1, bs =>
    if bs.length < 4 ∨ bs.length < 4 + rdBe bs 2 2 then []
    else (rdBe bs 0 2, slice bs 4 (rdBe bs 2 2)) :: tlvs fuel (bs.drop (4 + rdBe bs 2 2))

/-- The period range of a type in a PTP record (R237, row 2). -/
def minLog (r type : Nat) : Int :=
  getS r (if type = ptpAnnounce then Ptp.minLogAnnounce else if type = ptpSync then Ptp.minLogSync
    else Ptp.minLogDelay)

/-- The first free index from a number upwards. -/
def freeIndex : Nat → List Nat → Nat → Nat
  | 0, _, v => v % 65536
  | fuel + 1, l, v => if l.contains (v % 65536) then freeIndex fuel l (v + 1) else v % 65536

/-- Where a Signaling message came from: the key of its entry, what the entry keeps of it, and the PTP record that governs
it. -/
structure Sender where
  tenant : Nat
  record : Nat
  family : Nat
  addr : Nat
  portId : Nat
  mac : Nat
  tags : List Byte
  port : Nat
  entry : Nat

def newEntry (d : Dev) (s : Sender) : GrantEntry :=
  { tenant := s.tenant, family := s.family, addr := s.addr, portId := s.portId, announce := none, sync := none
    delay := none, bucket := 0, bucketBt := d.bt, seqAnnounce := 0, seqSync := 0, seqSignaling := 0, mac := s.mac
    tags := s.tags, port := s.port, entry := s.entry, idleBt := d.bt }

/-- Table PTP.3: the granted duration (0: denied), and the device with the grant. -/
def decideGrant (d : Dev) (s : Sender) (type : Nat) (log : Int) (dur : Nat) : Nat × Dev :=
  let t := s.tenant
  let e := grantOf d t s.family s.addr s.portId
  let holdsAnnounce : Bool := match e with | some (_, x) => unexpired d x.announce | none => false
  let lim := getF s.record Ptp.maxClients
  let mine := ((grantList d).filter fun x => x.2.tenant = t).length
  let denied := (0, bumpPtp d t 6)
  if !(List.contains [ptpAnnounce, ptpSync, ptpDelayResp] type) then denied
  else if log < minLog s.record type ∨ 0 < log then denied
  else if decide (type ≠ ptpAnnounce) && !holdsAnnounce then denied
  else if e.isNone ∧ (65536 ≤ (grantList d).length ∨ lim ≤ mine) then denied
  else if rateLimit type < grantedRate d type (e.map (·.1)) none + rateOf log then denied
  else
    let n := nearest 10 (getF s.record Ptp.grantMaxS) dur
    let (v, d) := draw d
    let (g, x) : Nat × GrantEntry := match e with
      | some y => y
      | none => (freeIndex (grantList d).length ((grantList d).map fun z => z.1) v, newEntry d s)
    let x := x.setGrant type (some ⟨log, d.bt + n * 10 ^ 9 / btNs d⟩)
    let x := if type = ptpDelayResp then { x with bucket := 4 * 2 ^ 32, bucketBt := d.bt } else x
    (n, bumpPtp (setGrant d g (some x)) t 5)

/-- One TLV of a Signaling message: the TLV that answers it, if any. -/
def answerTlv (d : Dev) (s : Sender) (ty : Nat) (v : List Byte) : List Byte × Dev :=
  let type := rdBe v 0 1 / 16
  if ty = 0x0004 then
    let (n, d) := decideGrant d s type (toInt 8 (rdBe v 1 1)) (rdBe v 2 4)
    (beBytes 2 0x0005 ++ beBytes 2 8 ++ beBytes 1 (type * 16) ++ slice v 1 1 ++ beBytes 4 n ++ beBytes 1 0
      ++ beBytes 1 (if n = 0 then 0 else 1), d)
  else
    let d := bumpPtp d s.tenant 8
    let d := match grantOf d s.tenant s.family s.addr s.portId with
      | some (g, x) => if (x.grant type).isSome ∧ [ptpAnnounce, ptpSync, ptpDelayResp].contains type then
          setGrant d g (some (endGrant d x type)) else d
      | none => d
    (beBytes 2 0x0007 ++ beBytes 2 2 ++ beBytes 1 (type * 16) ++ beBytes 1 0, d)

def isNegotiation (ty : Nat) : Bool := decide (ty = 0x0004) || decide (ty = 0x0006)

/-- The negotiation TLVs of a message handled in order, the first four; their answers. -/
def answerTlvs (d : Dev) (s : Sender) : Nat → List (Nat × List Byte) → List Byte × Dev
  | _, [] => ([], d)
  | n, (ty, v) :: rest =>
    if isNegotiation ty ∧ n < 4 then
      let (a, d) := answerTlv d s ty v
      let (b, d) := answerTlvs d s (n + 1) rest
      (a ++ b, d)
    else answerTlvs (bumpPtp d s.tenant 9) s n rest

/-- The sequenceId of a Signaling answer: the client entry's, 0 for a client that has none. -/
def takeSignalingSeq (d : Dev) (s : Sender) : Nat × Dev :=
  match grantOf d s.tenant s.family s.addr s.portId with
  | some (g, x) =>
    (x.seqSignaling, setGrant d g (some { x with
      seqSignaling := (x.seqSignaling + 1) % 65536, mac := s.mac, tags := s.tags, port := s.port, entry := s.entry }))
  | none => (0, d)

/-- A Signaling message (R236), after its entry has been read. -/
def signaling (d : Dev) (k : Nat) (x : Context) (b : List Byte) (q : Parsed) : Dev :=
  let t := x.desc.tenant
  let p := x.desc.pkt.port
  let v6 := decide (q.l3Type = 2)
  let gov := governed d x
  if msgLen b < 44 ∨ (rdBe b 34 8 ≠ fld gov .ptp t Ptp.clockIdentity ∧ rdBe b 34 10 ≠ 2 ^ 80 - 1) then
    dropPtp d k x 10 ctrInvalid
  else if q.etherType = 0x88F7 ∨ badSource d t v6 q.ipSrc ∨ accessOf gov t v6 q.ipSrc ≠ 0 then dropPtp d k x 14 ctrPolicy
  else
    let l := tlvs (msgLen b) (slice b 44 (msgLen b - 44))
    let entry := if x.desc.multicast then (groupSource d t p q.l3Type).getD 0 else x.desc.entry
    let s : Sender := ⟨t, getRec gov .ptp t, q.l3Type, q.ipSrc, msgSource b, q.src, q.tags, p, entry⟩
    if !(l.any fun e => isNegotiation e.1) then
      releaseContext (bumpPtp d t 9 l.length) k x 0xFFFF
    else
      let (ok, d) := quotaDraw d t
      if !ok then dropPtp d k x 19 ctrRate
      else
        let (a, d) := answerTlvs d s 0 l
        let (seq, d) := takeSignalingSeq d s
        let msg := ptpHeader gov t p ptpSignaling (44 + a.length) (rdBe b 4 1) 4 0 0 seq 0x7F ++ slice b 20 10 ++ a
        sendPtp d k x 4 (ptpUdp gov t p entry q.src q.tags v6 q.ipSrc 320 msg) 1

/-! ### Table PTP.1 -/

/-- Steps 1–10. A unicast Delay_Req and a Signaling message wait for the read of the grant table. -/
def ptpRequest (d : Dev) (k : Nat) (x : Context) : Dev :=
  let t := x.desc.tenant
  let gov := governed d x
  let r := getRec gov .ptp t
  let (b, q) := ptpMessage d x.desc.pkt
  let type := msgType b
  let wait := enterPhase (countNode d (k / 8) 30) k { x with phase := .grant }
  if getF r Ptp.ptpEn = 0 ∨ (x.desc.multicast = false ∧ getF r Ptp.unicastEn = 0) then punt d k x 6
  else if msgMalformed b then dropPtp d k x 10 ctrInvalid
  else if rdBe b 4 1 ≠ domainOf gov x.desc then dropPtp d k x 11 ctrInvalid
  else if type = 13 then punt d k x 6
  else if type = 2 ∨ type = 3 ∨ type = 10 then dropPtp d k x 12 ctrInvalid
  else if type = ptpSync ∨ type = ptpFollowUp ∨ type = ptpDelayResp ∨ type = ptpAnnounce then dropPtp d k x 13 ctrPolicy
  else if type = ptpSignaling then wait
  else if type ≠ ptpDelayReq ∨ msgLen b < 44 then dropPtp d k x 10 ctrInvalid
  else if !stampUsable x.desc.pkt.status then dropPtp d k x 16 ctrUnserved
  else if q.etherType ≠ 0x88F7 ∧ accessOf gov t (decide (q.l3Type = 2)) q.ipSrc ≠ 0 then dropPtp d k x 14 ctrPolicy
  else if x.desc.multicast then delayAnswer d k x b q none
  else wait

/-- The grant table has been read. -/
def ptpGranted (d : Dev) (k : Nat) (x : Context) : Dev :=
  let (b, q) := ptpMessage d x.desc.pkt
  if msgType b = ptpSignaling then signaling d k x b q else delayGranted d k x b q

/-! ### Scheduled messages (R239–R241) -/

/-- The schedule of a multicast instance's port or of a client entry: 2 × (65,536 + port) or 2 × g, and 1 more for
Announce. -/
def schedKey (multicast : Bool) (i : Nat) (announce : Bool) : Nat := 2 * (if multicast then 65536 + i else i) + b2n announce

def schedAnnounce (key : Nat) : Bool := decide (key % 2 = 1)

def schedPort (key : Nat) : Option Nat := if 131072 ≤ key then some (key / 2 - 65536) else none

/-- The tenant, port and logPeriod of a schedule that is running. -/
def schedule (d : Dev) (key : Nat) : Option (Nat × Nat × Int) :=
  match schedPort key with
  | some p =>
    let r := getRec d .ptpPort p
    let t := getF r PPort.tenant
    if p < 16 ∧ getF r PPort.role = 1 ∧ tenantBound d t ∧ flag d .ptp t Ptp.ptpEn then
      some (t, p, getS r (if schedAnnounce key then PPort.logAnnounce else PPort.logSync))
    else none
  | none => match grantEntry d (key / 2) with
    | none => none
    | some x =>
      match x.grant (if schedAnnounce key then ptpAnnounce else ptpSync) with
      | some g =>
        if unexpired d (some g) ∧ flag d .ptp x.tenant Ptp.ptpEn ∧ flag d .ptp x.tenant Ptp.unicastEn then
          some (x.tenant, x.port, g.logPeriod) else none
      | none => none

/-- An instant on a schedule's grid, in units of 2^-32 ns. -/
def dueGrid (key : Nat) (p : Int) (due : Nat) : Bool :=
  let period : Rat := (10 ^ 9 * 2 ^ 32 : Rat) * (2 : Rat) ^ p
  let phase : Rat := if 131072 ≤ key then 0 else ((key / 2 % 1024 : Nat) : Rat) * period / 1024
  decide ((((due : Rat) - phase) / period).den = 1)

def isSched (key : Nat) (s : Service) : Bool := match s with | .sched k _ => decide (k = key) | _ => false

def isSchedFrame (key : Nat) (w : TxWho) : Bool := match w with | .ptp _ _ (some k) _ => decide (k = key) | _ => false

/-- The schedule's previous message has not been sent. -/
def schedBusy (d : Dev) (key : Nat) : Bool :=
  (heldDescs d).any (fun x => isSched key x.service)
    || (List.range 16).any fun p => (queued d p).any (fun f => isSchedFrame key f.who)
      || (match (getPort d p).cur with | some c => isSchedFrame key c.frame.who | none => false)

/-- A due instant (R239). -/
def messageDue (d : Dev) (key due : Nat) : Dev :=
  match schedule d key with
  | none => d
  | some (t, p, log) =>
    if !dueGrid key log due ∨ !reached d due then d
    else
      let noSource : Bool := match schedPort key with
        | some p =>
          let tr := fld d .ptpPort p PPort.transport
          decide (tr ≠ 0) && (groupSource d t p tr).isNone
        | none => false
      if servedState d t (svcNow d) = 0 ∨ noSource then bumpPtp d t 22
      else if schedBusy d key then bumpPtp d t 21
      else wakeTarget (dispatch d (ownDesc d t p (.sched key due))) t

/-- The next sequenceId of a schedule. -/
def takeSeq (d : Dev) (key : Nat) : Nat × Dev :=
  match schedPort key with
  | some p =>
    let i := p * 16 + (if schedAnnounce key then ptpAnnounce else ptpSync)
    let n := Tab.get 0 d.ptp.seq i
    (n, { d with ptp := { d.ptp with seq := Tab.set 0 d.ptp.seq i ((n + 1) % 65536) } })
  | none => match grantEntry d (key / 2) with
    | none => (0, d)
    | some x =>
      if schedAnnounce key then (x.seqAnnounce, setGrant d (key / 2) (some { x with seqAnnounce := (x.seqAnnounce + 1) % 65536 }))
      else (x.seqSync, setGrant d (key / 2) (some { x with seqSync := (x.seqSync + 1) % 65536 }))

/-- The frame of a scheduled message: to the instance's destination, or to the grant's client. -/
def schedFrame (d : Dev) (key t p dport : Nat) (msg : List Byte) : Option PtpFrame :=
  match schedPort key with
  | some p => ptpGroup d t p dport (groupSource d t p) msg
  | none => (grantEntry d (key / 2)).map fun x => ptpUdp d t p x.entry x.mac x.tags (decide (x.family = 2)) x.addr dport msg

def schedDomain (d : Dev) (key t : Nat) : Nat :=
  match schedPort key with | some p => fld d .ptpPort p PPort.domain | none => fld d .ptp t Ptp.domain

def schedTwoStep (d : Dev) (key t : Nat) : Bool :=
  match schedPort key with | some p => flag d .ptpPort p PPort.twoStep | none => flag d .ptp t Ptp.twoStep

/-- clockAccuracy of a root dispersion in ns (R240). -/
def clockAccuracy (ns : Rat) : Nat :=
  let bounds : List Rat := [25, 100, 250, 1000, 2500, 10000, 25000, 100000, 250000, 1000000, 2500000, 10000000, 25000000,
    100000000, 250000000, 1000000000, 10000000000]
  match bounds.findIdx? fun b => decide (ns ≤ b) with
  | some i => 0x20 + i
  | none => 0x31

/-- clockClass and traceability of a served state (Table PTP.6). -/
def clockClass (d : Dev) (t st : Nat) (disp : Rat) : Nat × Bool :=
  let r := getRec d .ptp t
  if st = 2 then (getF r Ptp.classLocked, true)
  else if st = 3 then
    if disp ≤ getF r Ptp.holdoverSpecNs then (getF r Ptp.classHoldover, true) else (getF r Ptp.classOut, false)
  else (getF r Ptp.classFree, false)

/-- flagField octet 1 of an Announce. -/
def announceFlags (d : Dev) (view : Nat) (s : Int) (trace : Bool) : Nat :=
  let fixed := decide (fld d .view view View.kind = 3)
  let w := leapWindow d s
  (if fixed then 0 else (if w > 0 then 1 else 0) + (if w < 0 then 2 else 0) + (if leapKnown d then 4 else 0) + 8)
    + (if trace then 0x30 else 0)

/-- timeSource of the active reference's kind. -/
def timeSource (k : Nat) : Nat := match k with | 0 => 0x20 | 3 => 0x40 | 1 | 2 => 0x90 | _ => 0xA0

/-- The Announce message (Table PTP.5). -/
def announceMsg (d : Dev) (t p view domain unicast seq logInt : Nat) : List Byte :=
  let v := svcNow d
  let st := servedState d t v
  let disp := rootDispNs d t v
  let (cls, trace) := clockClass d t st disp
  let r := getRec d .ptp t
  let s : Int := tshNs96 d
  let utc : Int := if fld d .view view View.kind = 3 then 0 else diffAt d s
  ptpHeader d t p ptpAnnounce 64 domain unicast (announceFlags d view s trace) 0 seq logInt
    ++ stampBytes (ptpTime d view s) ++ beBytes 2 (ofInt 16 utc) ++ beBytes 1 0 ++ beBytes 1 128 ++ beBytes 1 cls
    ++ beBytes 1 (if isAlarm st then 0xFE else clockAccuracy disp)
    ++ beBytes 2 (if st = 2 then getF r Ptp.oslvLocked else 0xFFFF) ++ beBytes 1 (getF r Ptp.priority2)
    ++ beBytes 8 (getF r Ptp.clockIdentity) ++ beBytes 2 0 ++ beBytes 1 (timeSource v.refKind)

/-- The engine composes a scheduled message. -/
def schedHandle (d : Dev) (k : Nat) (x : Context) (key due : Nat) : Dev :=
  let t := x.desc.tenant
  let gov := governed d x
  match schedule gov key with
  | none => releaseContext d k x 0xFFFF
  | some (_, p, log) =>
    if servedState gov t (svcNow d) = 0 then suppressPtp d k x
    else
      let (seq, d) := takeSeq d key
      let dom := schedDomain gov key t
      let uni := if (schedPort key).isNone then 4 else 0
      let logInt := ofInt 8 log
      if schedAnnounce key then
        match schedFrame gov key t p 320 (announceMsg gov t p x.view dom uni seq logInt) with
        | some f => submit d k x (.queue p 4 (f.tx (.ptp t 4 (some key) none)) 4)
        | none => suppressPtp d k x
      else
        let two := schedTwoStep gov key t
        let origin := if two then stampBytes (ptpTime d x.view due) else beBytes 10 0
        let msg := ptpHeader gov t p ptpSync 44 dom (uni + if two then 2 else 0) 0 0 seq logInt ++ origin
        let follow : FollowUp :=
          { tenant := t, port := p, seq := seq, log := log, domain := dom
            grant := if (schedPort key).isNone then grantEntry d (key / 2) else none, stamp := 0 }
        match schedFrame gov key t p 319 msg with
        | some f =>
          let w := f.tx (.ptp t 2 (some key) (if two then some follow else none))
          let w := if two then w else { w with insert := .oneStep, insertOff := f.off, view := x.view }
          submit d k x (.queue p 6 w 2)
        | none => suppressPtp d k x

/-- The s_tx of a two-step Sync has returned: its Follow_Up goes to Q4 (R239), converted under the base tick of s_tx
(R63). -/
def followUpDue (d : Dev) : Dev :=
  match d.ptp.followUps with
  | [] => d
  | u :: rest =>
    let d := { d with ptp := { d.ptp with followUps := rest } }
    let t := u.tenant
    if servedState d t (svcNow d) = 0 then d
    else
      let ts := ptpTime (atStamp d u.stamp) (tenantView d t) u.stamp
      let uni := u.grant.isSome
      let msg := ptpHeader d t u.port ptpFollowUp 44 u.domain (if uni then 4 else 0) 0 ts.2.2 u.seq
        (if uni then 0x7F else ofInt 8 u.log) ++ stampBytes ts
      match u.grant with
      | some g => enqueue d u.port 4
          ((ptpUdp d t u.port g.entry g.mac g.tags (decide (g.family = 2)) g.addr 320 msg).tx (.ptp t 3 none none))
      | none => match ptpGroup d t u.port 320 (groupSource d t u.port) msg with
        | some f => enqueue d u.port 4 (f.tx (.ptp t 3 none none))
        | none => bumpPtp d t 22

/-! ### Grant expiry (R238) -/

def grantType (i : Nat) : Nat := match i with | 0 => ptpAnnounce | 1 => ptpSync | _ => ptpDelayResp

def grantExpiry (d : Dev) (g type : Nat) : Dev :=
  match grantEntry d g with
  | none => d
  | some x => match x.grant type with
    | some y => if y.expiryBt ≤ d.bt then setGrant (bumpPtp d x.tenant 7) g (some (endGrant d x type)) else d
    | none => d

def grantFree (d : Dev) (g : Nat) : Dev :=
  match grantEntry d g with
  | some x => if x.holdsNone ∧ 10 ^ 9 ≤ (d.bt - x.idleBt) * btNs d then setGrant d g none else d
  | none => d

/-- The entries of a tenant freed at its retirement. -/
def freeGrants (d : Dev) (t : Nat) : Dev :=
  { d with ptp := { d.ptp with grants := d.ptp.grants.filter fun e =>
    match e.2 with | some x => decide (x.tenant ≠ t) | none => true } }

/-! ### Client instances (R243, R244) -/

def getClient (d : Dev) (m : Nat) : ClientInst := Tab.get ClientInst.reset d.ptp.clients m

def setClient (d : Dev) (m : Nat) (x : ClientInst) : Dev :=
  { d with ptp := { d.ptp with clients := Tab.set ClientInst.reset d.ptp.clients m x } }

/-- The port of a master's client instance. -/
def clientPort (d : Dev) (m : Nat) : Option Nat :=
  (List.range 16).find? fun p => decide (fld d .ptpPort p PPort.role = 2 + m) && portStarts d p

def negotiates (d : Dev) (p : Nat) : Bool := flag d .ptpPort p PPort.negotiate

/-- An exchange given up and counted. -/
def discardExchange (d : Dev) (m : Nat) : Dev :=
  let x := getClient d m
  if x.exchange.isNone then d
  else bumpFld (depositDiscard (setClient d m { x with exchange := none }) m) .ptpClient m PCli.discarded

/-- The dataset comparison of IEEE 1588-2019: with equal grandmaster identities stepsRemoved decides, then the sender's
identity; else priority 1, class, accuracy, variance, priority 2 and the identity, the lesser the better. -/
def betterMaster (a b : Nat) : Bool :=
  if a / 2 ^ 96 % 2 ^ 64 = b / 2 ^ 96 % 2 ^ 64 then decide (a % 2 ^ 96 < b % 2 ^ 96) else decide (a < b)

/-- The best of the masters heard. -/
def bestMaster (l : List (Nat × Nat × Nat × Bool)) : Option (Nat × Nat) :=
  l.foldl (fun best e => match best with
    | some (p, s) => if betterMaster e.2.1 s then some (e.1, e.2.1) else some (p, s)
    | none => some (e.1, e.2.1)) none

/-- The dataset of an Announce: grandmaster priority 1, class, accuracy, variance, priority 2, identity, stepsRemoved, the
sender's identity. -/
def dataset (b : List Byte) : Nat := ofBe (slice b 47 16 ++ slice b 20 10)

/-- The selected master stands in the status record. An exchange in progress goes on with the master of its Sync. -/
def selectMaster (d : Dev) (m : Nat) : Dev :=
  let (p, cls) : Nat × Nat := match bestMaster (getClient d m).masters with
    | none => (0, 0)
    | some (p, s) => (p, s / 2 ^ 192 % 256)
  setFld (setFld d .ptpClient m PCli.masterPortId p) .ptpClient m PCli.masterClass cls

def clientAnnounce (d : Dev) (m : Nat) (b : List Byte) : Dev :=
  let x := getClient d m
  let id := msgSource b
  let l := (x.masters.filter fun e => e.1 ≠ id) ++ [(id, dataset b, d.bt, bit (rdBe b 7 1) 3)]
  selectMaster (setClient d m { x with masters := l }) m

/-- A PTP timestamp of a message in units of 2^-16 ns. -/
def ptpTimeOf (b : List Byte) (off : Nat) : Int := ((rdBe b off 6 * 10 ^ 9 + rdBe b (off + 6) 4) * 2 ^ 16 : Nat)

def corrOf64 (b : List Byte) : Int := toInt 64 (rdBe b 8 8)

/-- A stamp in units of 2^-16 ns. -/
def stamp16 (s : Nat) : Int := (s / 2 ^ 16 : Nat)

/-- A Sync starts an exchange, unless one has its Delay_Req under way. -/
def clientSync (d : Dev) (m : Nat) (x : RxPkt) (b : List Byte) : Dev :=
  let c := getClient d m
  let started := match c.exchange with | some e => e.reqSeq.isSome | none => false
  if started then d
  else
    let two := bit (rdBe b 6 1) 1
    let e : Exchange :=
      { master := msgSource b, seq := msgSeq b, t1 := if two then none else some (ptpTimeOf b 34), cSync := corrOf64 b
        t2 := x.stamp, startBt := d.bt, bad := !stampUsable x.status, reqSeq := none, t3 := none, resp := none }
    setClient d m { c with exchange := some e }

/-- The offset and mean path delay of an exchange that has all its times (R244), in 2^-16 ns. -/
def Exchange.results (e : Exchange) : Option (Int × Int) :=
  match e.t1, e.t3, e.resp with
  | some t1, some t3, some (t4, cResp) =>
    let t2 := stamp16 e.t2
    let delay : Rat := (((t2 - t1) + (t4 - stamp16 t3) - e.cSync - cResp : Int) : Rat) / 2
    some (roundFree (((t2 - t1 - e.cSync : Int) : Rat) - delay), roundFree delay)
  | _, _, _ => none

/-- An exchange after one of its messages: discarded where it is bad and answered, completed where nothing is missing. -/
def exchangeStep (d : Dev) (m : Nat) (e : Exchange) : Dev :=
  let d := setClient d m { getClient d m with exchange := some e }
  if e.bad ∧ e.resp.isSome then discardExchange d m
  else match e.results with
    | none => d
    | some (off, dl) =>
      let d := setClient d m { getClient d m with exchange := none, result := some (off, dl, d.bt) }
      let d := setFld (deposit d (8 + m) (.ptp off) e.t2) .ptpClient m PCli.lastOffset (ofInt 64 off)
      bumpFld (setFld d .ptpClient m PCli.meanPath (min (2 ^ 32 - 1) dl.toNat)) .ptpClient m PCli.exchanges

/-- A Follow_Up of the exchange's master. -/
def clientFollowUp (d : Dev) (m : Nat) (b : List Byte) : Dev :=
  match (getClient d m).exchange with
  | some e =>
    if e.t1.isSome ∨ e.master ≠ msgSource b then d
    else if e.seq ≠ msgSeq b then discardExchange d m
    else exchangeStep d m { e with t1 := some (ptpTimeOf b 34), cSync := e.cSync + corrOf64 b }
  | none => d

/-- The portIdentity of a client instance. -/
def clientId (d : Dev) (p : Nat) : Nat :=
  fld d .ptp (fld d .ptpPort p PPort.tenant) Ptp.clockIdentity * 65536 + p + 1

/-- A Delay_Resp of the exchange's master, before or after its Follow_Up. -/
def clientDelayResp (d : Dev) (m p : Nat) (b : List Byte) : Dev :=
  match (getClient d m).exchange with
  | some e =>
    if e.master ≠ msgSource b ∨ e.reqSeq ≠ some (msgSeq b) ∨ e.resp.isSome then d
    else if rdBe b 44 10 ≠ clientId d p then discardExchange d m
    else exchangeStep d m { e with resp := some (ptpTimeOf b 34, corrOf64 b) }
  | none => d

/-- GRANT TLVs of the master (R243): the duration in s and the edge, by message type. -/
def clientSignaling (d : Dev) (m : Nat) (b : List Byte) : Dev :=
  let gs := (tlvs (msgLen b) (slice b 44 (msgLen b - 44))).filter fun e => e.1 = 0x0005
  let c := getClient d m
  setClient d m { c with granted := gs.foldl (fun l e =>
    let n := rdBe e.2 2 4
    Tab.set 0 l (rdBe e.2 0 1 / 16) (if n = 0 then 0 else n * 2 ^ 64 + d.bt)) c.granted }

/-- The first waiting frame of a client instance (R243, R244): messages in its domain, of its master where it negotiates;
a Sync of the selected master, a Follow_Up or a Delay_Resp of the exchange's. -/
def clientFrame (d : Dev) (m : Nat) : Dev :=
  match d.ptp.inbox.find? fun e => e.1 = m with
  | none => d
  | some (_, x) =>
    let d := { d with ptp := { d.ptp with inbox := d.ptp.inbox.erase (m, x) } }
    match clientPort d m with
    | none => d
    | some p =>
      let (b, q) := ptpMessage d x.pkt
      let r := getRec d .ptpPort p
      let fromMaster := !negotiates d p || decide (q.ipSrc = getF r PPort.masterAddr)
      if msgMalformed b ∨ rdBe b 4 1 ≠ getF r PPort.domain ∨ !fromMaster then d
      else if msgType b = ptpAnnounce then (if msgLen b < 64 then d else clientAnnounce d m b)
      else if msgType b = ptpSignaling then (if msgLen b < 44 then d else clientSignaling d m b)
      else if msgLen b < 44 then d
      else if msgType b = ptpSync then
        (if msgSource b = fld d .ptpClient m PCli.masterPortId then clientSync d m x.pkt b else d)
      else if msgType b = ptpFollowUp then clientFollowUp d m b
      else if msgType b = ptpDelayResp ∧ 54 ≤ msgLen b then clientDelayResp d m p b
      else d

/-- A message of a client instance: to the master it negotiates with, whose MAC address the spec does not give, or to the
multicast destination. -/
def clientSend (d : Dev) (m p q dport : Nat) (seq : Option Nat) (msg : List Byte) : Dev :=
  let r := getRec d .ptpPort p
  let t := getF r PPort.tenant
  let e := getF r PPort.clientEntry
  let (mac, d) := draw d
  let f := if getF r PPort.negotiate = 1 then
      some (ptpUdp d t p e (mac % 2 ^ 48) (pportTags r) (decide (fld d .addrEntry e Addr.family = 2))
        (getF r PPort.masterAddr) dport msg)
    else ptpGroup d t p dport (groupSource d t p) msg
  match f with
  | some f => enqueue d p q (f.tx (.client m seq))
  | none => d

/-- A grant that the client holds from its master now. -/
def clientHolds (d : Dev) (c : ClientInst) (type : Nat) : Bool :=
  let g := Tab.get 0 c.granted type
  decide ((d.bt - g % 2 ^ 64) * btNs d < g / 2 ^ 64 * 10 ^ 9)

/-- The Delay_Req period has passed since the last. -/
def delayReqDue (d : Dev) (c : ClientInst) (p : Nat) : Bool :=
  decide ((2 : Rat) ^ (sfld d .ptpPort p PPort.logDelay) * 10 ^ 9 ≤ ((d.bt - c.delayBt) * btNs d : Nat))

/-- The client's Delay_Req at its period (R243): it joins the exchange of the latest Sync. -/
def clientRequest (d : Dev) (m : Nat) : Dev :=
  match clientPort d m with
  | none => d
  | some p =>
    let r := getRec d .ptpPort p
    let c := getClient d m
    if fld d .ptpClient m PCli.masterPortId = 0 ∨ (negotiates d p ∧ !clientHolds d c ptpDelayResp) ∨ !delayReqDue d c p then d
    else
      let n := c.seqDelay
      let ex := c.exchange.map fun e => if e.reqSeq.isNone then { e with reqSeq := some n } else e
      let d := setClient d m { c with exchange := ex, seqDelay := (n + 1) % 65536, delayBt := d.bt }
      let msg := ptpHeader d (getF r PPort.tenant) p ptpDelayReq 44 (getF r PPort.domain)
        (if negotiates d p then 4 else 0) 0 0 n (ofInt 8 (getS r PPort.logDelay)) ++ beBytes 10 0
      clientSend d m p 6 320 (some n) msg

/-- A grant a negotiating client must request or renew: none held, or half its duration gone. -/
def grantWanted (d : Dev) (c : ClientInst) (type : Nat) : Bool :=
  let g := Tab.get 0 c.granted type
  decide (g = 0) || decide (g / 2 ^ 64 * 10 ^ 9 ≤ 2 * (d.bt - g % 2 ^ 64) * btNs d)

def clientRenew (d : Dev) (m : Nat) : Dev :=
  match clientPort d m with
  | none => d
  | some p =>
    let r := getRec d .ptpPort p
    let c := getClient d m
    let want := [(ptpAnnounce, PPort.logAnnounce), (ptpSync, PPort.logSync), (ptpDelayResp, PPort.logDelay)].filter
      fun e => grantWanted d c e.1
    if !negotiates d p ∨ want.isEmpty then d
    else
      let n := c.seqSignaling
      let d := setClient d m { c with seqSignaling := (n + 1) % 65536 }
      let body := want.flatMap fun e => beBytes 2 0x0004 ++ beBytes 2 6 ++ beBytes 1 (e.1 * 16)
        ++ beBytes 1 (ofInt 8 (getS r e.2)) ++ beBytes 4 300
      let msg := ptpHeader d (getF r PPort.tenant) p ptpSignaling (44 + body.length) (getF r PPort.domain) 4 0 0 n 0x7F
        ++ beBytes 10 (2 ^ 80 - 1) ++ body
      clientSend d m p 4 320 none msg

/-- An exchange not completed within 4 s of its Sync. -/
def exchangeTimeout (d : Dev) (m : Nat) : Dev :=
  match (getClient d m).exchange with
  | some e => if 4 * 10 ^ 9 ≤ (d.bt - e.startBt) * btNs d then discardExchange d m else d
  | none => d

/-- The selected master's Announce messages have stopped for three periods. -/
def announceTimeout (d : Dev) (m : Nat) : Dev :=
  match clientPort d m with
  | none => d
  | some p =>
    let c := getClient d m
    let id := fld d .ptpClient m PCli.masterPortId
    let period : Rat := (2 : Rat) ^ (sfld d .ptpPort p PPort.logAnnounce)
    let late (e : Nat × Nat × Nat × Bool) : Bool :=
      decide (e.1 = id) && decide (3 * period * 10 ^ 9 ≤ ((d.bt - e.2.2.1) * btNs d : Nat))
    if c.masters.any late then selectMaster (setClient d m { c with masters := c.masters.filter fun e => !late e }) m
    else d

/-- CSTATE as read: MEASURING with a selected master, and the grants where it negotiates. -/
def clientState (d : Dev) (m p : Nat) : Nat :=
  if !fwRuns d then 0
  else if fld d .ptpClient m PCli.masterPortId ≠ 0
      ∧ (negotiates d p = false ∨ clientHolds d (getClient d m) ptpDelayResp) then 3
  else if negotiates d p then 2 else 1

/-! ### Commands (Table PTP.10) -/

def ptpDep (req : Nat) : Dep := fun f _ v =>
  if f = Ptp.ptpEn ∧ v = 1 ∧ getF req Ptp.clockIdentity = 0 then some (0, .dependent) else none

def ptpConfigCmd : Cmd :=
  RecSpec.cmd { kind := .ptp, ib := 2, inSet := tenantIdx, image := plainImage .ptp, dep := fun _ _ req => ptpDep req
                apply := atNextEdge .ptp } 0x3300 [.c, .p, .v] [.c] .live (tenantAt 0)

/-- The ranges of Table PTP.7 and of a client's periods. -/
def logRange (profile role : Nat) (f : Fld) : Int × Int :=
  if 2 ≤ role then (if f = PPort.logSync then (-7, 1) else if f = PPort.logAnnounce then (-3, 4) else (-7, 5))
  else if profile = 1 then (if f = PPort.logSync then (-4, -4) else if f = PPort.logAnnounce then (-3, -3) else (-4, -4))
  else (if f = PPort.logSync then (-1, 1) else if f = PPort.logAnnounce then (0, 4) else (0, 5))

/-- A port record's role under R237 and R243. -/
def roleAllowed (d : Dev) (p req role : Nat) : Bool :=
  let prof := getF req PPort.profile
  let within (type : Nat) (f : Fld) : Bool :=
    let (lo, hi) := logRange prof 1 f
    decide (grantedRate d type none (some p) + rateOf (nearestInt lo hi (getS req f)) ≤ rateLimit type)
  if role = 1 then within ptpSync PPort.logSync && within ptpAnnounce PPort.logAnnounce && within ptpDelayResp PPort.logDelay
  else if role = 0 then true
  else (List.range 16).all fun x => decide (x = p) || decide (fld d .ptpPort x PPort.role ≠ role)

def pportDep (d : Dev) (p req : Nat) : Dep := fun f acc v =>
  let role := getF acc PPort.role
  let prof := getF acc PPort.profile
  let keep (a : Nat) : Option (Nat × Reason) := if a = v then none else some (a, .dependent)
  if f = PPort.role then (if roleAllowed d p req v then none else some (0, .dependent))
  else if f = PPort.transport then (if prof = 1 then keep 0 else none)
  else if f = PPort.negotiate then (if role < 2 then keep 0 else none)
  else if f = PPort.domain then keep (if prof = 1 then nearest 24 43 v else nearest 0 127 v)
  else if f = PPort.tenant then (if tenantBound d v then none else keep 0)
  else if f = PPort.logSync ∨ f = PPort.logAnnounce ∨ f = PPort.logDelay then
    let (lo, hi) := logRange prof role f
    keep (ofInt 4 (nearestInt lo hi (toInt 4 v)))
  else if f = PPort.vlanVid then (if getF acc PPort.vlanEn = 1 then keep (nearest 1 4094 v) else none)
  else if f = PPort.clientEntry then
    let r := getRec d .addrEntry v
    (if getF r Addr.family = 0 ∨ !bit (getF r Addr.portMask) p then keep 0 else none)
  else if f = PPort.masterAddr then
    (if badUnicast (decide (fld d .addrEntry (getF acc PPort.clientEntry) Addr.family = 2 ∨ 2 ^ 32 ≤ v)) v then keep 0
      else none)
  else none

def ptpPortCmd : Cmd :=
  RecSpec.cmd { kind := .ptpPort, ib := 1, inSet := portIdx, present := portStarts, image := plainImage .ptpPort
                dep := pportDep, apply := atNextEdge .ptpPort } 0x3301 [.c, .p] [.c]

/-- Clients and granted rates of a list of grant entries (Table PTP.10); the rounding of the rates is left open. -/
def grantReport (l : List (Nat × GrantEntry)) : List Byte :=
  let rate (type : Nat) : Nat :=
    (roundFree (l.foldl (fun (n : Rat) e => match e.2.grant type with | some g => n + rateOf g.logPeriod | none => n) 0)).toNat
  leBytes 4 l.length ++ leBytes 4 (rate ptpSync) ++ leBytes 4 (rate ptpDelayResp) ++ leBytes 4 (rate ptpAnnounce)

/-- PTP_GRANTS: clients and granted rates of a tenant or of the device. -/
def ptpGrantsCmd : Cmd :=
  { op := 0x3302, readBy := [.c, .p, .v], tenant := fun p => if rdLe p 0 2 < 4096 then tenantAt 0 p else none
    admits := fun x p _ b => b && (decide (rdLe p 0 2 < 4096) || x.asHost)
    check := fun _ p _ => if p.length = 4 ∧ (tenantIdx p ∨ rdLe p 0 2 = 0xFFFF) then none else some .badLength
    body := fun _ p d =>
      let all := decide (rdLe p 0 2 = 0xFFFF)
      .done .ok (grantReport ((grantList d).filter fun e => all || decide (e.2.tenant = rdLe p 0 2))) [] d }

def ptpClientCmd : Cmd :=
  { op := 0x3303, readBy := [.c, .p]
    check := fun _ p d =>
      if p.length ≠ 4 ∨ 2 ≤ rdLe p 0 1 then some .badLength
      else if (clientPort d (rdLe p 0 1)).isNone then some .notPresent else none
    body := fun _ p d =>
      let m := rdLe p 0 1
      readReply .ptpClient (setF (getRec d .ptpClient m) PCli.cstate (clientState d m ((clientPort d m).getD 0)))
        (readClear d .ptpClient m) }

def ptpStatsCmd : Cmd := tenantStats 0x3304 .ptp 23

def execPtpConfig (m : Msg) (s : State) : Host.Outcome State Fault Refusal := mailbox ptpConfigCmd m s
def execPtpPort (m : Msg) (s : State) : Host.Outcome State Fault Refusal := mailbox ptpPortCmd m s
def execPtpGrants (m : Msg) (s : State) : Host.Outcome State Fault Refusal := mailbox ptpGrantsCmd m s
def execPtpClient (m : Msg) (s : State) : Host.Outcome State Fault Refusal := mailbox ptpClientCmd m s
def execPtpStats (m : Msg) (s : State) : Host.Outcome State Fault Refusal := mailbox ptpStatsCmd m s

/-- The client instances run on the management processor (R243). -/
def onProcessor (s : State) (f : Dev → Dev) : Host.Outcome State Fault Refusal :=
  onPath s fun d => if fwRuns d then f d else d

def execPtpMessageDue (multicast : Bool) (index : Fin 65536) (announce : Bool) (due : Nat) (s : State) :
    Host.Outcome State Fault Refusal :=
  onPath s fun d => messageDue d (schedKey multicast index.val announce) due

def execTwoStepFollowUp (s : State) : Host.Outcome State Fault Refusal := onPath s followUpDue

def execGrantExpiry (index : Fin 65536) (type : Fin 3) (s : State) : Host.Outcome State Fault Refusal :=
  onPath s fun d => grantExpiry d index.val (grantType type.val)

def execGrantEntryFree (index : Fin 65536) (s : State) : Host.Outcome State Fault Refusal :=
  onPath s fun d => grantFree d index.val

def execPtpClientFrame (master : Fin 2) (s : State) : Host.Outcome State Fault Refusal :=
  onProcessor s fun d => clientFrame d master.val

def execPtpClientDelayReq (master : Fin 2) (s : State) : Host.Outcome State Fault Refusal :=
  onProcessor s fun d => clientRequest d master.val

def execPtpClientRenew (master : Fin 2) (s : State) : Host.Outcome State Fault Refusal :=
  onProcessor s fun d => clientRenew d master.val

def execPtpExchangeTimeout (master : Fin 2) (s : State) : Host.Outcome State Fault Refusal :=
  onProcessor s fun d => exchangeTimeout d master.val

def execAnnounceReceiptTimeout (master : Fin 2) (s : State) : Host.Outcome State Fault Refusal :=
  onProcessor s fun d => announceTimeout d master.val

end Sys2Proof.Machine
end

