-- ==== Sys2Proof/Machine/Tiu.lean ====
section
/-! DEFINITION. The time-interval unit and the timing outputs (12_time_interval_unit.md): captures and their filters, the
measurement modes, the event FIFO, PPS and FOUT outputs, and the TIU commands. -/

namespace Sys2Proof.Machine

open Sys2Proof

/-! ### Inputs -/

def getIn (d : Dev) (i : Nat) : TiuInput := Tab.get TiuInput.reset d.tiu.inputs i

def setIn (d : Dev) (i : Nat) (x : TiuInput) : Dev :=
  { d with tiu := { d.tiu with inputs := Tab.set TiuInput.reset d.tiu.inputs i x } }

def getOut (d : Dev) (i : Nat) : TiuOutput := Tab.get TiuOutput.reset d.tiu.outputs i

def setOut (d : Dev) (i : Nat) (x : TiuOutput) : Dev :=
  { d with tiu := { d.tiu with outputs := Tab.set TiuOutput.reset d.tiu.outputs i x } }

/-- The timestamp domain works, and capture has not been stopped by the FATAL safe state. -/
def tiuRuns (d : Dev) : Bool := fastRuns d && bit d.pwr.plls 1 && !safe d

def inMode (d : Dev) (i : Nat) : Nat := fld d .tiuIn i TIn.mode

/-- The capture path of an input runs (R296). -/
def capturing (d : Dev) (i : Nat) : Bool :=
  decide (inMode d i ≠ 0) ||
    (List.range 8).any fun j => decide (j ≠ i) && decide (inMode d j = 2) && decide (fld d .tiuIn j TIn.stopInput = i)

/-- EDGE chooses an edge to this level. -/
def edgeChosen (d : Dev) (i : Nat) (level : Bool) : Bool :=
  match fld d .tiuIn i TIn.edge with | 0 => level | 1 => !level | _ => true

def calibrated (d : Dev) (i : Nat) : Bool := decide (fld d .tiuInStatus i TInSt.calState = 2)

/-- A picosecond quantity in units of 2^-32 ns (R299). -/
def psUnits (ps : Int) : Int := roundHalf ((ps : Rat) * 2 ^ 32 / 1000)

/-- The centre of a bin in whole ps below 1,600, from the hits of a code-density pass (R300): the widths share one coarse
period as the hits do. -/
def binCentre (hits : List Nat) (b : Nat) : Nat :=
  min 1599 (roundFree ((1600 * (2 * (hits.take b).sum + hits.getD b 0) : Nat) / (2 * hits.sum : Nat))).toNat

/-- fine of an edge: by the table in use; while no pass has ever completed, a free value below one coarse period. -/
def fineOf (d : Dev) (e : TiuEdge) : Nat × Dev :=
  let h := (getIn d e.input.val).hits
  if h.isEmpty then drawUpTo d 1599 else (binCentre h e.bin.val, d)

/-- The capture of an edge (R299, R303, R304): follower 16, its coarse count and the interval scale at the capture tick,
less fine and the trim. -/
def capture (d : Dev) (e : TiuEdge) (fine : Nat) : Capture :=
  let i := e.input.val
  let trim := sfld d .tiuIn i TIn.inTrimPs
  let x := folAt d 16 e.at_.bt
  let k := e.at_.pos / 128
  let at_ : LocalAt := ⟨e.at_.bt, 128 * k⟩
  { tick := x.ticks + k, stamp := (latched d 16 at_ : Int) - psUnits fine - psUnits trim
    z := (x.scaleAt (folStart 16) k : Rat) * 1000 / 2 ^ 40 - fine - trim, fine := fine
    reason := if !calibrated d i then 1 else if !latchTracks d 16 at_ then 2 else 0, step := latchStep d 16 at_ }

/-! ### Event delivery (R307) -/

/-- An event record (Table TIU.3), SEQUENCE apart. -/
structure TiuRecord where
  stamp : Int
  input : Nat
  kind : Nat
  flags : Nat
  reason : Nat
  count : Nat
  data : Nat
  stop : Nat

def TiuRecord.bytes (r : TiuRecord) (sequence flags : Nat) : List Byte :=
  leBytes 12 (ofInt 96 r.stamp) ++ leBytes 1 r.input ++ leBytes 1 r.kind ++ leBytes 1 flags ++ leBytes 1 r.reason
    ++ leBytes 4 sequence ++ leBytes 4 r.count ++ leBytes 6 r.data ++ leBytes 1 r.stop ++ leBytes 1 0

/-- The ring of TIU records. -/
def tiuRing (d : Dev) : Fn × Nat := (pfOf (fld d .tiuDev 0 TDev.ringEndpoint), fld d .tiuDev 0 TDev.ringIndex)

/-- Records leave the FIFO for the ring while it takes or refuses them; a full ring keeps them in the FIFO. -/
def drainFifo : Nat → Dev → Dev
  | 0, d => d
  | fuel + 1, d =>
    match d.tiu.fifo with
    | [] => d
    | b :: rest =>
      let (f, r) := tiuRing d
      let d := if ringEnabled d f false r && live d f then skipBad (getRing d f false r).posted.length d f r else d
      if ringEnabled d f false r && live d f && decide ((getRing d f false r).posted = []) then d
      else
        let (ok, d) := deliver { d with tiu := { d.tiu with fifo := rest } } f r
          { stamp := 0, status := 0, port := 0, kind := 2, puntClass := 0, tenant := 0 } b
        drainFifo fuel (if ok then d else bumpFld d .tiuDev 0 TDev.ringDrops)

/-- The FIFO drained while RING_EN is 1; it is frozen in the FATAL safe state (Table TIU.4). -/
def tiuDrain (d : Dev) : Dev :=
  if flag d .tiuDev 0 TDev.ringEn && tiuRuns d then drainFifo d.tiu.fifo.length d else d

/-- A record produced by its input: counted, and put into the FIFO with TO_FIFO; a full FIFO discards it. -/
def produce (d : Dev) (r : TiuRecord) : Dev :=
  let x := getIn d r.input
  let n := (x.sequence + 1) % 2 ^ 32
  let d := setIn d r.input { x with sequence := n }
  if !flag d .tiuIn r.input TIn.toFifo then d
  else if 4096 ≤ d.tiu.fifo.length then
    startEpisode (bumpFld { d with tiu := { d.tiu with lost := true } } .tiuDev 0 TDev.fifoDrops) (srcId 0x59 0)
  else
    let flags := r.flags + (if d.tiu.lost then 32 else 0)
    let d := endEpisode { d with tiu := { d.tiu with fifo := d.tiu.fifo ++ [r.bytes n flags], lost := false } } (srcId 0x59 0)
    tiuDrain d

/-! ### Modes -/

/-- A stop ends a waiting start (R304): the interval on the interval scale, in whole ps. -/
def intervalRecord (d : Dev) (i : Nat) (a b : Capture) : TiuRecord :=
  let reason := if a.reason ≠ 0 then a.reason else b.reason
  { stamp := a.stamp, input := i, kind := 1, flags := b2n (decide (reason = 0)) + 2 * b2n a.step + 16, reason := reason
    count := a.tick % 2 ^ 32, data := ofInt 48 (roundFree (b.z - a.z)), stop := fld d .tiuIn i TIn.stopInput }

/-- The record of a start that no stop has ended within 2^32 coarse ticks (R304). -/
def overflowRecord (d : Dev) (i : Nat) (a : Capture) : TiuRecord :=
  { stamp := a.stamp, input := i, kind := 1, flags := b2n (decide (a.reason = 0)) + 2 * b2n a.step + 8
    reason := a.reason, count := a.tick % 2 ^ 32, data := 2 ^ 48 - 1, stop := fld d .tiuIn i TIn.stopInput }

/-- A start that waits is given up when the coarse count has reached 2^32 ticks after it; the input waits for a new one. -/
def overflowBy (tick : Nat) (d : Dev) (i : Nat) : Dev :=
  match (getIn d i).waiting with
  | none => d
  | some a =>
    if tick < a.tick + 2 ^ 32 then d
    else
      let d := bumpFld (setIn d i { getIn d i with waiting := none }) .tiuInStatus i TInSt.overflows
      produce d (overflowRecord d i a)

/-- An accepted edge of an input that another input in INTERVAL mode names as its stop. -/
def stopFor (i : Nat) (c : Capture) (d : Dev) (j : Nat) : Dev :=
  if j ≠ i ∧ inMode d j = 2 ∧ fld d .tiuIn j TIn.stopInput = i then
    match (getIn d j).waiting with
    | some a =>
      if a.stamp < c.stamp then produce (setIn d j { getIn d j with waiting := none }) (intervalRecord d j a c) else d
    | none => d
  else d

/-- An accepted edge of an input in INTERVAL mode: a start, or the stop of its own waiting start. -/
def intervalEdge (d : Dev) (i : Nat) (c : Capture) : Dev :=
  let x := getIn d i
  match x.waiting with
  | none => setIn d i { x with waiting := some c }
  | some a =>
    if fld d .tiuIn i TIn.stopInput = i then produce (setIn d i { x with waiting := none }) (intervalRecord d i a c)
    else
      let d := bumpFld d .tiuInStatus i TInSt.startExtra
      if flag d .tiuIn i TIn.startPolicy then setIn d i { x with waiting := some c } else d

/-- A stretch without an accepted edge exceeds GAP_NS (R306). -/
def gapExceeded (d : Dev) (i : Nat) (a b : Int) : Bool :=
  let g := fld d .tiuIn i TIn.gapNs
  decide (g ≠ 0) && decide ((g : Int) * 2 ^ 32 < b - a)

/-- The reason of an invalid gate (R306), 0 for a valid one. -/
def gateReason (g : Gate) : Nat :=
  if g.uncal then 1 else if g.untracked then 2 else if g.gap then 3 else if g.count < 2 then 4 else 0

/-- A gate ends at a boundary (R305): its record, and the measurement of I4 and I5. -/
def closeGate (d : Dev) (i : Nat) (g : Gate) (end_ : Int) : Dev :=
  let g := { g with gap := g.gap || gapExceeded d i (if g.count = 0 then g.start else g.last) end_ }
  let reason := gateReason g
  let span := (roundFree (((g.last - g.first.getD g.last : Int) : Rat) * 1000 / 2 ^ 32)).toNat
  let d := if reason = 0 then d else bumpFld d .tiuInStatus i TInSt.gatesInvalid
  let d := produce d { stamp := g.first.getD 0, input := i, kind := 2, flags := b2n (decide (reason = 0)), reason := reason
                       count := g.count, data := if g.count = 0 then 0 else span, stop := 0 }
  if i = 4 ∨ i = 5 then deposit d (2 + i) (.gate (decide (reason = 0)) g.count span) g.last else d

/-- Follower 16 just before the load of the current edge, and what it is loaded with. -/
def loadSpan (d : Dev) : Nat × Nat :=
  let x := getFol d 16
  (x.base + folStart 16 * x.incOld, x.load.getD 0)

/-- Follower 16 was hard-loaded at the current edge. -/
def tiuStep (d : Dev) : Bool := (getFol d 16).step

/-- A gate boundary, in 2^-32 ns: the gate in progress ends there and the next begins; one that has begun there goes on.
A hard load of the current base tick that is still to come lies in the new gate. -/
def turnGate (i : Nat) (d : Dev) (b : Int) : Dev :=
  let old := (getIn d i).gate
  if old.any fun g => decide (b ≤ g.start) then d
  else
    let d := match old with | some g => closeGate d i g b | none => d
    let late := tiuStep d && decide (b * 2 ^ 8 ≤ max (loadSpan d).1 (loadSpan d).2)
    setIn d i { getIn d i with gate := some { start := b, first := none, last := b, count := 0, uncal := false
                                              untracked := !folTracks d 16 || late, gap := false } }

/-- The length of an input's gates in 2^-32 ns. -/
def gateLength (d : Dev) (i : Nat) : Nat := fld d .tiuIn i TIn.gateMs * 10 ^ 6 * 2 ^ 32

/-- The boundaries that a stamp lies beyond, of the gate in progress: its gates end before the edge is counted. -/
def gatesPast (d : Dev) (i : Nat) (stamp : Int) : List Int :=
  match (getIn d i).gate with
  | none => []
  | some g =>
    let n := gateLength d i
    (List.range ((stamp - g.start) / n).toNat).map fun k => g.start + n * (k + 1 : Nat)

/-- An accepted edge of an open gate (R305). -/
def gateEdge (d : Dev) (i : Nat) (c : Capture) : Dev :=
  let d := (gatesPast d i c.stamp).foldl (turnGate i) d
  let x := getIn d i
  match x.gate with
  | none => d
  | some g =>
    let since := if g.count = 0 then g.start else g.last
    let g := { g with first := some (g.first.getD c.stamp), last := c.stamp, count := g.count + 1
                      uncal := g.uncal || decide (c.reason = 1), untracked := g.untracked || decide (c.reason = 2)
                      gap := g.gap || gapExceeded d i since c.stamp }
    setIn d i { x with gate := some g }

/-- An EDGE record (R303); I0–I3 also latch the edge for the reference measurement. -/
def stampEdge (d : Dev) (i : Nat) (falling : Bool) (c : Capture) : Dev :=
  let r : TiuRecord :=
    { stamp := c.stamp, input := i, kind := 0, flags := b2n (decide (c.reason = 0)) + 2 * b2n c.step + 4 * b2n falling
      reason := c.reason, count := c.tick % 2 ^ 32, data := c.fine, stop := 0 }
  let d := produce d r
  if i < 4 then depositEdge d (2 + i) c.stamp (decide (c.reason = 0) && !c.step) else d

/-- The base tick of an edge (R63). -/
def edgeTick (d : Dev) (c : Capture) : Nat := match tickOf d c.stamp.toNat with | some t => t.bt | none => d.bt

/-- An accepted edge, by the mode of its input. -/
def acceptEdge (d : Dev) (i : Nat) (falling : Bool) (c : Capture) : Dev :=
  let d := setIn d i { getIn d i with lastStamp := some c.stamp }
  let d := setFld (bumpFld d .tiuInStatus i TInSt.edgesAccepted) .tiuInStatus i TInSt.lastEdgeBt (edgeTick d c)
  let d := (List.range 8).foldl (stopFor i c) ((List.range 8).foldl (overflowBy c.tick) d)
  match inMode d i with
  | 1 => stampEdge d i falling c
  | 2 => intervalEdge d i c
  | 3 => gateEdge d i c
  | _ => d

/-- A level change of an input: captured when EDGE chooses it, then filtered by glitch and hold-off (R297). -/
def inputEdge (d : Dev) (e : TiuEdge) : Dev :=
  let i := e.input.val
  let d := setIn d i { getIn d i with level := e.level }
  if !tiuRuns d || !capturing d i || !edgeChosen d i e.level then d
  else if e.heldNs < fld d .tiuIn i TIn.minPulseNs then bumpFld d .tiuInStatus i TInSt.glitches
  else
    let (fine, d) := fineOf d e
    let c := capture d e fine
    let early : Bool := match (getIn d i).lastStamp with
      | some l => decide (c.stamp - l < (fld d .tiuIn i TIn.holdoffNs : Int) * 2 ^ 32)
      | none => false
    if early then bumpFld d .tiuInStatus i TInSt.holdoffRejects else acceptEdge d i (!e.level) c

/-- The coarse count before the next edge, by the nominal periods. -/
def coarseAhead (d : Dev) : Nat := (getFol d 16).ticks + (btNs d / folTickNs 16).ceil.toNat + 1

/-- No stop within 2^32 coarse ticks (R304). -/
def intervalOverflow (d : Dev) (i : Nat) : Dev := overflowBy (coarseAhead d) d i

/-- The first instant off + n·period of TSH in the current base tick, all in units of 2^-40 ns. -/
def dueIn (d : Dev) (off period : Rat) : Option Rat :=
  let lo : Rat := d.ts.tsh.total
  let x := ((lo - off) / period).ceil * period + off
  if x < lo + d.ts.tsh.inc then some x else none

/-- A gate boundary of an input in FREQUENCY mode in the current base tick: the gate in progress ends, the next begins. -/
def gateEnd (d : Dev) (i : Nat) : Dev :=
  if !tiuRuns d || decide (inMode d i ≠ 3) then d
  else match dueIn d 0 (gateLength d i * 2 ^ 8) with
    | none => d
    | some t => turnGate i d (t / 2 ^ 8).floor

/-! ### Calibration (R300, R301) -/

/-- A code-density pass of 2^20 hits over the 400 bins completes (R300): its table replaces the one in use. -/
def calPass (d : Dev) (i : Nat) (hits : List Nat) : Dev :=
  if tiuRuns d ∧ flag d .tiuInStatus i TInSt.dllLock ∧ hits.length = 400 ∧ hits.sum = 2 ^ 20 then
    setFld (setIn d i { getIn d i with calBt := some d.bt, hits := hits }) .tiuInStatus i TInSt.calState 2
  else d

def dllLock (d : Dev) (i : Nat) : Dev :=
  if tiuRuns d ∧ flag d .tiuInStatus i TInSt.dllLock = false then
    setFld (setFld d .tiuInStatus i TInSt.dllLock 1) .tiuInStatus i TInSt.calState 1
  else d

def uncalibrate (d : Dev) (i : Nat) : Dev := setFld (setFld d .tiuInStatus i TInSt.dllLock 0) .tiuInStatus i TInSt.calState 0

def dllUnlock (d : Dev) (i : Nat) : Dev :=
  if flag d .tiuInStatus i TInSt.dllLock then raise (uncalibrate d i) (srcId 0x58 i) else d

/-! ### Outputs (R308–R312) -/

/-- The output's squelch condition holds (R311). -/
def squelchOk (d : Dev) (code : Nat) : Bool :=
  let s := fld d .steer 0 Steer.select
  match code with
  | 0 => true
  | 1 => d.ts.tsh.set
  | _ => d.ts.tsh.set && decide (s ≠ 0) && decide (2 ≤ fld d .servoStatus (s - 1) SrvSt.servoState)

/-- Outputs 0–3 are PPS outputs, 4 and 5 FOUT. -/
def outRec (d : Dev) (o : Nat) : Nat := if o < 4 then getRec d .ppsOut o else getRec d .fout (o - 4)

def setOutRec (d : Dev) (o v : Nat) : Dev := if o < 4 then setRec d .ppsOut o v else setRec d .fout (o - 4) v

def outEnabled (d : Dev) (o : Nat) : Bool := decide (getF (outRec d o) Pps.enable = 1)

def outSquelch (d : Dev) (o : Nat) : Nat := getF (outRec d o) Pps.squelch

/-- An output generates edges: enabled, follower 16 TRACKING, not squelched. -/
def mayBegin (d : Dev) (o : Nat) : Bool :=
  tiuRuns d && !scanHeld d && folTracks d 16 && outEnabled d o && squelchOk d (outSquelch d o)

/-- The first due instant of an output in the current base tick that it has not taken yet. -/
def nextDue (d : Dev) (o : Nat) (off period : Rat) : Option Rat :=
  let lo : Rat := d.ts.tsh.total
  match (getOut d o).last with
  | some l =>
    if lo ≤ l then
      let x := (((l - off) / period).floor + 1) * period + off
      if x < lo + d.ts.tsh.inc then some x else none
    else dueIn d off period
  | none => dueIn d off period

/-- The due instant of an event in the current base tick, or the load tick that carried the follower past it (R310). -/
def dueOrLoad (d : Dev) (o : Nat) (off period : Rat) (byLoad : Bool) : Option Rat :=
  let (lo, hi) := loadSpan d
  if byLoad then
    (if tiuStep d ∧ (((lo : Rat) - off) / period).floor < (((hi : Rat) - off) / period).floor then some hi else none)
  else match nextDue d o off period with
    | some t => if tiuStep d ∧ (lo : Rat) < t ∧ t ≤ hi then none else some t
    | none => none

/-- The level a timing output drives: its pulse, by its polarity. -/
def outLevel (d : Dev) (o : Nat) : Bool :=
  let inv := decide (o < 4) && decide (getF (outRec d o) Pps.polarity = 1)
  (getOut d o).active != inv

/-- The signed delay from the ball to the reference plane (R308). -/
def outTrim (d : Dev) (o : Nat) : Int := if o < 4 then getS (outRec d o) Pps.outTrimPs else getS (outRec d o) Fout.outTrimPs

/-- A pulse or high half begins or ends: the edge leaves the ball OUT_TRIM_PS before its instant (R308). -/
def outEdge (d : Dev) (o : Nat) (x : TiuOutput) (t : Rat) : Dev :=
  let d := setOut d o x
  emit d (.output o (outLevel d o) (roundFree (t * 1000 / 2 ^ 40) - outTrim d o))

/-- The pulse or high half in progress ends at its instant. -/
def endOut (d : Dev) (o : Nat) : Dev := outEdge d o { getOut d o with active := false } (getOut d o).endAt

/-- A pulse or cycle begins at an instant, of a length, the cycle with it; one in progress there lets it pass. -/
def begin_ (d : Dev) (o : Nat) (t length cycle : Rat) (byLoad : Bool) (steps : Fld) : Dev :=
  let x := getOut d o
  if (x.active ∧ t < x.endAt) ∨ t < x.cycleEnd then d
  else
    let d := if x.active then endOut d o else d
    let d := outEdge d o { x with active := true, endAt := t + length, cycleEnd := t + cycle, last := some t } t
    if byLoad then setOutRec d o (bumpF (outRec d o) steps) else d

/-- The end of the pulse or half cycle in progress lies in the current base tick, or has passed. -/
def endDue (d : Dev) (o : Nat) : Bool :=
  (getOut d o).active && decide ((getOut d o).endAt < (d.ts.tsh.total + d.ts.tsh.inc : Nat))

/-- An output that a reset or the scan takes over is idle. -/
def endPulse (d : Dev) (o : Nat) : Dev := setOut d o { getOut d o with active := false, cycleEnd := 0 }

/-- An output is held at its inactive level from now on. -/
def cutPulse (d : Dev) (o : Nat) : Dev :=
  if (getOut d o).active then outEdge d o { getOut d o with active := false, cycleEnd := 0 } d.ts.tsh.total else d

/-- A PPS_OUT due instant, or the end of its pulse (R308). -/
def ppsEdge (d : Dev) (o : Nat) (begins byLoad : Bool) : Dev :=
  if !begins then (if endDue d o then endOut d o else d)
  else if !mayBegin d o then d
  else
    let r := getRec d .ppsOut o
    let off : Rat := ((getS r Pps.offsetNs : Int) : Rat) + (getF r Pps.offsetFinePs : Rat) / 1000
    match dueOrLoad d o (off * 2 ^ 40) (getF r Pps.periodMs * 10 ^ 6 * 2 ^ 40) byLoad with
    | some t =>
      let length : Rat := getF r Pps.pulseUs * 1000 * 2 ^ 40
      begin_ d o t length length byLoad Pps.stepEvents
    | none => d

/-- A FOUT rising edge, or the falling edge midway to the next (R309). -/
def foutEdge (d : Dev) (o : Nat) (rising byLoad : Bool) : Dev :=
  if !rising then (if endDue d o then endOut d o else d)
  else if !mayBegin d o then d
  else
    let r := getRec d .fout (o - 4)
    let period : Rat := (getF r Fout.freqDen : Rat) * 10 ^ 9 * 2 ^ 40 / getF r Fout.freqNum
    match dueOrLoad d o 0 period byLoad with
    | some t => begin_ d o t (period / 2) period byLoad Fout.stepEvents
    | none => d

/-- The fields of an output record that take effect at the next edge (R312). -/
def fastFields (o : Nat) : List Fld :=
  if o < 4 then [Pps.polarity, Pps.squelch, Pps.outTrimPs] else [Fout.squelch, Fout.outTrimPs]

/-- The fields that wait for a whole second (R312). -/
def slowFields (o : Nat) : List Fld :=
  if o < 4 then [Pps.enable, Pps.periodMs, Pps.pulseUs, Pps.offsetNs, Pps.offsetFinePs]
  else [Fout.enable, Fout.freqNum, Fout.freqDen]

def copyFields (fs : List Fld) (cur new : Nat) : Nat := fs.foldl (fun r f => setF r f (getF new f)) cur

/-- POLARITY, SQUELCH and OUT_TRIM_PS at their edge; a polarity change ends the pulse. -/
def applyOutFast (d : Dev) (o v : Nat) : Dev :=
  let old := outRec d o
  let d := setOutRec d o (copyFields (fastFields o) old v)
  if o < 4 ∧ getF old Pps.polarity ≠ getF v Pps.polarity then cutPulse d o else d

/-- Changed settings at the first whole TSH second at least 1 ms after the write, in the order of the writes. -/
def outSettings (d : Dev) (o : Nat) : Dev :=
  let x := getOut d o
  let due (w : Nat × Nat) : Bool := decide (1000000 ≤ (d.bt - w.1) * btNs d)
  if (dueIn d 0 (10 ^ 9 * 2 ^ 40)).isNone then d
  else
    let r := (x.pending.filter due).foldl (fun r w => copyFields (slowFields o) r w.2) (outRec d o)
    setOut (setOutRec d o r) o { x with pending := x.pending.filter fun w => !due w }

/-! ### What other parts do to the unit -/

/-- A hard load moves what an output has in progress with it, so that its width does not change (DESIGN CHOICE, assumption
log 93). -/
def shiftOut (d : Dev) (o : Nat) : Dev :=
  let x := getOut d o
  let m : Rat := ((loadSpan d).2 : Rat) - (loadSpan d).1
  setOut d o { x with endAt := x.endAt + m, cycleEnd := x.cycleEnd + m, last := none }

/-- Follower 16 is not TRACKING, or was hard-loaded: open gates are invalid; without tracking the outputs are held
inactive (R306, R310). -/
def tiuFollower (d : Dev) : Dev :=
  if folTracks d 16 && !tiuStep d then d
  else
    let d := (List.range 8).foldl (fun d i =>
      match (getIn d i).gate with
      | some g => setIn d i { getIn d i with gate := some { g with untracked := true } }
      | none => d) d
    if folTracks d 16 then (List.range 6).foldl shiftOut d else (List.range 6).foldl cutPulse d

/-- A reset of the timestamp domain (Table TIU.4). -/
def tiuReset (d : Dev) : Dev :=
  let d := (List.range 8).foldl (fun d i =>
    uncalibrate (setIn d i { getIn d i with lastStamp := none, waiting := none, gate := none, calBt := none, hits := [] }) i) d
  let d := (List.range 6).foldl endPulse d
  endEpisode { d with tiu := { d.tiu with fifo := [], lost := false } } (srcId 0x59 0)

/-- The reference that names an input (Table TIU.1), while it is enabled. -/
def inputRef (d : Dev) (i : Nat) : Option Nat := if i < 6 ∧ flag d .ref (2 + i) Ref.enable then some (2 + i) else none

/-- The bounds of HOLDOFF_NS and MIN_PULSE_NS under a reference's NOMINAL (R296). -/
def nominalBounds (nominal : Nat) : Nat × Nat :=
  match nominal with | 0 => (400, 200) | 1 => (80, 40) | _ => (40, 20)

/-- What an enabled reference forces on a record of its input (R296). -/
def forceInput (d : Dev) (i r v : Nat) : Nat :=
  if i < 4 then setF v TIn.mode 1
  else
    let (h, p) := nominalBounds (fld d .ref r Ref.nominal)
    let v := setF (setF v TIn.mode 3) TIn.gateMs 1000
    let v := setF v TIn.edge (if getF v TIn.edge = 2 then 0 else getF v TIn.edge)
    setF (setF v TIn.holdoffNs (min h (getF v TIn.holdoffNs))) TIn.minPulseNs (min p (getF v TIn.minPulseNs))

/-- An input record taking effect, as an enabled reference lets it: a new mode ends what the old one had open; a new GATE_MS discards the gate (R305). -/
def applyInput (d : Dev) (i v : Nat) : Dev :=
  let old := getRec d .tiuIn i
  let new := mergeRw tInFields old v
  let new := match inputRef d i with | some r => forceInput d i r new | none => new
  let d := setRec d .tiuIn i new
  let x := getIn d i
  let mode := decide (getF old TIn.mode ≠ getF new TIn.mode)
  setIn d i { x with waiting := if mode then none else x.waiting
                     gate := if mode || decide (getF old TIn.gateMs ≠ getF new TIn.gateMs) then none else x.gate }

/-- The settings a reference forces, at their edge. -/
def applyTiuRef (d : Dev) (i : Nat) : Dev := applyInput d i (getRec d .tiuIn i)

def applyTiuDev (d : Dev) (v : Nat) : Dev :=
  tiuDrain (setRec d .tiuDev 0 (mergeRw tDevFields (getRec d .tiuDev 0) v))

/-! ### Commands (Table TIU.6) -/

/-- The limits of an input record that an enabled reference or the mode sets (R296). -/
def inputDep (d : Dev) (i : Nat) : Dep := fun f acc v =>
  let r := inputRef d i
  let forced (x : Nat) : Option (Nat × Reason) := if r.isSome ∧ v ≠ x then some (x, .dependent) else none
  let b := nominalBounds (match r with | some r => fld d .ref r Ref.nominal | none => 2)
  let capped (x : Nat) : Option (Nat × Reason) :=
    if r.isSome ∧ 4 ≤ i ∧ x < v then some (x, .dependent) else none
  if f = TIn.mode then forced (if i < 4 then 1 else 3)
  else if f = TIn.edge then (if v = 2 ∧ getF acc TIn.mode = 3 then some (0, .dependent) else none)
  else if f = TIn.minPulseNs then capped b.2
  else if f = TIn.holdoffNs then capped b.1
  else if f = TIn.gateMs ∧ 4 ≤ i then forced 1000
  else none

def tiuInputCmd : Cmd :=
  RecSpec.cmd { kind := .tiuIn, ib := 1, inSet := idxBelow 8, image := plainImage .tiuIn
                dep := fun d i _ => inputDep d i, apply := atNextEdge .tiuIn } 0x1400 [.c, .p] [.c]

/-- An input status record as read (Table TIU.8). -/
def inputStatus (d : Dev) (i : Nat) : Nat :=
  let x := getIn d i
  let age := match x.calBt with | some b => min 65535 (btToMs d (d.bt - b)) | none => 0
  setF (setF (setF (getRec d .tiuInStatus i) TInSt.level (b2n x.level)) TInSt.waitingStop (b2n x.waiting.isSome))
    TInSt.calAgeMs age

def tiuStatusCmd : Cmd :=
  { op := 0x1401, readBy := [.c, .p]
    check := fun _ p _ => if p.length = 4 ∧ (rdLe p 0 1 < 8 ∨ rdLe p 0 1 = 0xFF) then none else some .badLength
    body := fun _ p d =>
      let is := if rdLe p 0 1 = 0xFF then List.range 8 else [rdLe p 0 1]
      .done .ok (is.flatMap fun i => leBytes 32 (inputStatus d i)) []
        (is.foldl (fun d i => readClear d .tiuInStatus i) d) }

def tiuDeviceImage (d : Dev) (i : Nat) : Nat := setF (getRec d .tiuDev i) TDev.fifoLevel d.tiu.fifo.length

def tiuDeviceCmd : Cmd :=
  RecSpec.cmd { kind := .tiuDev, ib := 0, index := fun _ => 0, image := tiuDeviceImage
                dep := fun _ _ _ f _ v => if f = TDev.ringIndex ∧ 63 < v then some (63, .range) else none
                apply := atNextEdge .tiuDev } 0x1402 [.c, .p] [.c]

def tiuEventsCmd : Cmd :=
  { op := 0x1403, writeBy := [.c], writeCls := .live, isWrite := fun _ => true, check := lens [4]
    body := fun _ p d =>
      let c := rdLe p 0 2
      let n := nearest 1 1024 c
      if flag d .tiuDev 0 TDev.ringEn then .done .state [] [] d
      else
        .done .ok (d.tiu.fifo.take n).flatten (if c = n then [] else [⟨15, 0, 0, .range, c, n⟩])
          { d with tiu := { d.tiu with fifo := d.tiu.fifo.drop n } } }

/-- The limits of a PPS output record that refer to PERIOD_MS (Table TIU.10). -/
def ppsDep : Dep := fun f acc v =>
  let p := getF acc Pps.periodMs
  if f = Pps.pulseUs then
    if v = 0 then some (1, .range) else if p * 500 < v then some (p * 500, .dependent) else none
  else if f = Pps.offsetNs then
    let x := toInt 32 v
    let lim : Int := min 999999999 (p * 1000000 - 1 : Nat)
    let y := nearestInt (-lim) lim x
    if x = y then none else some (ofInt 32 y, if lim = 999999999 then .range else .dependent)
  else none

/-- The ratio of a FOUT record is confined to 1–100,000,000 Hz (R309). -/
def foutDep (req : Nat) : Dep := fun f _ v =>
  let n := getF req Fout.freqNum
  let q := max 1 (getF req Fout.freqDen)
  let low := decide (n < q)
  let high := decide (100000000 * q < n)
  if f = Fout.freqNum then (if low then some (1, .dependent) else if high then some (100000000, .dependent) else none)
  else if f = Fout.freqDen ∧ (low || high) ∧ v ≠ 0 then some (1, .dependent)
  else none

/-- An output record as read: SQUELCHED of an enabled output whose squelch condition fails. -/
def outImage (d : Dev) (o : Nat) : Nat :=
  setF (outRec d o) Pps.squelched (b2n (outEnabled d o && !squelchOk d (outSquelch d o)))

/-- A write of an output record (R312). -/
def writeOut (d : Dev) (o v : Nat) : Dev :=
  let x := getOut d o
  let cur := x.pending.foldl (fun r w => copyFields (slowFields o) r w.2) (outRec d o)
  let changed := decide (copyFields (slowFields o) cur v ≠ cur)
  defer (setOut d o { x with pending := if changed then x.pending ++ [(d.bt, v)] else x.pending }) (.outFast o v)

def outFields (o : Nat) : List Field := if o < 4 then ppsFields else foutFields

def tiuOutputCmd : Cmd :=
  { op := 0x1404, readBy := [.c, .p], writeBy := [.c], writeCls := .live, isWrite := recordIsWrite 1
    check := fun _ p _ => if (p.length = 4 ∨ p.length = 20) ∧ rdLe p 0 1 < 6 then none else some .badLength
    body := fun _ p d =>
      let o := rdLe p 0 1
      if p.length = 4 then
        .done .ok (leBytes 16 (outImage d o)) [] (setOutRec d o (clearRc (outFields o) (outRec d o)))
      else
        let req := rdLe p 4 16
        let (v, es) := clampRecord (outFields o) (if o < 4 then ppsDep else foutDep req) 0 (outRec d o) req
        .done .ok (leBytes 16 (mergeRw (outFields o) (outImage d o) v)) es (writeOut d o v) }

def execTiuInput (m : Msg) (s : State) : Host.Outcome State Fault Refusal := mailbox tiuInputCmd m s
def execTiuStatus (m : Msg) (s : State) : Host.Outcome State Fault Refusal := mailbox tiuStatusCmd m s
def execTiuDevice (m : Msg) (s : State) : Host.Outcome State Fault Refusal := mailbox tiuDeviceCmd m s
def execTiuEvents (m : Msg) (s : State) : Host.Outcome State Fault Refusal := mailbox tiuEventsCmd m s
def execTiuOutput (m : Msg) (s : State) : Host.Outcome State Fault Refusal := mailbox tiuOutputCmd m s

def execTiuInputEdge (e : TiuEdge) (s : State) : Host.Outcome State Fault Refusal := whenOn s fun d => inputEdge d e
def execIntervalOverflow (input : Fin 8) (s : State) : Host.Outcome State Fault Refusal :=
  whenOn s fun d => if tiuRuns d then intervalOverflow d input.val else d
def execFrequencyGateEnd (input : Fin 8) (s : State) : Host.Outcome State Fault Refusal :=
  whenOn s fun d => gateEnd d input.val
def execTiuCalPassComplete (x : CalPass) (s : State) : Host.Outcome State Fault Refusal :=
  whenOn s fun d => calPass d x.input.val x.hits
def execTiuDllLock (input : Fin 8) (s : State) : Host.Outcome State Fault Refusal := whenOn s fun d => dllLock d input.val
def execTiuDllUnlock (input : Fin 8) (s : State) : Host.Outcome State Fault Refusal :=
  whenOn s fun d => dllUnlock d input.val
def execPpsOutputEdge (output : Fin 4) (begins byLoad : Bool) (s : State) : Host.Outcome State Fault Refusal :=
  whenOn s fun d => ppsEdge d output.val begins byLoad
def execFoutEdge (output : Fin 2) (rising byLoad : Bool) (s : State) : Host.Outcome State Fault Refusal :=
  whenOn s fun d => foutEdge d (4 + output.val) rising byLoad
def execOutputSettingsApply (output : Fin 6) (s : State) : Host.Outcome State Fault Refusal :=
  whenOn s fun d => if fastRuns d then outSettings d output.val else d

end Sys2Proof.Machine
end

