-- ==== Sys2Proof/Machine/Disc.lean ====
section
/-! DEFINITION. References and discipline (10_references_and_discipline.md): qualification, cross-check, the servos, the
initial set, seeding, master selection, and the REFERENCE and SERVO commands. -/

namespace Sys2Proof.Machine

open Sys2Proof

/-! ### The firmware's view of a master -/

def getServo (d : Dev) (m : Nat) : ServoDyn := Tab.get ServoDyn.reset d.disc.servos m

def setServo (d : Dev) (m : Nat) (x : ServoDyn) : Dev :=
  { d with disc := { d.disc with servos := Tab.set ServoDyn.reset d.disc.servos m x } }

def masterSet (d : Dev) (m : Nat) : Bool := (getTs d m).set

/-- RANK of a master: its listed references, in rank order. -/
def rankList (d : Dev) (m : Nat) : List Nat :=
  let r := fld d .servo m Srv.rank
  ((List.range 8).map fun i => r / 2 ^ (28 - 4 * i) % 16).filter (· < 10)

def refState (d : Dev) (r : Nat) : Nat := fld d .refStatus r RefSt.state

def qualified (d : Dev) (r : Nat) : Bool := decide (refState d r = 2)

def refPresent (d : Dev) (r : Nat) : Bool := decide (r ≠ 1) || decide (d.variant = .f)

def phaseCapable (r : Nat) : Bool := decide (refKind r ≠ 2)

/-- The active reference of a master. -/
def activeRef (d : Dev) (m : Nat) : Option Nat :=
  let a := fld d .servoStatus m SrvSt.activeRef
  if a < 10 then some a else none

/-- The rate of a timescale's INC against INC_NOM, in ppb. -/
def incRate (d : Dev) (i : Nat) : Rat := ((getTs d i).inc : Rat) / incNom d * 10 ^ 9 - 10 ^ 9

/-- The INC of a rate in ppb (R253): to the nearest unit, confined by R40. -/
def incOf (d : Dev) (rate : Rat) : Nat := clampInc d (roundHalf ((incNom d : Rat) * (1 + rate / 10 ^ 9))).toNat

/-- The nanoseconds of a field in units of 2^-16 ns. -/
def ns16 (n : Nat) : Int := (n * 65536 : Nat)

/-! ### Step 1: measurements (R248, Table DISC.2) -/

/-- The measurement of a second: ERR_H with the offsets of its base tick, none for FREQ; the frequency in ppt; whether it
is of a survey. -/
structure Meas where
  errH : Option Int
  offA : Option Int
  offB : Option Int
  ppt : Option Int
  survey : Bool
  bt : Nat

def Meas.off (x : Meas) (m : Nat) : Option Int := if m = 0 then x.offA else x.offB

/-- e_X of a measurement (R248); none where OFFSET_X was not valid. -/
def Meas.e (x : Meas) (m : Nat) : Option Int :=
  match x.errH, x.off m with | some h, some o => some (h - o) | _, _ => none

/-- ERR_H of an edge stamp: the offset-corrected stamp against the nearest whole second, halves away from zero. -/
def ppsErr (d : Dev) (r : Nat) (s : Int) : Int :=
  let u : Int := s - (sfld d .ref r Ref.delayNs + sfld d .ref r Ref.ppsOffsetNs) * (2 ^ 32 : Nat)
  let near : Int := roundHalf ((u : Rat) / (secUnits : Rat)) * secUnits
  (near - u) / (2 ^ 16 : Nat)

def nominalHz (d : Dev) (r : Nat) : Nat :=
  match fld d .ref r Ref.nominal with | 0 => 1000000 | 1 => 5000000 | _ => 10000000

/-- FREQ_PPT of a gate against NOMINAL. -/
def gatePpt (d : Dev) (r edges spanPs : Nat) : Int :=
  roundFree (((edges - 1 : Nat) : Rat) * 10 ^ 12 / spanPs / nominalHz d r * 10 ^ 12 - 10 ^ 12)

/-- The epoch errors among some samples, held or not. -/
def gSamples (held : Bool) (l : List Sample) : List Sample :=
  l.filter fun s => match s.kind with | .gnss _ h => h == held | _ => false

def sampleVal (s : Sample) : Int :=
  match s.kind with | .gnss g _ => g | .ptp o => o | .edge t _ => t | .gate _ n _ => n

/-- The measurement a reference's samples of the second make, if any. A mean takes the offsets of its last sample, a median
those of the sample it is, else of the last. -/
def measure (d : Dev) (r : Nat) : Option Meas :=
  let l := (getRef d r).samples
  match refKind r with
  | 0 =>
    let held := gSamples true l
    let used := if held.isEmpty then gSamples false l else held
    used.getLast?.map fun s =>
      { errH := some (roundFree (meanRat (used.map fun x => ((sampleVal x : Int) : Rat))) + sfld d .ref r Ref.delayNs * 65536)
        offA := s.offA, offB := s.offB, ppt := none, survey := held.isEmpty, bt := s.bt }
  | 1 =>
    match l.getLast? with
    | some s => match s.kind with
      | .edge t true => some { errH := some (ppsErr d r t), offA := s.offA, offB := s.offB, ppt := none, survey := false
                               bt := s.bt }
      | _ => none
    | none => none
  | 2 =>
    match l.getLast? with
    | some s => match s.kind with
      | .gate true n span => some { errH := none, offA := none, offB := none, ppt := some (gatePpt d r n span)
                                    survey := false, bt := s.bt }
      | _ => none
    | none => none
  | _ =>
    let m := median (l.map sampleVal)
    let own := l.find? fun s => decide (((sampleVal s : Int) : Rat) = m)
    l.getLast?.map fun last =>
      let s := own.getD last
      { errH := some (-(roundFree m)), offA := s.offA, offB := s.offB, ppt := none, survey := false, bt := s.bt }

/-! ### Step 2: reference states (R249–R251) -/

/-- RMS² of some points about their least-squares line, in the square of their unit. -/
def lineMs (l : List (Nat × Int)) : Rat :=
  let n : Rat := l.length
  let xs := l.map fun e => (e.1 : Rat)
  let ys := l.map fun e => ((e.2 : Int) : Rat)
  let mx := sumRat xs / n
  let my := sumRat ys / n
  let sxx := sumRat (xs.map fun x => (x - mx) ^ 2)
  let sxy := sumRat ((xs.zip ys).map fun e => (e.1 - mx) * (e.2 - my))
  let b := if sxx = 0 then 0 else sxy / sxx
  sumRat ((xs.zip ys).map fun e => (e.2 - my - b * (e.1 - mx)) ^ 2) / n

/-- An ABSENT input forgets its train of edges (R249). -/
def forgetTrain (d : Dev) (r : Nat) : Dev := setRef d r { getRef d r with lastStamp := none }

/-- The reference enters a state, or stays in it; entering, its age starts. -/
def enterRef (d : Dev) (r st reason : Nat) : Dev :=
  let old := refState d r
  let d := setFld (setFld d .refStatus r RefSt.state st) .refStatus r RefSt.reason reason
  let d := if st = 0 then forgetTrain d r else d
  if old = st then d
  else setRef d r { getRef d r with stateEval := d.disc.evalN, stateBt := d.bt, qualRun := 0, holdRun := 0 }

/-- Entry to DISQUALIFIED (R251). -/
def disqualify (d : Dev) (r reason : Nat) : Dev :=
  let again := decide (refState d r = 3)
  let d := enterRef d r 3 reason
  let d := setRef d r { getRef d r with holdRun := 0 }
  if again then d else raise (bumpFld d .ref r Ref.disqEvents) (srcId 0x43 r)

def refMaster (r : Nat) : Nat := r - 8

/-- The ABSENT cause of an enabled reference, if one holds (Table DISC.3). -/
def absentCause (d : Dev) (r : Nat) : Option Nat :=
  let lost := decide (fld d .ref r Ref.lossCount ≤ (getRef d r).missRun)
  match refKind r with
  | 3 =>
    match clientPort d (refMaster r) with
    | none => some 19
    | some p => if clientState d (refMaster r) p ≠ 3 then some 14 else if lost then some 2 else none
  | 0 => if lost then some (if anyTracking d r && !(getRef d r).restarted then 5 else 2) else none
  | _ => if lost then some 2 else none

/-- The frequency of a FREQ reference is out of range: against TSH, or against a LOCKED master that lists it. -/
def freqOut (d : Dev) (r : Nat) (ppt : Int) : Bool :=
  let ppb : Rat := (ppt : Rat) / 1000
  let win : Rat := fld d .ref r Ref.freqWindowPpb
  decide (100000 < |ppb|) ||
    [0, 1].any fun m => decide ((getServo d m).state = 2) && (rankList d m).contains r
      && decide (win < |ppb - (incRate d m - incRate d 2)|)

/-- A DISQUALIFIED cause and whether it holds. -/
def disqCauses (d : Dev) (r : Nat) (x : Option Meas) : List Nat :=
  let k := refKind r
  let dyn := getRef d r
  let c (b : Bool) (n : Nat) : List Nat := if b then [n] else []
  let m := refMaster r
  let cl := getClient d m
  let sel := cl.masters.find? fun e => decide (e.1 = fld d .ptpClient m PCli.masterPortId)
  let ex := dyn.exchanges.foldl (fun a e => (a.1 + e.1, a.2 + e.2)) (0, 0)
  let phase : Bool := match x with
    | some y => [0, 1].any fun m => decide ((getServo d m).state = 2) && (rankList d m).contains r
        && (match y.e m with | some e => decide (ns16 (fld d .ref r Ref.phaseWindowNs) < e.natAbs) | none => false)
    | none => false
  let jit : Rat := (ns16 (fld d .ref r Ref.jitterNs) : Int)
  let jitter : Bool := match x with
    | some y => y.errH.isSome && decide (jit * jit < lineMs dyn.hist)
    | none => false
  c (flag d .refStatus r RefSt.forced) 4
    ++ c (decide (k = 0) && x.isSome && decide (fld d .gnssSol r GSol.satsUsed < fld d .ref r Ref.minSats)) 6
    ++ c (decide (k = 0) && decide (fld d .gnssBase 0 GBl.spoofState = 2)) 8
    ++ c (decide (k = 1) && decide (2 < (dyn.extras.filter fun n => d.disc.evalN ≤ n + 10).length)) 9
    ++ c phase 10 ++ c jitter 11
    ++ c (match x with | some y => (match y.ppt with | some p => freqOut d r p | none => false) | none => false) 12
    ++ c (decide (k = 3) && decide (fld d .ref r Ref.maxClass < fld d .ptpClient m PCli.masterClass)) 15
    ++ c (decide (k = 3) && (match sel with | some e => !e.2.2.2 | none => false)) 16
    ++ c (decide (k = 3) && decide (ex.1 < ex.2)) 17
    ++ c ((decide (k = 1) || decide (k = 2)) && !calibrated d (r - 2)) 18

/-- The second's measurement recorded: the status record, the last 64 errors, the count of missing ones. -/
def recordMeas (d : Dev) (r : Nat) (x : Option Meas) : Dev :=
  let y := getRef d r
  let done := (y.samples.filter fun s => match s.kind with | .ptp _ => true | _ => false).length
  let y := { y with samples := [], exchanges := ((done, y.discards) :: y.exchanges).take 16, discards := 0
                    extras := y.extras.filter fun n => d.disc.evalN ≤ n + 10 }
  match x with
  | none =>
    let d := setRef d r { y with missRun := y.missRun + 1, fresh := false }
    setFld (bumpFld d .ref r Ref.missed) .refStatus r RefSt.phaseValid 0
  | some v =>
    let h := v.errH.getD 0
    let hist := if v.errH.isSome then ((d.disc.evalN, h) :: y.hist).take 64 else y.hist
    let d := setRef d r { y with missRun := 0, fresh := true, restarted := false, errH := h, offA := v.offA, offB := v.offB
                                 survey := v.survey, hist := hist }
    let s := getRec d .refStatus r
    let s := setF s RefSt.measBt v.bt
    let s := match v.errH with
      | some h => setF (setS (setF s RefSt.phaseValid 1) RefSt.errH (satInt 64 h)) RefSt.rmsPs
          (min (2 ^ 32 - 1) (sqrtRound (lineMs hist * (1000000 : Rat) / 65536 ^ 2)))
      | none => setF s RefSt.phaseValid 0
    let s := match v.ppt with | some p => setS s RefSt.freqPpt (satInt 32 p) | none => s
    setRec d .refStatus r s

/-- QUALITY: satellites used, or the PTP master's class. -/
def refQuality (d : Dev) (r : Nat) : Nat :=
  match refKind r with
  | 0 => fld d .gnssSol r GSol.satsUsed
  | 3 => fld d .ptpClient (refMaster r) PCli.masterClass
  | _ => 0

/-- The condition that holds the timer of a reference in QUALIFYING: a GNSS position not yet held, or none (R250). -/
def qualReason (d : Dev) (r : Nat) : Nat := if refKind r = 0 ∧ fld d .gnssPos r GPos.posState ≠ 2 then 7 else 0

/-- The transition of a reference that no ABSENT or DISQUALIFIED cause holds (Table DISC.4). -/
def advanceRef (d : Dev) (r : Nat) (x : Option Meas) : Dev :=
  let y := getRef d r
  match refState d r, x with
  | 0, some v => enterRef d r 1 (if v.survey then 7 else qualReason d r)
  | 0, none =>
    let reason := fld d .refStatus r RefSt.reason
    forgetTrain (if reason = 2 ∨ reason = 5 then d else setFld d .refStatus r RefSt.reason 2) r
  | 1, none => setFld (setRef d r { y with qualRun := 0 }) .refStatus r RefSt.reason (qualReason d r)
  | 1, some v =>
    if v.survey then setFld d .refStatus r RefSt.reason 7
    else if fld d .ref r Ref.qualS ≤ y.qualRun + 1 then enterRef d r 2 0
    else setFld (setRef d r { y with qualRun := y.qualRun + 1 }) .refStatus r RefSt.reason (qualReason d r)
  | 3, none => setRef d r { y with holdRun := 0 }
  | 3, some _ =>
    if fld d .ref r Ref.disqHoldS ≤ y.holdRun + 1 then enterRef d r 1 (qualReason d r)
    else setRef d r { y with holdRun := y.holdRun + 1 }
  | _, _ => d

/-- One reference evaluated (R250). -/
def evalRef (d : Dev) (r : Nat) (x : Option Meas) : Dev :=
  if fld d .ref r Ref.enable = 0 ∨ refPresent d r = false then
    let d := enterRef d r 0 1
    setFld (setRef d r { getRef d r with samples := [], missRun := 0, fresh := false, exchanges := [], discards := 0 })
      .refStatus r RefSt.phaseValid 0
  else
    let d := recordMeas d r x
    let d := setFld d .refStatus r RefSt.quality (refQuality d r)
    match absentCause d r with
    | some c => enterRef d r 0 c
    | none =>
      if refState d r = 0 then advanceRef d r x
      else match (disqCauses d r x).foldl (fun b n => some (match b with | some m => min m n | none => n)) none with
        | some c => disqualify d r c
        | none => advanceRef d r x

/-! ### Step 3: cross-check (R257) -/

/-- The references both lists hold that are enabled, QUALIFIED, phase-capable and measured this second. -/
def crossSet (d : Dev) : List Nat :=
  (List.range 10).filter fun r =>
    ((rankList d 0).contains r || (rankList d 1).contains r) && flag d .ref r Ref.enable && qualified d r
      && phaseCapable r && (getRef d r).fresh

def crossCheck (d : Dev) : Dev :=
  let p := crossSet d
  let lim : Rat := (ns16 (fld d .select 0 Sel.xrefNs) : Int)
  let errs := p.map fun r => (getRef d r).errH
  let split : Bool := match errs with | [a, b] => decide (lim < ((a - b).natAbs : Rat)) | _ => false
  let d := episodeIf d split (srcId 0x45 0)
  if 3 ≤ p.length then
    let m := median errs
    p.foldl (fun d r => if lim < |((getRef d r).errH : Rat) - m| then disqualify d r 13 else d) d
  else d

/-! ### Step 4: active references (R252) -/

/-- Evaluations since a reference entered its state. -/
def refAge (d : Dev) (r : Nat) : Nat := d.disc.evalN - (getRef d r).stateEval

/-- The active reference a master should have. -/
def chooseActive (d : Dev) (m : Nat) : Option Nat :=
  let l := rankList d m
  let first := l.find? (qualified d)
  match activeRef d m with
  | some a =>
    if qualified d a && l.contains a then
      let above := l.takeWhile (· ≠ a)
      let better := above.find? fun r => qualified d r && decide (fld d .servo m Srv.wtrS ≤ refAge d r)
      if flag d .servo m Srv.revertive && better.isSome then better else some a
    else first
  | none => first

/-- SERVO_STATE as the firmware sets it, with the counters and faults of a change (R254). -/
def setState (d : Dev) (m st : Nat) : Dev :=
  let x := getServo d m
  if x.state = st then d
  else
    let d := setServo d m { x with state := st, stateEval := d.disc.evalN, stateBt := d.bt, lockRun := 0, unlockRun := 0
                                   everLocked := x.everLocked || decide (st = 2) }
    match st with
    | 0 => raise d (srcId 0x4A m)
    | 1 => if x.state = 2 then bumpFld d .servoStatus m SrvSt.unlocks else d
    | 3 => raise d (srcId 0x49 m)
    | _ => d

/-- The published values of a master requested with its INC. -/
def publish (d : Dev) (m : Nat) (inc : Option Nat) (disp delay : Nat) (stamp : Bool) : Dev :=
  let x := getServo d m
  let disp := if x.state = 0 ∧ x.everLocked = false then 0xFFFFFFFF else disp
  defer d (.servo m inc x.state x.kind disp delay stamp)

/-- A publication that leaves DISP_BASE_NS, ROOT_DELAY_NS and LAST_UPDATE frozen. -/
def publishFrozen (d : Dev) (m : Nat) (inc : Option Nat) : Dev :=
  publish d m inc (fld d .servoStatus m SrvSt.dispBaseNs) (fld d .servoStatus m SrvSt.rootDelayNs) false

/-- e of a reference against a master at its latest measurement. -/
def refE (d : Dev) (r m : Nat) : Option Int :=
  let y := getRef d r
  match (if m = 0 then y.offA else y.offB) with | some o => some (y.errH - o) | none => none

/-- The active reference of one master chosen; an unset master has none. -/
def chooseFor (d : Dev) (m : Nat) : Dev :=
  let old := activeRef d m
  let new := if masterSet d m then chooseActive d m else none
  let x := getServo d m
  let none_ := masterSet d m && !((rankList d m).any (qualified d)) && x.hadActive
  let d := episodeIf d none_ (srcId 0x44 m)
  if new = old then d
  else
    let d := bumpFld (setFld d .servoStatus m SrvSt.activeRef (new.getD 15)) .servoStatus m SrvSt.refSwitches
    match new with
    | none => d
    | some r =>
      let d := setServo d m { getServo d m with hadActive := true, kind := refKind r }
      let near : Bool := match refE d r m with
        | some e => phaseCapable r && decide (e.natAbs ≤ fld d .servo m Srv.unlockNs * 65536)
        | none => false
      if (getServo d m).state = 2 ∧ near = false then setState d m 1 else d

/-! ### Step 5: the servos (R253–R256) -/

/-- f_hold (R255). -/
def holdRate (d : Dev) (m : Nat) : Rat :=
  let x := getServo d m
  match x.lastQual with
  | none => incRate d m
  | some (n, f) =>
    let end_ : Int := (n : Int) - fld d .servo m Srv.holdGuardS
    let start : Int := end_ - fld d .servo m Srv.holdAvgS
    let w := x.fHist.filter fun e => decide (start < (e.1 : Int)) && decide ((e.1 : Int) ≤ end_)
    if w.isEmpty then f else meanRat (w.map (·.2))

/-- The rate a master holds in HOLDOVER. -/
def heldRate (d : Dev) (m : Nat) : Rat :=
  let x := getServo d m
  if x.state = 3 then x.fHold.getD (incRate d m) else holdRate d m

/-- No active reference: HOLDOVER at f_hold, or FREE_RUN at the last f_int. -/
def loseActive (d : Dev) (m : Nat) : Dev :=
  if flag d .servoStatus m SrvSt.holdValid then
    let f := holdRate d m
    let d := setState d m 3
    publishFrozen (setServo d m { getServo d m with fHold := some f }) m (some (incOf d f))
  else
    let f := (getServo d m).fInt
    publishFrozen (setState d m 0) m (f.map (incOf d))

/-- The proportional and integral paths of an update (R253): f_int and the rate, in ppb. -/
def loopUpdate (tau slew : Nat) (fInt e : Rat) : Rat × Rat :=
  let p := 1414 / 1000 * e / tau
  if (slew : Rat) < |p| then (fInt, fInt + (if p < 0 then -(slew : Rat) else slew))
  else (fInt + e / ((tau : Rat) * tau), fInt + e / ((tau : Rat) * tau) + p)

/-- DISP_BASE_NS of an update from a reference: REF_DISP_NS and three times the RMS of the last errors. -/
def dispBase (d : Dev) (r : Nat) (errs : List Int) : Nat :=
  min (2 ^ 32 - 1) (fld d .ref r Ref.refDispNs + sqrtRound (9 * meanSquare errs / 65536 ^ 2))

/-- ROOT_DELAY_NS of an update: for a PTP reference with twice its mean path. -/
def rootDelayOf (d : Dev) (r : Nat) : Nat :=
  let base := fld d .ref r Ref.refRootDelayNs
  if refKind r = 3 then
    min (2 ^ 32 - 1) (base + (roundFree (2 * (fld d .ptpClient (refMaster r) PCli.meanPath : Rat) / 65536)).toNat)
  else base

/-- The lock transitions at an update (Table DISC.5). -/
def lockStep (d : Dev) (m : Nat) (within beyond : Bool) : Dev :=
  let x := getServo d m
  if x.state = 1 then
    let n := if within then x.lockRun + 1 else 0
    let d := setServo d m { x with lockRun := n }
    if fld d .servo m Srv.lockS ≤ n then setState d m 2 else d
  else if x.state = 2 then
    let n := if beyond then x.unlockRun + 1 else 0
    let d := setServo d m { x with unlockRun := n }
    if 3 ≤ n then setState d m 1 else d
  else d

/-- An update from a phase-capable reference. -/
def phaseUpdate (d : Dev) (m r : Nat) (e : Int) : Dev :=
  let x := getServo d m
  let cfg := getRec d .servo m
  let tau := if x.state = 1 then getF cfg Srv.acqTauS else getF cfg Srv.tauS
  let (fInt, rate) := loopUpdate tau (getF cfg Srv.phaseSlewPpb) (x.fInt.getD (incRate d m)) ((e : Rat) / 65536)
  let errs := (e :: x.errs).take 64
  let d := setServo d m { x with fInt := some fInt, errs := errs, fHist := (d.disc.evalN, fInt) :: x.fHist
                                 lastQual := some (d.disc.evalN, fInt) }
  let d := setFld d .servoStatus m SrvSt.phaseErr (ofInt 64 (satInt 64 e))
  let d := lockStep d m (decide (e.natAbs ≤ getF cfg Srv.lockNs * 65536)) (decide (getF cfg Srv.unlockNs * 65536 < e.natAbs))
  publish d m (some (incOf d rate)) (dispBase d r errs) (rootDelayOf d r) true

/-- An update from a FREQ reference. -/
def freqUpdate (d : Dev) (m : Nat) (ppt : Int) : Dev :=
  let x := getServo d m
  let cfg := getRec d .servo m
  let tau : Rat := if x.state = 1 then getF cfg Srv.acqTauS else getF cfg Srv.tauS
  let f := x.fInt.getD (incRate d m)
  let err : Rat := -(ppt : Rat) / 1000 - f
  let fInt := f + err / tau
  let d := setServo d m { x with fInt := some fInt, fHist := (d.disc.evalN, fInt) :: x.fHist
                                 lastQual := some (d.disc.evalN, fInt) }
  let d := lockStep d m (decide (|err| ≤ (getF cfg Srv.lockNs : Rat) / getF cfg Srv.tauS)) false
  publishFrozen d m (some (incOf d fInt))

/-- What an initial set or a clear leaves of a servo (Table DISC.5): FREE_RUN, a fresh loop and no active reference, so
that the next is the first choice after an initial set (R252). -/
def freshServo (d : Dev) (m : Nat) : Dev :=
  let x := getServo d m
  if x.initial then
    let y : ServoDyn := { x with initial := false, fInt := none, errs := [], fHist := [], lastQual := none, lockedSecs := 0,
                                 everLocked := false }
    let d := setState (setServo d m y) m 0
    let d := if (activeRef d m).isSome then
        bumpFld (setFld d .servoStatus m SrvSt.activeRef 15) .servoStatus m SrvSt.refSwitches else d
    publishFrozen d m none
  else d

/-- One servo at an evaluation. -/
def servoStep (ms : List (Option Meas)) (d : Dev) (m : Nat) : Dev :=
  let x := getServo d m
  let en := flag d .servo m Srv.servoEn
  let d := setServo d m { x with fInt := if en && !x.enWas then some (incRate d m) else x.fInt, enWas := en }
  let before := (getServo d m).state
  if !masterSet d m || !en then
    let d := setState d m 0
    if before = 0 then d else publishFrozen d m none
  else
    match activeRef d m with
    | none => if before = 1 ∨ before = 2 then loseActive d m else d
    | some r =>
      let d := if before = 0 ∨ before = 3 then setState d m 1 else d
      let meas := (ms.getD r none).filter fun v => !v.survey
      let d := match meas with
        | some v => match v.e m, v.ppt with
          | some e, _ => phaseUpdate d m r e
          | none, some p => freqUpdate d m p
          | none, none => publishFrozen d m none
        | none => publishFrozen d m none
      let y := getServo d m
      if y.state = 2 then
        let n := y.lockedSecs + 1
        let d := setServo d m { y with lockedSecs := n }
        if fld d .servo m Srv.holdAvgS + fld d .servo m Srv.holdGuardS ≤ n then setFld d .servoStatus m SrvSt.holdValid 1
        else d
      else d

/-! ### Step 6: initial sets and seeding (R262–R264) -/

/-- The reference a master is set from: the first QUALIFIED GNSS or PTP reference in rank order. -/
def setRefOf (d : Dev) (m : Nat) : Option Nat :=
  (rankList d m).find? fun r => qualified d r && (decide (refKind r = 0) || decide (refKind r = 3))

def autoSet (d : Dev) (m : Nat) : Dev :=
  match setRefOf d m with
  | some r =>
    if masterSet d m || !flag d .servo m Srv.autoSet || d.disc.autoSets.any (fun e => e.1 = m) then d
    else { d with disc := { d.disc with autoSets := d.disc.autoSets ++ [(m, (getRef d r).errH, d.bt + 2)] } }
  | none => d

def seedState (d : Dev) (m : Nat) : Nat := fld d .servoStatus m SrvSt.seedState

/-- Milliseconds and less: base ticks since a BT_COUNT amount to a number of seconds. -/
def elapsed (d : Dev) (since secs : Nat) : Bool := decide (secs * 10 ^ 9 ≤ (d.bt - since) * btNs d)

/-- A set master may be cleared for a seed (R263). -/
def clearAllowed (d : Dev) (x : Nat) : Bool :=
  let gap := (((getTs d x).total : Int) - (getTs d (1 - x)).total).natAbs
  decide (fld d .servo x Srv.seedMode = 2) && decide (fld d .steer 0 Steer.select ≠ x + 1)
    && decide ((getServo d x).state = 0) && decide (fld d .servo x Srv.seedClearNs * 2 ^ 40 < gap)

/-- The conditions of R263; the SEED command sets aside SEED_MODE OFF and the retry wait. -/
def seedMay (d : Dev) (x : Nat) (command : Bool) : Bool :=
  let y := 1 - x
  (command || decide (fld d .servo x Srv.seedMode ≠ 0))
    && (!masterSet d x || clearAllowed d x)
    && !(rankList d x).any (qualified d)
    && decide ((getServo d y).state = 2)
    && (match activeRef d y with | some r => phaseCapable r | none => false)
    && (decide (seedState d x = 0) || (decide (seedState d x = 3) &&
        (command || elapsed d (getServo d x).seedBt (fld d .servo x Srv.seedRetryS))))

def setSeed (d : Dev) (m ok st : Nat) : Dev :=
  setFld (setFld d .servoStatus m SrvSt.seedOk ok) .servoStatus m SrvSt.seedState st

/-- A seed given up (Table DISC.7). -/
def abortSeed (d : Dev) (m : Nat) : Dev :=
  let d := bumpFld (setSeed d m 0 3) .servoStatus m SrvSt.seedAborts
  raise (setServo d m { getServo d m with seedBt := d.bt }) (srcId 0x4B m)

/-- A seed starts in VERIFY; a set master is first cleared. -/
def startSeed (d : Dev) (x : Nat) : Dev :=
  let d := if masterSet d x then defer d (.clear x) else d
  let ref := (activeRef d (1 - x)).getD 15
  setSeed (setServo d x { getServo d x with seedBt := d.bt, seedRef := ref }) x 1 1

/-- The verify phase, each evaluation. -/
def verifySeed (d : Dev) (x : Nat) : Dev :=
  let y := 1 - x
  let z := getServo d x
  if (rankList d x).any (qualified d) then setSeed d x 0 0
  else if (getServo d y).state ≠ 2 ∨ activeRef d y ≠ some z.seedRef ∨ refState d z.seedRef = 3
      ∨ fld d .servoStatus x SrvSt.seedOk = 0 then abortSeed d x
  else d

def seedStep (d : Dev) (x : Nat) : Dev :=
  let asked := bit d.disc.seedReq x
  let d := { d with disc := { d.disc with seedReq := setBit d.disc.seedReq x false } }
  if seedState d x = 1 then verifySeed d x
  else if seedMay d x asked then startSeed d x
  else autoSet d x

/-! ### Step 7: checks and selection (R258, R260) -/

/-- The offset of a master at the current edge, in 2^-16 ns. -/
def offsetX (d : Dev) (m : Nat) : Int := sfld d .steer 0 (if m = 0 then Steer.offsetA else Steer.offsetB)

def checkMasters (d : Dev) : Dev :=
  let ab := masterSet d 0 && masterSet d 1 && decide ((getServo d 0).state = 2) && decide ((getServo d 1).state = 2)
    && decide (ns16 (fld d .select 0 Sel.divergeNs) < (offsetX d 0 - offsetX d 1).natAbs)
  let s := fld d .steer 0 Steer.select
  let h := decide (s ≠ 0) && flag d .steer 0 Steer.convSinceSel
    && decide (ns16 (fld d .select 0 Sel.houseNs) < (offsetX d (s - 1)).natAbs)
  episodeIf (episodeIf d ab (srcId 0x46 0)) h (srcId 0x47 0)

/-- The rank of a master (R260). -/
def masterRank (d : Dev) (m : Nat) : Nat :=
  if !masterSet d m then 0 else match (getServo d m).state with | 2 => 4 | 3 => 3 | 1 => 2 | _ => 1

/-- A selection requested by the firmware. -/
def requestSelect (d : Dev) (m : Nat) : Dev := defer (bumpFld d .select 0 Sel.autoSwitches) (.select (m + 1))

/-- Automatic selection (R260). -/
def autoSelect (d : Dev) : Dev :=
  let c := getRec d .select 0
  if getF c Sel.selectMode = 0 then endEpisode d (srcId 0x48 0)
  else
    let s := fld d .steer 0 Steer.select
    let pref := getF c Sel.preferred
    if d.ts.tsh.set = false ∨ s = 0 then
      let d := endEpisode d (srcId 0x48 0)
      let a := masterRank d 0
      let b := masterRank d 1
      if a = 0 ∧ b = 0 then d else requestSelect d (if a = b then pref else if b < a then 0 else 1)
    else
      let m := s - 1
      let o := 1 - m
      let hold := elapsed d (fld d .steer 0 Steer.selBt) (getF c Sel.switchHoldS)
      let near := decide ((offsetX d 0 - offsetX d 1).natAbs ≤ getF c Sel.switchMaxNs * 65536)
      let switch := decide (masterRank d m < masterRank d o)
      let p := getServo d pref
      let revert := decide (getF c Sel.autoRevert = 1) && decide (m ≠ pref) && decide (p.state = 2)
        && decide (getF c Sel.revertS ≤ d.disc.evalN - p.stateEval) && decide (masterRank d m ≤ masterRank d pref)
      let due := hold && (switch || revert)
      let d := episodeIf d (due && !near) (srcId 0x48 0)
      if due && near then requestSelect d o else d

/-! ### One evaluation (R259) -/

/-- A record write taking effect at an evaluation (R268); an enabled reference or a new NOMINAL sets its input at the
next edge (R296). -/
def applyDisc (d : Dev) (w : RecKind × Nat × Nat) : Dev :=
  let (k, i, v) := w
  let old := getRec d k i
  let d := setRec d k i (mergeRw k.fields old v)
  if k = .ref ∧ 2 ≤ i ∧ i < 8 ∧ getF v Ref.enable = 1
      ∧ (getF old Ref.enable = 0 ∨ getF old Ref.nominal ≠ getF v Ref.nominal) then defer d (.tiuRef (i - 2))
  else d

/-- The evaluation of one second. -/
def evaluate (d : Dev) : Dev :=
  let gps := gpsValid d
  let ws := d.disc.writes
  let d := ws.foldl applyDisc { d with disc := { d.disc with writes := [], evalN := d.disc.evalN + 1 } }
  let ms := (List.range 10).map (measure d)
  let d := spoofCheck d
  let d := (List.range 10).foldl (fun d r => evalRef d r (ms.getD r none)) d
  let d := crossCheck d
  let d := [0, 1].foldl (fun d m => chooseFor (freshServo d m) m) d
  let d := [0, 1].foldl (servoStep ms) d
  let d := [0, 1].foldl seedStep d
  let d := autoSelect (checkMasters d)
  if gpsValid d = gps then d else defer d .leapEval

/-- SEED_VERIFY_S ends: a commit is requested at an edge of R46's range. -/
def seedVerifyEnd (d : Dev) (m : Nat) : Dev :=
  if seedState d m = 1 ∧ flag d .servoStatus m SrvSt.seedOk
      ∧ elapsed d (getServo d m).seedBt (fld d .servo m Srv.seedVerifyS) then
    let (v, d) := draw d
    deferAt (setFld d .servoStatus m SrvSt.seedState 2) (d.bt + 2 + v % 99999999) (.seed m)
  else d

/-- HOLDOVER_MAX_S since the entry to HOLDOVER. -/
def holdoverMax (d : Dev) (m : Nat) : Dev :=
  let n := fld d .servo m Srv.holdoverMaxS
  if (getServo d m).state = 3 ∧ n ≠ 0 ∧ elapsed d (getServo d m).stateBt n then
    publishFrozen (setState d m 0) m none
  else d

/-! ### At an edge (R253, R263, R265) -/

/-- The processor's SEED_OK of the other master falls with a published state that leaves LOCKED. -/
def seedWatch (d : Dev) (m : Nat) : Dev :=
  if fld d .servoStatus m SrvSt.servoState = 2 then d else setFld d .servoStatus (1 - m) SrvSt.seedOk 0

/-- A publication at its edge, LAST_UPDATE apart: the INC and the published fields. -/
def applyServo (d : Dev) (m : Nat) (inc : Option Nat) (state kind disp delay : Nat) : Dev :=
  let d := match inc with | some i => applyRate d m i | none => d
  let r := getRec d .servoStatus m
  let r := setF (setF r SrvSt.servoState state) SrvSt.activeKind kind
  seedWatch (setRec d .servoStatus m (setF (setF r SrvSt.dispBaseNs disp) SrvSt.rootDelayNs delay)) m

/-- LAST_UPDATE: TSH at the edge at which the INC takes effect. -/
def stampUpdate (d : Dev) (m : Nat) : Dev :=
  let d := setFld d .servoStatus m SrvSt.lastUpdate (tshNs96 d)
  { d with ts := if m = 0 then { d.ts with updBtA := d.bt } else { d.ts with updBtB := d.bt } }

/-- An initial set or a clear of a master: its servo starts afresh at the next evaluation. -/
def markInitial (d : Dev) (m : Nat) : Dev :=
  if m < 2 then
    setFld (setServo d m { getServo d m with initial := true, hadActive := false, kind := 7 }) .servoStatus m SrvSt.holdValid 0
  else d

/-- A seed commit at its edge (Table DISC.7, R265): X takes Y's value, INC and published state and enters HOLDOVER, or the
seed aborts. -/
def applySeed (d : Dev) (x : Nat) : Dev :=
  let y := 1 - x
  if flag d .servoStatus x SrvSt.seedOk ∧ masterSet d x = false then
    let d := setTs d x { getTs d y with set := true, stepSource := 3 }
    let ry := getRec d .servoStatus y
    let r := getRec d .servoStatus x
    let r := setF (setF (setF r SrvSt.servoState 3) SrvSt.activeKind (getF ry SrvSt.activeKind)) SrvSt.holdValid 1
    let r := setF (setF r SrvSt.dispBaseNs (getF ry SrvSt.dispBaseNs)) SrvSt.rootDelayNs (getF ry SrvSt.rootDelayNs)
    let r := setF r SrvSt.lastUpdate (getF ry SrvSt.lastUpdate)
    let d := setSeed (setRec d .servoStatus x r) x 0 0
    let sy := getServo d y
    let d := setServo d x { ServoDyn.reset with
      state := 3, kind := sy.kind, fHold := sy.fInt, stateEval := d.disc.evalN, stateBt := d.bt
      enWas := (getServo d x).enWas }
    let d := raise d (srcId 0x49 x)
    { d with ts := if x = 0 then { d.ts with updBtA := d.ts.updBtB } else { d.ts with updBtB := d.ts.updBtA } }
  else abortSeed d x

/-! ### The processor stops and runs again (R266, R267) -/

/-- What the AON publishes when the management processor stops: of a publication under way the INC alone is written. -/
def discStop (d : Dev) : Dev :=
  let d := (List.range 10).foldl (fun d r =>
    setFld (enterRef d r 0 3) .refStatus r RefSt.phaseValid 0) d
  let d := { d with atEdge := d.atEdge.filterMap fun e => match e.2 with
    | .servo m (some inc) .. => some (e.1, EdgeOp.rate m inc)
    | .servo _ none .. => none
    | _ => some e }
  [0, 1].foldl (fun d m =>
    let st := fld d .servoStatus m SrvSt.servoState
    let hold := flag d .servoStatus m SrvSt.holdValid
    let new := if st = 1 ∨ st = 2 then (if hold then 3 else 0) else st
    let d := setFld (setFld d .servoStatus m SrvSt.seedOk 0) .servoStatus m SrvSt.servoState new
    let d := setServo d m { getServo d m with state := new, stateBt := if new = st then (getServo d m).stateBt else d.bt }
    if new = st then d else raise d (if new = 3 then srcId 0x49 m else srcId 0x4A m)) d

/-- The firmware runs again: loop histories are lost, references start over, seeds wait. -/
def discRestart (d : Dev) : Dev :=
  let again := d.disc.ran
  let d := { d with disc := { d.disc with refs := [], autoSets := [], seedReq := 0, ran := true } }
  let d := (List.range 10).foldl (fun d r => setRef d r { RefDyn.reset with stateEval := d.disc.evalN, stateBt := d.bt, restarted := again }) d
  [0, 1].foldl (fun d m =>
    let x := getServo d m
    let d := setServo d m { x with state := fld d .servoStatus m SrvSt.servoState
                                   kind := fld d .servoStatus m SrvSt.activeKind, fInt := none, errs := [], fHist := []
                                   lastQual := none, fHold := none, lockRun := 0, unlockRun := 0
                                   stateEval := d.disc.evalN, seedBt := d.bt, enWas := flag d .servo m Srv.servoEn }
    if again then setFld d .servoStatus m SrvSt.seedState 3 else d) d

/-- The rates written before an orderly entry to KEEP-TIME (R266), after what the servo had written before. -/
def holdRates (d : Dev) : Dev :=
  [0, 1].foldl (fun d m =>
    if flag d .servoStatus m SrvSt.holdValid && masterSet d m then
      let d := { d with atEdge := d.atEdge.filter fun e => match e.2 with | .servo n .. => decide (n ≠ m) | _ => true }
      applyRate d m (incOf d (heldRate d m))
    else d) d

/-! ### Commands (Table DISC.9) -/

def atEvaluation (k : RecKind) (d : Dev) (i v : Nat) : Dev :=
  { d with disc := { d.disc with writes := d.disc.writes ++ [(k, i, v)] } }

/-- JITTER_NS of a FREQ reference is 0 (Table DISC.10). -/
def refDep (r : Nat) : Dep := fun f _ v =>
  if f = Ref.jitterNs ∧ refKind r = 2 then (if v = 0 then some (0, .range) else some (0, .dependent)) else none

def refConfigCmd : Cmd :=
  RecSpec.cmd { kind := .ref, ib := 1, inSet := idxBelow 10, present := refPresent, image := plainImage .ref
                dep := fun _ r _ => refDep r, apply := atEvaluation .ref } 0x1200 [.c, .p] [.c]

/-- A reference status record as read. -/
def refImage (d : Dev) (r : Nat) : Nat :=
  setF (getRec d .refStatus r) RefSt.stateAgeS (min (2 ^ 32 - 1) (btToS d (d.bt - (getRef d r).stateBt)))

def refStatusCmd : Cmd :=
  { op := 0x1201, readBy := [.c, .p]
    check := fun _ p d =>
      let r := rdLe p 0 1
      if p.length ≠ 4 ∨ (10 ≤ r ∧ r ≠ 0xFF) then some .badLength
      else if r ≠ 0xFF ∧ refPresent d r = false then some .notPresent else none
    body := fun _ p d =>
      let rs := if rdLe p 0 1 = 0xFF then List.range 10 else [rdLe p 0 1]
      .done .ok (rs.flatMap fun r => recBytes .refStatus (refImage d r)) [] d }

def refDisqualifyCmd : Cmd :=
  { op := 0x1202, writeBy := [.c], writeCls := .live, isWrite := fun _ => true
    check := fun _ p d =>
      let r := rdLe p 0 1
      if p.length ≠ 4 ∨ 10 ≤ r ∨ 1 < rdLe p 1 1 then some .badLength
      else if refPresent d r = false then some .notPresent else none
    body := fun _ p d =>
      let r := rdLe p 0 1
      let d := setFld d .refStatus r RefSt.forced (rdLe p 1 1)
      .done .ok (recBytes .refStatus (refImage d r)) [] d }

/-- Table DISC.6 by OSC_TYPE. -/
def oscColumn (t : Nat) (f : Fld) : Option Nat :=
  let pick (a b c : Nat) : Option Nat := if t = 0 then some a else if t = 1 then some b else if t = 2 then some c else none
  if f = Srv.tauS then pick 100 1000 10000
  else if f = Srv.acqTauS then pick 10 30 100
  else if f = Srv.lockNs then pick 100 50 50
  else if f = Srv.lockS then pick 60 300 600
  else if f = Srv.unlockNs then pick 1000 500 500
  else if f = Srv.phaseSlewPpb then pick 1000 100 10
  else if f = Srv.holdAvgS then pick 600 3600 86400
  else if f = Srv.holdGuardS then pick 10 60 300
  else if f = Srv.holdoverMaxS then pick 86400 604800 2592000
  else none

/-- One entry of RANK (R252): 10–14, an absent reference or a repeated index is cleared to 0xF. -/
def rankEntry (d : Dev) (acc msb v : Nat) : Nat × Reason :=
  let earlier := ((List.range 8).map fun i => 367 - 4 * i).filter fun b => msb < b
  if v = 15 then (15, .enum)
  else if 10 ≤ v then (15, .enum)
  else if !refPresent d v then (15, .absent)
  else if earlier.any fun b => getF acc ⟨b, b - 3⟩ = v then (15, .dependent)
  else (v, .enum)

def servoDep (d : Dev) : Dep := fun f acc v =>
  if 336 ≤ f.lsb ∧ f.msb ≤ 367 then some (rankEntry d acc f.msb v)
  else match oscColumn (getF acc Srv.oscType) f with
    | some x => if v = x then some (v, .range) else some (x, .dependent)
    | none => none

def masterIdx (p : List Byte) : Bool := idxBelow 2 p

def servoConfigCmd : Cmd :=
  RecSpec.cmd { kind := .servo, ib := 1, inSet := masterIdx, image := plainImage .servo
                dep := fun d _ _ => servoDep d, apply := atEvaluation .servo } 0x1210 [.c, .p] [.c]

/-- A servo status record as read: the rate of the INC and the age of the state. -/
def servoImage (d : Dev) (m : Nat) : Nat :=
  let r := getRec d .servoStatus m
  let r := setF r SrvSt.freqPpt (ofInt 32 (satInt 32 (roundFree (incRate d m * 1000))))
  setF r SrvSt.stateAgeS (min (2 ^ 32 - 1) (btToS d (d.bt - (getServo d m).stateBt)))

def servoStatusCmd : Cmd :=
  { op := 0x1211, readBy := [.c, .p]
    check := fun _ p _ => if p.length = 4 ∧ (rdLe p 0 1 < 2 ∨ rdLe p 0 1 = 0xFF) then none else some .badLength
    body := fun _ p d =>
      let ms := if rdLe p 0 1 = 0xFF then [0, 1] else [rdLe p 0 1]
      .done .ok (ms.flatMap fun m => recBytes .servoStatus (servoImage d m)) []
        (ms.foldl (fun d m => readClear d .servoStatus m) d) }

def selectConfigCmd : Cmd :=
  RecSpec.cmd { kind := .select, ib := 0, index := fun _ => 0, image := plainImage .select, apply := atEvaluation .select }
    0x1220 [.c, .p] [.c]

def seedCmd : Cmd :=
  { op := 0x1221, writeBy := [.c], writeCls := .live, isWrite := fun _ => true
    check := fun _ p _ => if p.length = 4 ∧ rdLe p 0 1 < 2 then none else some .badLength
    body := fun _ p d =>
      let m := rdLe p 0 1
      if seedMay d m true then
        let d := { d with disc := { d.disc with seedReq := setBit d.disc.seedReq m true } }
        .done .ok (recBytes .servoStatus (servoImage d m)) [] d
      else .done .state [] [] d }

def execRefConfig (m : Msg) (s : State) : Host.Outcome State Fault Refusal := mailbox refConfigCmd m s
def execRefStatus (m : Msg) (s : State) : Host.Outcome State Fault Refusal := mailbox refStatusCmd m s
def execRefDisqualifyForce (m : Msg) (s : State) : Host.Outcome State Fault Refusal :=
  mailbox refDisqualifyCmd (withByte 1 1 m) s
def execRefDisqualifyRelease (m : Msg) (s : State) : Host.Outcome State Fault Refusal :=
  mailbox refDisqualifyCmd (withByte 1 0 m) s
def execServoConfig (m : Msg) (s : State) : Host.Outcome State Fault Refusal := mailbox servoConfigCmd m s
def execServoStatus (m : Msg) (s : State) : Host.Outcome State Fault Refusal := mailbox servoStatusCmd m s
def execSelectConfig (m : Msg) (s : State) : Host.Outcome State Fault Refusal := mailbox selectConfigCmd m s
def execSeed (m : Msg) (s : State) : Host.Outcome State Fault Refusal := mailbox seedCmd m s

def onFirmware (s : State) (f : Dev → Dev) : Host.Outcome State Fault Refusal :=
  whenOn s fun d => if fwRuns d then f d else d

def execServoEvaluation (s : State) : Host.Outcome State Fault Refusal := onFirmware s evaluate
def execSeedVerifyEnd (master : Fin 2) (s : State) : Host.Outcome State Fault Refusal :=
  onFirmware s fun d => seedVerifyEnd d master.val
def execHoldoverMaxExpiry (master : Fin 2) (s : State) : Host.Outcome State Fault Refusal :=
  onFirmware s fun d => holdoverMax d master.val

end Sys2Proof.Machine
end

