-- ==== Sys2Proof/Machine/Hosts.lean ====
section
/-! DEFINITION. Hosts and tenants (13_hosts_and_tenants.md): control of the device, tenants and their retirement, ring
blocks, events, function-level reset and PERST. -/

namespace Sys2Proof.Machine

open Sys2Proof

/-! ### Control of the device (R319–R321) -/

/-- The nominations, and whether an endpoint is nominated. -/
def nominated (d : Dev) (e : Nat) : Bool :=
  decide (e = d.key.otp.primaryEp) || (d.key.otp.standbyValid && decide (e = d.key.otp.standbyEp))

/-- The controller record as read (Table HOST.13). -/
def controllerImage (d : Dev) (i : Nat) : Nat :=
  setF (setF (setF (getRec d .controller i) Ctl.primaryEp d.key.otp.primaryEp) Ctl.standbyEp d.key.otp.standbyEp)
    Ctl.standbyValid (b2n d.key.otp.standbyValid)

def lapsed (d : Dev) : Bool := flag d .controller 0 Ctl.lapsed

/-- The lapse timer restarts. -/
def restartLapse (d : Dev) : Dev := { d with host := { d.host with lapseFrom := d.bt, lapseRuns := true } }

/-- Base ticks for which the lapse timer runs until it lapses. -/
def lapseBt (d : Dev) : Nat := msToBt d (fld d .controller 0 Ctl.keepaliveLapseMs)

/-- The lapse (R320): LAPSED, the fault, and DEVICE_EVENTS bit 2 of every PF; once until the timer restarts. -/
def lapse (d : Dev) : Dev :=
  let d := { d with host := { d.host with lapseRuns := false } }
  setDevEventAll (raise (setFld d .controller 0 Ctl.lapsed 1) (srcId 0x60 0)) 2

/-- The timer reaches KEEPALIVE_LAPSE_MS within the base tick. -/
def keepaliveLapse (d : Dev) : Dev :=
  if d.host.lapseRuns ∧ lapseBt d ≤ d.bt + 1 - d.host.lapseFrom then lapse d else d

/-- A controller record taking effect: a timer that has already run as long lapses at the edge (R320). -/
def applyController (d : Dev) (v : Nat) : Dev :=
  let d := setRec d .controller 0 (mergeRw ctlFields (getRec d .controller 0) v)
  if d.host.lapseRuns ∧ lapseBt d ≤ d.bt - d.host.lapseFrom then lapse d else d

/-- A long operation held by a door is abandoned: its partial request has no effect and its locks are released (R344). A
command already in service is not. -/
def abandonDoor (d : Dev) (f : Fn) (door : Nat) : Dev :=
  let x := getDoor d f door
  if x.partial_.isSome ∧ holdsLock d f door then
    bumpDoor (setDoor (releaseLocks d f door) f door { x with partial_ := none }) f door dsAbandoned
  else d

/-- Control changes at an edge (R321). -/
def applyControl (d : Dev) (target : Nat) : Dev :=
  let old := controllerEp d
  if target = old then d
  else
    let d := setFld (setFld (setFld d .controller 0 Ctl.controller target) .controller 0 Ctl.controlBt d.bt)
      .controller 0 Ctl.lapsed 0
    let d := bumpFld (restartLapse { d with host := { d.host with formerCtl := old } }) .controller 0 Ctl.claims
    let d := setDevEventAll d 1
    (List.range 8).foldl (fun d k => abandonDoor d (pfOf old) k) d

def controlCmd : Cmd :=
  RecSpec.cmd { kind := .controller, ib := 0, index := fun _ => 0, image := controllerImage
                apply := atNextEdge .controller } 0x0131 [.c, .p] [.c]

def controllerBytes (d : Dev) : List Byte := recBytes .controller (controllerImage d 0)

def controlClaimCmd : Cmd :=
  { op := 0x0132, writeBy := [.p], isWrite := fun _ => true, check := lens [0]
    admits := fun x _ d b => b && nominated d x.ep
    body := fun x _ d =>
      if x.ep = controllerEp d ∨ lapsed d = false then .done .state [] [] d
      else .done .ok (controllerBytes d) [] (defer d (.control x.ep)) }

def controlReleaseCmd : Cmd :=
  { op := 0x0133, writeBy := [.c], isWrite := fun _ => true
    check := fun _ p _ => if p.length = 4 ∧ rdLe p 0 1 ≤ 3 then none else some .badLength
    body := fun _ p d =>
      let e := rdLe p 0 1
      if e = controllerEp d ∨ nominated d e = false then .done .state [] [] d
      else .done .ok (controllerBytes d) [] (defer d (.control e)) }

/-- KEEPALIVE (R350): one of the controller host restarts the lapse timer and clears LAPSED. -/
def keepaliveCmd : Cmd :=
  { op := 0x0110, readBy := [.p], check := lens [0]
    body := fun x _ d =>
      let was := b2n (lapsed d)
      let mine := decide (x.ep = controllerEp d)
      let d := if mine then restartLapse (setFld d .controller 0 Ctl.lapsed 0) else d
      let left : Nat := if d.host.lapseRuns then (lapseBt d - (d.bt - d.host.lapseFrom)) * btNs d else 0
      .done .ok (leBytes 1 (controllerEp d) ++ leBytes 1 (b2n mine) ++ leBytes 1 was ++ leBytes 1 0
        ++ leBytes 4 (roundFree ((left : Rat) / 1000000)).toNat ++ leBytes 8 d.bt) [] d }

/-! ### Endpoint records -/

def endpointImage (d : Dev) (e : Nat) : Nat :=
  setF (setF (getRec d .endpoint e) Ep.linkUp (b2n (getEp d e).linkUp)) Ep.pfLive (b2n (live d (pfOf e)))

/-- One more than the highest VF of an endpoint to which a tenant is bound. -/
def vfsNeeded (d : Dev) (e : Nat) : Nat :=
  (tenantsInUse d).foldl (fun n t => if tenantEp d t = e then max n (tenantVf d t + 1) else n) 0

def endpointCmd : Cmd :=
  RecSpec.cmd { kind := .endpoint, ib := 1, inSet := idxBelow 4, image := endpointImage
                dep := fun d e _ f _ v => if f = Ep.totalVfs ∧ v < vfsNeeded d e then some (vfsNeeded d e, .dependent) else none
                apply := atNextEdge .endpoint } 0x0130 [.c, .p] [.c]

/-! ### Tenants (R322, R323) -/

def tenantBytes (d : Dev) (t : Nat) : List Byte := recBytes .tenant (getRec d .tenant t)

/-- TENANTS_BOUND of a view, up or down by one. -/
def viewBound (d : Dev) (v : Nat) (up : Bool) : Dev :=
  let n := fld d .view v View.tenantsBound
  setFld d .view v View.tenantsBound (if up then n + 1 else n - 1)

/-- A bind waits for its edge that a new bind would clash with, or a clear of the view. -/
def bindPending (d : Dev) (t e v w : Nat) : Bool :=
  d.atEdge.any fun x => match x.2 with
    | .bind t' e' v' _ => decide (t' = t) || (decide (e' = e) && decide (v' = v))
    | .viewClear w' => decide (w' = w)
    | _ => false

/-- The tenant record as a bind leaves it. -/
def boundRecord (d : Dev) (t e v w n : Nat) : Nat :=
  setF (setF (setF (setF (setF (getRec d .tenant t) Ten.state 1) Ten.endpoint e) Ten.vf v) Ten.view w) Ten.bindBt n

def applyBind (d : Dev) (t e v w : Nat) : Dev :=
  let d := viewBound (setRec d .tenant t (boundRecord d t e v w d.bt)) w true
  setEventBits (fillBucket d t) e v evBoundNew

def tenantBindCmd : Cmd :=
  { op := 0x3000, writeBy := [.c], isWrite := fun _ => true, writeCls := .live, tenant := tenantAt 0
    check := fun _ p _ =>
      if p.length = 8 ∧ tenantIdx p ∧ rdLe p 2 1 < 4 ∧ rdLe p 4 2 < 1024 ∧ rdLe p 6 2 < 256 then none
      else some .badLength
    body := fun _ p d =>
      let (t, e, v, w) := (rdLe p 0 2, rdLe p 2 1, rdLe p 4 2, rdLe p 6 2)
      if tenantState d t ≠ 0 ∨ fld d .endpoint e Ep.totalVfsActive ≤ v ∨ (vfTenant d e v).isSome
          ∨ flag d .view w View.created = false ∨ bindPending d t e v w then .done .state [] [] d
      else .done .ok (recBytes .tenant (boundRecord d t e v w (nextEdge d))) [] (defer d (.bind t e v w)) }

/-- A tenant record taking effect: the bucket is brought up to the edge under the old rate, and its level held to the new
burst (R324). -/
def applyTenant (d : Dev) (t v : Nat) : Dev :=
  let settle (d : Dev) : Dev :=
    let b := getBucket d t
    setBucket d t ⟨min (b.level + (d.bt - b.lastBt) * quotaRefill d t) (fld d .tenant t Ten.quotaBurst * 2 ^ 32), d.bt⟩
  if tenantState d t = 0 then setRec d .tenant t (mergeRw tenFields (getRec d .tenant t) v)
  else settle (setRec (settle d) .tenant t (mergeRw tenFields (getRec d .tenant t) v))

def tenantConfigCmd : Cmd :=
  RecSpec.cmd { kind := .tenant, ib := 2, inSet := tenantIdx, image := plainImage .tenant, apply := atNextEdge .tenant }
    0x3001 [.c, .p, .o, .v] [.c] .live (tenantAt 0)

/-- A tenant takes another view at its edge. -/
def applyTenantView (d : Dev) (t w : Nat) (f : Fn) (door : Nat) : Dev :=
  if tenantBound d t = false ∨ flag d .view w View.created = false then complete d f door .state [] []
  else
    let d := setFld (viewBound (viewBound d (tenantView d t) false) w true) .tenant t Ten.view w
    complete d f door .ok (tenantBytes d t) []

def tenantViewCmd : Cmd :=
  { op := 0x3002, writeBy := [.c], isWrite := fun _ => true, writeCls := .live, tenant := tenantAt 0
    check := fun _ p _ => if p.length = 12 ∧ tenantIdx p ∧ rdLe p 2 2 < 256 then none else some .badLength
    body := fun x p d =>
      let (t, w) := (rdLe p 0 2, rdLe p 2 2)
      match applyEdge d (rdLe p 4 8) with
      | some n =>
        if tenantBound d t = false ∨ flag d .view w View.created = false then .done .state [] [] d
        else .wait .edge (deferAt d n (.tenantView t w x.fn x.door))
      | none => .done .state [] [] d }

/-- TENANT_EVENTS answers the word before its clear. -/
def tenantEventsCmd : Cmd :=
  { op := 0x3004, writeBy := [.c, .o, .v], isWrite := fun _ => true, tenant := tenantAt 0, check := tenantLen 8
    body := fun _ p d =>
      let t := rdLe p 0 2
      if tenantState d t = 0 then .done .state [] [] d
      else
        let (e, v) := (tenantEp d t, tenantVf d t)
        .done .ok (leBytes 4 (eventWord d e v)) [] (clearEventBits d e v (rdLe p 4 4)) }

/-! ### Retiring a tenant (R329) -/

/-- Edge n of a retirement; its door waits on. -/
def applyRetire (d : Dev) (t : Nat) (f : Fn) (door : Nat) : Dev :=
  if tenantBound d t = false then complete d f door .state [] []
  else
    let d := setFld d .tenant t Ten.state 2
    let d := (listed d .addrEntry).foldl (fun d e =>
      if getF e.2 Addr.tenant = t then setFld d .addrEntry e.1 Addr.family 0 else d) d
    let d := (List.range 16).foldl (fun d p =>
      if fld d .ptpPort p PPort.role = 1 ∧ fld d .ptpPort p PPort.tenant = t then setFld d .ptpPort p PPort.role 0
      else d) d
    let d := { d with arr := { d.arr with queue := d.arr.queue.filter fun e => e.2.tenant ≠ t } }
    let d := applyRingClear d t
    let d := { d with host := { d.host with retireEnd := Tab.set 0 d.host.retireEnd t (d.bt + usableDelay d + 1) } }
    let x := getDoor d f door
    match x.serving with
    | some (po, _) => setDoor d f door { x with serving := some (po, .retire t) }
    | none => d

def tenantRetireCmd : Cmd :=
  { op := 0x3003, writeBy := [.c], isWrite := fun _ => true, writeCls := .live, tenant := tenantAt 0, check := tenantLen 12
    body := fun x p d =>
      match applyEdge d (rdLe p 4 8) with
      | some n =>
        if tenantBound d (rdLe p 0 2) = false then .done .state [] [] d
        else .wait .edge (deferAt d n (.retire (rdLe p 0 2) x.fn x.door))
      | none => .done .state [] [] d }

/-- The records of a tenant, back at their reset values (R137, R329); TENANT_GEN advances. -/
def resetTenantRecords (d : Dev) (t : Nat) : Dev :=
  let gen := (fld d .ntp t Ntp.tenantGen + 1) % 256
  let reset (d : Dev) (k : RecKind) (i : Nat) : Dev := setRec d k i (resetRec d.variant k i)
  let d := [RecKind.tenantArray, .launch, .ntp, .bcast, .nts, .ptp, .tenant].foldl (fun d k => reset d k t) d
  let d := (List.range 16).foldl (fun d r => reset d .access (16 * t + r)) d
  let d := (List.range 3).foldl (fun d s => reset d .keyRing (ringSlot t s)) d
  let d := setFld d .ntp t Ntp.tenantGen gen
  if gen = 0 then clearClients d else d

/-- The doors whose TENANT_RETIRE of a tenant waits for its completion. -/
def retireDoors (d : Dev) (t : Nat) : List Posted :=
  d.mbx.doors.filterMap fun e => match e.2.serving with
    | some (po, .retire u) => if u = t then some po else none
    | _ => none

/-- Edge n + D: the tenant becomes UNBOUND. -/
def retireComplete (d : Dev) (t : Nat) : Dev :=
  let due := Tab.get 0 d.host.retireEnd t
  if due = 0 ∨ d.bt + 1 < due ∨ tenantState d t ≠ 2 then d
  else
    let (e, v) := (tenantEp d t, tenantVf d t)
    let d := viewBound d (tenantView d t) false
    let d := clearStats (clearStats (clearStats d .ntp t) .nts t) .ptp t
    let d := (List.range 24).foldl (fun d k => setCtr d (tenantCtr t k) 0) d
    let d := freeGrants (setBucket d t ⟨0, 0⟩) t
    let d := { d with arr := { d.arr with served := Tab.set 0 d.arr.served t 0 }
                      host := { d.host with retireEnd := Tab.set 0 d.host.retireEnd t 0 } }
    let d := resetTenantRecords d t
    let d := (listed d .asymSlot).foldl (fun d s =>
      if getF s.2 Slot.assigned = 1 ∧ getF s.2 Slot.tenant = t then
        setFld (setFld d .asymSlot s.1 Slot.assigned 0) .asymSlot s.1 Slot.tenant 0
      else d) d
    let d := setEventBits d e v evRetired
    (retireDoors d t).foldl (fun d po => complete d po.msg.fn (if po.msg.fn.vf.isSome then 0 else po.msg.door.val) .ok
      (leBytes 8 d.bt) []) d

/-! ### Host registers (R318, R325–R327) -/

def deviceEventsW1c (d : Dev) (e bits : Nat) : Dev :=
  let s := getFn d (pfOf e)
  if barUp d (pfOf e) then setFn d (pfOf e) { s with deviceEvents := s.deviceEvents - (s.deviceEvents &&& bits) } else d

/-- DEVICE_EVENT_MASK: clearing a mask bit over a set event sends vector 8. -/
def deviceEventMask (d : Dev) (e v : Nat) : Dev :=
  let s := getFn d (pfOf e)
  let new := v % 16
  if barUp d (pfOf e) then
    let d := setFn d (pfOf e) { s with deviceEventMask := new }
    if (List.range 4).any fun b => bit s.deviceEventMask b && !bit new b && bit s.deviceEvents b then sendMsix d (pfOf e) 8
    else d
  else d

def vfEventW1c (d : Dev) (e v bits : Nat) : Dev :=
  if barUp d (vfOf e v) then clearEventBits d e v bits else d

/-- The summary message held back by EVENT_HOLDOFF_US. -/
def summaryHoldoffEnd (d : Dev) (e : Nat) : Dev :=
  let s := getEp d e
  if s.holdoff && s.summaryOwed then summaryRise (setEp d e { s with holdoff := false, summaryOwed := false }) e
  else setEp d e { s with holdoff := false }

/-- A ring message held back by IRQ_HOLDOFF_US (R330). -/
def ringHoldoffEnd (d : Dev) (f : Fn) (tx : Bool) (r : Nat) : Dev :=
  let x := getRing d f tx r
  if x.holdoff && x.irqOwed then ringMessage (setRing d f tx r { x with holdoff := false, irqOwed := false }) f tx r
  else if x.holdoff then setRing d f tx r { x with holdoff := false } else d

/-! ### Ring blocks (R330, R332) -/

/-- PRODUCER written: the descriptors from the old index up to the new one are posted. Those the host has put into the
ring's memory come with the write; a descriptor not given reads 0. -/
def ringProducer (d : Dev) (f : Fn) (tx : Bool) (r producer : Nat) (descs : List (BitVec 256)) : Dev :=
  if !barUp d f ∨ ringCount f ≤ r then d
  else
    let n := (producer + 65536 - ringFld d f tx r Rng.producer) % 65536
    let new := descs.take n ++ List.replicate (n - descs.length) 0
    let d := setFld d .ring (ringIdx f tx r) Rng.producer producer
    let x := getRing d f tx r
    tiuDrain (if ringEnabled d f tx r then setRing d f tx r { x with posted := x.posted ++ new } else d)

/-- ENABLE = 1 of a transmit ring is accepted for its PORT (R332). -/
def txEnableOk (d : Dev) (f : Fn) (p : Nat) : Bool :=
  match f.vf with
  | none => portStarts d p
  | some v => match vfTenant d f.ep.val v.val with
    | some t => (activeEntries d).any fun e => decide (getF e.2 Addr.tenant = t) && bit (getF e.2 Addr.portMask) p
    | none => false

/-- The limits of a ring block's control word that refer to the function and to R332. -/
def ringDep (d : Dev) (f : Fn) (tx : Bool) (req : Nat) : Dep := fun x _ v =>
  if x = Rng.enable then
    (if v = 1 ∧ tx ∧ txEnableOk d f (getF req Rng.port) = false then some (0, .dependent) else none)
  else if x = Rng.vector ∧ f.vf.isNone then (if v < 16 then some (16, .range) else none)
  else none

/-- The fields of a ring block that a write of some of its bits may change; a VF's VECTOR is fixed. -/
def ringFieldsIn (f : Fn) (lo hi : Nat) : List Field :=
  rngFields.filter fun x => decide (lo ≤ x.at_.msb) && decide (x.at_.lsb ≤ hi) && !(decide (x.at_ = Rng.vector) && f.vf.isSome)

/-- Bits of a ring block written: clamped silently; ENABLE from 0 to 1 sets CONSUMER to PRODUCER. -/
def ringWrite (d : Dev) (f : Fn) (tx : Bool) (r lo hi v : Nat) : Dev :=
  let i := ringIdx f tx r
  let old := getRec d .ring i
  let req := setF old ⟨hi, lo⟩ v
  let (new, _) := clampRecord (ringFieldsIn f lo hi) (ringDep d f tx req) 0 old req
  let d := setRec d .ring i new
  if getF old Rng.enable = 0 ∧ getF new Rng.enable = 1 then
    let d := setFld d .ring i Rng.consumer (getF new Rng.producer)
    setRing d f tx r { getRing d f tx r with posted := [], inFlight := [] }
  else if getF new Rng.enable = 0 then setRing d f tx r { getRing d f tx r with posted := [] }
  else d

/-- The control word of a ring block, dword 5. -/
def ringEnableWrite (d : Dev) (f : Fn) (tx : Bool) (r v : Nat) : Dev :=
  if !barUp d f ∨ ringCount f ≤ r then d else tiuDrain (ringWrite d f tx r 160 191 v)

/-! ### Function-level reset and PERST (R316, R328) -/

/-- A door reset with its function: a command in progress completes and its response is discarded; a long operation is
abandoned; anything else is gone. -/
def resetDoor (d : Dev) (k : Nat) (x : Door) (f : Fn) (door : Nat) : Dev :=
  if x.serving.isSome then { d with mbx := { d.mbx with doors := Tab.set Door.idle d.mbx.doors k { x with discard := true } } }
  else
    let d := if x.partial_.isSome ∧ holdsLock d f door then bumpDoor d f door dsAbandoned else d
    setDoor (releaseLocks d f door) f door Door.idle

/-- The function with a given number. -/
def fnOfKey (k : Nat) : Fn := if k % 1025 = 0 then pfOf (k / 1025) else vfOf (k / 1025) (k % 1025 - 1)

/-- The host-side state of some functions reset (Table HOST.10): doors, ring blocks, MSI-X, configuration space, the status
page's latches and DEVICE_EVENTS. -/
def resetFns (d : Dev) (p : Nat → Bool) : Dev :=
  let d := d.mbx.doors.foldl (fun d e =>
    if p (e.1 / 8) then resetDoor d e.1 e.2 (fnOfKey (e.1 / 8)) (e.1 % 8) else d) d
  let d := { d with recs := d.recs.filter fun e =>
    !(decide (e.1 / 2 ^ 24 = RecKind.ring.code) && p (e.1 % 2 ^ 24 / 128)) }
  { d with host := { d.host with
      rings := d.host.rings.filter fun e => !p (e.1 / 128)
      fns := d.host.fns.filterMap fun e =>
        if p e.1 then
          (if e.2.eventsInFlr = 0 then none else some (e.1, { FnState.reset with eventsInFlr := e.2.eventsInFlr }))
        else some e } }

/-- A reset takes the snapshots taken so far from the counter window of a function or endpoint. -/
def hideSnaps (d : Dev) (k : Nat) : Dev :=
  { d with host := { d.host with snapGone := Tab.set 0 d.host.snapGone k d.obs.snapCount } }

/-- A function-level reset begins. -/
def flr (d : Dev) (f : Fn) : Dev :=
  if !barUp d f then d
  else
    let d := hideSnaps (resetFns d fun k => decide (k = Fn.key f)) (Fn.key f)
    setFn d f { getFn d f with inFlr := true, eventOwed := f.vf.isSome }

/-- It completes, and sets its cause bit (R422). -/
def flrComplete (d : Dev) (f : Fn) : Dev :=
  let s := getFn d f
  if s.inFlr then setCause (setFn d f { s with inFlr := false }) (if f.vf.isNone then 12 else 13) else d

/-- Every function of an endpoint reset, and its link down. -/
def resetEndpoint (d : Dev) (e : Nat) : Dev :=
  let d := hideSnaps (resetFns d fun k => decide (k / 1025 = e)) (5000 + e)
  let d := { d with stats := d.stats.filter fun s =>
    !(decide (s.1 / 2 ^ 32 = StatKind.door.code) && decide (s.1 % 2 ^ 32 / 64 / 8 / 1025 = e)) }
  setEp d e { getEp d e with linkUp := false }

/-- PERST asserted; in KEEP-TIME, and before the main rails are up, that has no effect beyond the level of the pin (R440). -/
def perstAssert (d : Dev) (e : Nat) : Dev :=
  if (getEp d e).perst then d
  else
    let d := setEp d e { getEp d e with perst := true }
    if mainPowered d then setCause (resetEndpoint d e) (8 + e) else d

/-- The configuration-space bits of R317 as a host writes them. -/
def configWrite (d : Dev) (f : Fn) (busMaster msix : Bool) : Dev :=
  let s := getFn d f
  if !barUp d f then d
  else
    let d := setFn d f { s with busMaster := busMaster, msixEnable := msix }
    let d := flushMsix d f
    match f.vf with
    | some v =>
      if msix && !s.msixEnable && s.eventOwed then
        let d := setFn d f { getFn d f with eventOwed := false }
        if eventWord d f.ep.val v.val = 0 then d else vfMessage d f.ep.val v.val
      else d
    | none => tiuDrain d

/-- A link has trained: its endpoint is out of PERST, and it left reset no sooner than 1 ms after the main rails were found
(R431). -/
def linkTrained (d : Dev) (e : Nat) : Dev :=
  if fastRuns d ∧ (getEp d e).perst = false ∧ d.pwr.railsBt + msToBt d 1 ≤ d.bt then setEp d e { getEp d e with linkUp := true } else d

def linkDown (d : Dev) (e : Nat) : Dev := setEp d e { getEp d e with linkUp := false }

/-! ### Door statistics (R352) -/

def doorRecord (d : Dev) (f : Fn) (door : Nat) : List Byte :=
  let n (i : Nat) : Nat := getStat d .door (doorKey f door) i
  leBytes 8 0 ++ leBytes 8 (getDoor d f door).lastServedBt ++ leBytes 2 (n 6) ++ leBytes 2 (n 5) ++ leBytes 2 (n 4)
    ++ leBytes 2 (n 3) ++ leBytes 2 (n 2) ++ leBytes 2 (n 1) ++ leBytes 4 (n 0)

/-- DOOR_STATS: the endpoint at 0, the function at 2. -/
def doorStatsCmd : Cmd :=
  { op := 0x0111
    admits := fun x p d _ =>
      let (e, v) := (rdLe p 0 1, rdLe p 2 2)
      if x.isPf then x.holds d none .c || decide (e = x.ep)
      else decide (e = x.ep) && decide (x.fn.vf.map (·.val) = some v)
    check := fun _ p d =>
      if p.length ≠ 4 then some .badLength
      else if 3 < rdLe p 0 1 ∨ (rdLe p 2 2 ≠ 0xFFFF ∧ fld d .endpoint (rdLe p 0 1) Ep.totalVfsActive ≤ rdLe p 2 2) then
        some .notPresent
      else none
    body := fun _ p d =>
      let f := if rdLe p 2 2 = 0xFFFF then pfOf (rdLe p 0 1) else vfOf (rdLe p 0 1) (rdLe p 2 2)
      let doors := if f.vf.isNone then List.range 8 else [0]
      .done .ok (doors.flatMap (doorRecord d f)) [] (doors.foldl (fun d k => clearStats d .door (doorKey f k)) d) }

def execKeepalive (m : Msg) (s : State) : Host.Outcome State Fault Refusal := mailbox keepaliveCmd m s
def execDoorStats (m : Msg) (s : State) : Host.Outcome State Fault Refusal := mailbox doorStatsCmd m s
def execEndpointConfig (m : Msg) (s : State) : Host.Outcome State Fault Refusal := mailbox endpointCmd m s
def execControl (m : Msg) (s : State) : Host.Outcome State Fault Refusal := mailbox controlCmd m s
def execControlClaim (m : Msg) (s : State) : Host.Outcome State Fault Refusal := mailbox controlClaimCmd m s
def execControlRelease (m : Msg) (s : State) : Host.Outcome State Fault Refusal := mailbox controlReleaseCmd m s
def execTenantBind (m : Msg) (s : State) : Host.Outcome State Fault Refusal := mailbox tenantBindCmd m s
def execTenantConfig (m : Msg) (s : State) : Host.Outcome State Fault Refusal := mailbox tenantConfigCmd m s
def execTenantView (m : Msg) (s : State) : Host.Outcome State Fault Refusal := mailbox tenantViewCmd m s
def execTenantRetire (m : Msg) (s : State) : Host.Outcome State Fault Refusal := mailbox tenantRetireCmd m s
def execTenantEvents (m : Msg) (s : State) : Host.Outcome State Fault Refusal := mailbox tenantEventsCmd m s

def execKeepaliveLapse (s : State) : Host.Outcome State Fault Refusal := whenOn s keepaliveLapse
def execTenantRetireComplete (tenant : Fin 4096) (s : State) : Host.Outcome State Fault Refusal :=
  whenOn s fun d => retireComplete d tenant.val
def execDeviceEventsW1c (ep : Fin 4) (bits : BitVec 32) (s : State) : Host.Outcome State Fault Refusal :=
  whenOn s fun d => deviceEventsW1c d ep.val bits.toNat
def execDeviceEventMaskWrite (ep : Fin 4) (value : BitVec 32) (s : State) : Host.Outcome State Fault Refusal :=
  whenOn s fun d => deviceEventMask d ep.val value.toNat
def execVfEventW1c (ep : Fin 4) (vf : Fin 1024) (bits : BitVec 32) (s : State) : Host.Outcome State Fault Refusal :=
  whenOn s fun d => vfEventW1c d ep.val vf.val bits.toNat
def execVfSummaryHoldoffEnd (ep : Fin 4) (s : State) : Host.Outcome State Fault Refusal :=
  whenOn s fun d => summaryHoldoffEnd d ep.val
def execRingIrqHoldoffEnd (fn : Fn) (tx : Bool) (ring : Fin 64) (s : State) : Host.Outcome State Fault Refusal :=
  whenOn s fun d => ringHoldoffEnd d fn tx ring.val
def execRingProducerWrite (fn : Fn) (tx : Bool) (ring : Fin 64) (producer : BitVec 16) (descs : List (BitVec 256))
    (s : State) : Host.Outcome State Fault Refusal :=
  whenOn s fun d => ringProducer d fn tx ring.val producer.toNat descs
def execRingEnableWrite (fn : Fn) (tx : Bool) (ring : Fin 64) (value : BitVec 32) (s : State) :
    Host.Outcome State Fault Refusal :=
  whenOn s fun d => ringEnableWrite d fn tx ring.val value.toNat
def execPerstAssert (ep : Fin 4) (s : State) : Host.Outcome State Fault Refusal := whenOn s fun d => perstAssert d ep.val
def execVfFlr (ep : Fin 4) (vf : Fin 1024) (s : State) : Host.Outcome State Fault Refusal :=
  whenOn s fun d => flr d (vfOf ep.val vf.val)
def execPfFlr (ep : Fin 4) (s : State) : Host.Outcome State Fault Refusal := whenOn s fun d => flr d (pfOf ep.val)
def execFlrComplete (fn : Fn) (s : State) : Host.Outcome State Fault Refusal := whenOn s fun d => flrComplete d fn
def execConfigurationSpaceWrite (fn : Fn) (busMaster msixEnable : Bool) (s : State) : Host.Outcome State Fault Refusal :=
  whenOn s fun d => configWrite d fn busMaster msixEnable
def execPcieLinkTrained (ep : Fin 4) (s : State) : Host.Outcome State Fault Refusal :=
  whenOn s fun d => linkTrained d ep.val
def execPcieLinkDown (ep : Fin 4) (s : State) : Host.Outcome State Fault Refusal := whenOn s fun d => linkDown d ep.val

end Sys2Proof.Machine
end

