-- ==== Sys2Proof/Machine/Faults.lean ====
section
/-! DEFINITION. The fault collector (17_faults.md): raises, echoes, records, the reactions by class, the grace timer, the
FATAL safe state, memory errors, injection and the FAULT commands. -/

namespace Sys2Proof.Machine

open Sys2Proof

/-! ### Records and state -/

/-- The index of the top FIRST and GRACE records. -/
def recFirst : Nat := 149
def recGrace : Nat := 150

/-- The node codes of the two top records (R404). -/
def codeFirst : Nat := 0x1FF
def codeGrace : Nat := 0x1FE

/-- The origin node of a source (R404); none: the top. -/
def originNode (id : Nat) : Option Nat :=
  let i := srcInst id
  match srcCode id with
  | 0x01 | 0x02 => if 144 ≤ i ∧ i ≤ 159 then some (i - 16) else if 160 ≤ i ∧ i ≤ 287 then some (i - 160) else none
  | 0x03 => if 16 ≤ i ∧ i ≤ 31 then some (i + 112) else none
  | 0x20 | 0x25 | 0x21 => some i
  | 0x22 | 0x23 => some (128 + i / 2)
  | _ => none

def gravest (d : Dev) : Nat := fld d .faultStatus 0 FSt.gravest

/-- A device reset or RESET_N is in progress. -/
def resetHeld (d : Dev) : Bool := d.pwr.devReset || d.pwr.resetN.isSome

/-- ALIVE toggles (R414). A firmware that has stopped has written its last heartbeat up to 1 ms before. -/
def aliveRunning (d : Dev) : Bool :=
  d.pwr.aonUp && !safe d && !resetHeld d && !(d.pwr.resetDue.any fun r => decide (r.2 = 4))
    && (decide (power d = 2) || fwRuns d
      || (d.disc.ran && decide ((d.bt - d.pwr.fwStopBt) * btNs d ≤ 2000000)))

/-- ALIVE at an edge: it restarts with a high phase when every condition holds again. -/
def aliveEdge (d : Dev) : Dev :=
  { d with flt := { d.flt with aliveFrom := if aliveRunning d then some (d.flt.aliveFrom.getD d.bt) else none } }

/-- The level of the ALIVE output: 1 kHz, 500 µs high and 500 µs low. -/
def aliveLevel (d : Dev) : Bool :=
  match d.flt.aliveFrom with
  | some n => d.pwr.aonUp && decide ((d.bt - n) * btNs d / 500000 % 2 = 0)
  | none => false

/-- FAULT_N is asserted (R415). -/
def faultN (d : Dev) : Bool := decide (4 ≤ gravest d)

/-- The status block as read (Table FLT.7). -/
def faultStatusImage (d : Dev) : Nat :=
  let left : Nat := match d.flt.graceEnd with | some n => (n - d.bt) * btNs d | none => 0
  let r := getRec d .faultStatus 0
  let r := setF (setF r FSt.graceRunning (b2n d.flt.graceEnd.isSome)) FSt.aliveRunning (b2n (aliveRunning d))
  setF (setF r FSt.faultNAsserted (b2n (faultN d))) FSt.graceRemainMs (roundFree ((left : Rat) / 1000000)).toNat

/-! ### The processor stops (R266, R411) -/

/-- The firmware stops: the references and servos are left as R266 says, and its heartbeat was written at most 1 ms
before. -/
def firmwareStops (d : Dev) : Dev :=
  if fwRuns d then
    let (n, d) := drawUpTo (discStop d) (usToBt d 1000)
    { d with pwr := { d.pwr with fwStopBt := d.bt - n } }
  else d

/-- The processor pair halts. -/
def haltProcessor (d : Dev) : Dev :=
  let d := firmwareStops d
  { d with pwr := { d.pwr with halted := true } }

/-! ### The FATAL safe state (R412) -/

/-- The array, its lanes and the benches are gated: contexts are abandoned and so is an operation on a bench. -/
def gateArray (d : Dev) : Dev :=
  let d := noteRetention (gateDone (gateRequest d 148 false) 148)
  let d := d.key.running.foldl (fun d e => setRec d .bench e.1 (resetRec d.variant .bench e.1)) d
  { d with key := { d.key with running := [] } }

/-- Table FLT.4 at the edge of entry. -/
def enterSafe (d : Dev) : Dev :=
  if safe d then d
  else
    let d := gnssMemoryLost (firmwareStops d)
    let d := gateArray ((List.range 16).foldl truncateTx d)
    let d := freezeScribe ((List.range 6).foldl cutPulse d)
    setFld (setFld d .faultStatus 0 FSt.safeState 1) .faultStatus 0 FSt.safeBt d.bt

/-! ### Latching and reactions (R408–R413) -/

/-- A record as a raise loads it. -/
def loadedRecord (d : Dev) (r : Raise) (node cls : Nat) : Nat :=
  let x := setF (setF (setF (setF 0 FRec.valid 1) FRec.cls cls) FRec.firstClass cls) FRec.injected (b2n r.injected)
  let x := setF (setF (setF x FRec.node node) FRec.source r.source) FRec.detail r.detail
  setF (setF x FRec.firstBt d.bt) FRec.lastBt d.bt

/-- A raise offered to a record (R408). -/
def offerRaise (d : Dev) (k : Nat) (r : Raise) (node cls : Nat) : Dev :=
  let x := getRec d .faultRec k
  setRec d .faultRec k
    (if getF x FRec.valid = 0 then loadedRecord d r node cls
     else setF (setF (bumpF (setF x FRec.overflow 1) FRec.count) FRec.lastSource r.source) FRec.lastBt d.bt)

/-- The grace timer starts at GRACE_MS. -/
def startGrace (d : Dev) : Dev :=
  { d with flt := { d.flt with graceEnd := some (d.bt + msToBt d (fld d .collector 0 FCol.graceMs)), graceHeld := false } }

/-- A SEVERE raise with no timer running loads the GRACE record, in place of one that has escalated; its timer starts, at
the end of a reset in progress (R410). -/
def openGrace (d : Dev) (r : Raise) (node cls : Nat) : Dev :=
  let d := if flag d .faultRec recGrace FRec.escalated then setRec d .faultRec recGrace 0 else d
  let d := offerRaise d recGrace r node cls
  if resetHeld d then { d with flt := { d.flt with graceHeld := true } } else startGrace d

/-- A raise merges into the GRACE record while the timer runs (R410). -/
def mergeGrace (d : Dev) (r : Raise) (cls : Nat) : Dev :=
  let x := getRec d .faultRec recGrace
  let x := bumpF (setF (setF x FRec.merged 1) FRec.cls (max (getF x FRec.cls) cls)) FRec.count
  setRec d .faultRec recGrace (setF (setF x FRec.lastSource r.source) FRec.lastBt d.bt)

/-- A raise of a source with FENCE = 1 fences its unit (R413). -/
def fenceSource (d : Dev) (id : Nat) : Dev :=
  if flag d .faultSrc id FSrc.fence = false then d
  else if srcCode id = 0x22 then withdrawLane d (srcInst id)
  else match originNode id with
    | some c => fenceNode d c
    | none => d

/-- The FAULT record of a raise (Table OBS.8): 0 LOADED, 1 COUNTED, 2 SUPPRESSED, 3 MERGED, 4 ESCALATED, 5 SAFE_STATE. -/
def traceFault (d : Dev) (sub node source cls detail : Nat) : Dev :=
  trace d 4 sub node (leBytes 2 source ++ leBytes 1 cls ++ leBytes 1 0 ++ leBytes 4 detail)

/-- The scribe's triggers by a raise (R451). -/
def faultTrigger (d : Dev) (r : Raise) (cls : Nat) (suppressed : Bool) : Dev :=
  let m := fld d .scribe 0 Scr.trigMask
  if bit m 0 ∧ suppressed = false ∧ fld d .scribe 0 Scr.trigClass ≤ cls then autoTrigger d 0 2 r.source
  else if r.source = fld d .scribe 0 Scr.trigSource then autoTrigger d 1 3 r.source else d

/-- A raise that is not suppressed: the records, the reaction of its class, its fence, its trace. -/
def reactRaise (d : Dev) (r : Raise) (cls : Nat) : Dev :=
  let node := originNode r.source
  let code := node.getD codeFirst
  let nodes := match node with | some c => lineage c | none => []
  let loads := !flag d .faultRec recFirst FRec.valid
  let merges := d.flt.graceEnd.isSome
  let d := (nodes ++ [recFirst]).foldl (fun d k => offerRaise d k r code cls) d
  let d := if merges then mergeGrace d r cls
    else if cls = 4 then openGrace d r (node.getD codeGrace) cls else d
  let d := if gravest d < cls then
      setFld (setFld d .faultStatus 0 FSt.gravest cls) .faultStatus 0 FSt.gravestBt d.bt
    else d
  let d := if 3 ≤ cls then setDevEvent d (controllerEp d) 0 else d
  let d := fenceSource d r.source
  let d := traceFault d (if cls = 5 then 5 else if merges then 3 else if loads then 0 else 1) code r.source cls r.detail
  let d := faultTrigger d r cls false
  if cls = 5 then enterSafe d else d

/-- A raise at its edge (R407): a source flagged E is held for judgement with the class it has now. -/
def handleRaise (d : Dev) (r : Raise) : Dev :=
  let d := countRaise d r.source
  let cls := srcClass d r.source
  if (srcInfo r.source).echo then { d with flt := { d.flt with echoes := d.flt.echoes ++ [(r, cls, d.bt)] } }
  else reactRaise d r cls

/-- ECHOES of every valid record whose SOURCE is the primary. -/
def countEchoes (d : Dev) (prim : Nat) : Dev :=
  (List.range 151).foldl (fun d k =>
    if flag d .faultRec k FRec.valid ∧ fld d .faultRec k FRec.source = prim then bumpFld d .faultRec k FRec.echoes else d) d

/-- An echo judged (R407): suppressed if its primary's LAST_BT lies no more than ECHO_WINDOW_US back. -/
def judgeEcho (d : Dev) (r : Raise) (cls : Nat) : Dev :=
  let prim := r.detail / 65536
  let last := Tab.get 0 d.flt.lastBt prim
  if last ≠ 0 ∧ (d.bt - last) * btNs d ≤ fld d .collector 0 FCol.echoWindowUs * 1000 then
    let d := countEchoes (bumpStat d .fault r.source 1 16) prim
    let d := traceFault d 2 ((originNode r.source).getD codeFirst) r.source cls r.detail
    faultTrigger d r cls true
  else reactRaise d r cls

/-- Every echo whose 10 base ticks are over. -/
def judgeEchoes (d : Dev) : Dev :=
  let due := d.flt.echoes.filter fun e => e.2.2 + 10 ≤ d.bt
  let d := { d with flt := { d.flt with echoes := d.flt.echoes.filter fun e => !decide (e.2.2 + 10 ≤ d.bt) } }
  due.foldl (fun d e => judgeEcho d e.1 e.2.1) d

/-- The raises of an edge (R407): every SEVERE or FATAL one, and up to 16 others in the order received. -/
def handleQueue (d : Dev) : Dev :=
  let urgent := d.flt.queue.filter fun r => 4 ≤ srcClass d r.source
  let rest := d.flt.queue.filter fun r => srcClass d r.source < 4
  let d := { d with flt := { d.flt with queue := rest.drop 16 } }
  (urgent ++ rest.take 16).foldl handleRaise d

/-- The grace timer reaches zero: the collector escalates (R411). -/
def graceExpiry (d : Dev) : Dev :=
  match d.flt.graceEnd with
  | some n =>
    if d.bt < n then d
    else
      let d := { d with flt := { d.flt with graceEnd := none } }
      let src := fld d .faultRec recGrace FRec.source
      let d := setFld d .faultRec recGrace FRec.escalated 1
      let d := setFld (setFld d .faultStatus 0 FSt.escSource src) .faultStatus 0 FSt.escalationBt d.bt
      let d := bumpFld d .faultStatus 0 FSt.escalations
      let d := traceFault d 4 ((originNode src).getD codeGrace) src (fld d .faultRec recGrace FRec.cls)
        (fld d .faultRec recGrace FRec.detail)
      if safe d then d else { d with pwr := { d.pwr with resetDue := some (d.bt, 4) } }
  | none => d

/-! ### Checkers: errors from outside, and injection (R416–R418) -/

/-- The checker behind a source, by the SOURCE_ID that keeps its INJECT_REMAIN: the two reports of one ECC code, and the
key-store banks, share one. -/
def checkerOf (id : Nat) : Nat :=
  let i := srcInst id
  match srcCode id with
  | 0x02 => srcId 0x01 i
  | 0x07 => srcId 0x06 i
  | 0x08 => srcId 0x01 (340 + i / 128)
  | 0x09 => srcId 0x01 (292 + i)
  | _ => id

def injectRemain (d : Dev) (id : Nat) : Nat := fld d .faultSrc (checkerOf id) FSrc.injectRemain

/-- The report is the one the injected MODE yields: a parity or compare checker ignores it. -/
def modeFits (d : Dev) (id : Nat) : Bool :=
  let double := decide (Tab.get 0 d.flt.injectMode (checkerOf id) = 1)
  match srcCode id with
  | 0x01 | 0x06 => !double
  | 0x02 | 0x07 | 0x08 | 0x09 => double
  | _ => true

/-- The report comes from an inverted check, which is then used up. -/
def takeInjection (d : Dev) (id : Nat) : Bool × Dev :=
  let n := injectRemain d id
  if 0 < n ∧ modeFits d id then (true, setFld d .faultSrc (checkerOf id) FSrc.injectRemain (n - 1)) else (false, d)

/-- A context loses its packet to bad data (Table FLT.3, R407). -/
def dropThread (d : Dev) (e t : Nat) : Dev :=
  match ctxAt d e t with
  | some x => abandonContext d (8 * e + t) x
  | none => d

/-- The frame a port is sending goes out with an inverted FCS. -/
def poisonTx (d : Dev) (p : Nat) : Dev :=
  let x := getPort d p
  match x.cur with
  | some c => setPort d p { x with cur := some { c with aborted := true } }
  | none => d

/-- A word of a port's FIFO lost (Table FLT.3): the frame in transit it held goes out with an inverted FCS, or ends as a
fragment on receive. Which of two such frames held it is not given: a free choice. -/
def poisonFifo (d : Dev) (p : Nat) : Dev :=
  let x := getPort d p
  match x.cur.isSome, x.rxCur.isSome with
  | true, true =>
    let (n, d) := drawUpTo d 1
    if n = 0 then poisonTx d p else endRx d p
  | true, false => poisonTx d p
  | false, _ => endRx d p

/-- Poisoned data in a lane: its job fails back to its thread (R407, R153); a cookie of an NTS_MINT is minted again. -/
def poisonLane (d : Dev) (l : Nat) : Dev :=
  match laneRun d l with
  | none => d
  | some r =>
    let now := cycleAt d d.obs.phase
    startLanes (jobReturned (finishLane d l r false now) r false) (l / 2) now

/-- An NTS key lost (R417): the slot is EMPTY, and the jobs of the contexts whose sample named it fail. -/
def loseNtsKey (d : Dev) (i : Nat) : Dev :=
  let t := i / 3
  let d := d.arr.ctx.foldl (fun d e => match e.2 with
    | some x =>
      match x.nts with
      | some w =>
        let named : Bool := match ntsReq (ntpBytes d x) with
          | some q => decide (sampleFind w.sample (rdBe q.cookie 0 4) = some (i % 3))
          | none => false
        if x.desc.tenant = t ∧ (named ∨ sampleMint w.sample = some (i % 3)) ∧ x.phase.waits = .waitAead then
          jobFailed d e.1 x
        else d
      | none => d
    | none => d) d
  zeroMaster (setPendingKey (setRec d .keyRing i 0) i none) i

/-- An asymmetric slot left EMPTY. -/
def emptySlot (d : Dev) (s : Nat) : Dev :=
  let d := setRec d .asymSlot s (resetRec d.variant .asymSlot s)
  { d with key := { d.key with asym := Tab.set 0 d.key.asym s 0 } }

/-- What an uncorrectable error in a macro group does beside its raise (Table FLT.3). Which client entry lies in a word
is not given: a free one. -/
def memoryLost (d : Dev) (g thread : Nat) : Dev :=
  if 64 ≤ g ∧ g ≤ 127 then
    let (n, d) := draw d
    setEntry d (n % 2 ^ 22) 0
  else if 144 ≤ g ∧ g ≤ 159 then setNode d (g - 16) { getNode d (g - 16) with reload := true }
  else if 160 ≤ g ∧ g ≤ 287 then dropThread d (g - 160) thread
  else if 288 ≤ g ∧ g ≤ 291 then haltProcessor d
  else if 344 ≤ g then poisonFifo d (g - 344)
  else d

/-- What a report does to its unit, beside what its class makes of it. -/
def unitEffect (d : Dev) (x : RaiseIn) (injected : Bool) : Dev :=
  let id := x.source.toNat
  let i := srcInst id
  match srcCode id with
  | 0x02 => memoryLost d i x.thread.val
  | 0x04 => haltProcessor d
  | 0x08 => if injected then d else emptySlot d i
  | 0x09 => if injected ∨ x.detail.toNat / 256 ≠ i then d else loseNtsKey d x.detail.toNat
  | 0x0A => { d with key := { d.key with rngWithheld := true } }
  | 0x20 => dropThread d i (x.detail.toNat % 8)
  | 0x23 => poisonLane d i
  | 0x25 => dropThread (countNode d i 37) i x.thread.val
  | 0x35 => poisonTx d i
  | 0x37 => if x.fn.ep.val = i then refuseRing d x.fn x.ring.val else d
  | _ => d

/-- The domain of a source runs (R406): OTP, life cycle and the monitors in every state but OFF. -/
def srcRuns (d : Dev) (id : Nat) : Bool :=
  [0x06, 0x07, 0x0B, 0x0C, 0x11, 0x12, 0x13, 0x14].contains (srcCode id) || fastRuns d

/-- A raise that reaches the collector at this edge: the one waiting in the queue, or a new report of a checker. -/
def faultRaise (d : Dev) (x : RaiseIn) : Dev :=
  let id := x.source.toNat
  if srcExists d id = false then d
  else match d.flt.queue.find? fun r => decide (r.source = id) && decide (r.detail = x.detail.toNat) with
    | some r => handleRaise { d with flt := { d.flt with queue := d.flt.queue.erase r } } r
    | none =>
      if srcRuns d id = false then d
      else if 0x10 ≤ srcCode id ∧ srcCode id ≤ 0x14 then
        if d.flt.episodes.contains id then d
        else handleRaise { d with flt := { d.flt with episodes := d.flt.episodes ++ [id] } } ⟨id, 0, false⟩
      else
        let (inj, d) := takeInjection d id
        handleRaise (unitEffect d x inj) ⟨id, x.detail.toNat, inj⟩

/-- An uncorrectable word the scrubber meets. The context whose memory holds a word is not given: a free one. -/
def scrubLost (d : Dev) (g : Nat) : Dev :=
  let (n, d) := drawUpTo d 7
  memoryLost d g n

/-- The checks a pass of the scrubber makes in a group use up what is injected there, in words the spec does not name. -/
def scrubInjected (d : Dev) (g : Nat) : Dev :=
  let id := srcId 0x01 g
  let n := injectRemain d id
  let ue := decide (Tab.get 0 d.flt.injectMode id = 1)
  if n = 0 ∨ srcExists d id = false then d
  else
    (List.range n).foldl (fun d _ =>
      let (w, d) := draw d
      if ue then raiseWith (scrubLost d g) (srcId 0x02 g) (w % 2 ^ 32) true
      else raiseWith d id (w % 2 ^ 32) true) (setFld d .faultSrc id FSrc.injectRemain 0)

/-- A pass of the scrubber over groups 0–291 (R416). -/
def scrubPass (d : Dev) (errs : List ScrubError) : Dev :=
  let d := errs.foldl (fun d e =>
    let g := e.group.val
    if srcExists d (srcId 0x01 g) = false then d
    else if e.double then raise (scrubLost d g) (srcId 0x02 g) e.word.toNat
    else raise d (srcId 0x01 g) e.word.toNat) d
  (List.range 292).foldl scrubInjected d

/-! ### Commands (R419, R420) -/

/-- A fault command names a level and index: in the encodable set, with level 4 the top. -/
def faultInSet (p : List Byte) : Bool := nodeInSet p || decide (rdLe p 0 1 = 4)

def faultRecBytes (d : Dev) (k : Nat) : List Byte := recBytes .faultRec (getRec d .faultRec k)

/-- The records FAULT_RECORDS returns for a level and index. -/
def faultRecords (d : Dev) (level index : Nat) : List Byte :=
  let ks := if level = 0xFF then nodesPresent d.variant ++ [recFirst, recGrace]
    else if level = 4 then [recFirst, recGrace] else [nodeCode level index]
  ks.flatMap (faultRecBytes d)

def clearFaultRec (d : Dev) (k : Nat) : Dev := setRec d .faultRec k 0

/-- FAULT_CLEAR at its edge, in increasing bit order (R419). -/
def applyFaultClear (d : Dev) (level index mask : Nat) (f : Fn) (door : Nat) : Dev :=
  let top := decide (level = 4)
  let c := nodeCode level index
  let d := if bit mask 0 then clearFaultRec d (if top then recFirst else c) else d
  let d := if bit mask 1 then
      (if top then nodesPresent d.variant else descendants d.variant c).foldl clearFaultRec d
    else d
  let d := if bit mask 2 ∧ top then
      { clearFaultRec d recGrace with flt := { d.flt with graceEnd := none, graceHeld := false } }
    else d
  let d := if bit mask 3 ∧ top then
      setFld d .faultStatus 0 FSt.gravest (if d.flt.graceEnd.isSome then fld d .faultRec recGrace FRec.cls else 0)
    else d
  let d := if bit mask 4 ∧ top then
      setFld (dropStats d fun k => decide (k = StatKind.fault.code)) .faultStatus 0 FSt.escalations 0
    else d
  complete d f door .ok (faultRecords d level index) []

def faultStatusCmd : Cmd :=
  { op := 0x5000, readBy := [.c, .p], check := lens [0]
    body := fun _ _ d =>
      .done .ok (faultRecBytes d recFirst ++ faultRecBytes d recGrace ++ recBytes .faultStatus (faultStatusImage d)) [] d }

def faultRecordsCmd : Cmd :=
  { op := 0x5001, readBy := [.c, .p]
    check := fun _ p d =>
      if p.length ≠ 4 ∨ !(faultInSet p || decide (rdLe p 0 1 = 0xFF)) then some .badLength
      else if nodeInSet p && !nodeArgPresent d p then some .notPresent else none
    body := fun _ p d => .done .ok (faultRecords d (rdLe p 0 1) (rdLe p 1 1)) [] d }

def faultClearCmd : Cmd :=
  { op := 0x5002, writeBy := [.c], isWrite := fun _ => true
    check := fun _ p d =>
      if p.length ≠ 8 ∨ !faultInSet p then some .badLength
      else if nodeInSet p && !nodeArgPresent d p then some .notPresent else none
    body := fun x p d =>
      .wait .edge (defer d (.faultClear (rdLe p 0 1) (rdLe p 1 1) (rdLe p 4 4) x.fn x.door)) }

/-- A source record as read (Table FLT.5): INJECT_REMAIN is that of its checker. -/
def faultSrcImage (d : Dev) (id : Nat) : Nat :=
  setF (getRec d .faultSrc id) FSrc.injectRemain
    (if (srcInfo id).checker then injectRemain d id else 0)

/-- The limits of a source record that refer to its flags (R405). -/
def faultSrcDep (id : Nat) : Dep := fun f _ v =>
  let s := srcInfo id
  if f = FSrc.cls ∧ s.fixed ∧ v ≠ s.cls then some (s.cls, .dependent)
  else if f = FSrc.fence ∧ s.canFence = false ∧ v ≠ 0 then some (0, .dependent)
  else none

def faultClassCmd : Cmd :=
  { op := 0x5003, readBy := [.c, .p], writeBy := [.c], writeCls := .live, isWrite := recordIsWrite 2
    check := fun _ p d =>
      if p.length ≠ 4 ∧ p.length ≠ 20 then some .badLength
      else if rdLe p 0 2 ≠ 0 ∧ srcExists d (rdLe p 0 2) = false then some .notPresent else none
    body := fun _ p d =>
      let id := rdLe p 0 2
      let k := if id = 0 then RecKind.collector else .faultSrc
      let image := if id = 0 then getRec d .collector 0 else faultSrcImage d id
      if p.length = 4 then .done .ok (leBytes 16 image) [] d
      else
        let (v, es) := clampRecord k.fields (if id = 0 then noDep else faultSrcDep id) 0 (getRec d k id) (rdLe p 4 16)
        .done .ok (leBytes 16 (mergeRw k.fields image v)) es (defer d (.write k id v)) }

def faultInjectCmd : Cmd :=
  { op := 0x5004, writeBy := [.c], writeCls := .live, isWrite := fun _ => true
    check := fun _ p d =>
      if p.length ≠ 4 ∨ 1 < rdLe p 2 1 ∨ rdLe p 3 1 = 0 then some .badLength
      else if srcExists d (rdLe p 0 2) = false then some .notPresent else none
    body := fun _ p d =>
      let id := rdLe p 0 2
      if (srcInfo id).checker = false ∨ srcClass d id = 5 ∨ injectRemain d id ≠ 0 then .done .state [] [] d
      else
        let c := checkerOf id
        let d := setFld d .faultSrc c FSrc.injectRemain (rdLe p 3 1)
        let d := { d with flt := { d.flt with injectMode := Tab.set 0 d.flt.injectMode c (rdLe p 2 1) } }
        .done .ok (recBytes .faultSrc (faultSrcImage d id)) [] d }

/-- The sources that exist, in SOURCE_ID order. -/
def sourcesFrom (d : Dev) (first : Nat) : List Nat :=
  ((List.range 0x59).flatMap fun c => (List.range (srcInstances (c + 1))).map (srcId (c + 1))).filter fun id =>
    decide (first ≤ id) && srcExists d id

def countEntry (d : Dev) (id : Nat) : List Byte :=
  leBytes 2 id ++ leBytes 2 (getStat d .fault id 0) ++ leBytes 2 (getStat d .fault id 1) ++ leBytes 2 0
    ++ leBytes 8 (Tab.get 0 d.flt.lastBt id)

def faultCountsCmd : Cmd :=
  { op := 0x5005, readBy := [.c, .p], check := lens [8]
    body := fun _ p d =>
      let ids := (sourcesFrom d (rdLe p 0 2)).take (rdLe p 4 4)
      .done .ok (leBytes 4 ids.length ++ leBytes 4 0 ++ ids.flatMap (countEntry d)) [] d }

/-- A message with a bit of a payload byte set (rows that share FAULT_CLEAR name one mask bit each). -/
def withBit (off v : Nat) (m : Msg) : Msg := withByte off (v ||| (rdLe m.payload off 1)) m

def execFaultStatus (m : Msg) (s : State) : Host.Outcome State Fault Refusal := mailbox faultStatusCmd m s
def execFaultRecords (m : Msg) (s : State) : Host.Outcome State Fault Refusal := mailbox faultRecordsCmd m s
def execFaultClearRecord (m : Msg) (s : State) : Host.Outcome State Fault Refusal :=
  mailbox faultClearCmd (withBit 4 0x01 m) s
def execFaultClearDescendants (m : Msg) (s : State) : Host.Outcome State Fault Refusal :=
  mailbox faultClearCmd (withBit 4 0x02 m) s
def execFaultClearGrace (m : Msg) (s : State) : Host.Outcome State Fault Refusal :=
  mailbox faultClearCmd (withBit 4 0x04 m) s
def execFaultClearGravest (m : Msg) (s : State) : Host.Outcome State Fault Refusal :=
  mailbox faultClearCmd (withBit 4 0x08 m) s
def execFaultClearCounts (m : Msg) (s : State) : Host.Outcome State Fault Refusal :=
  mailbox faultClearCmd (withBit 4 0x10 m) s
def execFaultClass (m : Msg) (s : State) : Host.Outcome State Fault Refusal := mailbox faultClassCmd m s
def execFaultInject (m : Msg) (s : State) : Host.Outcome State Fault Refusal := mailbox faultInjectCmd m s
def execFaultCounts (m : Msg) (s : State) : Host.Outcome State Fault Refusal := mailbox faultCountsCmd m s

def execFaultRaise (r : RaiseIn) (s : State) : Host.Outcome State Fault Refusal := whenOn s fun d => faultRaise d r
def execEchoJudgement (s : State) : Host.Outcome State Fault Refusal := whenOn s judgeEchoes
def execGraceExpiry (s : State) : Host.Outcome State Fault Refusal := whenOn s graceExpiry
def execScrubPass (errs : List ScrubError) (s : State) : Host.Outcome State Fault Refusal :=
  whenOn s fun d => if fastRuns d then scrubPass d errs else d

end Sys2Proof.Machine
end

