-- ==== Sys2Proof/Machine/Keys.lean ====
section
/-! DEFINITION. Keys, life cycle and the public-key benches (16_keys_and_life_cycle.md): the life-cycle cells of OTP, their
roll-forward, security versions, the owner wrap key, the random source, the asymmetric key store and the benches. -/

namespace Sys2Proof.Machine

open Sys2Proof

/-! ### Life-cycle cells (R377, R378) -/

def setOtp (d : Dev) (o : Otp) : Dev := { d with key := { d.key with otp := o } }

/-- An intent block of transition k with its payload copy. -/
def intentImage (k : Nat) (copy : List Byte) : List Byte :=
  let b := leBytes 4 k ++ slice copy 0 120
  b ++ leBytes 4 (crc32c b)

/-- INTENT_A(k), or INTENT_B(k). -/
def intentOf (o : Otp) (k : Nat) (second : Bool) : List Byte := Tab.get [] o.intents (2 * k + b2n second)

def setIntent (o : Otp) (k : Nat) (second : Bool) (b : List Byte) : Otp :=
  { o with intents := Tab.set [] o.intents (2 * k + b2n second) b }

def intentBlank (b : List Byte) : Bool := b.all fun x => decide (x = 0)

def intentGood (k : Nat) (b : List Byte) : Bool :=
  decide (b.length = 128) && decide (rdLe b 0 1 = k) && decide (rdLe b 124 4 = crc32c (b.take 124))

/-- Non-blank, and failing its CRC or TARGET (R378). -/
def intentSpent (o : Otp) (k : Nat) (second : Bool) : Bool :=
  !intentBlank (intentOf o k second) && !intentGood k (intentOf o k second)

/-- The payload copy of the intent block in force. -/
def validIntent (o : Otp) (k : Nat) : Option (List Byte) :=
  if intentGood k (intentOf o k false) then some (slice (intentOf o k false) 4 120)
  else if intentGood k (intentOf o k true) then some (slice (intentOf o k true) 4 120)
  else none

/-- The block the next advance uses (R378): A while it is blank, then B; none when both are spent. -/
def intentFree (o : Otp) (k : Nat) : Option Bool :=
  if intentBlank (intentOf o k false) then some false else if intentBlank (intentOf o k true) then some true else none

def stateBits (o : Otp) (k : Nat) : Nat := popCount 8 (o.stateWord / 2 ^ (8 * (k - 1)) % 256)

def setStateByte (o : Otp) (k v : Nat) : Otp := { o with stateWord := o.stateWord ||| (v % 256 * 2 ^ (8 * (k - 1))) }

/-- The life-cycle state OTP holds: a state byte counts from five ones (R379). -/
def otpState (o : Otp) : Nat :=
  if stateBits o 1 < 5 then 0 else if stateBits o 2 < 5 then 1 else if stateBits o 3 < 5 then 2 else 3

/-- The payload cells of transitions 1 and 2 as a payload copy shows them. -/
def payloadCells (o : Otp) : Nat → List Byte
  | 1 => leBytes 1 o.primaryEp ++ leBytes 1 o.standbyEp ++ leBytes 1 (b2n o.standbyValid) ++ leBytes 5 0
      ++ leBytes 72 o.pinMap ++ leBytes 32 o.drs
  | 2 => leBytes 1 (b2n o.obsDeployedEn)
  | _ => []

def cellsAsNumber (o : Otp) (k : Nat) : Nat := ofLe (payloadCells o k)

/-- All ones over some bytes of a block, under a mask. -/
def fillCopy (b : List Byte) (m : Nat) : List Byte :=
  overwrite b 84 (leBytes 32 (rdLe b 84 32 ||| (m % 2 ^ 256)))

/-- The payload cells of transition k programmed toward the target image, as far as a mask lets (R377). -/
def programCells (o : Otp) (k : Nat) (copy : List Byte) (m : Nat) : Otp :=
  let old := cellsAsNumber o k
  let b := leBytes 112 (old ||| (ofLe (slice copy 0 112) &&& m))
  match k with
  | 1 => { o with primaryEp := rdLe b 0 1, standbyEp := rdLe b 1 1, standbyValid := bit (rdLe b 2 1) 0
                  pinMap := rdLe b 8 72, drs := rdLe b 80 32 }
  | 2 => { o with obsDeployedEn := bit (rdLe b 0 1) 0 }
  | _ =>
    let o := { o with drs := o.drs ||| (m % 2 ^ 256), wrapKey := o.wrapKey ||| (m % 2 ^ 256) }
    let o := setIntent o 1 false (fillCopy (slice (intentOf o 1 false) 0 128) m)
    setIntent o 1 true (fillCopy (slice (intentOf o 1 true) 0 128) m)

/-- Every cell of a payload. -/
def everyCell : Nat := 2 ^ 896 - 1

/-- A slot zeroized; a generation under way for it goes on. -/
def destroySlot (d : Dev) (s : Nat) : Dev :=
  setFld (emptySlot d s) .asymSlot s Slot.generating (fld d .asymSlot s Slot.generating)

/-- Every asymmetric and NTS key gone (R390). -/
def clearKeyStore (d : Dev) : Dev :=
  let d := (listed d .keyRing).foldl (fun d e => loseNtsKey d e.1) d
  let d := (List.range 512).foldl destroySlot d
  { d with key := { d.key with nts := [], asym := [] } }

/-- Transition k complete: its state byte, and what its completion does. -/
def finishTransition (d : Dev) (k : Nat) : Dev :=
  let d := setFld (setOtp d (setStateByte d.key.otp k 255)) .lifeCycle 0 Lc.lcBt d.bt
  if k = 3 then clearKeyStore (setOtp d { d.key.otp with wrapState := 2 }) else d

/-- One turn of the boot ROM's loop (R379): 0 going on, 1 stopped, 2 fatal. Whether what was programmed reads back, and
which cells took where it does not, are free. -/
def rollStep (x : Dev × Nat) (k : Nat) : Dev × Nat :=
  let (d, st) := x
  let o := d.key.otp
  let n := stateBits o k
  if st ≠ 0 then x
  else if 5 ≤ n then (setOtp d (setStateByte o k 255), 0)
  else match validIntent o k with
    | none => (d, if n = 0 then 1 else 2)
    | some copy =>
      if 1 < k ∧ stateBits o (k - 1) < 5 then (d, 2)
      else if k ≠ 3 ∧ cellsAsNumber o k ||| ofLe (slice copy 0 112) ≠ ofLe (slice copy 0 112) then (d, 2)
      else
        let (differs, d) := drawUpTo d 1
        if differs = 1 then
          let (m, d) := draw d
          let (n, d) := draw d
          (setOtp d (setStateByte (programCells o k copy m) k n), 2)
        else
          let d := finishTransition (setOtp d (programCells o k copy everyCell)) k
          (raise (setFld d .lifeCycle 0 Lc.rolledForward 1) (srcId 0x0C 0), 0)

/-- The life cycle rolled forward at a boot: the device, and whether it may start its firmware. -/
def rollForward (d : Dev) : Dev × Bool :=
  let (d, st) := [1, 2, 3].foldl rollStep (setFld d .lifeCycle 0 Lc.rolledForward 0, 0)
  let d := { d with key := { d.key with lifeCycle := otpState d.key.otp } }
  if st = 2 then (handleRaise d ⟨srcId 0x0B 0, 0, false⟩, false) else (d, true)

/-! ### Life-cycle commands (R375, R376, R381, R402) -/

def fwSvnMin (d : Dev) : Nat := popCount 64 d.key.otp.fwSvnTherm

/-- The life-cycle record as read from OTP (Table SEC.10). -/
def lcImage (d : Dev) : Nat :=
  let o := d.key.otp
  let spent (b : Bool) : Nat := b2n (intentSpent o 1 b) + 2 * b2n (intentSpent o 2 b) + 4 * b2n (intentSpent o 3 b)
  let st := otpState o
  let r := setF (setF (setF (getRec d .lifeCycle 0) Lc.lifeCycle st) Lc.intentSpent (spent false)) Lc.intentBSpent (spent true)
  let r := setF (setF (setF r Lc.obsDeployedEn (b2n o.obsDeployedEn)) Lc.primaryEp o.primaryEp) Lc.standbyEp o.standbyEp
  let r := setF (setF r Lc.standbyValid (b2n o.standbyValid)) Lc.drsPresent (b2n (decide (st = 1) || decide (st = 2)))
  setF (setF r Lc.fwSvnMin (fwSvnMin d)) Lc.jigSvnMin (jigSvnMin d)

def lcBytes (d : Dev) : List Byte := recBytes .lifeCycle (lcImage d)

/-- A life-cycle state governs from an edge; DEPLOYED and RETIRED leave the scan port BYPASS and IDCODE (R376, R401). -/
def applyLifeCycle (d : Dev) (st : Nat) : Dev :=
  let d := { d with key := { d.key with lifeCycle := st } }
  if 2 ≤ st ∧ d.key.jtag ≠ .idcode then { d with key := { d.key with jtag := .bypass } } else d

def lcStatusCmd : Cmd :=
  { op := 0x4100, readBy := [.c, .p], check := lens [0], body := fun _ _ d => .done .ok (lcBytes d) [] d }

/-- CONFIRM of Table SEC.1. -/
def lcConfirm (k : Nat) : List Byte :=
  if k = 1 then [0x50, 0x52, 0x4F, 0x56] else if k = 2 then [0x44, 0x45, 0x50, 0x4C] else [0x52, 0x45, 0x54, 0x49]

def lcLength (k : Nat) : Nat := if k = 1 then 88 else if k = 2 then 16 else 8

def lcCheck (_ : Ctx) (p : List Byte) (_ : Dev) : Option Status :=
  let k := rdLe p 0 1
  if k < 1 ∨ 3 < k ∨ p.length ≠ lcLength k then some .badLength
  else if k = 1 ∧ (3 < rdLe p 8 1 ∨ 3 < rdLe p 9 1) then some .badLength
  else none

def setOtpBusy (d : Dev) (b : Bool) : Dev := { d with key := { d.key with otpBusy := b } }

/-- R375, checks 2 to 6, then the programming under R378, with DRS drawn for PROVISIONED. While the random source
withholds its output no DRS can be drawn. -/
def lcBody (_ : Ctx) (p : List Byte) (d : Dev) : Reply :=
  let k := rdLe p 0 1
  if d.key.otpBusy ∨ k ≠ otpState d.key.otp + 1 then .done .state [] [] d
  else if slice p 4 4 ≠ lcConfirm k then .done .denied [] [] d
  else if k = 1 ∧ rdLe p 10 1 = 1 ∧ rdLe p 8 1 = rdLe p 9 1 then .done .state [] [] d
  else if k = 1 ∧ d.key.rngWithheld then .done .state [] [] d
  else match intentFree d.key.otp k with
    | none => .done .state [] [] d
    | some second =>
      let (drs, d) := draw d
      let copy := if k = 1 then slice p 8 80 ++ leBytes 32 drs else if k = 2 then slice p 8 8 else []
      .wait (.lcAdvance k copy second) (setOtpBusy d true)

def lcAdvanceCmd : Cmd :=
  { op := 0x4101, writeBy := [.c], isWrite := fun _ => true, writeCls := .live, check := lcCheck, body := lcBody }

/-- An LC_ADVANCE whose programming has finished; the read-back of its intent block may differ (R378). -/
def lcAdvanceDone (d : Dev) (f : Fn) (door k : Nat) (copy : List Byte) (second ok : Bool) : Dev :=
  let d := setOtpBusy d false
  if ok then
    let o := programCells (setIntent d.key.otp k second (intentImage k copy)) k copy everyCell
    let d := defer (finishTransition (setOtp d o) k) (.lifeCycle k)
    complete d f door .ok (lcBytes d) []
  else
    complete (setOtp d (setIntent d.key.otp k second [0xFF])) f door .internal [] []

/-- A transition interrupted: how far it got is free. -/
def interruptAdvance (d : Dev) (k : Nat) (copy : List Byte) (second : Bool) : Dev :=
  let (stage, d) := drawUpTo d 3
  let (m, d) := draw d
  let o := d.key.otp
  let o := if stage = 0 then o
    else if stage = 1 then setIntent o k second [0xFF]
    else
      let o := setIntent o k second (intentImage k copy)
      if stage = 2 then programCells o k copy m else setStateByte (programCells o k copy everyCell) k m
  setOtp d o

/-- n ones from the lowest bit. -/
def therm (n : Nat) : Nat := 2 ^ n - 1

def raiseTherm (cur n : Nat) : Nat := if popCount 64 cur < n then therm n else cur

def svnBody (_ : Ctx) (p : List Byte) (d : Dev) : Reply :=
  let (f, j) := (rdLe p 0 1, rdLe p 1 1)
  if 64 < f ∨ 64 < j ∨ d.pwr.running.svn < f ∨ d.arr.active.svn < j ∨ d.key.otpBusy then .done .state [] [] d
  else .wait (.svnRaise f j) (setOtpBusy d true)

def lcSvnRaiseCmd : Cmd :=
  { op := 0x4102, writeBy := [.c], isWrite := fun _ => true, writeCls := .svc, check := lens [4], body := svnBody }

def raiseSvn (o : Otp) (f j : Nat) : Otp :=
  { o with fwSvnTherm := raiseTherm o.fwSvnTherm f, jigSvnTherm := raiseTherm o.jigSvnTherm j }

def svnRaiseDone (d : Dev) (f : Fn) (door fw jig : Nat) : Dev :=
  let d := setOtp (setOtpBusy d false) (raiseSvn d.key.otp fw jig)
  complete d f door .ok (lcBytes d) []

/-- Interrupted, each count lies between the old and the new value. -/
def interruptSvn (d : Dev) (fw jig : Nat) : Dev :=
  let (a, d) := drawUpTo d fw
  let (b, d) := drawUpTo d jig
  setOtp d (raiseSvn d.key.otp a b)

/-! ### Owner wrap key (R391, R392) -/

def wrapBytes (d : Dev) : List Byte :=
  let o := d.key.otp
  let kcv := sha256 ([0x41, 0x58, 0x4B, 0x43, 0x56] ++ beBytes 32 o.wrapKey)
  leBytes 2 o.wrapId ++ leBytes 1 o.wrapState ++ leBytes 1 o.wrapForm ++ slice kcv 0 3 ++ leBytes 1 0

/-- An installation is being programmed. -/
def wrapInstalling (d : Dev) : Bool :=
  d.mbx.doors.any fun e => match e.2.serving with | some (_, .wrapInstall ..) => true | _ => false

def wrapInstallCmd : Cmd :=
  { op := 0x4020, writeBy := [.c], isWrite := fun _ => true, writeCls := .prov
    check := fun _ p _ => if p.length = 36 ∧ rdLe p 2 1 ≤ 1 then none else some .badLength
    body := fun _ p d =>
      let id := rdLe p 0 2
      if id = 0 ∨ id = 0xFFFF then .done .denied [] [] d
      else if d.key.otp.wrapState ≠ 0 ∨ wrapInstalling d then .done .state [] [] d
      else if rdLe p 2 1 = 0 then .wait (.wrapInstall id 0 (rdBe p 4 32)) d
      else if d.key.rngWithheld then .done .state [] [] d
      else
        let (k, d) := draw d
        .wait (.wrapInstall id 1 (k % 2 ^ 256)) d }

def wrapInstallDone (d : Dev) (f : Fn) (door id form key : Nat) : Dev :=
  let d := setOtp d { d.key.otp with wrapId := id, wrapForm := form, wrapKey := key, wrapState := 1 }
  complete d f door .ok (wrapBytes d) []

/-- Interrupted before it completes: no key, or cells partly programmed, DAMAGED. -/
def interruptWrap (d : Dev) (id form key : Nat) : Dev :=
  let (n, d) := drawUpTo d 1
  let (m, d) := draw d
  if n = 0 then d
  else setOtp d { d.key.otp with wrapId := id &&& (m / 2 ^ 256), wrapForm := form &&& (m / 2 ^ 272), wrapKey := key &&& m
                                 wrapState := 3 }

def wrapStatusCmd : Cmd :=
  { op := 0x4021, readBy := [.c, .p], check := lens [0], body := fun _ _ d => .done .ok (wrapBytes d) [] d }

/-! ### Random source (R385) -/

def rngFail (d : Dev) : Dev :=
  if fastRuns d then raise { d with key := { d.key with rngWithheld := true } } (srcId 0x0A 0) else d

def rngRecovery (d : Dev) : Dev := if fastRuns d then { d with key := { d.key with rngWithheld := false } } else d

/-! ### Asymmetric slots (R387–R389) -/

/-- Bytes of a public key by kind. -/
def publicLen (kind : Nat) : Nat :=
  match kind with | 1 => 65 | 2 => 97 | 3 => 32 | 4 => 260 | 5 => 388 | _ => 516

/-- The public key in the encoding of its kind (Table SEC.5). -/
def publicKey (kind secret : Nat) : List Byte :=
  match kind with
  | 1 => 0x04 :: beBytes 64 (p256.publicOf secret)
  | 2 => 0x04 :: beBytes 96 (p384.publicOf secret)
  | 3 => edPublic (beBytes 32 secret)
  | _ => beBytes (publicLen kind - 4) (Config.rsaModulus kind secret) ++ beBytes 4 65537

/-- The private key of a kind from some bytes: a scalar for ECDSA, a seed for Ed25519. -/
def privateKey (kind : Nat) (bs : List Byte) : Nat :=
  let v := Config.privateKey kind bs
  match kind with
  | 1 => 1 + v % (p256.n - 1)
  | 2 => 1 + v % (p384.n - 1)
  | 3 => v % 2 ^ 256
  | _ => v

/-- The bytes R388 makes a key of: random ones, or those derived from DRS, the kind and the label. -/
def keySeed (d : Dev) (drs kind : Nat) (derived : Bool) (label : List Byte) : List Byte × Dev :=
  if derived then (counterKdf (leBytes 32 drs) Config.kdfLabel (beBytes 1 kind ++ label) 64, d)
  else
    let (v, d) := draw d
    (beBytes 64 v, d)

def slotKind (d : Dev) (s : Nat) : Nat := fld d .asymSlot s Slot.kind

def slotSecret (d : Dev) (s : Nat) : Nat := Tab.get 0 d.key.asym s

def slotBytes (d : Dev) (s : Nat) : List Byte := recBytes .asymSlot (getRec d .asymSlot s)

/-- The KEY_PUBLIC response. -/
def publicBytes (d : Dev) (s : Nat) : List Byte :=
  let k := slotKind d s
  padTo 4 (leBytes 1 k ++ leBytes 3 0 ++ leBytes 4 (publicLen k) ++ publicKey k (slotSecret d s))

def slotIdx (p : List Byte) : Bool := decide (rdLe p 0 2 < 512)

/-- The tenant a slot is assigned to. -/
def slotTenant (d : Dev) (s : Nat) : Option Nat :=
  if flag d .asymSlot s Slot.assigned then some (fld d .asymSlot s Slot.tenant) else none

def keySlotsCmd : Cmd :=
  { op := 0x4000, readBy := [.c, .p]
    check := fun _ p _ => if p.length = 4 ∧ (slotIdx p ∨ rdLe p 0 2 = 0xFFFF) then none else some .badLength
    body := fun _ p d =>
      let ss := if rdLe p 0 2 = 0xFFFF then List.range 512 else [rdLe p 0 2]
      .done .ok (ss.flatMap (slotBytes d)) [] (ss.foldl (fun d s => readClear d .asymSlot s) d) }

def keyPublicCmd : Cmd :=
  { op := 0x4002, readBy := [.c, .p]
    admits := fun x p d b => b || (match slotTenant d (rdLe p 0 2) with | some t => x.holds d (some t) .o | none => false)
    check := fun _ p _ => if p.length = 4 ∧ slotIdx p then none else some .badLength
    body := fun _ p d =>
      if slotKind d (rdLe p 0 2) = 0 then .done .state [] [] d else .done .ok (publicBytes d (rdLe p 0 2)) [] d }

def keyAssignCmd : Cmd :=
  { op := 0x4003, writeBy := [.c], isWrite := fun _ => true, writeCls := .svc
    check := fun _ p _ =>
      if p.length = 4 ∧ slotIdx p ∧ (rdLe p 2 2 < 4096 ∨ rdLe p 2 2 = 0xFFFF) then none else some .badLength
    body := fun _ p d =>
      let (s, t) := (rdLe p 0 2, rdLe p 2 2)
      if slotKind d s = 0 ∨ (t ≠ 0xFFFF ∧ tenantBound d t = false) then .done .state [] [] d
      else
        let none_ := decide (t = 0xFFFF)
        let d := setFld (setFld d .asymSlot s Slot.assigned (b2n (!none_))) .asymSlot s Slot.tenant (if none_ then 0 else t)
        .done .ok (slotBytes d s) [] d }

def keyDestroyCmd : Cmd :=
  { op := 0x4004, writeBy := [.c], isWrite := fun _ => true
    check := fun _ p _ => if p.length = 4 ∧ slotIdx p then none else some .badLength
    body := fun _ p d =>
      let s := rdLe p 0 2
      if flag d .asymSlot s Slot.assigned then .done .state [] [] d
      else .done .ok (slotBytes (destroySlot d s) s) [] (destroySlot d s) }

/-! ### Benches (R393–R397) -/

def isRsa (kind : Nat) : Bool := decide (4 ≤ kind)

/-- Table SEC.7, in µs. -/
def signUs (kind : Nat) : Nat :=
  match kind with | 1 => 180 | 2 => 420 | 3 => 150 | 4 => 2400 | 5 => 7600 | _ => 17500

def generateUs (kind : Nat) : Nat :=
  match kind with | 1 => 200 | 2 => 460 | 3 => 130 | 4 => 600000 | 5 => 2200000 | _ => 6000000

def runningOn (d : Dev) (b : Nat) : Option (BenchReq × Nat) := Tab.get none d.key.running b

def setRunning (d : Dev) (b : Nat) (x : Option (BenchReq × Nat)) : Dev :=
  { d with key := { d.key with running := Tab.set none d.key.running b x } }

def isRsaGen (r : BenchReq) : Bool :=
  match r.op with | .generate _ kind _ _ => isRsa kind | _ => false

/-- An RSA generation runs on some bench. -/
def rsaGenRuns (d : Dev) : Bool := (List.range 4).any fun b => (runningOn d b).any fun x => isRsaGen x.1

/-- A requester's head request may start. -/
def headReady (d : Dev) (q : Nat) : Option BenchReq :=
  match d.key.benchQueue.find? fun r => decide (r.requester = q) with
  | some r => if isRsaGen r && rsaGenRuns d then none else some r
  | none => none

/-- The requester served next (R396): the first ready one whose key follows the key served last, wrapping. -/
def nextRequester (d : Dev) : Option BenchReq :=
  let ready := (d.key.benchQueue.map (·.requester)).dedup.filter fun q => (headReady d q).isSome
  let least (l : List Nat) : Option Nat := l.foldl (fun b q => match b with | some x => some (min x q) | none => some q) none
  match least (ready.filter fun q => d.key.lastServed < q), least ready with
  | some q, _ => headReady d q
  | none, some q => headReady d q
  | none, none => none

/-- What a bench takes from the key store as an operation starts (R386). -/
def benchKey (d : Dev) (r : BenchReq) : Option Nat :=
  match r.op with
  | .sign s .. => if slotKind d s = r.kind then some (slotSecret d s) else none
  | .generate .. => some d.key.otp.drs

/-- A bench takes the next request. -/
def startBench (d : Dev) (b : Nat) : Dev :=
  if (runningOn d b).isSome then d
  else match nextRequester d with
    | none => d
    | some r =>
      setRunning { d with key := { d.key with benchQueue := d.key.benchQueue.erase r, lastServed := r.requester } } b
        (some ({ r with secret := benchKey d r }, d.bt))

/-- Free benches taken in bench order. -/
def startBenches (d : Dev) : Dev := (List.range 4).foldl startBench d

/-- A request joins the bench queue. -/
def enqueueBench (d : Dev) (x : Ctx) (op : BenchOp) (kind : Nat) : Dev :=
  startBenches { d with key := { d.key with benchQueue :=
    d.key.benchQueue ++ [{ requester := x.requester, fn := x.fn, door := x.door, op := op, kind := kind, secret := none, live := true }] } }

def keyGenerateCmd : Cmd :=
  { op := 0x4001, writeBy := [.c], isWrite := fun _ => true, writeCls := .svc
    check := fun _ p _ =>
      if p.length = 40 ∧ slotIdx p ∧ 1 ≤ rdLe p 2 1 ∧ rdLe p 2 1 ≤ 6 ∧ rdLe p 3 1 ≤ 1 then none else some .badLength
    body := fun x p d =>
      let (s, derived) := (rdLe p 0 2, decide (rdLe p 3 1 = 1))
      if slotKind d s ≠ 0 ∨ flag d .asymSlot s Slot.generating
          ∨ (derived ∧ d.key.lifeCycle ≠ 1 ∧ d.key.lifeCycle ≠ 2) then .done .state [] [] d
      else
        .wait .bench (enqueueBench (setFld d .asymSlot s Slot.generating 1) x
          (.generate s (rdLe p 2 1) derived (slice p 8 32)) (rdLe p 2 1)) }

/-- The longest input R395 admits. -/
def signMax : Nat := 4064 * 258 - 16

/-- A requester's right to a slot (R395). -/
def signRight (d : Dev) (x : Ctx) (s : Nat) : Bool :=
  x.holds d none .c ||
    (match slotTenant d s with
     | some t =>
       flag d .nts t Nts.keSignEn && decide (fld d .nts t Nts.keSignSlot = s)
         && (x.holds d (some t) .o || (decide (x.vfTenant = some t) && flag d .nts t Nts.signVfEn))
     | none => false)

def pkeSignCmd : Cmd :=
  { op := 0x4010, writeBy := [.c, .o, .v], isWrite := fun _ => true, writeCls := .svc
    check := fun x p d =>
      let n := rdLe p 8 4
      if p.length ≠ 16 + n ∨ signMax < n ∨ !slotIdx p then some .badLength
      else if !signRight d x (rdLe p 0 2) then some .denied
      else none
    body := fun x p d =>
      let s := rdLe p 0 2
      if slotKind d s = 0 ∨ flag d .asymSlot s Slot.generating then .done .state [] [] d
      else .wait .bench (enqueueBench d x (.sign s (rdLe p 2 2) (rdLe p 4 1) (p.drop 16)) (slotKind d s)) }

/-- The hash length of a scheme of Table NTS.7 that fits a kind; 0 for Ed25519. -/
def schemeHash (kind scheme : Nat) : Option Nat :=
  if kind = 1 ∧ scheme = 0x0403 then some 32
  else if kind = 2 ∧ scheme = 0x0503 then some 48
  else if kind = 3 ∧ scheme = 0x0807 then some 0
  else if isRsa kind ∧ scheme = 0x0804 then some 32
  else if isRsa kind ∧ scheme = 0x0805 then some 48
  else if isRsa kind ∧ scheme = 0x0806 then some 64
  else none

/-- The operands of a sign are ones the bench accepts (R395). -/
def signFits (kind scheme inputKind : Nat) (input : List Byte) : Bool :=
  match schemeHash kind scheme with
  | none => false
  | some h =>
    if inputKind = 0 then decide (input.length ≤ 1024)
    else decide (inputKind = 1) && decide (h ≠ 0) && decide (input.length = h)

/-- What is signed (Table NTS.7): the digest given, or the hash of the message; Ed25519 signs the message. -/
def signedBytes (kind hash inputKind : Nat) (input : List Byte) : List Byte :=
  if inputKind = 1 ∨ kind = 3 then input
  else if hash = 32 then sha256 input else if hash = 48 then sha384 input else sha512 input

/-- The signature in the encoding of its kind (R393, R395), where the random value gives one. -/
def signatureBytes (kind hash secret : Nat) (msg : List Byte) (rnd : Nat) : Option (List Byte) :=
  match kind with
  | 1 => (p256.sign secret msg (beBytes 32 rnd)).map derSignature
  | 2 => (p384.sign secret msg (beBytes 32 rnd)).map derSignature
  | 3 => some (edSign (beBytes 32 secret) msg)
  | _ => some (slice (Config.rsaPss hash secret msg rnd) 0 (publicLen kind - 4))

/-- An outcome counted in a slot's record, while the slot holds a key. -/
def countSlot (d : Dev) (s : Nat) (f : Fld) : Dev := if slotKind d s = 0 then d else bumpFld d .asymSlot s f

/-- PKE_FAIL of a sign or a generation. -/
def benchFails (d : Dev) (r : BenchReq) (s : Nat) : Dev :=
  let d := countSlot d s Slot.signFails
  if r.live then complete d r.fn r.door .pkeFail [] [] else d

/-- A sign finishes. A kind other than Ed25519 needs random values. -/
def signDone (d : Dev) (r : BenchReq) (s scheme inputKind : Nat) (input : List Byte) (ok : Bool) : Dev :=
  let kind := r.kind
  let starved := decide (kind ≠ 3) && d.key.rngWithheld
  match r.secret with
  | none => benchFails d r s
  | some secret =>
    if !ok ∨ starved ∨ !signFits kind scheme inputKind input then benchFails d r s
    else
      let (rnd, d) := draw d
      let hash := (schemeHash kind scheme).getD 0
      match signatureBytes kind hash secret (signedBytes kind hash inputKind input) rnd with
      | none => benchFails d r s
      | some sig =>
        let d := countSlot d s Slot.signs
        if r.live then complete d r.fn r.door .ok (padTo 4 (leBytes 2 sig.length ++ leBytes 6 0 ++ sig)) [] else d

/-- A generation finishes: the key reaches its slot unless the processor has stopped since. In RETIRED no DERIVED key can be
produced (R390): PKE_FAIL. -/
def generateDone (d : Dev) (r : BenchReq) (s kind : Nat) (derived : Bool) (label : List Byte) (ok : Bool) : Dev :=
  if !r.live then d
  else
    let d := setFld d .asymSlot s Slot.generating 0
    if !ok ∨ (!derived ∧ d.key.rngWithheld) ∨ (derived ∧ otpState d.key.otp = 3) then benchFails d r s
    else
      let (seed, d) := keySeed d (r.secret.getD 0) kind derived label
      let tag := if derived then ofLe ((sha256 label).take 8) else 0
      let d := { d with key := { d.key with asym := Tab.set 0 d.key.asym s (privateKey kind seed) } }
      let d := setFld (setFld d .asymSlot s Slot.kind kind) .asymSlot s Slot.origin (b2n derived)
      let d := setFld (setFld d .asymSlot s Slot.genBt d.bt) .asymSlot s Slot.labelTag tag
      complete d r.fn r.door .ok (slotBytes d s ++ publicBytes d s) []

/-- The time of a request's operation, in µs (Table SEC.7). -/
def benchUs (r : BenchReq) : Nat :=
  match r.op with | .sign .. => signUs r.kind | .generate .. => generateUs r.kind

/-- The ns a bench still needs for what it runs since a base tick. -/
def benchLeft (d : Dev) (r : BenchReq) (from_ : Nat) : Nat := benchUs r * 1000 - (d.bt - from_) * btNs d

/-- A bench finishes its operation once its time is over (R394), loads the booted image's microcode, and takes the next
request (R384, R396). -/
def benchComplete (d : Dev) (b : Nat) (res : BenchResult) : Dev :=
  match runningOn d b with
  | none => d
  | some (r, from_) =>
    if benchLeft d r from_ ≠ 0 then d
    else
    let d := bumpFld (setRunning d b none) .bench b Bench.ops
    let d := setFld d .bench b Bench.ucodeVersion d.pwr.running.ucodeVersion
    let d := if res = .unverified then raise d (srcId 0x0D b) else d
    let ok := decide (res = .done)
    let d := match r.op with
      | .sign s scheme inputKind input => signDone d r s scheme inputKind input ok
      | .generate s kind derived label => generateDone d r s kind derived label ok
    if fwRuns d then startBenches d else d

/-- A bench's status record as read (Table SEC.8). -/
def benchImage (d : Dev) (b : Nat) : Nat :=
  let r := setF (getRec d .bench b) Bench.queued (min 8191 d.key.benchQueue.length)
  match runningOn d b with
  | none => r
  | some (q, from_) =>
    let st := match q.op with | .sign .. => 1 | .generate .. => 2
    let r := setF (setF (setF r Bench.bstate st) Bench.kind q.kind) Bench.requester q.requester
    setF r Bench.remainUs (roundFree ((benchLeft d q from_ : Rat) / 1000)).toNat

def pkeStatusCmd : Cmd :=
  { op := 0x4011, readBy := [.c, .p], check := lens [0]
    body := fun _ _ d =>
      .done .ok ((List.range 4).flatMap fun b => recBytes .bench (benchImage d b)) []
        ((List.range 4).foldl (fun d b => readClear d .bench b) d) }

/-- The processor stops: waiting requests are gone, running operations go on with their results discarded, a slot whose
key has not arrived is EMPTY (R396). -/
def benchStop (d : Dev) : Dev :=
  let d := { d with key := { d.key with
      benchQueue := [], running := d.key.running.map fun e => (e.1, e.2.map fun x => ({ x.1 with live := false }, x.2)) } }
  (listed d .asymSlot).foldl (fun d e => setFld d .asymSlot e.1 Slot.generating 0) d

/-- The microcode of the booted image is loaded into the benches that run nothing (R384). -/
def loadMicrocode (d : Dev) : Dev :=
  (List.range 4).foldl (fun d b =>
    if (runningOn d b).isSome then d else setFld d .bench b Bench.ucodeVersion d.pwr.running.ucodeVersion) d

def execKeySlots (m : Msg) (s : State) : Host.Outcome State Fault Refusal := mailbox keySlotsCmd m s
def execKeyGenerate (m : Msg) (s : State) : Host.Outcome State Fault Refusal := mailbox keyGenerateCmd m s
def execKeyPublic (m : Msg) (s : State) : Host.Outcome State Fault Refusal := mailbox keyPublicCmd m s
def execKeyAssign (m : Msg) (s : State) : Host.Outcome State Fault Refusal := mailbox keyAssignCmd m s
def execKeyDestroy (m : Msg) (s : State) : Host.Outcome State Fault Refusal := mailbox keyDestroyCmd m s
def execPkeSign (m : Msg) (s : State) : Host.Outcome State Fault Refusal := mailbox pkeSignCmd m s
def execPkeStatus (m : Msg) (s : State) : Host.Outcome State Fault Refusal := mailbox pkeStatusCmd m s
def execWrapKeyInstall (m : Msg) (s : State) : Host.Outcome State Fault Refusal := mailbox wrapInstallCmd m s
def execWrapKeyStatus (m : Msg) (s : State) : Host.Outcome State Fault Refusal := mailbox wrapStatusCmd m s
def execLcStatus (m : Msg) (s : State) : Host.Outcome State Fault Refusal := mailbox lcStatusCmd m s
def execLcAdvance (m : Msg) (s : State) : Host.Outcome State Fault Refusal := mailbox lcAdvanceCmd m s
def execLcSvnRaise (m : Msg) (s : State) : Host.Outcome State Fault Refusal := mailbox lcSvnRaiseCmd m s

def execRngHealthFail (s : State) : Host.Outcome State Fault Refusal := whenOn s rngFail
def execRngRecovery (s : State) : Host.Outcome State Fault Refusal := whenOn s rngRecovery
def execBenchOperationComplete (bench : Fin 4) (r : BenchResult) (s : State) : Host.Outcome State Fault Refusal :=
  whenOn s fun d => if fastRuns d then benchComplete d bench.val r else d

end Sys2Proof.Machine
end

