-- ==== Sys2Proof/Machine/Firmware.lean ====
section
/-! DEFINITION. The DEVICE, TAG and FIRMWARE commands (15_command_reference.md): device information, the declared
oscillator, the user tag, the firmware store with its image checks, and the choice of the boot slot. -/

namespace Sys2Proof.Machine

open Sys2Proof

/-! ### Device commands (R358, R359) -/

def laneMask (d : Dev) : Nat := 2 ^ laneCount d.variant - 1

/-- The device information record (Table CMD.4). -/
def deviceInfo (d : Dev) : Nat :=
  let p (v lsb : Nat) : Nat := v * 2 ^ lsb
  p 0x8800 240 + p d.variant.code 232 + p (otpState d.key.otp) 230 + p (controllerEp d) 228
    + p (d.pwr.running.version % 2 ^ 32) 192 + p (d.pwr.running.tableAbi % 2 ^ 16) 176 + p (laneMask d) 160 + p 0xF 156
    + p 0xF 152 + p (2 ^ antennaCount d.variant - 1) 150 + p (2 ^ n2Count d.variant - 1) 146 + p (aeadCount d.variant) 140
    + p (d.bt % 2 ^ 64) 64 + d.pwr.readyBt % 2 ^ 64

def deviceInfoCmd : Cmd :=
  { op := 0x0100, readBy := [.c, .p], check := lens [0], body := fun _ _ d => .done .ok (leBytes 32 (deviceInfo d)) [] d }

/-- A privileged timescale is set (R39). -/
def anySet (d : Dev) : Bool := d.ts.tsa.set || d.ts.tsb.set || d.ts.tsh.set

def deviceDep (d : Dev) : Dep := fun f _ v =>
  if f = DRec.oscFreq ∧ anySet d ∧ v ≠ fld d .device 0 DRec.oscFreq then some (fld d .device 0 DRec.oscFreq, .dependent)
  else none

/-- DEVICE_CONFIG (R359): a write that was clamped because a timescale is set has no effect. -/
def deviceConfigCmd : Cmd :=
  RecSpec.cmd { kind := .device, ib := 0, image := plainImage .device, dep := fun d _ _ => deviceDep d
                takes := fun d req => !(anySet d && decide (getF req DRec.oscFreq ≠ fld d .device 0 DRec.oscFreq))
                apply := fun d _ v => defer d (.osc (getF v DRec.oscFreq)) } 0x0101 [.c, .p] [.c]

/-! ### User tag (R360–R362) -/

/-- The generation the next TAG_WRITE uses: one more than the highest non-empty one. -/
def tagNext (d : Dev) : Option Nat :=
  match (List.range 16).reverse.find? fun k => decide (tagState d k ≠ 0) with
  | none => some 0
  | some k => if k < 15 then some (k + 1) else none

/-- The TAG_READ response of generation k (Table CMD.7). -/
def tagPayload (d : Dev) (k : Nat) : List Byte := leBytes 1 k ++ leBytes 1 (tagState d k) ++ leBytes 6 0 ++ tagBytes d k

def tagReadCmd : Cmd :=
  { op := 0x0200, readBy := [.c, .p]
    check := fun _ p _ => if p.length = 4 ∧ (rdLe p 0 1 < 16 ∨ rdLe p 0 1 = 0xFF) then none else some .badLength
    body := fun _ p d =>
      if rdLe p 0 1 < 16 then .done .ok (tagPayload d (rdLe p 0 1)) [] d
      else match tagCurrent d with
        | some k => .done .ok (tagPayload d k) [] d
        | none => .done .ok (leBytes 1 0xFF ++ leBytes 1 3 ++ leBytes 6 0 ++ List.replicate 256 0) [] d }

/-- A generation as the device composes it (Table CMD.6). -/
def tagImage (k : Nat) (bytes : List Byte) : List Byte :=
  let head := [(0x41 : Byte), 0x58, 0x55, 0x54] ++ leBytes 1 k ++ leBytes 1 1 ++ leBytes 2 bytes.length ++ leBytes 4 0
  head ++ leBytes 4 (crc32c (head ++ bytes)) ++ padTo 240 bytes

def tagWriteCmd : Cmd :=
  { op := 0x0201, writeBy := [.c], isWrite := fun _ => true, writeCls := .live, locks := fun _ => [0x0002]
    check := fun _ p _ => if rdLe p 0 2 ≤ 240 ∧ p.length = 4 + rdLe p 0 2 then none else some .badLength
    body := fun _ p d =>
      match tagNext d with
      | none => .done .state [] [] d
      | some k => .wait (.tagWrite k (p.drop 4)) d }

def setTag (d : Dev) (k : Nat) (b : List Byte) : Dev := setOtp d { d.key.otp with tags := Tab.set [] d.key.otp.tags k b }

/-- The programming and read-back of a generation have finished (R361). What a differing read-back holds is free, and not
empty: the generation is consumed. -/
def tagWriteDone (d : Dev) (f : Fn) (door k : Nat) (bytes : List Byte) (ok : Bool) : Dev :=
  if ok then
    let d := setTag d k (tagImage k bytes)
    complete d f door .ok (tagPayload d k) []
  else
    let (v, d) := draw d
    let d := raise (setTag d k (leBytes 256 (1 + v % (2 ^ 2048 - 1)))) (srcId 0x61 0)
    complete d f door .internal [] []

/-- The order in which the cells of a generation are programmed: DATA, bytes 4–15, MAGIC. -/
def tagOrder : List Nat := (List.range 240).map (16 + ·) ++ (List.range 12).map (4 + ·) ++ List.range 4

/-- A write interrupted: how far it got is free, short of the end of MAGIC. -/
def interruptTag (d : Dev) (k : Nat) (bytes : List Byte) : Dev :=
  let (n, d) := drawUpTo d 255
  let full := tagImage k bytes
  let part := (tagOrder.take n).foldl (fun b i => b.set i (full.getD i 0)) (List.replicate 256 0)
  if part.all fun x => decide (x = 0) then d else setTag d k part

def tagMask (d : Dev) (st : Nat) : Nat :=
  (List.range 16).foldl (fun m k => if tagState d k = st then m + 2 ^ k else m) 0

def tagStatusCmd : Cmd :=
  { op := 0x0202, readBy := [.c, .p], check := lens [0]
    body := fun _ _ d =>
      .done .ok (leBytes 1 ((tagCurrent d).getD 0xFF) ++ leBytes 1 ((tagNext d).getD 0xFF) ++ leBytes 2 (tagMask d 1)
        ++ leBytes 2 (tagMask d 2) ++ leBytes 2 0) [] d }

/-! ### Firmware store: the flash (R363, R364) -/

def getFlash (d : Dev) (s : Nat) : FlashSlot := Tab.get FlashSlot.erased d.key.flash s

def setFlash (d : Dev) (s : Nat) (x : FlashSlot) : Dev :=
  { d with key := { d.key with flash := Tab.set FlashSlot.erased d.key.flash s x } }

/-- Bytes of a slot as the flash reads them: 0xFF where nothing is programmed. -/
def flashRead (bs : List Byte) (off n : Nat) : List Byte :=
  let l := (bs.drop off).take n
  l ++ List.replicate (n - l.length) 0xFF

/-- BOOT_SEQ of a slot (R364): that of its last entry whose two halves agree. -/
def bootSeq (d : Dev) (s : Nat) : Nat :=
  (((getFlash d s).prefs.reverse.find? fun e => decide (e.2 = 2 ^ 32 - 1 - e.1)).map (·.1)).getD 0

def slotState (d : Dev) (s : Nat) : Nat := fld d .fwStatus 0 (Fw.sSlotState s)

def slotValid (d : Dev) (s : Nat) : Bool := decide (slotState d s = 3)

def preferredSlot (d : Dev) : Nat := fld d .fwStatus 0 Fw.preferredSlot

def runningSlot (d : Dev) : Nat := fld d .fwStatus 0 Fw.runningSlot

def trialActive (d : Dev) : Bool := flag d .fwStatus 0 Fw.trialActive

/-- PREFERRED_SLOT after a change of a slot or a preference (R364); with no VALID slot it is free. -/
def refreshPreferred (d : Dev) : Dev :=
  if !slotValid d 0 ∧ !slotValid d 1 then
    let (n, d) := drawUpTo d 1
    setFld d .fwStatus 0 Fw.preferredSlot n
  else setFld d .fwStatus 0 Fw.preferredSlot
    (b2n (slotValid d 1 && (!slotValid d 0 || decide (bootSeq d 0 < bootSeq d 1))))

/-! ### Image verification (R382, R383) -/

/-- The sections of a header (Table SEC.4): firmware, jig, microcode, each as offset and length. -/
def imageSections (h : List Byte) : List (Nat × Nat) :=
  [(rdLe h 28 4, rdLe h 32 4), (rdLe h 36 4, rdLe h 40 4), (rdLe h 44 4, rdLe h 48 4)]

def sectionsApart (a b : Nat × Nat) : Bool := decide (a.1 + a.2 ≤ b.1) || decide (b.1 + b.2 ≤ a.1)

def sectionsOk (h : List Byte) : Bool :=
  let l := rdLe h 24 4
  ((imageSections h).all fun x => decide (x.1 % 16 = 0) && decide (416 ≤ x.1) && decide (x.1 + x.2 ≤ l))
    && (match imageSections h with
        | [a, b, c] => sectionsApart a b && sectionsApart a c && sectionsApart b c
        | _ => false)

/-- Check 1. -/
def imageFormat (h : List Byte) : Bool :=
  decide (slice h 0 4 = [0x41, 0x58, 0x46, 0x57]) && decide (rdLe h 4 2 = 1) && decide (rdLe h 6 1 ≤ 3)
    && decide (rdLe h 7 1 = 0) && decide (rdLe h 18 2 = 0) && decide (rdLe h 52 12 = 0) && decide (416 ≤ rdLe h 24 4)
    && decide (rdLe h 24 4 ≤ 8384512) && sectionsOk h

/-- A section named by its offset and length; one that ends beyond the slot has no bytes, and its image fails check 1. -/
def imageSection (bs : List Byte) (x : Nat × Nat) : List Byte :=
  if x.1 + x.2 ≤ 8384512 then flashRead bs x.1 x.2 else []

/-- Checks 1–7 in code order over the bytes of a slot: the reason of the first that fails. -/
def imageReason (d : Dev) (bs : List Byte) : Nat :=
  let h := flashRead bs 0 416
  let fw := imageSection bs (rdLe h 28 4, rdLe h 32 4)
  let jig := imageSection bs (rdLe h 36 4, rdLe h 40 4)
  let uc := imageSection bs (rdLe h 44 4, rdLe h 48 4)
  if !imageFormat h then 1
  else if ofBe (sha384 (slice h 224 96)) ≠ Config.romKeyHash (rdLe h 6 1)
      ∨ !p384.verifies (rdBe h 224 96) (sha384 (slice h 0 320)) (rdBe h 320 96) then 2
  else if sha384 fw ≠ slice h 64 48 ∨ sha384 uc ≠ slice h 112 48 then 3
  else if rdLe h 12 4 < fwSvnMin d then 4
  else if !bit (rdLe h 20 4) d.variant.code then 5
  else if jigChecks d (rdBe h 160 64) jig ≠ 0 then 6
  else if slice uc 0 4 ≠ [0x41, 0x58, 0x4D, 0x43] ∨ rdLe uc 4 2 ≠ 1 ∨ !bit (Config.ucodeMask uc) d.variant.code then 7
  else 0

/-- What the header of an image in the flash states. -/
def imageFacts (d : Dev) (bs : List Byte) : ImageFacts :=
  let h := flashRead bs 0 416
  let jig := imageSection bs (rdLe h 36 4, rdLe h 40 4)
  { length := rdLe h 24 4, version := rdLe h 8 4, svn := rdLe h 12 4, tableAbi := rdLe h 16 2, jigVersion := rdLe jig 8 4
    jigSvn := rdLe jig 12 4, jigAbi := rdLe jig 6 2, jigMask := rdLe jig 16 4, jigKey := rdBe h 160 64
    jigBytes := jig
    ucodeVersion := Config.ucodeVersion (imageSection bs (rdLe h 44 4, rdLe h 48 4)), reason := imageReason d bs }

/-- The reason of an image stored before the model begins: the security versions are tested against the minima of now. -/
def factoryReason (d : Dev) (x : ImageFacts) : Nat :=
  if 1 ≤ x.reason ∧ x.reason ≤ 3 then x.reason
  else if x.svn < fwSvnMin d then 4
  else if x.reason = 5 then 5
  else if x.jigSvn < jigSvnMin d then 6
  else x.reason

/-- What verification of a slot finds. -/
def slotFacts (d : Dev) (s : Nat) : ImageFacts :=
  match (getFlash d s).factory with
  | some x => { x with reason := factoryReason d x }
  | none => imageFacts d (getFlash d s).bytes

/-- A slot's state and reason set; VERSION, SVN and TABLE_ABI are shown for a VALID slot, and for an INVALID one whose
header passed check 1. -/
def setSlotState (d : Dev) (s state reason : Nat) : Dev :=
  let x := slotFacts d s
  let shown := decide (state = 3) || (decide (state = 4) && decide (reason ≠ 1))
  let put (v : Nat) : Nat := if shown then v else 0
  let d := setFld (setFld d .fwStatus 0 (Fw.sSlotState s) state) .fwStatus 0 (Fw.sReason s) reason
  let d := setFld (setFld d .fwStatus 0 (Fw.sVersion s) (put x.version)) .fwStatus 0 (Fw.sSvn s) (put x.svn)
  refreshPreferred (setFld d .fwStatus 0 (Fw.sTableAbi s) (put x.tableAbi))

def setWritten (d : Dev) (s n : Nat) : Dev := setFld d .fwStatus 0 (Fw.sWrittenBytes s) n

def setReason (d : Dev) (s r : Nat) : Dev := setFld d .fwStatus 0 (Fw.sReason s) r

/-- Every byte of the slot reads 0xFF. -/
def slotBlank (x : FlashSlot) : Bool :=
  x.factory.isNone && x.prefs.isEmpty && x.bytes.all fun b => decide (b = 0xFF)

/-- The slots as the boot loader derives them at AON power-on (R363). -/
def deriveSlot (d : Dev) (s : Nat) : Dev :=
  let x := slotFacts d s
  if slotBlank (getFlash d s) then setWritten (setSlotState d s 0 0) s 0
  else if x.reason = 0 then setWritten (setSlotState d s 3 0) s x.length
  else setWritten (setSlotState d s 4 x.reason) s 0

def deriveSlots (d : Dev) : Dev := deriveSlot (deriveSlot d 0) 1

/-! ### Firmware status (R373) -/

/-- CONFIRM_REMAIN_S: counts down from FW_READY while TRIAL_ACTIVE is 1 (R370). -/
def confirmRemain (d : Dev) : Nat :=
  if !trialActive d then 0
  else if d.pwr.phase = .ready then d.pwr.confirmS - btToS d (d.bt - d.pwr.confirmFrom) else d.pwr.confirmS

def fwImage (d : Dev) : Nat :=
  let r := setF (getRec d .fwStatus 0) Fw.confirmRemainS (confirmRemain d)
  setF (setF r (Fw.sBootSeq 0) (bootSeq d 0)) (Fw.sBootSeq 1) (bootSeq d 1)

def fwBytes (d : Dev) : List Byte := recBytes .fwStatus (fwImage d)

def fwStatusCmd : Cmd :=
  RecSpec.cmd { kind := .fwStatus, ib := 0, image := fun d _ => fwImage d, apply := atNextEdge .fwStatus } 0x0300
    [.c, .p] [.c]

/-! ### Slot commands (R365–R369) -/

def slotLock (p : List Byte) : List Nat := if rdLe p 0 1 ≤ 1 then [0x0010 + rdLe p 0 1] else []

def slotNamed (p : List Byte) : Bool := decide (p.length = 4) && decide (rdLe p 0 1 ≤ 1)

/-- NEXT_SLOT names the slot. -/
def nextNames (d : Dev) (s : Nat) : Bool := decide (fld d .fwStatus 0 Fw.nextSlot = 2 + s)

def fwEraseCmd : Cmd :=
  { op := 0x0301, writeBy := [.c], isWrite := fun _ => true, writeCls := .live, locks := slotLock
    check := fun _ p _ => if slotNamed p then none else some .badLength
    body := fun _ p d =>
      let s := rdLe p 0 1
      if preferredSlot d = s ∨ runningSlot d = s ∨ nextNames d s then .done .state [] [] d else .wait (.fwErase s) d }

def fwEraseDone (d : Dev) (f : Fn) (door s : Nat) : Dev :=
  let d := setWritten (setSlotState (setFlash d s FlashSlot.erased) s 0 0) s 0
  complete d f door .ok (fwBytes d) []

def fwWriteCmd : Cmd :=
  { op := 0x0302, writeBy := [.c], isWrite := fun _ => true, writeCls := .live, locks := slotLock
    check := fun _ p _ =>
      let n := p.length - 8
      if p.length < 12 ∨ n % 4 ≠ 0 ∨ 1048576 < p.length ∨ 1 < rdLe p 0 1 ∨ 8384512 < rdLe p 4 4 + n then some .badLength
      else none
    body := fun _ p d =>
      let s := rdLe p 0 1
      if 1 < slotState d s ∨ rdLe p 4 4 ≠ fld d .fwStatus 0 (Fw.sWrittenBytes s) then .done .state [] [] d
      else .wait (.fwWrite s (rdLe p 4 4) (p.drop 8)) d }

/-- The flash with data programmed at an offset of an erased slot. -/
def flashProgram (x : FlashSlot) (off : Nat) (data : List Byte) : FlashSlot :=
  { x with bytes := flashRead x.bytes 0 off ++ data }

/-- Programming and read-back of an FW_WRITE have finished (R366). What a differing read-back left is free. -/
def fwWriteDone (d : Dev) (f : Fn) (door s off : Nat) (data : List Byte) (ok : Bool) : Dev :=
  if ok then
    let d := setFlash d s (flashProgram (getFlash d s) off data)
    let d := setWritten (setSlotState d s 1 0) s (off + data.length)
    complete d f door .ok (leBytes 4 (off + data.length) ++ leBytes 4 0) []
  else
    let (m, d) := draw d
    let d := setFlash d s (flashProgram (getFlash d s) off (leBytes data.length m))
    complete (setSlotState d s 2 9) f door .internal [] []

def fwVerifyCmd : Cmd :=
  { op := 0x0303, writeBy := [.c], isWrite := fun _ => true, writeCls := .live, locks := slotLock
    check := fun _ p _ => if slotNamed p then none else some .badLength
    body := fun _ p d =>
      let s := rdLe p 0 1
      if slotState d s = 0 ∨ slotState d s = 2 then .done .state [] [] d else .wait (.fwVerify s) d }

/-- Verification has finished: checks 1–7, then check 8 (R367). -/
def fwVerifyDone (d : Dev) (f : Fn) (door s : Nat) : Dev :=
  let x := slotFacts d s
  let r := if x.reason ≠ 0 then x.reason else if fld d .fwStatus 0 (Fw.sWrittenBytes s) ≠ x.length then 8 else 0
  let d := setSlotState d s (if r = 0 then 3 else 4) r
  complete d f door .ok (fwBytes d) []

/-- A preference write (R364): none when the slot already holds 256 entries. -/
def preferWrite (d : Dev) (s : Nat) : Option Dev :=
  let x := getFlash d s
  if 256 ≤ x.prefs.length then none
  else
    let n := (max (bootSeq d 0) (bootSeq d 1) + 1) % 2 ^ 32
    some (refreshPreferred (setFlash d s { x with prefs := x.prefs ++ [(n, 2 ^ 32 - 1 - n)] }))

def fwSelectCmd : Cmd :=
  { op := 0x0304, writeBy := [.c], isWrite := fun _ => true, writeCls := .live
    check := fun _ p _ => if slotNamed p ∧ rdLe p 1 1 ≤ 2 then none else some .badLength
    body := fun _ p d =>
      let s := rdLe p 0 1
      match rdLe p 1 1 with
      | 0 =>
        if !slotValid d s ∨ runningSlot d = s then .done .state [] [] d
        else
          let d := setFld d .fwStatus 0 Fw.nextSlot (2 + s)
          .done .ok (fwBytes d) [] d
      | 1 =>
        if !slotValid d s ∨ trialActive d then .done .state [] [] d
        else match preferWrite d s with
          | none => .done .state [] [] d
          | some d => .done .ok (fwBytes d) [] d
      | _ =>
        let d := setFld d .fwStatus 0 Fw.nextSlot 0
        .done .ok (fwBytes d) [] d }

def fwConfirmCmd : Cmd :=
  { op := 0x0305, writeBy := [.c], isWrite := fun _ => true, writeCls := .live, check := lens [0]
    body := fun _ _ d =>
      if !trialActive d ∨ !slotValid d (runningSlot d) then .done .state [] [] d
      else match preferWrite d (runningSlot d) with
        | none => .done .state [] [] d
        | some d =>
          let d := setFld d .fwStatus 0 Fw.trialActive 0
          .done .ok (fwBytes d) [] d }

/-- The table layout of a slot equals that of the active jig image. -/
def slotAbiFits (d : Dev) (s : Nat) : Bool := decide ((slotFacts d s).tableAbi = d.arr.active.abi)

/-- The slot NEXT_SLOT names. -/
def nextSlot (d : Dev) : Option Nat :=
  let n := fld d .fwStatus 0 Fw.nextSlot
  if 2 ≤ n then some (n - 2) else none

def fwReloadCmd : Cmd :=
  { op := 0x0306, writeBy := [.c], isWrite := fun _ => true, check := lens [0]
    body := fun _ _ d =>
      let other : Bool := match nextSlot d with | some s => !slotAbiFits d s | none => false
      if !d.mbx.locks.isEmpty ∨ other then .done .state [] [] d
      else .done .ok (leBytes 8 d.bt) [] { d with pwr := { d.pwr with reloadDue := some (d.bt + msToBt d 1) } } }

/-! ### The processor stops while slow hardware works -/

/-- FW_WRITE interrupted: the slot is DIRTY, with a free part of the data programmed. -/
def interruptWrite (d : Dev) (s off : Nat) (data : List Byte) : Dev :=
  let (n, d) := drawUpTo d data.length
  setSlotState (setFlash d s (flashProgram (getFlash d s) off (data.take n))) s 2 (fld d .fwStatus 0 (Fw.sReason s))

/-- FW_ERASE interrupted: the slot is DIRTY, and how much of it is erased is free. -/
def interruptErase (d : Dev) (s : Nat) : Dev :=
  let x := getFlash d s
  let (n, d) := drawUpTo d 8
  let (m, d) := drawUpTo d 1
  let (k, d) := drawUpTo d x.bytes.length
  let y : FlashSlot :=
    { factory := x.factory.bind fun f => if n = 0 then some f else if n ≤ 7 then some { f with reason := n } else none
      bytes := List.replicate k 0xFF ++ x.bytes.drop k, prefs := if m = 0 then x.prefs else [] }
  setSlotState (setFlash d s y) s 2 (fld d .fwStatus 0 (Fw.sReason s))

/-- What an interrupted piece of slow hardware leaves behind (R351, R361, R378, Table CMD.9). -/
def interruptSlow (d : Dev) (w : Waiting) : Dev :=
  match w with
  | .tagWrite k bytes => interruptTag d k bytes
  | .fwErase s => interruptErase d s
  | .fwWrite s off data => interruptWrite d s off data
  | .lcAdvance k copy second => interruptAdvance d k copy second
  | .svnRaise f j => interruptSvn d f j
  | .wrapInstall id form key => interruptWrap d id form key
  | .jigUpload _ | .fwVerify _ | .shimLoop .. | .mint .. | .bench | .gauge | .retire _ | .edge => d

/-- Every piece of slow hardware stops. -/
def abortSlow (d : Dev) : Dev :=
  setOtpBusy (d.mbx.doors.foldl (fun d e =>
    match e.2.serving with | some (_, w) => interruptSlow d w | none => d) d) false

/-! ### The boot slot (R368) -/

/-- The slot verifies at this boot. -/
def slotVerifies (d : Dev) (s : Nat) : Bool := decide ((slotFacts d s).reason = 0)

/-- The chosen slot of R368, steps 1–3, and the AON state after the choice. A trial that steps in keeps the CONFIRM_S of
its start. -/
def chooseSlot (d : Dev) (processor : Bool) : Nat × Dev :=
  if trialActive d then
    let d := bumpFld (setFld d .fwStatus 0 Fw.trialActive 0) .fwStatus 0 Fw.trialReverts
    (preferredSlot d, raise d (srcId 0x63 0))
  else match nextSlot d with
    | some s =>
      if processor ∧ !slotAbiFits d s then (preferredSlot d, d)
      else
        let d := setFld (setFld d .fwStatus 0 Fw.nextSlot 0) .fwStatus 0 Fw.trialActive 1
        (s, { d with pwr := { d.pwr with confirmS := fld d .fwStatus 0 Fw.confirmS } })
    | none => (preferredSlot d, d)

/-- A slot may be booted: it verifies, and on a processor boot shares the table layout. -/
def slotBoots (d : Dev) (processor : Bool) (s : Nat) : Bool :=
  slotVerifies d s && (!processor || slotAbiFits d s)

/-- A VALID slot that fails its boot verification is INVALID with the reason. -/
def failSlot (d : Dev) (s : Nat) : Dev :=
  if slotValid d s ∧ !slotVerifies d s then setSlotState d s 4 (slotFacts d s).reason else d

/-- The slot that boots, after a fallback where the chosen one does not: none when no slot qualifies. -/
def bootSlot (d : Dev) (processor : Bool) : Option Nat × Dev :=
  let (s, d) := chooseSlot d processor
  let d := setFld d .fwStatus 0 Fw.fellBack 0
  if slotBoots d processor s then (some s, d)
  else
    let d := failSlot d s
    let t := 1 - s
    if slotValid d t ∧ slotBoots d processor t then
      let d := setFld (bumpFld (setFld d .fwStatus 0 Fw.fellBack 1) .fwStatus 0 Fw.fallbacks) .fwStatus 0 Fw.trialActive 0
      (some t, raise d (srcId 0x62 0))
    else (none, failSlot d t)

def execDeviceInfo (m : Msg) (s : State) : Host.Outcome State Fault Refusal := mailbox deviceInfoCmd m s
def execDeviceConfig (m : Msg) (s : State) : Host.Outcome State Fault Refusal := mailbox deviceConfigCmd m s
def execTagRead (m : Msg) (s : State) : Host.Outcome State Fault Refusal := mailbox tagReadCmd m s
def execTagWrite (m : Msg) (s : State) : Host.Outcome State Fault Refusal := mailbox tagWriteCmd m s
def execTagStatus (m : Msg) (s : State) : Host.Outcome State Fault Refusal := mailbox tagStatusCmd m s
def execFwStatus (m : Msg) (s : State) : Host.Outcome State Fault Refusal := mailbox fwStatusCmd m s
def execFwErase (m : Msg) (s : State) : Host.Outcome State Fault Refusal := mailbox fwEraseCmd m s
def execFwWrite (m : Msg) (s : State) : Host.Outcome State Fault Refusal := mailbox fwWriteCmd m s
def execFwVerify (m : Msg) (s : State) : Host.Outcome State Fault Refusal := mailbox fwVerifyCmd m s
def execFwSelectTrial (m : Msg) (s : State) : Host.Outcome State Fault Refusal := mailbox fwSelectCmd (withByte 1 0 m) s
def execFwSelectPrefer (m : Msg) (s : State) : Host.Outcome State Fault Refusal := mailbox fwSelectCmd (withByte 1 1 m) s
def execFwSelectCancel (m : Msg) (s : State) : Host.Outcome State Fault Refusal := mailbox fwSelectCmd (withByte 1 2 m) s
def execFwConfirm (m : Msg) (s : State) : Host.Outcome State Fault Refusal := mailbox fwConfirmCmd m s
def execFwReload (m : Msg) (s : State) : Host.Outcome State Fault Refusal := mailbox fwReloadCmd m s

end Sys2Proof.Machine
end

