-- ==== Sys2Proof/Machine/Power.lean ====
section
/-! DEFINITION. Resets, power states and start-up (18_reset_power_startup.md), with the monitors, the sideband and the
boundary-scan port of 20_pins_and_package.md. -/

namespace Sys2Proof.Machine

open Sys2Proof

/-! ### Pins (R432, Tables BOOT.6 and BOOT.7) -/

/-- What the pin reset map makes of a ball: high-impedance, driven low or high, a weak pull. -/
inductive BallDrive where
  | highZ | low | high | pullDown | pullUp
deriving DecidableEq, Repr

/-- The code of a ball index in the map in effect, applied: HOLD_LAST keeps the level driven when the reset began. -/
def mappedBall (d : Dev) (i : Nat) : BallDrive :=
  let input := decide (6 ≤ i) && decide (i ≤ 13)
  match d.pwr.pinMap / 2 ^ (3 * i) % 8 with
  | 1 => if input then .highZ else .low
  | 2 => if input then .highZ else .high
  | 3 => .pullDown
  | 4 => .pullUp
  | 5 => match d.pwr.held with
    | some n => if input then .highZ else if bit n i then .high else .low
    | none => .highZ
  | _ => .highZ

/-- The map governs a ball until its unit is enabled and its domain runs; not in the FATAL safe state (R432). -/
def ballGoverned (d : Dev) (i : Nat) : Bool :=
  if i < 6 then !safe d && !(tiuRuns d && outEnabled d i)
  else if i < 14 then !(tiuRuns d && decide (inMode d (i - 6) ≠ 0))
  else !(obsClocked d && flag d .obs 0 Obs.obsEnable && !d.obs.obsOff)

/-- The levels of the output balls as a reset begins; what the OBS balls carry at that instant is free. -/
def captureHeld (d : Dev) : Dev :=
  let (v, d) := draw d
  let level (i : Nat) : Bool :=
    if ballGoverned d i then decide (mappedBall d i = .high) else if i < 6 then outLevel d i else obsPermitted d && bit v i
  let held := ((List.range 6) ++ (List.range 5).map (14 + ·)).foldl (fun n i => setBit n i (level i)) 0
  { d with pwr := { d.pwr with held := some held } }

/-! ### Records (R441) -/

/-- The power record as read: MAIN_EN is high from its raising to the next KEEP-TIME entry. -/
def powerImage (d : Dev) : Nat := setF (getRec d .power 0) Pow.mainEn (b2n (decide (d.pwr.phase ≠ .mainOff)))

def pendingState (d : Dev) : Nat := fld d .power 0 Pow.pending

def setPowerPending (d : Dev) (v : Nat) : Dev := setFld d .power 0 Pow.pending v

/-- POWER changes at an edge, and no transition is in progress any more. -/
def enterPower (d : Dev) (v : Nat) : Dev :=
  let d := if power d = v then d else setFld (setFld d .power 0 Pow.power v) .power 0 Pow.entryBt d.bt
  setPowerPending d 0

/-- The PLLs that exist, all locked; the episodes of PLL_UNLOCK end (R406). -/
def lockPlls (d : Dev) : Dev :=
  let d := settleAll d
  let d := (List.range 5).foldl (fun d i => endEpisode d (srcId 0x10 i)) d
  { d with pwr := { d.pwr with plls := if d.variant = .f then 0x1F else 0x0F } }

/-! ### The processor stops and its doors (R351) -/

/-- The management processor stops: what it held is gone, slow hardware stops, every lock is released, and a snapshot being
copied is not kept (R447). The masters it had heard are gone, the selected one with them (assumption log 91). -/
def processorStops (d : Dev) : Dev :=
  let d := benchStop (abortSlow (gnssMemoryLost (firmwareStops d)))
  let d := [0, 1].foldl (fun d c => setFld (setFld d .ptpClient c PCli.masterPortId 0) .ptpClient c PCli.masterClass 0) d
  { d with mbx := { d.mbx with locks := [] }, obs := { d.obs with gauge := none }
           ptp := { d.ptp with clients := [], inbox := [] } }

/-- A door ended with STATUS INTERNAL, the header of its message echoed. -/
def endDoor (d : Dev) (k : Nat) (x : Door) (r : Response) (noIrq : Bool) : Dev :=
  let f := fnOfKey (k / 8)
  let door := k % 8
  let resp := { r with fragIndex := 0, fragTotal := 1, status := .internal, payload := [] }
  let d := setDoor d f door { x with phase := .done, posted := none, serving := none, partial_ := none, more := none
                                     resp := some resp }
  let d := bumpDoor d f door dsInternal
  if noIrq then d else sendMsix d f (if f.vf.isSome then 0 else door)

/-- One door when the processor runs again. -/
def restartDoor (d : Dev) (k : Nat) (x : Door) : Dev :=
  let f := fnOfKey (k / 8)
  match x.posted, x.serving with
  | some _, _ => setDoor d f (k % 8) { x with partial_ := none, more := none }
  | none, some (po, _) =>
    if x.discard then setDoor d f (k % 8) { Door.idle with reqBuf := x.reqBuf }
    else endDoor d k x { op := po.op, flags := po.msg.flags.toNat % 8, sequence := po.msg.sequence, fragIndex := 0
                         fragTotal := 1, acting := actingEcho d po.msg, status := .internal, payload := [] }
      (bit po.msg.flags.toNat 2)
  | none, none =>
    match x.resp with
    | some r => if x.partial_.isSome ∨ x.more.isSome then endDoor d k x r (bit r.flags 2) else d
    | none => d

/-- The doors when the processor runs again, and its service order afresh (R342). -/
def restartDoors (d : Dev) : Dev :=
  let d := { d with mbx := { d.mbx with v := 0, finish := [] } }
  d.mbx.doors.foldl (fun d e => restartDoor d e.1 e.2) d

/-! ### The reach of RESET_N and a device reset (Table BOOT.4) -/

/-- The kinds of record held outside the AON, which a reset returns to their reset values. -/
def resetKinds : List RecKind :=
  [.octet, .port, .portStatus, .wakePattern, .beacon, .shim, .launch, .nodeStatus, .nodeFlags, .array, .tenantArray,
   .jigStatus, .addrEntry, .ntp, .bcast, .access, .ct, .cls, .nts, .ptp, .ptpPort, .ptpClient, .eventWord, .ring, .endpoint,
   .tenant, .ctrEvent, .bench, .scribe, .obs]

def isResetKind (c : Nat) : Bool := resetKinds.any fun k => decide (k.code = c)

/-- TOTAL_VFS_ACTIVE of each endpoint is kept. -/
def resetRecords (d : Dev) : Dev :=
  let vfs := (List.range 4).map fun e => fld d .endpoint e Ep.totalVfsActive
  let d := dropRecs d isResetKind
  let d := (vfs.zipIdx).foldl (fun d x => setFld d .endpoint x.2 Ep.totalVfsActive x.1) d
  (listed d .view).foldl (fun d e => setFld d .view e.1 View.tenantsBound 0) d

/-- What is due in the AON stays due; what is due elsewhere is gone. -/
def keptOver : EdgeOp → Bool
  | .write k _ _ => !isResetKind k.code
  | .portRestart .. | .nodeReset .. | .jigSwap .. | .bind .. | .tenantView .. | .retire .. => false
  | .listen | .listenExit | .sharedOn | .full => false
  | .rate .. | .set .. | .step .. | .seed _ | .clear _ | .select _ | .steer .. | .osc _ | .viewCreate .. | .viewClear _
  | .viewSmear .. | .leapPolicy _ | .servo .. | .tiuRef _ | .outFast .. | .control _ | .lifeCycle _ | .faultClear ..
  | .leapTable .. | .gpsLeap .. | .leapEval | .sideband _ => true

/-- Every counter at 0 and the snapshot store empty (R442, R447). -/
def zeroCounters (d : Dev) : Dev :=
  { d with obs := { d.obs with ctr := [], settled := [], asserted := [], snaps := [], snapCount := 0, gauge := none } }

/-- The frames in the ports leave with a reset: a host's are written back as FLUSHED (Table STAMP.6), and none counts
(R134). -/
def flushPorts (d : Dev) : Dev := (List.range 16).foldl (fun d p => flushQueues (truncateTx d p) p .flushed) d

/-- Every domain but the AON is reset. -/
def applyReset (d : Dev) : Dev :=
  let d := processorStops (flushPorts (captureHeld d))
  let d := gnssDomainReset (tiuReset (freezeScribe (clearClients { d with ct := { d.ct with retainedFrom := some d.bt } })))
  let d := dropStats (resetRecords (zeroCounters d)) fun k => decide (k ≠ StatKind.fault.code)
  let d := setFld (setPowerPending d 0) .power 0 Pow.wakeLatched 0
  { d with
    atEdge := d.atEdge.filter fun e => keptOver e.2
    mbx := MbxState.reset, ports := [], ptp := PtpState.reset, obs := { d.obs with obsOff := true }
    arr := { ArrayState.reset with active := d.arr.active }
    host := { d.host with fns := [], rings := [], buckets := [], retireEnd := [], snapGone := [], lapseRuns := false
                          eps := d.host.eps.map fun e => (e.1, { EpState.reset with perst := e.2.perst }) }
    key := { d.key with running := [] }
    pwr := { d.pwr with plls := 0, halted := false, railFailed := false, sharedGated := false, ktFrom := none
                        reloadDue := none, wakeFrom := none, pinMap := d.key.otp.pinMap, xspiHigh := none
                        xspiMode := .first, tablesLost := false } }

/-- The boot ROM may read the flash: XSPI_RESET_N is high (R471). -/
def flashReady (d : Dev) : Bool := match d.pwr.xspiHigh with | some n => decide (n ≤ d.bt) | none => false

/-- The boot ROM has read the first 4 KiB, and the port runs in the flash's mode from then on (R471). -/
def readFlash (d : Dev) : Dev := { d with pwr := { d.pwr with xspiMode := if Config.flashOctal then .octal else .single } }

/-- A reset ends: XSPI_RESET_N stays low for 10 µs more (R471), a held grace timer starts (R410), and a full boot begins,
which enters FULL (R433), from PLL lock, or from MAIN_EN where it is low (R481). In the FATAL safe state none follows
(R412). -/
def endReset (d : Dev) (kind : Nat) : Dev :=
  let d := if d.flt.graceHeld then startGrace d else d
  let d := { d with pwr := { d.pwr with devReset := false, resetN := none } }
  if safe d then d
  else
    let d := enterPower d 0
    let p := { d.pwr with bootKind := kind, xspiHigh := some (d.bt + usToBt d 10) }
    match p.phase with
    | .mainOff => { d with pwr := { p with mainEnAt := some (p.mainEnAt.getD (d.bt + 1)) } }
    | .railsWait => { d with pwr := p }
    | _ => { d with pwr := { p with phase := .bootRom } }

/-- A reset that takes the device out of KEEP-TIME is its wake event (R437). -/
def wakeByReset (d : Dev) (code : Nat) : Dev :=
  if power d = 2 then setFld (setFld d .power 0 Pow.lastWake code) .power 0 Pow.wakeBt d.bt else d

/-- RESET_N recognised low (R424). In the FATAL safe state it resets nothing (R412). -/
def resetNAssert (d : Dev) : Dev :=
  if d.pwr.resetN.isSome then d
  else
    let d := setCause d 1
    let d := if safe d then d else applyReset (wakeByReset d 5)
    { d with pwr := { d.pwr with resetN := some d.bt, devReset := false } }

/-- Base ticks of 2 s at the declared frequency. -/
def twoSeconds (d : Dev) : Nat := 2 * 10 ^ 9 / btNs d

def pinLong (d : Dev) : Dev :=
  match d.pwr.resetN with
  | some n =>
    let again := decide (n + twoSeconds d ≤ fld d .resetCause 0 RCause.lastResetBt)
    if n + twoSeconds d ≤ d.bt ∧ !(again && bit (fld d .resetCause 0 RCause.cause) 2) then setCause d 2 else d
  | none => d

/-- RESET_N recognised high: a device reset requested meanwhile is absorbed, its cause bit set (R410, R423, R425). -/
def resetNDeassert (d : Dev) : Dev :=
  match d.pwr.resetN with
  | none => d
  | some n =>
    let ms := (roundFree (((d.bt - n) * btNs d : Nat) / 1000000)).toNat
    let d := setFld d .resetCause 0 RCause.resetNLowMs (min (2 ^ 32 - 1) ms)
    let d := match d.pwr.resetDue with
      | some (_, c) => setCause { d with pwr := { d.pwr with resetDue := none } } c
      | none => d
    endReset d 2

/-- A device reset that is due begins (R426). -/
def deviceResetStart (d : Dev) : Dev :=
  match d.pwr.resetDue with
  | some (n, c) =>
    if d.bt + 1 < n ∨ safe d ∨ resetHeld d then d
    else
      let d := setCause { d with pwr := { d.pwr with resetDue := none } } c
      let d := applyReset (wakeByReset d 4)
      { d with pwr := { d.pwr with devReset := true, resetFrom := d.bt } }
  | none => d

/-- The 100 µs hold of a device reset is over at this edge. -/
def holdEnd (d : Dev) : Dev :=
  if d.pwr.devReset ∧ d.pwr.resetN = none ∧ d.pwr.resetFrom + usToBt d 100 ≤ d.bt then endReset d 1 else d

/-! ### Supplies and power-up (R429–R431, R463, R464) -/

/-- The AON supply is lost: slow hardware stops where it is, and nothing runs. -/
def supplyLoss (d : Dev) : Dev :=
  let d := abortSlow d
  { d with pwr := { d.pwr with aonUp := false } }

/-- The AON power-on reset is released (Table BOOT.5): everything at its reset value but OTP, the flash and the levels of
the pins; the slots are derived from the flash (R363). -/
def aonPowerOn (d : Dev) : Dev :=
  let d := if d.pwr.aonUp then supplyLoss d else d
  let p := Dev.powerOn d.variant d.free d.key.otp d.key.flash (otpState d.key.otp)
  let eps := d.host.eps.map fun e => (e.1, { EpState.reset with perst := e.2.perst })
  let p := { p with host := { p.host with eps := eps }
                    tiu := { p.tiu with
                      inputs := d.tiu.inputs.map fun e => (e.1, { TiuInput.reset with level := e.2.level }) } }
  deriveSlots (setFld p .controller 0 Ctl.controller d.key.otp.primaryEp)

/-- MAIN_EN is raised when it is due. -/
def raiseMainEn (d : Dev) : Dev :=
  match d.pwr.mainEnAt with
  | some n =>
    if n ≤ d.bt ∧ d.pwr.phase = .mainOff ∧ !safe d then
      { d with pwr := { d.pwr with phase := .railsWait, mainEnAt := none, mainEnBt := d.bt } }
    else d
  | none => d

/-- The main rails, 3 to 15. -/
def isMain (r : Nat) : Bool := decide (3 ≤ r)

/-- The main rails that supply units every step of the packet path needs (Table PIN.3): engines and interconnect, packet buffer
and tables, Ethernet lanes, the engine and timestamp PLLs, the timestamp units. -/
def pathRail (r : Nat) : Bool := [3, 4, 6, 7, 10, 11].contains r

def mainOut (d : Dev) : Bool := (List.range 16).any fun r => isMain r && bit d.pwr.railsOut r

def setRail (d : Dev) (r : Nat) (out : Bool) : Dev :=
  let d := { d with pwr := { d.pwr with railsOut := setBit d.pwr.railsOut r out } }
  if out then startEpisode d (srcId 0x11 r) else endEpisode d (srcId 0x11 r)

/-- Every main rail is within its limits: the PLLs lock and the boot ROM is next, which is no longer held in reset but in
a RESET_N or device reset. -/
def railsFound (d : Dev) : Dev :=
  let high := if resetHeld d then none else some (d.pwr.xspiHigh.getD d.bt)
  lockPlls { d with pwr := { d.pwr with phase := .bootRom, xspiHigh := high, railsBt := d.bt } }

/-- The voltage monitors look for the main rails after MAIN_EN (R429): all found, or, 20 ms later, VOLT_RANGE of the first
one outside. -/
def mainRailsCheck (d : Dev) (low : List Nat) : Dev :=
  if d.pwr.phase ≠ .railsWait then d
  else match (List.range 16).filter fun r => isMain r && low.contains r with
    | [] => railsFound ((List.range 16).foldl (fun d r => if isMain r then setRail d r false else d) d)
    | r :: rs =>
      if d.bt + 1 < d.pwr.mainEnBt + msToBt d 20 then d
      else
      let d := { d with pwr := { d.pwr with railsOut := rs.foldl (fun n r => setBit n r true) d.pwr.railsOut } }
      setRail d r true

/-- The rails a monitor watches: the AON rails, and the main rails once found. -/
def railWatched (d : Dev) (r : Nat) : Bool :=
  !isMain r || mainPowered d

/-- A rail leaves its limits (R406, R464). -/
def voltRange (d : Dev) (r : Nat) : Dev :=
  if railWatched d r = false then d
  else
    let d := if pathRail r ∧ fastRuns d then { d with pwr := { d.pwr with railFailed := true } } else d
    setRail d r true

/-- A rail is within its limits again; a start-up that waits for it goes on. -/
def railWithin (d : Dev) (r : Nat) : Dev :=
  if bit d.pwr.railsOut r then
    let d := setRail d r false
    if d.pwr.phase = .railsWait ∧ !mainOut d then railsFound d else d
  else d

/-- A sensor runs: those of the main domain while its rails are within limits (R476). -/
def sensorRuns (d : Dev) (i : Nat) : Bool :=
  decide (i = 7) || (mainPowered d && !mainOut d)

def tempEpisode (d : Dev) (i code : Nat) : Dev := if sensorRuns d i then startEpisode d (srcId code i) else d

def tempEnd (d : Dev) (i : Nat) (critical : Bool) : Dev := endEpisode d (srcId (if critical then 0x13 else 0x12) i)

def oscCheck (d : Dev) (off : Bool) : Dev := if off then startEpisode d (srcId 0x14 0) else endEpisode d (srcId 0x14 0)

/-! ### PLLs (R18, R64) -/

def setPll (d : Dev) (i : Nat) (on : Bool) : Dev := { d with pwr := { d.pwr with plls := setBit d.pwr.plls i on } }

/-- A PLL loses lock: 0 engine, 1 timestamp, 2 GNSS, 3 and 4 the octets. -/
def pllUnlock (d : Dev) (i : Nat) : Dev :=
  if !fastRuns d ∨ !bit d.pwr.plls i then d
  else
    let d := startEpisode d (srcId 0x10 i)
    match i with
    | 0 => setPll (settleAll (haltProcessor d)) 0 false
    | 1 =>
      let d := setPll (tiuReset (captureHeld d)) 1 false
      (List.range 17).foldl (fun d k => if folPresent d k then folStop d k else d) d
    | 2 => folStop (gnssPllLost (setPll d 2 false)) 17
    | _ => setPll d i false

def pllRelock (d : Dev) (i : Nat) : Dev :=
  if fastRuns d ∧ (i ≠ 4 ∨ d.variant = .f) then
    endEpisode (setPll (if i = 0 then settleAll d else d) i true) (srcId 0x10 i)
  else d

/-! ### Boots (R368, R379, R430, R481) -/

/-- The jig image a firmware image carries. -/
def carriedJig (x : ImageFacts) : JigImage := ⟨x.jigVersion, x.jigSvn, x.jigAbi, x.jigMask, x.jigBytes, x.jigKey⟩

/-- The firmware of a slot starts: its facts, the record of the boot, the benches' microcode (R384). -/
def startFirmware (d : Dev) (s : Nat) : Dev :=
  let d := setFld (setFld d .fwStatus 0 Fw.runningSlot s) .fwStatus 0 Fw.lastBoot d.pwr.bootKind
  loadMicrocode { d with pwr := { d.pwr with running := slotFacts d s, phase := .fwStart, halted := false } }

/-- A FATAL finding of the boot ROM or the starting firmware, handled at once. -/
def fatal (d : Dev) (code : Nat) : Dev := handleRaise d ⟨srcId code 0, 0, false⟩

/-- A full boot: PLL lock, roll-forward, the slot, and the carried jig image (R155). -/
def fullBoot (d : Dev) : Dev :=
  if d.pwr.phase ≠ .bootRom ∨ 2 < d.pwr.bootKind ∨ resetHeld d ∨ safe d ∨ !flashReady d then d
  else
    let d := readFlash (lockPlls d)
    let d := if d.pwr.bootKind = 0 then clearClients d else d
    let (d, ok) := rollForward d
    if !ok then d
    else match bootSlot d false with
      | (none, d) => fatal d 0x65
      | (some s, d) =>
        let d := startFirmware d s
        let x := carriedJig d.pwr.running
        if copyReason d x ≠ 0 then fatal d 0x24 else { d with arr := { d.arr with active := x, staged := none } }

/-- The processor boots alone: its doors are ended, its slot shares the active table layout; on a wake the active jig image
is verified again under R154 and reloaded (R158). With no slot it waits for the escalation. -/
def bootProcessor (d : Dev) : Dev :=
  let (d, ok) := rollForward d
  if !ok then d
  else match bootSlot d true with
    | (none, d) => raise { d with pwr := { d.pwr with bootKind := 6 } } (srcId 0x64 0)
    | (some s, d) =>
      let d := restartDoors (startFirmware d s)
      if d.pwr.bootKind = 5 ∧ copyReason d d.arr.active ≠ 0 then fatal d 0x24 else d

/-- A processor boot (R368): of a stopped processor, on a wake, or by FW_RELOAD (R371). -/
def processorBoot (d : Dev) : Dev :=
  if resetHeld d ∨ safe d then d
  else if d.pwr.phase = .bootRom ∧ 3 ≤ d.pwr.bootKind ∧ d.pwr.bootKind ≤ 5 then
    if !flashReady d then d else bootProcessor (if d.pwr.bootKind = 5 then readFlash (lockPlls d) else d)
  else match d.pwr.reloadDue with
    | some n =>
      if d.pwr.phase = .ready ∧ !d.pwr.halted ∧ n ≤ d.bt + 1 then
        let d := setCause (processorStops d) 6
        bootProcessor { d with pwr := { d.pwr with phase := .bootRom, bootKind := 3, reloadDue := none } }
      else d
    | none => d

/-- The watchdog expires (R427). -/
def watchdogExpiry (d : Dev) : Dev :=
  if (d.pwr.phase = .ready ∨ d.pwr.phase = .fwStart) ∧ fastRuns d ∧ !d.pwr.halted ∧ !safe d then
    let d := raise (setCause (processorStops d) 5) (srcId 0x05 0)
    { d with pwr := { d.pwr with phase := .bootRom, bootKind := 4, reloadDue := none } }
  else d

/-- After a processor boot the carried jig image is staged (R372). -/
def stageCarried (d : Dev) : Dev :=
  let x := carriedJig d.pwr.running
  let r := copyReason d x
  setFld { d with arr := { d.arr with staged := if r = 0 then some x else none } } .jigStatus 0 Jig.lastReason r

/-- A wake from KEEP-TIME ends in FULL (R437, Table BOOT.9): quota buckets are full again. -/
def wakeEnds (d : Dev) : Dev :=
  let d := setCause (enterPower d 0) 7
  let ms := match d.pwr.wakeFrom with
    | some n => (roundFree (((d.bt - n) * btNs d : Nat) / 1000000)).toNat
    | none => 0
  let d := setFld d .power 0 Pow.wakeMs (min (2 ^ 32 - 1) ms)
  (tenantsInUse d).foldl fillBucket { d with pwr := { d.pwr with wakeFrom := none } }

/-- The firmware becomes ready (R430); after a wake it has rebuilt the service and address tables (R34, Table BOOT.9). -/
def fwReady (d : Dev) : Dev :=
  if d.pwr.phase ≠ .fwStart ∨ !fastRuns d ∨ safe d then d
  else
    let kind := d.pwr.bootKind
    let d := { d with pwr := { d.pwr with phase := .ready, tablesLost := false, readyBt := d.bt, confirmFrom := d.bt } }
    let d := { d with gnss := { d.gnss with blFrom := d.bt } }
    let d := startBenches (restartLapse (discRestart d))
    let d := if 3 ≤ kind then stageCarried d else d
    let d := if kind = 5 then wakeEnds d else d
    let d := if kind ≤ 2 ∨ kind = 5 then wakeEvery d else d
    setDevEventAll d 3

/-- The confirm timer of a trial reaches 0 (R370). -/
def trialExpiry (d : Dev) : Dev :=
  if !fwRuns d ∨ !trialActive d ∨ confirmRemain d ≠ 0 ∨ d.pwr.reloadDue.isSome ∨ d.pwr.resetDue.isSome then d
  else if slotAbiFits d (preferredSlot d) then { d with pwr := { d.pwr with reloadDue := some d.bt } }
  else { d with pwr := { d.pwr with resetDue := some (d.bt, 3) } }

/-! ### LISTEN (R435) -/

/-- The entry edge. -/
def applyListen (d : Dev) : Dev :=
  let d := enterPower (gateRequest d 148 true) 1
  { d with pwr := { d.pwr with sharedGated := true } }

/-- A frame that waits in the shared area is dropped. -/
def drainQueue (d : Dev) (p q : Nat) : Dev :=
  let fs := portQueue d p q
  let out := fs.filter fun f => decide (f.area = .shared)
  let d := setQueue d p q (fs.filter fun f => !decide (f.area = .shared))
  out.foldl (fun d f => lost (bumpPort d p (32 + q)) f.who .full) d

/-- 1 ms after the entry edge: unstarted frames of the shared area are dropped. -/
def listenDrain (d : Dev) : Dev :=
  if power d = 1 ∧ d.pwr.sharedGated ∧ fld d .power 0 Pow.entryBt + msToBt d 1 ≤ d.bt + 1 then
    (List.range 16).foldl (fun d p => (List.range 8).foldl (fun d q => drainQueue d p q) d) d
  else d

/-- The request edge of an exit: the shared area is powered 8 µs later, FULL is in effect at 10 µs. -/
def applyListenExit (d : Dev) : Dev :=
  deferAt (deferAt (setPowerPending d 3) (d.bt + usToBt d 8) .sharedOn) (d.bt + usToBt d 10) .full

def applySharedOn (d : Dev) : Dev := wakeEvery { d with pwr := { d.pwr with sharedGated := false } }

/-! ### KEEP-TIME and wakes (R436–R439) -/

/-- The wake begins: MAIN_EN is raised at the next edge. -/
def beginWake (d : Dev) : Dev :=
  let d := setPowerPending (setFld d .power 0 Pow.wakeLatched 0) 3
  { d with pwr := { d.pwr with mainEnAt := some (d.bt + 1), bootKind := 5
                               wakeFrom := some (fld d .power 0 Pow.wakeBt) } }

def noteWake (d : Dev) (code ep : Nat) : Dev :=
  let d := setFld (setFld d .power 0 Pow.lastWake code) .power 0 Pow.wakeBt d.bt
  if code = 2 then setFld d .power 0 Pow.wakeEndpoint ep else d

/-- A wake event (R437): latched during an entry, starting the wake in KEEP-TIME, and in LISTEN, PERST apart, the exit. -/
def wakeEvent (d : Dev) (code ep : Nat) : Dev :=
  if safe d ∨ resetHeld d then d
  else if d.pwr.ktFrom.isSome then
    if flag d .power 0 Pow.wakeLatched then d else setFld (noteWake d code ep) .power 0 Pow.wakeLatched 1
  else if power d = 2 then
    if pendingState d = 0 ∧ d.pwr.mainEnAt = none then beginWake (noteWake d code ep) else d
  else if power d = 1 ∧ code ≠ 2 ∧ pendingState d = 0 then setPowerPending (defer (noteWake d code ep) .listenExit) 3
  else d

/-- The ports at the entry: queues flushed as by a link down, transmitters idle, links down (R92). -/
def portsDown (d : Dev) : Dev :=
  (portList d).foldl (fun d p =>
    let up := linkUp d p
    let d := if up then setFld d .portStatus p PrtSt.linkDownBt d.bt else d
    setLink (restartPaths d p (if up then .linkDown else .flushed)) p (startState d p)) d

/-- The timed entry completes (R436): from here on only the AON, the configuration store and the key store run. -/
def keepTimeEntry (d : Dev) : Dev :=
  match d.pwr.ktFrom with
  | none => d
  | some n =>
    if d.bt + 1 < n + msToBt d 4 ∨ resetHeld d ∨ safe d then d
    else
      let d := portsDown (gateArray (processorStops (captureHeld (if fwRuns d then holdRates d else d))))
      let d := gnssDomainReset (tiuReset (loseScribe ((List.range 4).foldl resetEndpoint d)))
      let d := clearClients { d with ct := { d.ct with retainedFrom := some d.bt } }
      let d := dropStats (zeroCounters d) fun k => [StatKind.ntp, .nts, .ptp, .cls].any fun s => decide (s.code = k)
      let d := bumpFld (enterPower (setFld d .jigStatus 0 Jig.oldContexts 0) 2) .power 0 Pow.ktEntries
      let d := { d with
        atEdge := d.atEdge.filter fun e => keptOver e.2 || (match e.2 with | .write .. => true | _ => false)
        mbx := MbxState.reset, ptp := PtpState.reset
        arr := { d.arr with queue := [], ctx := [], staged := none }
        pwr := { d.pwr with phase := .mainOff, plls := 0, mainEnAt := none, ktFrom := none, sharedGated := false
                            halted := false, reloadDue := none, xspiHigh := none, xspiMode := .first
                            tablesLost := true } }
      if flag d .power 0 Pow.wakeLatched then beginWake d else d

/-- PERST released: TotalVFs takes the value written (R316); in KEEP-TIME it wakes the device. -/
def perstDeassert (d : Dev) (e : Nat) : Dev :=
  if !(getEp d e).perst then d
  else
    let d := setEp d e { getEp d e with perst := false }
    let d := setFld (setFld d .endpoint e Ep.totalVfsActive (fld d .endpoint e Ep.totalVfs)) .endpoint e Ep.perstBt d.bt
    wakeEvent d 2 e

/-! ### Sideband (R438, R472, R473) -/

def sidebandWake (d : Dev) (code data : Nat) (pecOk : Bool) : Dev :=
  if code = 0xA1 ∧ data = 0x57 ∧ pecOk then wakeEvent (bumpFld d .power 0 Pow.sidebandWakes) 3 0 else d

/-- The sideband status block (Table PIN.6). The hottest reading is free. -/
def sidebandBlock (d : Dev) : List Byte × Dev :=
  let (temp, d) := draw d
  let fs := getRec d .faultStatus 0
  let first := getRec d .faultRec recFirst
  let top (f : Fld) : Nat := if getF first FRec.valid = 1 then getF first f else 0
  let st := getRec d .steer 0
  let lp := getRec d .leap 0
  let fl := b2n (safe d) + 2 * b2n (fwRuns d) + 4 * b2n (aliveRunning d) + 8 * b2n (faultN d)
    + 16 * b2n d.flt.graceEnd.isSome + 32 * b2n (flag d .controller 0 Ctl.lapsed) + 64 * b2n (resetHeld d)
  let offs := getF st Steer.offsetAValid * 8 + getF st Steer.offsetBValid * 4 + getF st Steer.offsetASat * 2
    + getF st Steer.offsetBSat
  let head := [(0x41 : Byte), 0x58, 0x53, 0x42, 0x01] ++ leBytes 1 d.key.lifeCycle ++ leBytes 1 (power d) ++ leBytes 1 fl
    ++ leBytes 8 d.bt ++ leBytes 12 d.ts.tsh.tw96 ++ leBytes 1 (getF fs FSt.gravest) ++ leBytes 1 (controllerEp d)
    ++ leBytes 2 (fld d .resetCause 0 RCause.cause)
  let mid := leBytes 2 (top FRec.source) ++ leBytes 2 (top FRec.count) ++ leBytes 2 (getF fs FSt.escSource)
    ++ leBytes 1 (getF st Steer.steerState) ++ leBytes 1 (getF st Steer.select) ++ leBytes 8 (getF st Steer.offsetA)
    ++ leBytes 8 (getF st Steer.offsetB) ++ leBytes 1 (fld d .servoStatus 0 SrvSt.servoState)
    ++ leBytes 1 (fld d .servoStatus 1 SrvSt.servoState) ++ leBytes 1 offs ++ leBytes 1 (getF lp Leap.dNowS)
    ++ leBytes 1 (getF lp Leap.leapKnown * 4 + getF lp Leap.leapStale * 2 + getF lp Leap.pending) ++ leBytes 1 temp
    ++ leBytes 2 0
  let tail := (List.range 10).flatMap (refStateByte d) ++ leBytes 6 0 ++ leBytes 8 (getF fs FSt.safeBt)
    ++ leBytes 8 (getF fs FSt.escalationBt) ++ leBytes 4 d.pwr.running.version ++ leBytes 1 (runningSlot d)
    ++ leBytes 1 (b2n (trialActive d)) ++ leBytes 2 d.pwr.railsOut ++ leBytes 1 ((tagCurrent d).getD 0xFF) ++ leBytes 7 0
    ++ leBytes 8 (getF fs FSt.gravestBt) ++ leBytes 8 0
  (head ++ mid ++ tail, d)

/-- The CRC-8 of SMBus. -/
def pecByte (c : Nat) (b : Byte) : Nat :=
  (List.range 8).foldl (fun c _ => if 0x80 ≤ c then (2 * c % 0x100) ^^^ 0x07 else 2 * c) (c ^^^ b.toNat)

/-- What the target sends in answer to a block read: the byte count, the page, and the PEC over the whole transaction. -/
def blockAnswer (code : Nat) (page : List Byte) : List Byte :=
  let addr := 2 * (0x58 + Config.sbStrap % 4)
  let body := leBytes 1 page.length ++ page
  body ++ leBytes 1 ((leBytes 1 addr ++ leBytes 1 code ++ leBytes 1 (addr + 1) ++ body).foldl pecByte 0)

/-- The page a command code selects, latched whole at an edge. -/
def sidebandPage (d : Dev) (code : Nat) : Dev :=
  if code < 4 then
    let (b, d) := sidebandBlock d
    emit d (.sideband (blockAnswer code (slice b (32 * code) 32)))
  else if 8 ≤ code ∧ code < 16 then
    emit d (.sideband (blockAnswer code (slice (currentTag d) (32 * (code - 8)) 32)))
  else emit d (.sideband (blockAnswer code []))

/-! ### Boundary scan (R400, R401, R474) -/

/-- The instruction a code selects in the life-cycle state. -/
def jtagSelect (d : Dev) (i : JtagInstr) : JtagInstr :=
  match i with
  | .bypass | .other => .bypass
  | .idcode => .idcode
  | i => if d.key.lifeCycle ≤ 1 then i else .bypass

def idcode (v : Variant) : Nat := 0x08800B8D + v.code * 2 ^ 28

/-- An instruction selected; the test port has power on a main rail (rail 13). Under scan control no timing output operates:
a pulse in progress ends. -/
def jtagInstruction (d : Dev) (i : JtagInstr) : Dev :=
  if !mainPowered d then d
  else
    let sel := jtagSelect d i
    let d := { d with key := { d.key with jtag := sel } }
    let d := if scanHeld d then (List.range 6).foldl endPulse ((List.range 16).foldl truncateTx d) else d
    if sel = .idcode then emit d (.idcode (idcode d.variant)) else d

/-! ### Commands (R434, R441) -/

def powerBytes (d : Dev) : List Byte := recBytes .power (powerImage d)

/-- Any door holds a lock. -/
def anyLock (d : Dev) : Bool := !d.mbx.locks.isEmpty

def powerTarget (d : Dev) (t : Nat) : Reply :=
  if pendingState d ≠ 0 then .done .state [] [] d
  else if t = power d then .done .ok (powerBytes d) [] d
  else if t = 2 then
    if trialActive d || anyLock d then .done .state [] [] d
    else
      let d := setPowerPending { d with pwr := { d.pwr with ktFrom := some d.bt } } 2
      .done .ok (powerBytes d) [] d
  else
    let d := if t = 1 then defer (setPowerPending d 1) .listen else defer (setPowerPending d 3) .listenExit
    .done .ok (powerBytes d) [] d

def powerStateCmd : Cmd :=
  { op := 0x5100, readBy := [.c], writeBy := [.c], isWrite := fun p => decide (rdLe p 0 1 ≠ 0xFF)
    check := fun _ p _ => if p.length = 4 ∧ (rdLe p 0 1 ≤ 2 ∨ rdLe p 0 1 = 0xFF) then none else some .badLength
    body := fun _ p d =>
      if rdLe p 0 1 = 0xFF then readReply .power (powerImage d) (readClear d .power 0) else powerTarget d (rdLe p 0 1) }

def deviceResetCmd : Cmd :=
  { op := 0x5101, writeBy := [.c], isWrite := fun _ => true, check := lens [0]
    body := fun _ _ d =>
      if d.mbx.locks.any fun l => decide (l.code = 0x0010) || decide (l.code = 0x0011) then .done .state [] [] d
      else .done .ok (leBytes 8 d.bt) []
        { d with pwr := { d.pwr with resetDue := some (d.pwr.resetDue.getD (d.bt + msToBt d 1, 3)) } } }

def causeBytes (d : Dev) : List Byte := recBytes .resetCause (getRec d .resetCause 0)

def resetCauseCmd : Cmd :=
  { op := 0x5102, readBy := [.c, .p], writeBy := [.c], isWrite := fun p => decide (p.length ≠ 0), check := lens [0, 4]
    body := fun _ p d =>
      let m := rdLe p 0 2 % 2 ^ 15
      let c := fld d .resetCause 0 RCause.cause
      let d := if p.length = 0 then d else setFld d .resetCause 0 RCause.cause (c - (c &&& m))
      .done .ok (causeBytes d) [] d }

def execPowerStateRead (m : Msg) (s : State) : Host.Outcome State Fault Refusal := mailbox powerStateCmd (withByte 0 0xFF m) s
def execPowerStateFull (m : Msg) (s : State) : Host.Outcome State Fault Refusal := mailbox powerStateCmd (withByte 0 0 m) s
def execPowerStateListen (m : Msg) (s : State) : Host.Outcome State Fault Refusal := mailbox powerStateCmd (withByte 0 1 m) s
def execPowerStateKeepTime (m : Msg) (s : State) : Host.Outcome State Fault Refusal :=
  mailbox powerStateCmd (withByte 0 2 m) s
def execDeviceReset (m : Msg) (s : State) : Host.Outcome State Fault Refusal := mailbox deviceResetCmd m s
def execResetCauseRead (m : Msg) (s : State) : Host.Outcome State Fault Refusal := mailbox resetCauseCmd m s
def execResetCauseClear (m : Msg) (s : State) : Host.Outcome State Fault Refusal := mailbox resetCauseCmd m s

def execAonPowerOn (s : State) : Host.Outcome State Fault Refusal := withDev s aonPowerOn
def execAonSupplyLoss (s : State) : Host.Outcome State Fault Refusal := whenOn s supplyLoss
def execMainRailsCheck (low : List (Fin 16)) (s : State) : Host.Outcome State Fault Refusal :=
  whenOn s fun d => mainRailsCheck d (low.map (·.val))
def execResetNAssert (s : State) : Host.Outcome State Fault Refusal := whenOn s resetNAssert
def execPinLong (s : State) : Host.Outcome State Fault Refusal := whenOn s pinLong
def execResetNDeassert (s : State) : Host.Outcome State Fault Refusal := whenOn s resetNDeassert
def execDeviceResetStart (s : State) : Host.Outcome State Fault Refusal := whenOn s deviceResetStart
def execFullBoot (s : State) : Host.Outcome State Fault Refusal := whenOn s fullBoot
def execProcessorBoot (s : State) : Host.Outcome State Fault Refusal := whenOn s processorBoot
def execFwReady (s : State) : Host.Outcome State Fault Refusal := whenOn s fwReady
def execMpWatchdogExpiry (s : State) : Host.Outcome State Fault Refusal := whenOn s watchdogExpiry
def execTrialConfirmExpiry (s : State) : Host.Outcome State Fault Refusal := whenOn s trialExpiry
def execWakeNAssert (s : State) : Host.Outcome State Fault Refusal := whenOn s fun d => wakeEvent d 1 0
def execPerstDeassert (ep : Fin 4) (s : State) : Host.Outcome State Fault Refusal :=
  whenOn s fun d => perstDeassert d ep.val
def execSidebandWake (code data : Byte) (pecOk : Bool) (s : State) : Host.Outcome State Fault Refusal :=
  whenOn s fun d => sidebandWake d code.toNat data.toNat pecOk
def execSidebandBlockRead (code : Byte) (s : State) : Host.Outcome State Fault Refusal :=
  whenOn s fun d => defer d (.sideband code.toNat)
def execJtagInstruction (i : JtagInstr) (s : State) : Host.Outcome State Fault Refusal :=
  whenOn s fun d => jtagInstruction d i
def execKeepTimeEntry (s : State) : Host.Outcome State Fault Refusal := whenOn s keepTimeEntry
def execListenSharedAreaDrain (s : State) : Host.Outcome State Fault Refusal := whenOn s listenDrain
def execVoltRange (rail : Fin 16) (s : State) : Host.Outcome State Fault Refusal := whenOn s fun d => voltRange d rail.val
def execRailWithinLimits (rail : Fin 16) (s : State) : Host.Outcome State Fault Refusal :=
  whenOn s fun d => railWithin d rail.val
def execTempHigh (sensor : Fin 8) (s : State) : Host.Outcome State Fault Refusal :=
  whenOn s fun d => tempEpisode d sensor.val 0x12
def execTempCrit (sensor : Fin 8) (s : State) : Host.Outcome State Fault Refusal :=
  whenOn s fun d => tempEpisode d sensor.val 0x13
def execTempEpisodeEnd (sensor : Fin 8) (critical : Bool) (s : State) : Host.Outcome State Fault Refusal :=
  whenOn s fun d => tempEnd d sensor.val critical
def execOscCheck (off : Bool) (s : State) : Host.Outcome State Fault Refusal := whenOn s fun d => oscCheck d off
def execPllUnlock (pll : Fin 5) (s : State) : Host.Outcome State Fault Refusal := whenOn s fun d => pllUnlock d pll.val
def execPllRelock (pll : Fin 5) (s : State) : Host.Outcome State Fault Refusal := whenOn s fun d => pllRelock d pll.val

end Sys2Proof.Machine
end

