-- ==== Sys2Proof/Machine/Observe.lean ====
section
/-! DEFINITION. The COUNTERS and SCRIBE commands (19_counters_and_trace.md): event modes, the gauge and its snapshots, the
scribe's segments and the OBS output's record. -/

namespace Sys2Proof.Machine

open Sys2Proof

/-! ### Event records (R443, R445) -/

def ctrCount : Nat := 106496

def ctrIdx (p : List Byte) : Nat := rdLe p 0 4

/-- A fixed MODE stays (R443). -/
def ctrDep (i : Nat) : Dep := fun f _ v =>
  if f = CEv.mode ∧ (ctrDefault i).2 ∧ v ≠ (ctrDefault i).1 then some ((ctrDefault i).1, .dependent) else none

def ctrConfigCmd : Cmd :=
  RecSpec.cmd { kind := .ctrEvent, ib := 4, present := fun d i => ctrPresent d.variant i, image := plainImage .ctrEvent
                dep := fun _ i _ => ctrDep i, answer := fun d _ r => setF r CEv.modeBt (nextEdge d)
                apply := atNextEdge .ctrEvent } 0x6000 [.c, .p] [.c]

/-! ### Gauge (R446, R447) -/

def lockGauge : Nat := 0x0030

def gaugeCmd : Cmd :=
  { op := 0x6001, readBy := [.c, .p], check := lens [0], locks := fun _ => [lockGauge]
    body := fun x _ d =>
      match d.obs.gauge with
      | some g => .done .busy (busyPayload ⟨lockGauge, g.fn, g.door, g.strobeBt - 2⟩) [] d
      | none =>
        .wait .gauge { d with obs := { d.obs with
          gauge := some { strobeBt := d.bt + 2, fn := x.fn, door := x.door, captured := none } } } }

/-- The capture cycle: the 33rd engine cycle after STROBE_BT, 20 ns after it; every counter is taken as it stands before
that cycle. -/
def gaugeStrobe (d : Dev) : Dev :=
  match d.obs.gauge with
  | some g =>
    if g.captured.isSome ∨ d.bt < g.strobeBt ∨ !fastRuns d then d
    else
      let d := { d with obs := { d.obs with phase := max 32 d.obs.phase } }
      let d := settleEdge d
      let snap : Snapshot := { id := d.obs.snapCount + 1, strobeBt := g.strobeBt, values := d.obs.ctr }
      { d with obs := { d.obs with gauge := some { g with captured := some snap } } }
  | none => d

/-- The copy is complete: the snapshot replaces the older of the two held, and GAUGE completes. -/
def gaugeCopyComplete (d : Dev) : Dev :=
  match d.obs.gauge with
  | some g =>
    match g.captured with
    | some s =>
      let kept := d.obs.snaps ++ [s]
      let d := { d with obs := { d.obs with gauge := none, snapCount := d.obs.snapCount + 1
                                            snaps := kept.drop (kept.length - 2) } }
      complete d g.fn g.door .ok (leBytes 4 s.id ++ leBytes 4 0 ++ leBytes 8 s.strobeBt) []
    | none => d
  | none => d

/-! ### Reading counters (R444, R448, R449) -/

/-- The latest complete snapshot. -/
def lastSnap (d : Dev) : Option Snapshot := d.obs.snaps.getLast?

def snapValue (d : Dev) (s : Snapshot) (i : Nat) : Nat := if ctrPresent d.variant i then Tab.get 0 s.values i else 0

def liveValue (d : Dev) (i : Nat) : Nat := if ctrPresent d.variant i then ctrValue d i else 0

/-- The counters of a tenant, while its CTR_WINDOW_EN is 1. -/
def ownCounters (d : Dev) (t first count : Nat) : Bool :=
  flag d .tenant t Ten.ctrWindowEn && decide (tenantCtr t 0 ≤ first) && decide (first + count ≤ tenantCtr t 24)

def ctrReadCmd : Cmd :=
  { op := 0x6002, readBy := [.c, .p]
    admits := fun x p d b =>
      match x.acting, x.vfTenant with
      | some t, _ => ownCounters d t (rdLe p 4 4) (rdLe p 8 4)
      | none, some t => ownCounters d t (rdLe p 4 4) (rdLe p 8 4)
      | none, none => b
    check := fun _ p _ =>
      if p.length = 16 ∧ rdLe p 8 4 ≠ 0 ∧ rdLe p 4 4 + rdLe p 8 4 ≤ ctrCount then none else some .badLength
    body := fun _ p d =>
      let id := rdLe p 0 4
      let idx := (List.range (rdLe p 8 4)).map (rdLe p 4 4 + ·)
      if id = 0 then
        let d := settleAll d
        .done .ok (leBytes 4 0 ++ leBytes 4 0 ++ leBytes 8 0 ++ idx.flatMap fun i => leBytes 8 (liveValue d i)) [] d
      else match d.obs.snaps.find? fun s => decide (s.id = id) with
        | none => .done .state [] [] d
        | some s =>
          .done .ok (leBytes 4 id ++ leBytes 4 0 ++ leBytes 8 s.strobeBt ++ idx.flatMap fun i => leBytes 8 (snapValue d s i))
            [] d }

/-! ### Scribe (R450–R455) -/

/-- The limits of a scribe record that are its own or refer elsewhere (Table OBS.11). -/
def scribeDep (d : Dev) : Dep := fun f acc v =>
  if f = Scr.segments then
    let n := if 16 ≤ v then 16 else if 8 ≤ v then 8 else if 4 ≤ v then 4 else if 2 ≤ v then 2 else 1
    some (n, .enum)
  else if f = Scr.trigSource then
    if v = 0 ∨ srcExists d v then none
    else some (0, if (srcInfo v).cls ≠ 0 ∧ srcInst v < srcInstances (srcCode v) then .absent else .enum)
  else if f = Scr.preTrigger then
    let top := 131072 / max 1 (getF acc Scr.segments) - 1
    if v ≤ top then none else some (top, .dependent)
  else if f = Scr.flowTenant then
    if v < 4096 ∨ v = 0x1FFF then some (v, .range) else some (if 0x1FFF - v < v - 4095 then 0x1FFF else 4095, .range)
  else if f = Scr.macPortMask then
    if v &&& portMask d = v then none else some (v &&& portMask d, .absent)
  else none

/-- Capturing, or about to. -/
def scribeBusy (d : Dev) : Bool := decide (1 ≤ scribeState d) && decide (scribeState d ≤ 3)

def scribeConfigCmd : Cmd :=
  RecSpec.cmd { kind := .scribe, ib := 0, image := plainImage .scribe, dep := fun d _ _ => scribeDep d
                refuse := fun d _ _ => if scribeBusy d then some .state else none
                apply := atNextEdge .scribe } 0x6100 [.c, .p] [.c]

/-- The scribe status record (Table OBS.12). -/
def scribeBytes (d : Dev) : List Byte :=
  leBytes 16 (getRec d .scribeHdr 0) ++ (List.range 16).flatMap fun i => leBytes 16 (getRec d .scribeSeg i)

def setScribe (d : Dev) (st : Nat) : Dev := setFld d .scribeHdr 0 ScrSt.scribeState st

/-- A segment armed, its earlier contents lost. -/
def armSegment (d : Dev) (i : Nat) : Dev :=
  let d := { d with obs := { d.obs with records := Tab.set [] d.obs.records i [], post := 0 } }
  let d := setFld (setRec d .scribeSeg i 0) .scribeSeg i ScrSt.eSegState 1
  setScribe (setFld d .scribeHdr 0 ScrSt.curSegment i) 1

def scribeArmCmd : Cmd :=
  { op := 0x6101, writeBy := [.c], isWrite := fun _ => true, check := lens [0]
    body := fun _ _ d =>
      let d := (List.range 16).foldl (fun d i => setRec d .scribeSeg i 0) { d with obs := { d.obs with records := [] } }
      let d := armSegment d 0
      .done .ok (scribeBytes d) [] d }

def scribeTriggerCmd : Cmd :=
  { op := 0x6102, writeBy := [.c], isWrite := fun _ => true, check := lens [0]
    body := fun _ _ d =>
      if scribeState d = 1 then
        let d := scribeTrigger d 1 0
        .done .ok (scribeBytes d) [] d
      else .done .state [] [] (scribeTrigger d 1 0) }

def scribeStatusCmd : Cmd :=
  { op := 0x6103, readBy := [.c, .p], check := lens [0]
    body := fun _ _ d =>
      .done .ok (scribeBytes d) [] (setFld (setFld d .scribeHdr 0 ScrSt.trigIgnored 0) .scribeHdr 0 ScrSt.recordsLost 0) }

/-- The current segment ends COMPLETE (2) or CUT (3), and REARM follows. Where the oldest record stands in a full
pre-trigger ring is free. -/
def endSegment (d : Dev) (st : Nat) : Dev :=
  let i := curSegment d
  let pre := fld d .scribe 0 Scr.preTrigger
  let d := if st = 3 then setFld d .scribeSeg i ScrSt.eActualPre (segList d i).length else d
  let (v, d) := draw d
  let at_ := if fld d .scribeSeg i ScrSt.eActualPre < pre then 0 else v % max 1 pre
  let d := setFld (setFld d .scribeSeg i ScrSt.eSegState st) .scribeSeg i ScrSt.eFirstRec at_
  setScribe { d with obs := { d.obs with rearmBt := d.bt } } 3

/-- The post-trigger part is full (R451). -/
def segmentComplete (d : Dev) : Dev :=
  if scribeState d = 2 ∧ segRecords d - fld d .scribe 0 Scr.preTrigger ≤ d.obs.post then endSegment d 2 else d

/-- REARM is over (R453, R455). -/
def rearmEnd (d : Dev) : Dev :=
  if scribeState d ≠ 3 ∨ d.bt < d.obs.rearmBt + 2 then d
  else if flag d .scribe 0 Scr.autoRearm = false then setScribe d 4
  else
    let i := curSegment d + 1
    if i < fld d .scribe 0 Scr.segments then armSegment d i
    else if flag d .scribe 0 Scr.wrap then armSegment d 0
    else setScribe d 4

def scribeAdvanceCmd : Cmd :=
  { op := 0x6105, writeBy := [.c], isWrite := fun _ => true, check := lens [0]
    body := fun _ _ d =>
      if scribeState d = 1 ∨ scribeState d = 2 then
        let d := endSegment d (if scribeState d = 1 then 3 else 2)
        .done .ok (scribeBytes d) [] d
      else .done .state [] [] d }

def scribeReadCmd : Cmd :=
  { op := 0x6104, readBy := [.c]
    check := fun _ p _ =>
      if p.length = 12 ∧ rdLe p 0 1 < 16 ∧ 1 ≤ rdLe p 8 4 ∧ rdLe p 8 4 ≤ 32767 then none else some .badLength
    body := fun _ p d =>
      let i := rdLe p 0 1
      if fld d .scribeSeg i ScrSt.eSegState ≤ 1 then .done .state [] [] d
      else
        let l := ((segList d i).drop (rdLe p 4 4)).take (rdLe p 8 4)
        .done .ok (leBytes 4 l.length ++ leBytes 4 0 ++ l.flatMap (leBytes 32)) [] d }

/-! ### OBS output (R457) -/

def obsConfigCmd : Cmd :=
  RecSpec.cmd { kind := .obs, ib := 0, image := plainImage .obs, apply := atNextEdge .obs } 0x6106 [.c, .p] [.c]

def execCtrConfig (m : Msg) (s : State) : Host.Outcome State Fault Refusal := mailbox ctrConfigCmd m s
def execGauge (m : Msg) (s : State) : Host.Outcome State Fault Refusal := mailbox gaugeCmd m s
def execCtrRead (m : Msg) (s : State) : Host.Outcome State Fault Refusal := mailbox ctrReadCmd m s
def execScribeConfig (m : Msg) (s : State) : Host.Outcome State Fault Refusal := mailbox scribeConfigCmd m s
def execScribeArm (m : Msg) (s : State) : Host.Outcome State Fault Refusal := mailbox scribeArmCmd m s
def execScribeTrigger (m : Msg) (s : State) : Host.Outcome State Fault Refusal := mailbox scribeTriggerCmd m s
def execScribeStatus (m : Msg) (s : State) : Host.Outcome State Fault Refusal := mailbox scribeStatusCmd m s
def execScribeRead (m : Msg) (s : State) : Host.Outcome State Fault Refusal := mailbox scribeReadCmd m s
def execScribeAdvance (m : Msg) (s : State) : Host.Outcome State Fault Refusal := mailbox scribeAdvanceCmd m s
def execObsConfig (m : Msg) (s : State) : Host.Outcome State Fault Refusal := mailbox obsConfigCmd m s

def execGaugeStrobe (s : State) : Host.Outcome State Fault Refusal := whenOn s gaugeStrobe
def execGaugeCopyComplete (s : State) : Host.Outcome State Fault Refusal := whenOn s gaugeCopyComplete
def execScribeSegmentComplete (s : State) : Host.Outcome State Fault Refusal := whenOn s segmentComplete
def execScribeRearmEnd (s : State) : Host.Outcome State Fault Refusal := whenOn s rearmEnd

end Sys2Proof.Machine
end

