-- ==== Sys2Proof/Machine/Bar.lean ====
section
/-! DEFINITION. BAR registers (R318, Tables HOST.1–HOST.4, MBX.1, OBS.6): reads and writes of 32 and 64 bits. A 64-bit
access is its low dword, then its high dword. -/

namespace Sys2Proof.Machine

open Sys2Proof

/-- Half h of a 64-bit register. -/
def halfOf (h v : Nat) : Nat := v / 2 ^ (32 * h) % 2 ^ 32

/-! ### Status pages (Tables HOST.3 and HOST.4) -/

def pfStatusWord (d : Dev) (e : Nat) : Nat :=
  controllerEp d * 2 ^ 30 + b2n (decide (controllerEp d = e)) * 2 ^ 29 + b2n (lapsed d) * 2 ^ 28
    + otpState d.key.otp * 2 ^ 26 + b2n (decide (power d = 1)) * 2 ^ 25 + gravest d % 8 * 2 ^ 22
    + b2n (doorsServed d) * 2 ^ 21

/-- 32 bits of VF_SUMMARY from VF 32k. -/
def summaryWord (d : Dev) (e k : Nat) : Nat :=
  (List.range 32).foldl (fun a i => if eventWord d e (32 * k + i) = 0 then a else a + 2 ^ i) 0

def pfPage (d : Dev) (e off : Nat) : Nat :=
  let s := getFn d (pfOf e)
  if off = 0x00 then 0x8800 * 2 ^ 16 + d.variant.code * 2 ^ 8 + e
  else if off = 0x04 then d.pwr.running.version % 2 ^ 32
  else if off = 0x08 then pfStatusWord d e
  else if off = 0x10 then d.bt % 2 ^ 32
  else if off = 0x14 then halfOf 1 s.btLatch
  else if off = 0x20 then s.deviceEvents
  else if off = 0x24 then s.deviceEventMask
  else if 0x100 ≤ off ∧ off < 0x180 then summaryWord d e ((off - 0x100) / 4)
  else 0

def vfPage (d : Dev) (e v off : Nat) : Nat :=
  let s := getFn d (vfOf e v)
  let t := vfTenant d e v
  if off = 0x00 then (match t with | some t => 2 ^ 31 + t * 2 ^ 16 + tenantView d t * 2 ^ 8 | none => 0)
  else if off = 0x04 then eventWord d e v
  else if off = 0x08 then s.eventsInFlr
  else if off = 0x0C then (match t with | some t => Tab.get 0 d.arr.served t | none => 0)
  else if off = 0x10 then d.bt % 2 ^ 32
  else if off = 0x14 then halfOf 1 s.btLatch
  else 0

/-! ### MSI-X structures (PCIe Base 4.0) -/

/-- A dword of the table never written: zero, and the vector masked. -/
def msixReset (i : Nat) : Nat := if i % 4 = 3 then 1 else 0

def msixDword (s : FnState) (i : Nat) : Nat := Tab.get (msixReset i) s.msix i

/-- The address is dword-aligned, and the control word holds the mask bit. -/
def msixKeep (i v : Nat) : Nat := if i % 4 = 3 then v % 2 else if i % 4 = 0 then v / 4 * 4 else v

def writeMsix (d : Dev) (f : Fn) (i v : Nat) : Dev :=
  let s := getFn d f
  flushMsix (setFn d f { s with msix := Tab.set (msixReset i) s.msix i (msixKeep i v) }) f

/-! ### Doors (Tables MBX.1 and MBX.2) -/

/-- The response half as the host reads it. -/
def responseBytes (r : Response) : List Byte :=
  leBytes 2 r.op ++ leBytes 2 r.flags ++ leBytes 4 r.sequence.toNat ++ leBytes 4 r.payload.length ++ leBytes 2 r.fragIndex
    ++ leBytes 2 r.fragTotal ++ leBytes 4 r.acting ++ leBytes 4 r.status.code ++ leBytes 8 0 ++ r.payload

/-- A dword of a door. From the acceptance of a doorbell until DONE the response buffer is undefined (R335): a free value. -/
def doorDword (d : Dev) (f : Fn) (door off : Nat) : Nat × Dev :=
  let x := getDoor d f door
  if off = 0x18 ∨ off = 0x1C then (0, d)
  else if off < 0x1000 then (rdLe x.reqBuf off 4, d)
  else if off = 0x1018 then (doorStatus d f door, d)
  else if off = 0x101C then (0, d)
  else if x.phase = .posted ∨ x.phase = .serving then let (v, d) := draw d; (v % 2 ^ 32, d)
  else match x.resp with
    | some r => (rdLe (responseBytes r) (off - 0x1000) 4, d)
    | none => (0, d)

/-- A DOORBELL write (R335): the request as the buffer holds it. -/
def requestOf (f : Fn) (door : Nat) (b : List Byte) : Nat × Msg :=
  (rdLe b 0 2,
   { fn := f, door := Fin.ofNat 8 (if f.vf.isSome then 0 else door), flags := BitVec.ofNat 16 (rdLe b 2 2)
     sequence := BitVec.ofNat 32 (rdLe b 4 4), length := BitVec.ofNat 32 (rdLe b 8 4)
     fragIndex := BitVec.ofNat 16 (rdLe b 12 2), fragTotal := BitVec.ofNat 16 (rdLe b 14 2)
     acting := BitVec.ofNat 32 (rdLe b 16 4), payload := slice b 32 (min (rdLe b 8 4) fragMax) })

def ringDoorbell (d : Dev) (f : Fn) (door : Nat) : Dev :=
  if !barUp d f ∨ (f.vf.isSome ∧ door ≠ 0) then d
  else
    let q := requestOf f door (getDoor d f door).reqBuf
    ring d q.1 q.2

def writeDoor (d : Dev) (f : Fn) (door off v : Nat) : Dev :=
  if off = 0x18 then ringDoorbell d f door
  else if off = 0x1C ∨ 0x1000 ≤ off then d
  else
    let x := getDoor d f door
    setDoor d f door { x with reqBuf := overwrite x.reqBuf off (leBytes 4 v) }

/-! ### Ring blocks -/

/-- A dword of a ring block, and the device after its RC fields have been read. -/
def ringDword (d : Dev) (f : Fn) (tx : Bool) (r k : Nat) : Nat × Dev :=
  let i := ringIdx f tx r
  let v := getRec d .ring i / 2 ^ (32 * k) % 2 ^ 32
  (v, if k = 3 then setFld d .ring i Rng.refused 0 else d)

def writeRingDword (d : Dev) (f : Fn) (tx : Bool) (r k v : Nat) : Dev :=
  if k = 4 then ringProducer d f tx r (v / 2 ^ 16) []
  else if k = 5 then ringEnableWrite d f tx r v
  else ringWrite d f tx r (32 * k) (32 * k + 31) v

/-! ### Counter windows (R449) -/

/-- The snapshot a function's window shows: the latest complete one, unless a reset has taken it (R328). -/
def windowSnap (d : Dev) (f : Fn) : Option Snapshot :=
  match lastSnap d with
  | some s =>
    if max (Tab.get 0 d.host.snapGone (Fn.key f)) (Tab.get 0 d.host.snapGone (5000 + f.ep.val)) < s.id then some s else none
  | none => none

def snapId (o : Option Snapshot) : Nat := match o with | some s => s.id | none => 0

def snapBt (o : Option Snapshot) : Nat := match o with | some s => s.strobeBt | none => 0

def shownSnap (d : Dev) (o : Option Snapshot) (i : Nat) : Nat := match o with | some s => snapValue d s i | none => 0

def pfWindow (d : Dev) (f : Fn) (off : Nat) : Nat × Dev :=
  let s := getFn d f
  let o := windowSnap d f
  if off = 0x00 then (s.pageBase, d)
  else if off = 0x04 then (s.winSource, d)
  else if off = 0x08 then (snapId o % 2 ^ 32, d)
  else if off = 0x10 ∨ off = 0x14 then (halfOf (off % 8 / 4) (snapBt o), d)
  else if off < 0x40 then (0, d)
  else
    let i := s.pageBase + (off - 0x40) / 8
    if s.winSource = 1 then (halfOf (off % 8 / 4) (shownSnap d o i), d)
    else let d := settleAll d; (halfOf (off % 8 / 4) (liveValue d i), d)

def vfWindow (d : Dev) (f : Fn) (t off : Nat) : Nat × Dev :=
  let o := windowSnap d f
  if flag d .tenant t Ten.ctrWindowEn = false then (0, d)
  else if off < 0xC0 then
    let d := settleAll d
    (halfOf (off % 8 / 4) (liveValue d (tenantCtr t (off / 8))), d)
  else if off = 0x100 then (snapId o % 2 ^ 32, d)
  else if off = 0x108 ∨ off = 0x10C then (halfOf (off % 8 / 4) (snapBt o), d)
  else if 0x140 ≤ off ∧ off < 0x200 then (halfOf (off % 8 / 4) (shownSnap d o (tenantCtr t ((off - 0x140) / 8))), d)
  else (0, d)

/-- PAGE_BASE and SOURCE written. -/
def writePfWindow (d : Dev) (f : Fn) (off v : Nat) : Dev :=
  let s := getFn d f
  if off = 0x00 then setFn d f { s with pageBase := min v 106495 }
  else if off = 0x04 then setFn d f { s with winSource := v % 2 }
  else d

/-! ### Accesses -/

/-- A read of the status page's dword at an offset clears EVENTS_IN_FLR, and latches BT_COUNT when it is its low dword. -/
def pageRead (d : Dev) (f : Fn) (off : Nat) : Dev :=
  let s := getFn d f
  if off = 0x10 then setFn d f { s with btLatch := d.bt % 2 ^ 64 }
  else if off = 0x08 ∧ f.vf.isSome then setFn d f { s with eventsInFlr := 0 }
  else d

/-- One dword as read (Tables HOST.1 and HOST.2). In the FATAL safe state a host sees the status page alone (Table
SEC.9). -/
def barDword (d : Dev) (f : Fn) (off : Nat) : Nat × Dev :=
  match f.vf with
  | none =>
    if off < 0x1000 then (pfPage d f.ep.val off, pageRead d f off)
    else if safe d then (0, d)
    else if off < 0x1400 then (msixDword (getFn d f) ((off - 0x1000) / 4), d)
    else if off = 0x2000 ∨ off = 0x2004 then (halfOf (off % 8 / 4) (getFn d f).pendingBits, d)
    else if 0x4000 ≤ off ∧ off < 0x4800 then ringDword d f false ((off - 0x4000) / 32) (off % 32 / 4)
    else if 0x4800 ≤ off ∧ off < 0x5000 then ringDword d f true ((off - 0x4800) / 32) (off % 32 / 4)
    else if 0x10000 ≤ off ∧ off < 0x20000 then doorDword d f ((off - 0x10000) / 0x2000) (off % 0x2000)
    else if 0x20000 ≤ off then pfWindow d f (off - 0x20000)
    else (0, d)
  | some v =>
    if off < 0x1000 then (vfPage d f.ep.val v.val off, pageRead d f off)
    else if safe d then (0, d)
    else if off < 0x1040 then (msixDword (getFn d f) ((off - 0x1000) / 4), d)
    else if off = 0x1800 ∨ off = 0x1804 then (halfOf (off % 8 / 4) (getFn d f).pendingBits, d)
    else if 0x2000 ≤ off ∧ off < 0x2080 then ringDword d f false ((off - 0x2000) / 32) (off % 32 / 4)
    else if 0x2080 ≤ off ∧ off < 0x2100 then ringDword d f true ((off - 0x2080) / 32) (off % 32 / 4)
    else if 0x4000 ≤ off ∧ off < 0x6000 then doorDword d f 0 (off - 0x4000)
    else if 0x8000 ≤ off ∧ off < 0x10000 then
      match vfTenant d f.ep.val v.val with
      | some t => vfWindow d f t (off - 0x8000)
      | none => (0, d)
    else (0, d)

/-- A 32-bit read; an unaligned one returns 0 (R318). -/
def barRead (d : Dev) (f : Fn) (off : Nat) : Dev :=
  if !barUp d f ∨ (f.vf.isSome ∧ 0x10000 ≤ off) then d
  else if off % 4 ≠ 0 then emit d (.barRead f off 0)
  else
    let (v, d) := barDword d f off
    emit d (.barRead f off v)

/-- One dword written. -/
def writeDword (d : Dev) (f : Fn) (off v : Nat) : Dev :=
  match f.vf with
  | none =>
    if off = 0x20 then deviceEventsW1c d f.ep.val v
    else if off = 0x24 then deviceEventMask d f.ep.val v
    else if 0x1000 ≤ off ∧ off < 0x1400 then writeMsix d f ((off - 0x1000) / 4) v
    else if 0x4000 ≤ off ∧ off < 0x4800 then writeRingDword d f false ((off - 0x4000) / 32) (off % 32 / 4) v
    else if 0x4800 ≤ off ∧ off < 0x5000 then writeRingDword d f true ((off - 0x4800) / 32) (off % 32 / 4) v
    else if 0x10000 ≤ off ∧ off < 0x20000 then writeDoor d f ((off - 0x10000) / 0x2000) (off % 0x2000) v
    else if 0x20000 ≤ off then writePfWindow d f (off - 0x20000) v
    else d
  | some w =>
    if off = 0x04 then vfEventW1c d f.ep.val w.val v
    else if 0x1000 ≤ off ∧ off < 0x1040 then writeMsix d f ((off - 0x1000) / 4) v
    else if 0x2000 ≤ off ∧ off < 0x2080 then writeRingDword d f false ((off - 0x2000) / 32) (off % 32 / 4) v
    else if 0x2080 ≤ off ∧ off < 0x2100 then writeRingDword d f true ((off - 0x2080) / 32) (off % 32 / 4) v
    else if 0x4000 ≤ off ∧ off < 0x6000 then writeDoor d f 0 (off - 0x4000) v
    else d

/-- A register written as an aligned access of 4 or 8 bytes; any other is ignored (R318). -/
def barWrite (d : Dev) (f : Fn) (off size v : Nat) : Dev :=
  if !barUp d f ∨ (f.vf.isSome ∧ 0x10000 ≤ off) then d
  else if size = 4 ∧ off % 4 = 0 then writeDword d f off (v % 2 ^ 32)
  else if size = 8 ∧ off % 8 = 0 then writeDword (writeDword d f off (v % 2 ^ 32)) f (off + 4) (v / 2 ^ 32 % 2 ^ 32)
  else d

def execDoorbell (fn : Fn) (door : Fin 8) (s : State) : Host.Outcome State Fault Refusal :=
  whenOn s fun d => ringDoorbell d fn door.val

def execBtCountLowRead (fn : Fn) (s : State) : Host.Outcome State Fault Refusal := whenOn s fun d => barRead d fn 0x10

def execReadClearRegisterRead (fn : Fn) (offset : BitVec 18) (s : State) : Host.Outcome State Fault Refusal :=
  whenOn s fun d => barRead d fn offset.toNat

def execBarRegisterWrite (fn : Fn) (offset : BitVec 18) (size : Nat) (value : BitVec 64) (s : State) :
    Host.Outcome State Fault Refusal :=
  whenOn s fun d => barWrite d fn offset.toNat size value.toNat

end Sys2Proof.Machine
end

