-- ==== Sys2Proof/Machine/Tick.lean ====
section
/-! DEFINITION. A base-tick edge (R42): the always-on island applies what is due in the order of R42, advances and steers
the timescales and publishes TSH; everything else that is due at the edge follows (R348). -/

namespace Sys2Proof.Machine

open Sys2Proof

/-! ### Record writes at their edge (R348) -/

/-- A record write taking effect, with what it changes beside the record. One made for a tenant that retires at the same
edge finds it RETIRING (R329). -/
def applyWrite (d : Dev) (k : RecKind) (i v : Nat) : Dev :=
  let plain (d : Dev) : Dev := setRec d k i (mergeRw k.fields (getRec d k i) v)
  match k with
  | .octet => applyOctet d i v
  | .shim => setFld (plain d) .shim i Shm.shimBt d.bt
  | .ctrEvent => setFld (plain (settleEdge d)) .ctrEvent i CEv.modeBt d.bt
  | .obs => plain { d with obs := { d.obs with obsOff := false } }
  | .tiuIn => applyInput d i v
  | .tiuDev => applyTiuDev d v
  | .tenant => applyTenant d i v
  | .controller => applyController d v
  | .addrEntry =>
    let d := plain d
    if tenantBound d (fld d .addrEntry i Addr.tenant) then d else setFld d .addrEntry i Addr.family 0
  | .ptpPort =>
    let d := plain d
    if fld d .ptpPort i PPort.role = 1 ∧ tenantBound d (fld d .ptpPort i PPort.tenant) = false then
      setFld d .ptpPort i PPort.role 0
    else d
  | _ => plain d

/-! ### The order of R42 -/

/-- Where an effect stands in an edge: rate writes (and the limit of a follower, which governs the edge's realignment),
sets, seed commits, clears, selection, and after the timescales everything else. -/
def EdgeOp.phase : EdgeOp → Nat
  | .rate .. | .osc _ | .servo .. => 0
  | .set .. | .step .. => 1
  | .seed _ => 2
  | .clear _ => 3
  | .select _ | .steer .. => 4
  | .write .follower _ _ => 0
  | .write .. | .portRestart .. | .nodeReset .. | .jigSwap .. | .viewCreate .. | .viewClear _ | .viewSmear .. | .leapPolicy _
  | .tiuRef _ | .outFast .. | .control _ | .bind .. | .tenantView .. | .retire .. | .lifeCycle _ | .faultClear .. | .listen
  | .listenExit | .sharedOn | .full | .sideband _ | .gpsLeap .. | .leapEval | .leapTable .. => 5

/-- A bound tenant's served state, as its next change is judged from. -/
def noteServed (d : Dev) (t : Nat) : Dev :=
  { d with arr := { d.arr with served := Tab.set 0 d.arr.served t (servedState d t (svcNow d)) } }

/-- An initial set that was made, not one that was refused. -/
def noteInitial (before d : Dev) (i : Nat) : Dev :=
  if (getTs d i).set && !(getTs before i).set then markInitial d i else d

/-- One effect at its edge. A rate write of TSH stands only while SELECT is NONE (R41). -/
def applyOp (d : Dev) : EdgeOp → Dev
  | .write k i v => applyWrite d k i v
  | .rate i inc => if i = 2 ∧ fld d .steer 0 Steer.select ≠ 0 then d else applyRate d i inc
  | .set i total ns f door => noteInitial d (applySet d i total ns f door) i
  | .step i off f door => noteInitial d (applyStep d i off f door) i
  | .seed x => applySeed d x
  | .clear i => markInitial (applyClear d i) i
  | .select v => (applySelect d v).1
  | .steer req f door => applySteer d req f door
  | .osc v => applyOsc d v
  | .portRestart p f door => applyPortRestart d p f door
  | .nodeReset c f door => applyNodeReset d c f door
  | .jigSwap f door => applyJigSwap d f door
  | .viewCreate v r => applyViewCreate d v r
  | .viewClear v => applyViewClear d v
  | .viewSmear v r => applyViewSmear d v r
  | .leapPolicy r => applyLeapPolicy d r
  | .servo m inc st kind disp delay _ => applyServo d m inc st kind disp delay
  | .tiuRef i => applyTiuRef d i
  | .outFast o v => applyOutFast d o v
  | .control e => applyControl d e
  | .bind t e v w => noteServed (applyBind d t e v w) t
  | .tenantView t w f door => applyTenantView d t w f door
  | .retire t f door => applyRetire d t f door
  | .lifeCycle st => applyLifeCycle d st
  | .faultClear l i m f door => applyFaultClear d l i m f door
  | .listen => applyListen d
  | .listenExit => applyListenExit d
  | .sharedOn => applySharedOn d
  | .full => enterPower d 0
  | .sideband c => sidebandPage d c
  | .gpsLeap g n => applyGpsLeap d g n
  | .leapEval => evalLeap d false
  | .leapTable force ex es f door => applyLeapTable d force ex es f door

def runPhase (ops : List EdgeOp) (p : Nat) (d : Dev) : Dev :=
  (ops.filter fun o => decide (o.phase = p)).foldl applyOp d

/-! ### Initial sets by the firmware (R262) -/

/-- TSH as the edge will leave it, and whether a TSH second begins at the edge. -/
def tshAhead (d : Dev) (ops : List EdgeOp) : Nat × Bool :=
  let x := advanceAll (steerInc (runPhase ops 4 d))
  (x.ts.tsh.total, decide (x.ts.tsh.sec ≠ d.ts.tsh.sec))

/-- The sets due at the edge: the master takes TSH of the edge plus ERR_H; one that has been set meanwhile is left. -/
def applyAutoSets (ops : List EdgeOp) (d : Dev) : Dev :=
  if d.disc.autoSets.isEmpty then d
  else
    let (h, second) := tshAhead d ops
    let due := d.disc.autoSets.filter fun a => second && decide (a.2.2 ≤ d.bt)
    let d := { d with disc := { d.disc with autoSets := d.disc.autoSets.filter fun a => !(second && decide (a.2.2 ≤ d.bt)) } }
    due.foldl (fun d a =>
      let t := getTs d a.1
      if t.set then d
      else
        let x : Int := h + a.2.1 * (2 ^ 24 : Nat)
        let n := (x.toNat + totalMod - t.inc) % totalMod
        markInitial (setTs d a.1 { t.withTotal n with set := true, stepSource := 1 }) a.1) d

/-! ### STEER records (R450) -/

/-- A STEER record: its target, STEER_STATE, the selected master's offset and the correction. -/
def traceSteer (d : Dev) (sub target : Nat) : Dev :=
  let r := getRec d .steer 0
  let off := match getF r Steer.select with | 1 => getF r Steer.offsetA | 2 => getF r Steer.offsetB | _ => 0
  trace d 3 sub 0 (leBytes 1 target ++ leBytes 1 (getF r Steer.steerState) ++ leBytes 2 0 ++ leBytes 8 off
    ++ leBytes 8 (getF r Steer.corr))

/-- The records of an edge, in the order of R42: rate writes, sets, clears, a selection, then the TICK. -/
def steerRecords (before : Dev) (ops : List EdgeOp) (d : Dev) : Dev :=
  let rates := ops.filterMap fun o => match o with
    | .rate i _ => some i
    | .servo m (some _) _ _ _ _ _ => some m
    | _ => none
  let clears := ops.filterMap fun o => match o with | .clear i => some i | _ => none
  let d := rates.foldl (fun d i => traceSteer d 2 i) d
  let d := [0, 1, 2].foldl (fun d i => if (getTs d i).set && !(getTs before i).set then traceSteer d 3 i else d) d
  let d := clears.foldl (fun d i => traceSteer d 4 i) d
  let d := if fld d .steer 0 Steer.select ≠ fld before .steer 0 Steer.select then traceSteer d 1 2 else d
  if d.bt % max 1 (fld d .scribe 0 Scr.steerDecim) = 0 then traceSteer d 0 2 else d

/-- A change of STEER_STATE or SELECT triggers the scribe (R451). -/
def steerTrigger (before d : Dev) : Dev :=
  if fld d .steer 0 Steer.select ≠ fld before .steer 0 Steer.select
      ∨ fld d .steer 0 Steer.steerState ≠ fld before .steer 0 Steer.steerState then autoTrigger d 2 4 0
  else d

/-! ### Served states (R175, R326) -/

/-- A BOUND tenant's served state that has changed sets its TIME event. -/
def servedChange (d : Dev) (t : Nat) : Dev :=
  if servedState d t (svcNow d) = Tab.get 0 d.arr.served t then d else tenantEvent (noteServed d t) [t] evTime

def servedChanges (d : Dev) : Dev := (boundTenants d).foldl servedChange d

/-! ### The edge -/

/-- The timescales' part of an edge, from rate writes to the published TSH and its followers. -/
def timePart (ops : List EdgeOp) (strobes : List Nat) (d : Dev) : Dev :=
  let before := d
  let d := applyAutoSets ops (runPhase ops 1 (runPhase ops 0 d))
  let x := stepTarget before d
  let d := runPhase ops 3 (runPhase ops 2 d)
  let d := steerUpdate (advanceAll (retarget x (steerInc (runPhase ops 4 d))))
  let d := ops.foldl (fun d o => match o with | .servo m _ _ _ _ _ true => stampUpdate d m | _ => d) d
  tiuFollower (folEdges strobes d)

/-- A base-tick edge: BT_COUNT advances, then the parts of the edge in order. `strobes` gives where the strobe of the
edge reaches each follower (`strobePos`). -/
def baseTick (strobes : List Nat) (d : Dev) : Dev :=
  let d := { d with bt := d.bt + 1, obs := { d.obs with phase := 0 } }
  let d := holdEnd (raiseMainEn d)
  let ops := (d.atEdge.filter fun e => decide (e.1 ≤ d.bt)).map (·.2)
  let d := { d with atEdge := d.atEdge.filter fun e => !decide (e.1 ≤ d.bt) }
  let before := d
  let d := timePart ops strobes d
  let d := steerTrigger before (steerRecords before ops d)
  let d := startSearch (mintEdge ((List.range 16).foldl loopEdge (zeroizeDue (runPhase ops 5 d))))
  let d := if d.ts.tsh.sec = before.ts.tsh.sec then d else gnssSecond d
  aliveEdge (servedChanges (pushTick (handleQueue d)))

def execBaseTickEdge (strobes : List Nat) (s : State) : Host.Outcome State Fault Refusal := whenOn s (baseTick strobes)

end Sys2Proof.Machine
end

