-- ==== Sys2Proof/Machine/Mailbox.lean ====
section
/-! DEFINITION. The mailbox as a whole: the opcode map (R353), fragments and their timeouts (R339–R341), and the completion
of slow hardware (R342). -/

namespace Sys2Proof.Machine

open Sys2Proof

/-- The opcode map. -/
def commands : List Cmd :=
  [deviceInfoCmd, deviceConfigCmd, keepaliveCmd, doorStatsCmd, nodeStatusCmd, arrayConfigCmd, endpointCmd,
   controlCmd, controlClaimCmd, controlReleaseCmd, tagReadCmd, tagWriteCmd, tagStatusCmd, fwStatusCmd, fwEraseCmd,
   fwWriteCmd, fwVerifyCmd, fwSelectCmd, fwConfirmCmd, fwReloadCmd, jigUploadCmd, jigActivateCmd, jigStatusCmd,
   tsReadCmd, tsRateCmd, tsSetCmd, tsStepCmd, tsClearCmd, tshSteerCmd, followerCmd, viewCreateCmd, viewReadCmd,
   viewSmearCmd, viewClearCmd, leapTableCmd, leapReadCmd, leapPolicyCmd, refConfigCmd, refStatusCmd,
   refDisqualifyCmd, servoConfigCmd, servoStatusCmd, selectConfigCmd, seedCmd, gnssConfigCmd, gnssAntennaCmd,
   gnssStatusCmd, gnssChannelsCmd, gnssMeasCmd, gnssPositionCmd, gnssBaselineCmd, gnssSolutionCmd,
   gnssSubframesCmd, gnssRestartCmd, tiuInputCmd, tiuStatusCmd, tiuDeviceCmd, tiuEventsCmd, tiuOutputCmd,
   portOctetCmd, portConfigCmd, portStatusCmd, portStatsCmd, wakePatternCmd, beaconCmd, portRestartCmd, shimCmd,
   shimLoopCmd, launchCmd, launchStatsCmd, tenantBindCmd, tenantConfigCmd, tenantViewCmd, tenantRetireCmd,
   tenantEventsCmd, tenantArrayCmd, addrEntryCmd, ntpConfigCmd, ntpAccessCmd, ntpBcastCmd, ntpStatsCmd,
   ctStatusCmd, ctFlushCmd, clsConfigCmd, clsStatsCmd, ntsConfigCmd, ntsKeyInstallCmd, ntsKeyPromoteCmd,
   ntsKeyRotateCmd, ntsKeyExportCmd, ntsKeyRingCmd, ntsKeyClearCmd, ntsMintCmd, ntsStatsCmd, ptpConfigCmd,
   ptpPortCmd, ptpGrantsCmd, ptpClientCmd, ptpStatsCmd, keySlotsCmd, keyGenerateCmd, keyPublicCmd, keyAssignCmd,
   keyDestroyCmd, pkeSignCmd, pkeStatusCmd, wrapInstallCmd, wrapStatusCmd, lcStatusCmd, lcAdvanceCmd,
   lcSvnRaiseCmd, faultStatusCmd, faultRecordsCmd, faultClearCmd, faultClassCmd, faultInjectCmd, faultCountsCmd,
   powerStateCmd, deviceResetCmd, resetCauseCmd, nodePowerCmd, nodeResetCmd, ctrConfigCmd, gaugeCmd, ctrReadCmd,
   scribeConfigCmd, scribeArmCmd, scribeTriggerCmd, scribeStatusCmd, scribeReadCmd, scribeAdvanceCmd, obsConfigCmd]

/-- The command of an opcode. -/
def cmdOf (op : Nat) : Option Cmd := commands.find? fun c => decide (c.op = op)

/-- A message of any opcode. -/
def anyMessage (op : BitVec 16) (m : Msg) (d : Dev) : Dev := message op.toNat (cmdOf op.toNat) m d

def withContinue (m : Msg) : Msg := { m with flags := m.flags ||| 1 }

def withAbort (m : Msg) : Msg := { m with flags := m.flags ||| 2 }

/-- 2,000 ms have passed since the door's last response. -/
def idleDoor (d : Dev) (x : Door) : Bool :=
  doorsServed d && decide (x.phase = .done) && decide (x.lastServedBt + msToBt d 2000 ≤ d.bt + 1)

/-- No fragment within 2,000 ms (R340): the partial request is discarded and its lock released; STATE stays DONE. -/
def fragTimeout (d : Dev) (f : Fn) (door : Nat) : Dev :=
  let x := getDoor d f door
  if idleDoor d x && x.partial_.isSome then
    bumpDoor (setDoor (releaseLocks d f door) f door { x with partial_ := none }) f door dsFragTimeouts
  else d

/-- No fetch within 2,000 ms (R341): the untaken fragments are discarded. -/
def respTimeout (d : Dev) (f : Fn) (door : Nat) : Dev :=
  let x := getDoor d f door
  if idleDoor d x && x.more.isSome then bumpDoor (setDoor d f door { x with more := none }) f door dsRespDiscarded else d

/-- The slow hardware that a door waits for has finished, with what it found. -/
def slowDone (d : Dev) (f : Fn) (door : Nat) (r : SlowResult) : Dev :=
  let ok := decide (r ≠ .readbackDiffers)
  if !doorsServed d then d
  else match waitingAt d f door with
    | some (.jigUpload bs) => jigUploadDone d f door bs
    | some (.tagWrite k bs) => tagWriteDone d f door k bs ok
    | some (.fwErase s) => fwEraseDone d f door s
    | some (.fwWrite s off bs) => fwWriteDone d f door s off bs ok
    | some (.fwVerify s) => fwVerifyDone d f door s
    | some (.lcAdvance k bs second) => lcAdvanceDone d f door k bs second ok
    | some (.svnRaise fw jig) => svnRaiseDone d f door fw jig
    | some (.wrapInstall id form key) => wrapInstallDone d f door id form key
    | some (.shimLoop tx _ n) => shimLoopDone d f door tx n
    | _ => d

def execUnknownOpcode (op : BitVec 16) (m : Msg) (s : State) : Host.Outcome State Fault Refusal := whenOn s (anyMessage op m)

def execRequestFragment (op : BitVec 16) (m : Msg) (s : State) : Host.Outcome State Fault Refusal :=
  whenOn s (anyMessage op m)

def execResponseContinue (op : BitVec 16) (m : Msg) (s : State) : Host.Outcome State Fault Refusal :=
  whenOn s (anyMessage op (withContinue m))

def execRequestAbort (op : BitVec 16) (m : Msg) (s : State) : Host.Outcome State Fault Refusal :=
  whenOn s (anyMessage op (withAbort m))

def execFragTimeout (fn : Fn) (door : Fin 8) (s : State) : Host.Outcome State Fault Refusal :=
  whenOn s fun d => fragTimeout d fn door.val

def execRespDiscardTimeout (fn : Fn) (door : Fin 8) (s : State) : Host.Outcome State Fault Refusal :=
  whenOn s fun d => respTimeout d fn door.val

def execSlowHardwareComplete (fn : Fn) (door : Fin 8) (r : SlowResult) (s : State) : Host.Outcome State Fault Refusal :=
  whenOn s fun d => slowDone d fn door.val r

end Sys2Proof.Machine
end

