-- ==== Sys2Proof/Machine/Service.lean ====
section
/-! DEFINITION. The grant of a descriptor to an engine and what returns to its context (R139–R148, R171): the start of
handling by service, table reads, client-table updates, transmit credit, and the end of a node's wake. -/

namespace Sys2Proof.Machine

open Sys2Proof

/-- The descriptor takes the NTS path (R174). -/
def takesNts (d : Dev) (x : Context) : Bool :=
  decide (x.desc.service = .ntp) && flag (governed d x) .ntp x.desc.tenant Ntp.ntpEn && decide (ntpVerdict d x = .nts)

/-- A frame of service NTP: its count, and its handling (R171, Table NTP.2). -/
def ntpStart (d : Dev) (k : Nat) (x : Context) : Dev :=
  let d := countTenant d x.desc.tenant 0
  if flag (governed d x) .ntp x.desc.tenant Ntp.ntpEn then
    let d := countVersion d x
    match ntpVerdict d x with
    | .drop stat ctr => dropNtp d k x stat ctr
    | .punt b => punt d k x b
    | .nts => ntsRequest d k x
    | .request _ => ntpRequest d k x
  else punt d k x 6

/-- The jig image starts on a context. -/
def startHandling (d : Dev) (k : Nat) (x : Context) : Dev :=
  match x.desc.service with
  | .ntp => ntpStart d k x
  | .ptp => ptpRequest (countTenant d x.desc.tenant 0) k x
  | .arp => arpHandle d k x
  | .nd => ndHandle d k x
  | .bad => punt d k x 4
  | .slowpath => punt d k x 5
  | .other => otherHandle d k x
  | .bcast p l => bcastHandle d k x p l
  | .sched key due => schedHandle d k x key due

/-- A context as it would be allocated for a descriptor, before it has a thread. -/
def draft (d : Dev) (c : Nat) (x : Desc) : Context :=
  { desc := x, node := c, allocBt := d.bt, timeoutUs := 0, view := tenantView d x.tenant, oldImage := false, packet := 0
    phase := .client, nts := none, recs := governing d x.tenant, scratch := [], regs := [] }

/-- An engine grants the descriptor R147 chooses, if any, and starts on it; a clear of the client table that retention has
made due comes first (R188). How many service and address words the image reads is left free. -/
def descriptorGrant (d : Dev) (e : Nat) : Dev :=
  if (freeThreads d e).isEmpty then d
  else match grantAt (retentionExit d) e with
    | (none, d) => d
    | (some (c, x, p), d) =>
      let code := if takesNts d (draft d c x) then 1 else serviceCode x.service
      let (k, ctx, d) := allocate d c e code x p
      let (n, d) := drawUpTo d 4
      let (m, d) := drawUpTo d 4
      startHandling (countNode (countNode d e 28 n) e 29 m) k ctx

/-- The client table has answered a context (R185). -/
def clientUpdated (d : Dev) (e t : Nat) : Dev :=
  match ctxAt d e t with
  | some x =>
    if x.phase = .client then (if x.nts.isSome then ntsClient d (8 * e + t) x else ntpClient d (8 * e + t) x) else d
  | none => d

/-- A read of the grant table or of a key ring has returned. -/
def tableReadComplete (d : Dev) (e t : Nat) : Dev :=
  match ctxAt d e t with
  | some x =>
    (match x.phase with
    | .grant => ptpGranted d (8 * e + t) x
    | .ring => (match x.nts with | some w => ntsSampled d (8 * e + t) x w | none => d)
    | _ => d)
  | none => d

/-- Transmit credit is there. -/
def creditAvailable (d : Dev) (e t : Nat) : Dev :=
  match ctxAt d e t with
  | some x => (match x.phase with | .credit o => handOn d (8 * e + t) x o | _ => d)
  | none => d

def execDescriptorGrant (engine : Fin 128) (s : State) : Host.Outcome State Fault Refusal :=
  onPath s fun d => descriptorGrant d engine.val

def execClientTableUpdate (engine : Fin 128) (thread : Fin 8) (s : State) : Host.Outcome State Fault Refusal :=
  onPath s fun d => clientUpdated d engine.val thread.val

def execTableReadComplete (engine : Fin 128) (thread : Fin 8) (s : State) : Host.Outcome State Fault Refusal :=
  onPath s fun d => tableReadComplete d engine.val thread.val

def execTxCreditAvailable (engine : Fin 128) (thread : Fin 8) (s : State) : Host.Outcome State Fault Refusal :=
  onPath s fun d => creditAvailable d engine.val thread.val

def execWakeComplete (node : Fin 149) (s : State) : Host.Outcome State Fault Refusal :=
  onPath s fun d => wakeComplete d node.val

def execWakeTimeout (node : Fin 149) (s : State) : Host.Outcome State Fault Refusal :=
  onPath s fun d => wakeTimeout d node.val

end Sys2Proof.Machine
end

