-- ==== Sys2Proof/Machine/Dispatch.lean ====
section
/-! DEFINITION. One arm per command: each calls the meaning of its own row of the opcode table. -/

namespace Sys2Proof.Machine

open Sys2Proof

def exec (i : Instr) (s : State) : Host.Outcome State Fault Refusal :=
  match i with
  | .keepalive m => Sys2Proof.Machine.execKeepalive m s
  | .doorStats m => Sys2Proof.Machine.execDoorStats m s
  | .nodeStatus m => Sys2Proof.Machine.execNodeStatus m s
  | .arrayConfig m => Sys2Proof.Machine.execArrayConfig m s
  | .endpointConfig m => Sys2Proof.Machine.execEndpointConfig m s
  | .control m => Sys2Proof.Machine.execControl m s
  | .controlClaim m => Sys2Proof.Machine.execControlClaim m s
  | .controlRelease m => Sys2Proof.Machine.execControlRelease m s
  | .deviceInfo m => Sys2Proof.Machine.execDeviceInfo m s
  | .deviceConfig m => Sys2Proof.Machine.execDeviceConfig m s
  | .tagRead m => Sys2Proof.Machine.execTagRead m s
  | .tagWrite m => Sys2Proof.Machine.execTagWrite m s
  | .tagStatus m => Sys2Proof.Machine.execTagStatus m s
  | .jigUpload m => Sys2Proof.Machine.execJigUpload m s
  | .jigActivate m => Sys2Proof.Machine.execJigActivate m s
  | .jigStatus m => Sys2Proof.Machine.execJigStatus m s
  | .fwStatus m => Sys2Proof.Machine.execFwStatus m s
  | .fwErase m => Sys2Proof.Machine.execFwErase m s
  | .fwWrite m => Sys2Proof.Machine.execFwWrite m s
  | .fwVerify m => Sys2Proof.Machine.execFwVerify m s
  | .fwSelectTrial m => Sys2Proof.Machine.execFwSelectTrial m s
  | .fwSelectPrefer m => Sys2Proof.Machine.execFwSelectPrefer m s
  | .fwSelectCancel m => Sys2Proof.Machine.execFwSelectCancel m s
  | .fwConfirm m => Sys2Proof.Machine.execFwConfirm m s
  | .fwReload m => Sys2Proof.Machine.execFwReload m s
  | .tsRead m => Sys2Proof.Machine.execTsRead m s
  | .tsRate m => Sys2Proof.Machine.execTsRate m s
  | .tsSet m => Sys2Proof.Machine.execTsSet m s
  | .tsStep m => Sys2Proof.Machine.execTsStep m s
  | .tsClear m => Sys2Proof.Machine.execTsClear m s
  | .tshSteer m => Sys2Proof.Machine.execTshSteer m s
  | .follower m => Sys2Proof.Machine.execFollower m s
  | .viewCreate m => Sys2Proof.Machine.execViewCreate m s
  | .viewRead m => Sys2Proof.Machine.execViewRead m s
  | .viewSmear m => Sys2Proof.Machine.execViewSmear m s
  | .viewClear m => Sys2Proof.Machine.execViewClear m s
  | .leapTable m => Sys2Proof.Machine.execLeapTable m s
  | .leapRead m => Sys2Proof.Machine.execLeapRead m s
  | .leapPolicy m => Sys2Proof.Machine.execLeapPolicy m s
  | .refConfig m => Sys2Proof.Machine.execRefConfig m s
  | .refStatus m => Sys2Proof.Machine.execRefStatus m s
  | .refDisqualifyForce m => Sys2Proof.Machine.execRefDisqualifyForce m s
  | .refDisqualifyRelease m => Sys2Proof.Machine.execRefDisqualifyRelease m s
  | .servoConfig m => Sys2Proof.Machine.execServoConfig m s
  | .servoStatus m => Sys2Proof.Machine.execServoStatus m s
  | .selectConfig m => Sys2Proof.Machine.execSelectConfig m s
  | .seed m => Sys2Proof.Machine.execSeed m s
  | .gnssConfig m => Sys2Proof.Machine.execGnssConfig m s
  | .gnssAntenna m => Sys2Proof.Machine.execGnssAntenna m s
  | .gnssStatus m => Sys2Proof.Machine.execGnssStatus m s
  | .gnssChannels m => Sys2Proof.Machine.execGnssChannels m s
  | .gnssMeas m => Sys2Proof.Machine.execGnssMeas m s
  | .gnssPosition m => Sys2Proof.Machine.execGnssPosition m s
  | .gnssPositionResurvey m => Sys2Proof.Machine.execGnssPositionResurvey m s
  | .gnssBaseline m => Sys2Proof.Machine.execGnssBaseline m s
  | .gnssBaselineResurvey m => Sys2Proof.Machine.execGnssBaselineResurvey m s
  | .gnssSolution m => Sys2Proof.Machine.execGnssSolution m s
  | .gnssSubframes m => Sys2Proof.Machine.execGnssSubframes m s
  | .gnssRestart m => Sys2Proof.Machine.execGnssRestart m s
  | .tiuInput m => Sys2Proof.Machine.execTiuInput m s
  | .tiuStatus m => Sys2Proof.Machine.execTiuStatus m s
  | .tiuDevice m => Sys2Proof.Machine.execTiuDevice m s
  | .tiuEvents m => Sys2Proof.Machine.execTiuEvents m s
  | .tiuOutput m => Sys2Proof.Machine.execTiuOutput m s
  | .portOctet m => Sys2Proof.Machine.execPortOctet m s
  | .portConfig m => Sys2Proof.Machine.execPortConfig m s
  | .portStatus m => Sys2Proof.Machine.execPortStatus m s
  | .portStats m => Sys2Proof.Machine.execPortStats m s
  | .wakePattern m => Sys2Proof.Machine.execWakePattern m s
  | .beacon m => Sys2Proof.Machine.execBeacon m s
  | .portRestart m => Sys2Proof.Machine.execPortRestart m s
  | .shim m => Sys2Proof.Machine.execShim m s
  | .shimLoop m => Sys2Proof.Machine.execShimLoop m s
  | .launch m => Sys2Proof.Machine.execLaunch m s
  | .launchStats m => Sys2Proof.Machine.execLaunchStats m s
  | .tenantBind m => Sys2Proof.Machine.execTenantBind m s
  | .tenantConfig m => Sys2Proof.Machine.execTenantConfig m s
  | .tenantView m => Sys2Proof.Machine.execTenantView m s
  | .tenantRetire m => Sys2Proof.Machine.execTenantRetire m s
  | .tenantEvents m => Sys2Proof.Machine.execTenantEvents m s
  | .tenantArray m => Sys2Proof.Machine.execTenantArray m s
  | .addrEntry m => Sys2Proof.Machine.execAddrEntry m s
  | .ntpConfig m => Sys2Proof.Machine.execNtpConfig m s
  | .ntpAccess m => Sys2Proof.Machine.execNtpAccess m s
  | .ntpBcast m => Sys2Proof.Machine.execNtpBcast m s
  | .ntpStats m => Sys2Proof.Machine.execNtpStats m s
  | .ctStatus m => Sys2Proof.Machine.execCtStatus m s
  | .ctFlush m => Sys2Proof.Machine.execCtFlush m s
  | .clsConfig m => Sys2Proof.Machine.execClsConfig m s
  | .clsStats m => Sys2Proof.Machine.execClsStats m s
  | .ntsConfig m => Sys2Proof.Machine.execNtsConfig m s
  | .ntsKeyInstallGenerate m => Sys2Proof.Machine.execNtsKeyInstallGenerate m s
  | .ntsKeyInstallImport m => Sys2Proof.Machine.execNtsKeyInstallImport m s
  | .ntsKeyPromote m => Sys2Proof.Machine.execNtsKeyPromote m s
  | .ntsKeyRotate m => Sys2Proof.Machine.execNtsKeyRotate m s
  | .ntsKeyExport m => Sys2Proof.Machine.execNtsKeyExport m s
  | .ntsKeyRing m => Sys2Proof.Machine.execNtsKeyRing m s
  | .ntsKeyClear m => Sys2Proof.Machine.execNtsKeyClear m s
  | .ntsMint m => Sys2Proof.Machine.execNtsMint m s
  | .ntsStats m => Sys2Proof.Machine.execNtsStats m s
  | .ptpConfig m => Sys2Proof.Machine.execPtpConfig m s
  | .ptpPort m => Sys2Proof.Machine.execPtpPort m s
  | .ptpGrants m => Sys2Proof.Machine.execPtpGrants m s
  | .ptpClient m => Sys2Proof.Machine.execPtpClient m s
  | .ptpStats m => Sys2Proof.Machine.execPtpStats m s
  | .nodePowerGate m => Sys2Proof.Machine.execNodePowerGate m s
  | .nodePowerUngate m => Sys2Proof.Machine.execNodePowerUngate m s
  | .nodeReset m => Sys2Proof.Machine.execNodeReset m s
  | .keySlots m => Sys2Proof.Machine.execKeySlots m s
  | .keyGenerate m => Sys2Proof.Machine.execKeyGenerate m s
  | .keyPublic m => Sys2Proof.Machine.execKeyPublic m s
  | .keyAssign m => Sys2Proof.Machine.execKeyAssign m s
  | .keyDestroy m => Sys2Proof.Machine.execKeyDestroy m s
  | .pkeSign m => Sys2Proof.Machine.execPkeSign m s
  | .pkeStatus m => Sys2Proof.Machine.execPkeStatus m s
  | .wrapKeyInstall m => Sys2Proof.Machine.execWrapKeyInstall m s
  | .wrapKeyStatus m => Sys2Proof.Machine.execWrapKeyStatus m s
  | .lcStatus m => Sys2Proof.Machine.execLcStatus m s
  | .lcAdvance m => Sys2Proof.Machine.execLcAdvance m s
  | .lcSvnRaise m => Sys2Proof.Machine.execLcSvnRaise m s
  | .faultStatus m => Sys2Proof.Machine.execFaultStatus m s
  | .faultRecords m => Sys2Proof.Machine.execFaultRecords m s
  | .faultClearRecord m => Sys2Proof.Machine.execFaultClearRecord m s
  | .faultClearDescendants m => Sys2Proof.Machine.execFaultClearDescendants m s
  | .faultClearGrace m => Sys2Proof.Machine.execFaultClearGrace m s
  | .faultClearGravest m => Sys2Proof.Machine.execFaultClearGravest m s
  | .faultClearCounts m => Sys2Proof.Machine.execFaultClearCounts m s
  | .faultClass m => Sys2Proof.Machine.execFaultClass m s
  | .faultInject m => Sys2Proof.Machine.execFaultInject m s
  | .faultCounts m => Sys2Proof.Machine.execFaultCounts m s
  | .powerStateRead m => Sys2Proof.Machine.execPowerStateRead m s
  | .powerStateFull m => Sys2Proof.Machine.execPowerStateFull m s
  | .powerStateListen m => Sys2Proof.Machine.execPowerStateListen m s
  | .powerStateKeepTime m => Sys2Proof.Machine.execPowerStateKeepTime m s
  | .deviceReset m => Sys2Proof.Machine.execDeviceReset m s
  | .resetCauseRead m => Sys2Proof.Machine.execResetCauseRead m s
  | .resetCauseClear m => Sys2Proof.Machine.execResetCauseClear m s
  | .ctrConfig m => Sys2Proof.Machine.execCtrConfig m s
  | .gauge m => Sys2Proof.Machine.execGauge m s
  | .ctrRead m => Sys2Proof.Machine.execCtrRead m s
  | .scribeConfig m => Sys2Proof.Machine.execScribeConfig m s
  | .scribeArm m => Sys2Proof.Machine.execScribeArm m s
  | .scribeTrigger m => Sys2Proof.Machine.execScribeTrigger m s
  | .scribeStatus m => Sys2Proof.Machine.execScribeStatus m s
  | .scribeRead m => Sys2Proof.Machine.execScribeRead m s
  | .scribeAdvance m => Sys2Proof.Machine.execScribeAdvance m s
  | .obsConfig m => Sys2Proof.Machine.execObsConfig m s
  | .unknownOpcode op m => Sys2Proof.Machine.execUnknownOpcode op m s
  | .doorbell fn door => Sys2Proof.Machine.execDoorbell fn door s
  | .requestFragment op m => Sys2Proof.Machine.execRequestFragment op m s
  | .responseContinue op m => Sys2Proof.Machine.execResponseContinue op m s
  | .requestAbort op m => Sys2Proof.Machine.execRequestAbort op m s
  | .fragTimeout fn door => Sys2Proof.Machine.execFragTimeout fn door s
  | .respDiscardTimeout fn door => Sys2Proof.Machine.execRespDiscardTimeout fn door s
  | .slowHardwareComplete fn door r => Sys2Proof.Machine.execSlowHardwareComplete fn door r s
  | .deviceEventsW1c ep bits => Sys2Proof.Machine.execDeviceEventsW1c ep bits s
  | .deviceEventMaskWrite ep value => Sys2Proof.Machine.execDeviceEventMaskWrite ep value s
  | .vfEventW1c ep vf bits => Sys2Proof.Machine.execVfEventW1c ep vf bits s
  | .ringProducerWrite fn tx ring producer descs => Sys2Proof.Machine.execRingProducerWrite fn tx ring producer descs s
  | .ringEnableWrite fn tx ring value => Sys2Proof.Machine.execRingEnableWrite fn tx ring value s
  | .btCountLowRead fn => Sys2Proof.Machine.execBtCountLowRead fn s
  | .readClearRegisterRead fn offset => Sys2Proof.Machine.execReadClearRegisterRead fn offset s
  | .barRegisterWrite fn offset size value => Sys2Proof.Machine.execBarRegisterWrite fn offset size value s
  | .aonPowerOn => Sys2Proof.Machine.execAonPowerOn s
  | .aonSupplyLoss => Sys2Proof.Machine.execAonSupplyLoss s
  | .mainRailsCheck low => Sys2Proof.Machine.execMainRailsCheck low s
  | .resetNAssert => Sys2Proof.Machine.execResetNAssert s
  | .pinLong => Sys2Proof.Machine.execPinLong s
  | .resetNDeassert => Sys2Proof.Machine.execResetNDeassert s
  | .deviceResetStart => Sys2Proof.Machine.execDeviceResetStart s
  | .fullBoot => Sys2Proof.Machine.execFullBoot s
  | .processorBoot => Sys2Proof.Machine.execProcessorBoot s
  | .fwReady => Sys2Proof.Machine.execFwReady s
  | .mpWatchdogExpiry => Sys2Proof.Machine.execMpWatchdogExpiry s
  | .trialConfirmExpiry => Sys2Proof.Machine.execTrialConfirmExpiry s
  | .wakeNAssert => Sys2Proof.Machine.execWakeNAssert s
  | .perstAssert ep => Sys2Proof.Machine.execPerstAssert ep s
  | .perstDeassert ep => Sys2Proof.Machine.execPerstDeassert ep s
  | .vfFlr ep vf => Sys2Proof.Machine.execVfFlr ep vf s
  | .pfFlr ep => Sys2Proof.Machine.execPfFlr ep s
  | .sidebandWake code data pecOk => Sys2Proof.Machine.execSidebandWake code data pecOk s
  | .sidebandBlockRead code => Sys2Proof.Machine.execSidebandBlockRead code s
  | .jtagInstruction instr => Sys2Proof.Machine.execJtagInstruction instr s
  | .keepTimeEntry => Sys2Proof.Machine.execKeepTimeEntry s
  | .listenSharedAreaDrain => Sys2Proof.Machine.execListenSharedAreaDrain s
  | .baseTickEdge strobes => Sys2Proof.Machine.execBaseTickEdge strobes s
  | .leapSwitch => Sys2Proof.Machine.execLeapSwitch s
  | .hostLeapTableExpiry => Sys2Proof.Machine.execHostLeapTableExpiry s
  | .gpsLeapValidityLapse => Sys2Proof.Machine.execGpsLeapValidityLapse s
  | .servoEvaluation => Sys2Proof.Machine.execServoEvaluation s
  | .seedVerifyEnd master => Sys2Proof.Machine.execSeedVerifyEnd master s
  | .holdoverMaxExpiry master => Sys2Proof.Machine.execHoldoverMaxExpiry master s
  | .keepaliveLapse => Sys2Proof.Machine.execKeepaliveLapse s
  | .faultRaise r => Sys2Proof.Machine.execFaultRaise r s
  | .echoJudgement => Sys2Proof.Machine.execEchoJudgement s
  | .graceExpiry => Sys2Proof.Machine.execGraceExpiry s
  | .voltRange rail => Sys2Proof.Machine.execVoltRange rail s
  | .tempHigh sensor => Sys2Proof.Machine.execTempHigh sensor s
  | .tempCrit sensor => Sys2Proof.Machine.execTempCrit sensor s
  | .oscCheck off => Sys2Proof.Machine.execOscCheck off s
  | .pllUnlock pll => Sys2Proof.Machine.execPllUnlock pll s
  | .pllRelock pll => Sys2Proof.Machine.execPllRelock pll s
  | .scrubPass errs => Sys2Proof.Machine.execScrubPass errs s
  | .rngHealthFail => Sys2Proof.Machine.execRngHealthFail s
  | .rngRecovery => Sys2Proof.Machine.execRngRecovery s
  | .frameReceive e => Sys2Proof.Machine.execFrameReceive e s
  | .lockLoss port lanes cdr inFrame => Sys2Proof.Machine.execLockLoss port lanes cdr inFrame s
  | .linkDownDelayExpiry port => Sys2Proof.Machine.execLinkDownDelayExpiry port s
  | .linkUp x => Sys2Proof.Machine.execLinkUp x s
  | .remoteFaultReceived port => Sys2Proof.Machine.execRemoteFaultReceived port s
  | .skewChange x => Sys2Proof.Machine.execSkewChange x s
  | .pauseExpiry port cls => Sys2Proof.Machine.execPauseExpiry port cls s
  | .pauseWatchdog port cls => Sys2Proof.Machine.execPauseWatchdog port cls s
  | .pauseHoldoffEnd port cls => Sys2Proof.Machine.execPauseHoldoffEnd port cls s
  | .descriptorGrant engine => Sys2Proof.Machine.execDescriptorGrant engine s
  | .clientTableUpdate engine thread => Sys2Proof.Machine.execClientTableUpdate engine thread s
  | .tableReadComplete engine thread => Sys2Proof.Machine.execTableReadComplete engine thread s
  | .aeadJobComplete engine thread ok => Sys2Proof.Machine.execAeadJobComplete engine thread ok s
  | .txCreditAvailable engine thread => Sys2Proof.Machine.execTxCreditAvailable engine thread s
  | .contextTimeout engine thread => Sys2Proof.Machine.execContextTimeout engine thread s
  | .powerGateComplete node => Sys2Proof.Machine.execPowerGateComplete node s
  | .wakeComplete node => Sys2Proof.Machine.execWakeComplete node s
  | .wakeTimeout node => Sys2Proof.Machine.execWakeTimeout node s
  | .idleRegate node => Sys2Proof.Machine.execIdleRegate node s
  | .nodeResetRelease node => Sys2Proof.Machine.execNodeResetRelease node s
  | .jigOldContextsDrained => Sys2Proof.Machine.execJigOldContextsDrained s
  | .txFrameStart t => Sys2Proof.Machine.execTxFrameStart t s
  | .txFrameEnd port => Sys2Proof.Machine.execTxFrameEnd port s
  | .launchDeadline port place edge => Sys2Proof.Machine.execLaunchDeadline port place edge s
  | .launchSendMaxExpiry port x => Sys2Proof.Machine.execLaunchSendMaxExpiry port x s
  | .hostTxDescriptorFetch fn ring frame => Sys2Proof.Machine.execHostTxDescriptorFetch fn ring frame s
  | .beaconPeriod port => Sys2Proof.Machine.execBeaconPeriod port s
  | .broadcastDue tenant port launch => Sys2Proof.Machine.execBroadcastDue tenant port launch s
  | .ptpMessageDue multicast index announce due => Sys2Proof.Machine.execPtpMessageDue multicast index announce due s
  | .twoStepFollowUp => Sys2Proof.Machine.execTwoStepFollowUp s
  | .grantExpiry index type => Sys2Proof.Machine.execGrantExpiry index type s
  | .grantEntryFree index => Sys2Proof.Machine.execGrantEntryFree index s
  | .ptpClientFrame master => Sys2Proof.Machine.execPtpClientFrame master s
  | .ptpClientDelayReq master => Sys2Proof.Machine.execPtpClientDelayReq master s
  | .ptpClientRenew master => Sys2Proof.Machine.execPtpClientRenew master s
  | .ptpExchangeTimeout master => Sys2Proof.Machine.execPtpExchangeTimeout master s
  | .ctSweep => Sys2Proof.Machine.execCtSweep s
  | .ctRetentionExit => Sys2Proof.Machine.execCtRetentionExit s
  | .ntsKeyUsable tenant slot => Sys2Proof.Machine.execNtsKeyUsable tenant slot s
  | .ntsKeyRoleEdge tenant => Sys2Proof.Machine.execNtsKeyRoleEdge tenant s
  | .tenantRetireComplete tenant => Sys2Proof.Machine.execTenantRetireComplete tenant s
  | .vfSummaryHoldoffEnd ep => Sys2Proof.Machine.execVfSummaryHoldoffEnd ep s
  | .benchOperationComplete bench r => Sys2Proof.Machine.execBenchOperationComplete bench r s
  | .gaugeStrobe => Sys2Proof.Machine.execGaugeStrobe s
  | .gaugeCopyComplete => Sys2Proof.Machine.execGaugeCopyComplete s
  | .scribeSegmentComplete => Sys2Proof.Machine.execScribeSegmentComplete s
  | .scribeRearmEnd => Sys2Proof.Machine.execScribeRearmEnd s
  | .gnssEpoch e => Sys2Proof.Machine.execGnssEpoch e s
  | .baselineSurveyEnd b => Sys2Proof.Machine.execBaselineSurveyEnd b s
  | .spectrumMonitor ant power tracked => Sys2Proof.Machine.execSpectrumMonitor ant power tracked s
  | .notchRelease ant notch => Sys2Proof.Machine.execNotchRelease ant notch s
  | .agcSecondReport ant gain least clipped pulses => Sys2Proof.Machine.execAgcSecondReport ant gain least clipped pulses s
  | .acquisitionComplete ant found => Sys2Proof.Machine.execAcquisitionComplete ant found s
  | .pullInTimeout ch => Sys2Proof.Machine.execPullInTimeout ch s
  | .carrierLockCheck ch pull loops => Sys2Proof.Machine.execCarrierLockCheck ch pull loops s
  | .cn0Loss ch => Sys2Proof.Machine.execCn0Loss ch s
  | .bitSyncWindow ch counts => Sys2Proof.Machine.execBitSyncWindow ch counts s
  | .subframeReceived ch sums => Sys2Proof.Machine.execSubframeReceived ch sums s
  | .tiuInputEdge e => Sys2Proof.Machine.execTiuInputEdge e s
  | .intervalOverflow input => Sys2Proof.Machine.execIntervalOverflow input s
  | .frequencyGateEnd input => Sys2Proof.Machine.execFrequencyGateEnd input s
  | .tiuCalPassComplete x => Sys2Proof.Machine.execTiuCalPassComplete x s
  | .tiuDllLock input => Sys2Proof.Machine.execTiuDllLock input s
  | .tiuDllUnlock input => Sys2Proof.Machine.execTiuDllUnlock input s
  | .ppsOutputEdge output begins byLoad => Sys2Proof.Machine.execPpsOutputEdge output begins byLoad s
  | .foutEdge output rising byLoad => Sys2Proof.Machine.execFoutEdge output rising byLoad s
  | .outputSettingsApply output => Sys2Proof.Machine.execOutputSettingsApply output s
  | .shortLockLossEnd x => Sys2Proof.Machine.execShortLockLossEnd x s
  | .announceReceiptTimeout master => Sys2Proof.Machine.execAnnounceReceiptTimeout master s
  | .ringIrqHoldoffEnd fn tx ring => Sys2Proof.Machine.execRingIrqHoldoffEnd fn tx ring s
  | .configurationSpaceWrite fn busMaster msixEnable => Sys2Proof.Machine.execConfigurationSpaceWrite fn busMaster msixEnable s
  | .pcieLinkTrained ep => Sys2Proof.Machine.execPcieLinkTrained ep s
  | .pcieLinkDown ep => Sys2Proof.Machine.execPcieLinkDown ep s
  | .flrComplete fn => Sys2Proof.Machine.execFlrComplete fn s
  | .railWithinLimits rail => Sys2Proof.Machine.execRailWithinLimits rail s
  | .tempEpisodeEnd sensor critical => Sys2Proof.Machine.execTempEpisodeEnd sensor critical s

end Sys2Proof.Machine
end

