-- ==== Sys2Proof/Safety.lean ====
section
/-! DEFINITION. The terms claims are stated in: a request that its door may take, what a door answers, what stays as it
was, and the OFF state in which nothing runs. -/

namespace Sys2Proof.Machine

open Sys2Proof

/-! ### Requests -/

/-- The door of a message is free and no other message waits for service: it is in IDLE or DONE with nothing left over,
and no door is POSTED. -/
def doorFree (d : Dev) (m : Msg) : Bool :=
  let x := getDoor d m.fn m.door.val
  (decide (x.phase = .idle) || decide (x.phase = .done)) && x.partial_.isNone && x.more.isNone
    && d.mbx.doors.all fun e => e.2.posted.isNone

/-- A complete request of one fragment from a PF that acts as the host of its endpoint (R338, R339). -/
def hostRequest (m : Msg) : Bool :=
  headerOk m && decide (m.fragTotal.toNat = 1) && !bit m.flags.toNat 0 && !bit m.flags.toNat 1
    && m.fn.vf.isNone && decide (m.acting.toNat = 2 ^ 32 - 1)

/-- The device serves its doors, and the request is one that its door takes at once (R342, R345, R355). -/
def ready (s : State) (m : Msg) : Bool :=
  s.dev.pwr.aonUp && doorsServed s.dev && barUp s.dev m.fn && doorFree s.dev m && s.dev.mbx.locks.isEmpty
    && hostRequest m

/-- A ready request of the controller host (R319) in a life-cycle state that serves every command but WRAP_KEY_INSTALL
(Table CMD.1). -/
def byController (s : State) (m : Msg) : Bool :=
  ready s m && decide (m.fn.ep.val = controllerEp s.dev)
    && (decide (s.dev.key.lifeCycle = 1) || decide (s.dev.key.lifeCycle = 2))

/-- The requester a ready request is served for. -/
def hostCtx (s : State) (m : Msg) : Ctx :=
  { fn := m.fn, door := m.door.val, acting := none, vfTenant := none, postedBt := s.dev.bt }

/-! ### Answers -/

/-- The status and payload fragment a door in DONE shows. -/
def answer (t : State) (m : Msg) : Option (Status × List Byte) :=
  let x := getDoor t.dev m.fn m.door.val
  if x.phase = .done then x.resp.map fun r => (r.status, r.payload) else none

/-- What the door of a message in SERVING waits for. -/
def servingFor (t : State) (m : Msg) : Option Waiting :=
  let x := getDoor t.dev m.fn m.door.val
  if x.phase = .serving then x.serving.map (·.2) else none

/-- The answer of a request that is not clamped: the status and the first fragment of its payload (R341). -/
def plain (st : Status) (payload : List Byte) : Option (Status × List Byte) := some (st, payload.take fragMax)

/-- The answer of a request with its clamp report (R349). -/
def withReport (payload : List Byte) (es : List ClampEntry) : Option (Status × List Byte) :=
  if es = [] then plain .ok payload else plain .clamped (padTo 8 payload ++ clampReport es)

/-! ### What stays as it was -/

/-- A device is another but for one message's door: its door and the service order, that door's statistics, the pending
bits of MSI-X tables, the locks of that door and what has left the device. -/
def butDoor (e d : Dev) (m : Msg) : Prop :=
  (∃ M S F O, d = { e with mbx := M, stats := S, host := { e.host with fns := F }, out := O })
    ∧ (∀ f k, doorKey f k ≠ doorKey m.fn m.door.val → getDoor d f k = getDoor e f k)
    ∧ (∀ k, k / 64 ≠ statKey .door (doorKey m.fn m.door.val) 0 / 64 → Tab.get 0 d.stats k = Tab.get 0 e.stats k)
    ∧ (∀ f, { getFn d f with pendingBits := 0 } = { getFn e f with pendingBits := 0 })
    ∧ (∀ l ∈ d.mbx.locks, l ∈ e.mbx.locks ∨ (l.fn = m.fn ∧ l.door = m.door.val))

/-- A command at a state answers a next state whose door is DONE with an answer, and whose device is the one given but
for the door. -/
def answers (o : Host.Outcome State Fault Refusal) (s : State) (m : Msg) (a : Option (Status × List Byte)) (e : Dev) : Prop :=
  ∃ t, o = .next t ∧ t.pending = s.pending ∧ answer t m = a ∧ butDoor e t.dev m

/-- A command at a state answers a next state whose door is SERVING and waits, and whose device is the one given but
for the door. -/
def waits (o : Host.Outcome State Fault Refusal) (s : State) (m : Msg) (w : Waiting) (e : Dev) : Prop :=
  ∃ t, o = .next t ∧ t.pending = s.pending ∧ servingFor t m = some w ∧ butDoor e t.dev m

/-- A mailbox in which a request has been taken for service: every other door is as it was, and no lock is held but by the
request's own door. -/
def taken (s : State) (m : Msg) (M : MbxState) : Prop :=
  (∀ f k, doorKey f k ≠ doorKey m.fn m.door.val → getDoor { s.dev with mbx := M } f k = getDoor s.dev f k)
    ∧ ∀ l ∈ M.locks, l.fn = m.fn ∧ l.door = m.door.val

/-- A command at a state answers a next state whose door is DONE with an answer and whose device is changed as given, both
from the device with its mailbox as the request was taken. -/
def effects (o : Host.Outcome State Fault Refusal) (s : State) (m : Msg) (a : Dev → Option (Status × List Byte))
    (f : Dev → Dev) : Prop :=
  ∃ M t, taken s m M ∧ o = .next t ∧ t.pending = s.pending ∧ answer t m = a { fresh s.dev with mbx := M }
    ∧ butDoor (f { fresh s.dev with mbx := M }) t.dev m

/-- The same for a door that is left in SERVING. -/
def delays (o : Host.Outcome State Fault Refusal) (s : State) (m : Msg) (w : Waiting) (f : Dev → Dev) : Prop :=
  ∃ M t, taken s m M ∧ o = .next t ∧ t.pending = s.pending ∧ servingFor t m = some w
    ∧ butDoor (f { fresh s.dev with mbx := M }) t.dev m

/-! ### Events -/

/-- A command at a state answers the next state whose queue is the state's and whose device is changed as given, from the
device from which nothing has left yet. -/
def becomes (o : Host.Outcome State Fault Refusal) (s : State) (f : Dev → Dev) : Prop :=
  o = .next { s with dev := f (fresh s.dev) }

/-- A command at a state answers the next state and changes nothing of the device. -/
def rests (o : Host.Outcome State Fault Refusal) (s : State) : Prop := becomes o s fun d => d

/-- A command that has its effect where a condition holds and changes nothing elsewhere. -/
def onlyIf (b : Prop) (o : Host.Outcome State Fault Refusal) (s : State) (f : Dev → Dev) : Prop :=
  (b → becomes o s f) ∧ (¬ b → rests o s)

/-- A command at a state answers a next state whose queue is the state's and whose device is as stated. -/
def acts (o : Host.Outcome State Fault Refusal) (s : State) (P : Dev → Prop) : Prop :=
  ∃ d, o = .next { s with dev := d } ∧ P d

/-- The packet path works, and no rail that supplies it has failed (R464). -/
def pathOpen (s : State) : Prop := s.dev.pwr.aonUp = true ∧ s.dev.pwr.railFailed = false ∧ pathRuns s.dev = true

/-! ### The record commands, by shape -/

/-- A command that reads and writes one record: its row, the record's kind, and the record as it reads. -/
structure RecordRow where
  row : Msg → Instr
  kind : RecKind
  image : Dev → Nat → Nat

/-- Records the device has one of: the read form is empty. -/
def deviceRecords : List RecordRow :=
  [⟨.arrayConfig, .array, plainImage .array⟩, ⟨.control, .controller, controllerImage⟩,
   ⟨.deviceConfig, .device, plainImage .device⟩, ⟨.selectConfig, .select, plainImage .select⟩,
   ⟨.gnssConfig, .gnssDev, plainImage .gnssDev⟩, ⟨.tiuDevice, .tiuDev, tiuDeviceImage⟩,
   ⟨.clsConfig, .cls, plainImage .cls⟩, ⟨.fwStatus, .fwStatus, fun d _ => fwImage d⟩,
   ⟨.scribeConfig, .scribe, plainImage .scribe⟩, ⟨.obsConfig, .obs, plainImage .obs⟩]

/-- A record of one unit, named by an index of one byte: how many the spec numbers, and which are present. -/
structure UnitRow extends RecordRow where
  bound : Nat
  present : Dev → Nat → Bool

/-- Records of numbered units: the read form is the index, padded to 4 bytes. -/
def unitRecords : List UnitRow :=
  [⟨⟨.follower, .follower, plainImage .follower⟩, 18, folPresent⟩, ⟨⟨.refConfig, .ref, plainImage .ref⟩, 10, refPresent⟩,
   ⟨⟨.servoConfig, .servo, plainImage .servo⟩, 2, fun _ _ => true⟩,
   ⟨⟨.gnssAntenna, .gnssAnt, plainImage .gnssAnt⟩, 2, antPresent⟩,
   ⟨⟨.tiuInput, .tiuIn, plainImage .tiuIn⟩, 8, fun _ _ => true⟩,
   ⟨⟨.portOctet, .octet, plainImage .octet⟩, 2, octetPresent⟩, ⟨⟨.portConfig, .port, plainImage .port⟩, 16, portStarts⟩,
   ⟨⟨.beacon, .beacon, plainImage .beacon⟩, 16, portStarts⟩, ⟨⟨.shim, .shim, shimImage⟩, 16, portStarts⟩,
   ⟨⟨.ptpPort, .ptpPort, plainImage .ptpPort⟩, 16, portStarts⟩,
   ⟨⟨.endpointConfig, .endpoint, endpointImage⟩, 4, fun _ _ => true⟩]

/-- Records of a tenant: the read form is the tenant, padded to 4 bytes. -/
def tenantRecords : List RecordRow :=
  [⟨.launch, .launch, plainImage .launch⟩, ⟨.tenantConfig, .tenant, plainImage .tenant⟩,
   ⟨.tenantArray, .tenantArray, plainImage .tenantArray⟩, ⟨.ntpConfig, .ntp, plainImage .ntp⟩,
   ⟨.ntpBcast, .bcast, plainImage .bcast⟩, ⟨.ntsConfig, .nts, plainImage .nts⟩, ⟨.ptpConfig, .ptp, plainImage .ptp⟩]

/-- Records whose fields have no limits but their own, which take effect at the next base-tick edge: the row, the kind
and the size of the index. -/
def plainWrites : List (RecordRow × Nat × Nat) :=
  [(⟨.arrayConfig, .array, plainImage .array⟩, 0, 1), (⟨.clsConfig, .cls, plainImage .cls⟩, 0, 1),
   (⟨.obsConfig, .obs, plainImage .obs⟩, 0, 1), (⟨.launch, .launch, plainImage .launch⟩, 2, 4096),
   (⟨.tenantConfig, .tenant, plainImage .tenant⟩, 2, 4096), (⟨.ntpConfig, .ntp, plainImage .ntp⟩, 2, 4096)]

/-- A command that writes one record with limits of its own: its row, how the payload names the record and when that is
one there is, the record as it reads, its limits, the answer and the effect of the record requested and of it as clamped. -/
structure WriteRow where
  row : Msg → Instr
  kind : RecKind
  ib : Nat
  named : Dev → List Byte → Bool
  image : Dev → Nat → Nat
  index : List Byte → Nat := fun p => rdLe p 0 ib
  dep : Dev → Nat → Nat → Dep := fun _ _ _ => noDep
  answer : Dev → Nat → Nat → Nat := fun _ _ r => r
  effect : Dev → Nat → Nat → Nat → Dev := fun d i _ v => atNextEdge kind d i v

/-- The payload names unit `i` below a bound, present. -/
def namesUnit (n : Nat) (present : Dev → Nat → Bool) (d : Dev) (p : List Byte) : Bool :=
  decide (rdLe p 0 1 < n) && present d (rdLe p 0 1)

/-- Writes of the device's own records. -/
def deviceWrites : List WriteRow :=
  [{ row := .control, kind := .controller, ib := 0, named := fun _ _ => true, image := controllerImage },
   { row := .deviceConfig, kind := .device, ib := 0, named := fun _ _ => true, image := plainImage .device
     dep := fun d _ _ => deviceDep d
     effect := fun d _ req v =>
       if anySet d = true ∧ getF req DRec.oscFreq ≠ fld d .device 0 DRec.oscFreq then d else defer d (.osc (getF v DRec.oscFreq)) },
   { row := .selectConfig, kind := .select, ib := 0, named := fun _ _ => true, image := plainImage .select
     effect := fun d i _ v => atEvaluation .select d i v },
   { row := .gnssConfig, kind := .gnssDev, ib := 0, named := fun _ _ => true, image := plainImage .gnssDev
     effect := fun d i _ v => atSecond .gnssDev d i v },
   { row := .tiuDevice, kind := .tiuDev, ib := 0, named := fun _ _ => true, image := tiuDeviceImage
     dep := fun _ _ _ f _ v => if f = TDev.ringIndex ∧ 63 < v then some (63, .range) else none },
   { row := .fwStatus, kind := .fwStatus, ib := 0, named := fun _ _ => true, image := fun d _ => fwImage d },
   { row := .scribeConfig, kind := .scribe, ib := 0, named := fun d _ => !scribeBusy d, image := plainImage .scribe
     dep := fun d _ _ => scribeDep d }]

/-- Writes of the records of numbered units. -/
def unitWrites : List WriteRow :=
  [{ row := .follower, kind := .follower, ib := 1, named := namesUnit 18 folPresent, image := plainImage .follower },
   { row := .refConfig, kind := .ref, ib := 1, named := namesUnit 10 refPresent, image := plainImage .ref
     dep := fun _ r _ => refDep r, effect := fun d i _ v => atEvaluation .ref d i v },
   { row := .servoConfig, kind := .servo, ib := 1, named := namesUnit 2 fun _ _ => true, image := plainImage .servo
     dep := fun d _ _ => servoDep d, effect := fun d i _ v => atEvaluation .servo d i v },
   { row := .gnssAntenna, kind := .gnssAnt, ib := 1, named := namesUnit 2 antPresent, image := plainImage .gnssAnt
     effect := fun d i _ v => atSecond .gnssAnt d i v },
   { row := .tiuInput, kind := .tiuIn, ib := 1, named := namesUnit 8 fun _ _ => true, image := plainImage .tiuIn
     dep := fun d i _ => inputDep d i },
   { row := .portOctet, kind := .octet, ib := 1, named := namesUnit 2 octetPresent, image := plainImage .octet
     dep := octetDep
     answer := fun d o r =>
       if mergeRw octFields (getRec d .octet o) r = getRec d .octet o then r else setF r Oct.appliedBt (d.bt + 1) },
   { row := .portConfig, kind := .port, ib := 1, named := namesUnit 16 portStarts, image := plainImage .port
     dep := portDep },
   { row := .beacon, kind := .beacon, ib := 1, named := namesUnit 16 portStarts, image := plainImage .beacon
     dep := fun _ _ _ => vidDep Bcn.vlanEn Bcn.vlanVid },
   { row := .shim, kind := .shim, ib := 1, named := namesUnit 16 portStarts, image := shimImage, dep := shimDep
     answer := fun d _ r => setF r Shm.shimBt (d.bt + 1) },
   { row := .ptpPort, kind := .ptpPort, ib := 1, named := namesUnit 16 portStarts, image := plainImage .ptpPort
     dep := pportDep },
   { row := .endpointConfig, kind := .endpoint, ib := 1, named := namesUnit 4 fun _ _ => true, image := endpointImage
     dep := fun d e _ f _ v => if f = Ep.totalVfs ∧ v < vfsNeeded d e then some (vfsNeeded d e, .dependent) else none },
   { row := .ctrConfig, kind := .ctrEvent, ib := 4, named := fun d p => ctrPresent d.variant (rdLe p 0 4)
     image := plainImage .ctrEvent, dep := fun _ i _ => ctrDep i, answer := fun d _ r => setF r CEv.modeBt (d.bt + 1) },
   { row := .wakePattern, kind := .wakePattern, ib := 2, index := fun p => rdLe p 0 1 * 16 + rdLe p 1 1
     named := fun d p => decide (rdLe p 0 1 < 16) && decide (rdLe p 1 1 < 16) && portStarts d (rdLe p 0 1)
     image := plainImage .wakePattern, dep := wakeDep }]

/-- The payload names a tenant that is not RETIRING. -/
def namesTenant (d : Dev) (p : List Byte) : Bool :=
  decide (rdLe p 0 2 < 4096) && decide (tenantState d (rdLe p 0 2) ≠ 2)

/-- Writes of the records of a tenant. -/
def tenantWrites : List WriteRow :=
  [{ row := .tenantArray, kind := .tenantArray, ib := 2, named := namesTenant, image := plainImage .tenantArray
     dep := tArrDep },
   { row := .ntpBcast, kind := .bcast, ib := 2, named := namesTenant, image := plainImage .bcast
     dep := fun d _ _ => bcDep d },
   { row := .ntsConfig, kind := .nts, ib := 2, named := fun d p => namesTenant d p && decide (d.variant ≠ .e)
     image := plainImage .nts, dep := fun d _ _ => ntsDep d },
   { row := .ptpConfig, kind := .ptp, ib := 2, named := namesTenant, image := plainImage .ptp
     dep := fun _ _ req => ptpDep req },
   { row := .ntpAccess, kind := .access, ib := 3, index := fun p => rdLe p 0 2 * 16 + rdLe p 2 1
     named := fun d p => namesTenant d p && decide (rdLe p 2 1 < 16), image := plainImage .access
     dep := fun _ _ _ => accDep }]

/-- The status commands with an empty payload and no effect, and what each answers. -/
def statusReports : List ((Msg → Instr) × (Dev → List Byte)) :=
  [(.jigStatus, jigBytes), (.deviceInfo, fun d => leBytes 32 (deviceInfo d)),
   (.tagStatus, fun d => leBytes 1 ((tagCurrent d).getD 0xFF) ++ leBytes 1 ((tagNext d).getD 0xFF)
      ++ leBytes 2 (tagMask d 1) ++ leBytes 2 (tagMask d 2) ++ leBytes 2 0),
   (.lcStatus, lcBytes), (.wrapKeyStatus, wrapBytes), (.resetCauseRead, causeBytes),
   (.faultStatus, fun d => faultRecBytes d recFirst ++ faultRecBytes d recGrace ++ recBytes .faultStatus (faultStatusImage d))]

/-- A status command that names one unit, or all of them: which units a payload names, what each answers, and what the
report clears. -/
structure ReportRow where
  row : Msg → Instr
  named : Dev → List Byte → Option (List Nat)
  bytes : Dev → Nat → List Byte
  clear : Dev → Nat → Dev := fun d _ => d

/-- The units a payload names: one below a bound that is there, or with the value `all` those of a list. -/
def namesUnits (ib bound : Nat) (present : Dev → Nat → Bool) (all : Nat) (units : Dev → List Nat) (d : Dev) (p : List Byte) :
    Option (List Nat) :=
  let i := rdLe p 0 ib
  if i < bound then (if present d i = true then some [i] else none) else if i = all then some (units d) else none

/-- The one unit a payload names. -/
def namesOne (ib bound : Nat) (present : Dev → Nat → Bool) (d : Dev) (p : List Byte) : Option (List Nat) :=
  if rdLe p 0 ib < bound ∧ present d (rdLe p 0 ib) = true then some [rdLe p 0 ib] else none

/-- The status commands that change nothing but the door. -/
def unitReports : List ReportRow :=
  [{ row := .tsRead, named := namesUnits 1 3 (fun _ _ => true) 0xFF fun _ => [0, 1, 2]
     bytes := fun d i => leBytes 32 (tscRecord d i) },
   { row := .refStatus, named := namesUnits 1 10 refPresent 0xFF fun _ => List.range 10
     bytes := fun d r => recBytes .refStatus (refImage d r) },
   { row := .gnssStatus, named := namesUnits 1 2 antPresent 0xFF fun d => [0, 1].filter (antPresent d)
     bytes := fun d a => leBytes 32 (antStatus d a) },
   { row := .gnssSolution, named := namesOne 1 2 antPresent
     bytes := fun d a => recBytes .gnssSol (getRec d .gnssSol a) },
   { row := .portStatus, named := namesUnits 1 16 portStarts 0xFF fun _ => List.range 16
     bytes := fun d i => leBytes 32 (portStatusImage d i) },
   { row := .tagRead, named := fun d p =>
       if rdLe p 0 1 < 16 then some [rdLe p 0 1] else if rdLe p 0 1 = 0xFF then (tagCurrent d).map fun k => [k] else none
     bytes := tagPayload },
   { row := .nodeStatus, named := fun d p =>
       if nodeInSet p = true then (if nodeArgPresent d p = true then some [nodeArg p] else none)
       else if rdLe p 0 1 = 0xFF then some (nodesPresent d.variant) else none
     bytes := fun d c => leBytes 4 (nodeStatusImage d c) ++ leBytes 4 (getRec d .nodeFlags c) },
   { row := .faultRecords, named := fun d p =>
       if nodeInSet p = true then (if nodeArgPresent d p = true then some [nodeArg p] else none)
       else if rdLe p 0 1 = 4 then some [recFirst, recGrace]
       else if rdLe p 0 1 = 0xFF then some (nodesPresent d.variant ++ [recFirst, recGrace]) else none
     bytes := faultRecBytes }]

/-- The status commands whose records have read-to-clear fields. -/
def clearingReports : List ReportRow :=
  [{ row := .servoStatus, named := namesUnits 1 2 (fun _ _ => true) 0xFF fun _ => [0, 1]
     bytes := fun d i => recBytes .servoStatus (servoImage d i), clear := fun d i => readClear d .servoStatus i },
   { row := .tiuStatus, named := namesUnits 1 8 (fun _ _ => true) 0xFF fun _ => List.range 8
     bytes := fun d i => leBytes 32 (inputStatus d i), clear := fun d i => readClear d .tiuInStatus i },
   { row := .ptpClient, named := namesOne 1 2 fun d i => (clientPort d i).isSome
     bytes := fun d i => recBytes .ptpClient (setF (getRec d .ptpClient i) PCli.cstate
       (clientState d i ((clientPort d i).getD 0)))
     clear := fun d i => readClear d .ptpClient i },
   { row := .gnssChannels, named := fun d p => (namesOne 1 2 antPresent d p).map fun as => as.flatMap chansOf
     bytes := fun d c => leBytes 16 (chanStatus d c), clear := fun d c => readClear d .gnssChan c },
   { row := .viewRead, named := namesUnits 2 256 (fun _ _ => true) 0xFFFF fun _ => List.range 256
     bytes := fun d v => recBytes .view (viewImage d v), clear := fun d v => readClear d .view v },
   { row := .keySlots, named := namesUnits 2 512 (fun _ _ => true) 0xFFFF fun _ => List.range 512
     bytes := slotBytes, clear := fun d k => readClear d .asymSlot k },
   { row := .ntsKeyRing, named := fun d p =>
       if d.variant = .e then none else namesOne 2 4096 (fun d t => decide (tenantState d t ≠ 2)) d p
     bytes := ringBytes
     clear := fun d t => (List.range 3).foldl (fun d s => readClear d .keyRing (ringSlot t s)) d }]

/-- A statistics block: its row, its kind, how many counters it has, the size of its index, and whether a payload names
one that is there. -/
structure StatRow where
  row : Msg → Instr
  kind : StatKind
  count : Nat
  ib : Nat
  named : Dev → List Byte → Bool

/-- A payload names a port that starts. -/
def namesPort (d : Dev) (p : List Byte) : Bool := decide (rdLe p 0 1 < 16) && portStarts d (rdLe p 0 1)

def statBlocks : List StatRow :=
  [⟨.launchStats, .launch, 14, 1, namesPort⟩, ⟨.clsStats, .cls, 3, 1, namesPort⟩, ⟨.ntpStats, .ntp, 37, 2, namesTenant⟩,
   ⟨.ntsStats, .nts, 31, 2, namesTenant⟩, ⟨.ptpStats, .ptp, 23, 2, namesTenant⟩]

/-! ### The opcode map and the packet path -/

def opcodeRows1 : List ((Msg → Instr) × Nat) :=
  [(.deviceInfo, 0x0100), (.deviceConfig, 0x0101), (.keepalive, 0x0110), (.doorStats, 0x0111),
   (.nodeStatus, 0x0120), (.arrayConfig, 0x0121), (.endpointConfig, 0x0130), (.control, 0x0131),
   (.controlClaim, 0x0132), (.controlRelease, 0x0133), (.tagRead, 0x0200), (.tagWrite, 0x0201),
   (.tagStatus, 0x0202), (.fwStatus, 0x0300), (.fwErase, 0x0301), (.fwWrite, 0x0302), (.fwVerify, 0x0303),
   (.fwConfirm, 0x0305), (.fwReload, 0x0306), (.jigUpload, 0x0310), (.jigActivate, 0x0311), (.jigStatus, 0x0312),
   (.tsRead, 0x1000), (.tsRate, 0x1001), (.tsSet, 0x1002), (.tsStep, 0x1003), (.tsClear, 0x1004),
   (.tshSteer, 0x1005), (.follower, 0x1006), (.viewCreate, 0x1100), (.viewRead, 0x1101), (.viewSmear, 0x1102)]

def opcodeRows2 : List ((Msg → Instr) × Nat) :=
  [(.viewClear, 0x1103), (.leapTable, 0x1110), (.leapRead, 0x1111), (.leapPolicy, 0x1112), (.refConfig, 0x1200),
   (.refStatus, 0x1201), (.servoConfig, 0x1210), (.servoStatus, 0x1211), (.selectConfig, 0x1220), (.seed, 0x1221),
   (.gnssConfig, 0x1300), (.gnssAntenna, 0x1301), (.gnssStatus, 0x1302), (.gnssChannels, 0x1303),
   (.gnssMeas, 0x1304), (.gnssPosition, 0x1305), (.gnssBaseline, 0x1306), (.gnssSolution, 0x1307),
   (.gnssSubframes, 0x1308), (.gnssRestart, 0x1309), (.tiuInput, 0x1400), (.tiuStatus, 0x1401),
   (.tiuDevice, 0x1402), (.tiuEvents, 0x1403), (.tiuOutput, 0x1404), (.portOctet, 0x2000), (.portConfig, 0x2001),
   (.portStatus, 0x2002), (.portStats, 0x2003), (.wakePattern, 0x2004), (.beacon, 0x2005), (.portRestart, 0x2006)]

def opcodeRows3 : List ((Msg → Instr) × Nat) :=
  [(.shim, 0x2100), (.shimLoop, 0x2101), (.launch, 0x2102), (.launchStats, 0x2103), (.tenantBind, 0x3000),
   (.tenantConfig, 0x3001), (.tenantView, 0x3002), (.tenantRetire, 0x3003), (.tenantEvents, 0x3004),
   (.tenantArray, 0x3010), (.addrEntry, 0x3020), (.ntpConfig, 0x3100), (.ntpAccess, 0x3101), (.ntpBcast, 0x3102),
   (.ntpStats, 0x3103), (.ctStatus, 0x3104), (.ctFlush, 0x3105), (.clsConfig, 0x3106), (.clsStats, 0x3107),
   (.ntsConfig, 0x3200), (.ntsKeyPromote, 0x3202), (.ntsKeyRotate, 0x3203), (.ntsKeyExport, 0x3204),
   (.ntsKeyRing, 0x3205), (.ntsKeyClear, 0x3206), (.ntsMint, 0x3207), (.ntsStats, 0x3208), (.ptpConfig, 0x3300),
   (.ptpPort, 0x3301), (.ptpGrants, 0x3302), (.ptpClient, 0x3303), (.ptpStats, 0x3304)]

def opcodeRows4 : List ((Msg → Instr) × Nat) :=
  [(.keySlots, 0x4000), (.keyGenerate, 0x4001), (.keyPublic, 0x4002), (.keyAssign, 0x4003), (.keyDestroy, 0x4004),
   (.pkeSign, 0x4010), (.pkeStatus, 0x4011), (.wrapKeyInstall, 0x4020), (.wrapKeyStatus, 0x4021),
   (.lcStatus, 0x4100), (.lcAdvance, 0x4101), (.lcSvnRaise, 0x4102), (.faultStatus, 0x5000),
   (.faultRecords, 0x5001), (.faultClass, 0x5003), (.faultInject, 0x5004), (.faultCounts, 0x5005),
   (.deviceReset, 0x5101), (.resetCauseRead, 0x5102), (.resetCauseClear, 0x5102), (.nodeReset, 0x5121),
   (.ctrConfig, 0x6000), (.gauge, 0x6001), (.ctrRead, 0x6002), (.scribeConfig, 0x6100), (.scribeArm, 0x6101),
   (.scribeTrigger, 0x6102), (.scribeStatus, 0x6103), (.scribeRead, 0x6104), (.scribeAdvance, 0x6105),
   (.obsConfig, 0x6106)]

/-- The commands whose payload is the whole command, each with its opcode (R353). -/
def opcodeRows : List ((Msg → Instr) × Nat) :=
  opcodeRows1 ++ opcodeRows2 ++ opcodeRows3 ++ opcodeRows4

/-- The steps of the packet path: traffic, the array, its tables and the clients of the time services. -/
def pathRow : Instr → Bool
  | .aeadJobComplete .. | .contextTimeout .. | .idleRegate .. | .jigOldContextsDrained | .frameReceive ..
  | .ptpMessageDue .. | .twoStepFollowUp | .grantExpiry .. | .grantEntryFree .. | .descriptorGrant ..
  | .clientTableUpdate .. | .tableReadComplete .. | .txCreditAvailable .. | .wakeComplete ..
  | .wakeTimeout .. | .broadcastDue .. | .lockLoss .. | .linkDownDelayExpiry .. | .linkUp ..
  | .remoteFaultReceived .. | .shortLockLossEnd .. | .skewChange .. | .pauseExpiry .. | .pauseWatchdog ..
  | .pauseHoldoffEnd .. | .txFrameStart .. | .txFrameEnd .. | .launchDeadline .. | .launchSendMaxExpiry ..
  | .hostTxDescriptorFetch .. | .beaconPeriod .. | .ctSweep | .ptpClientFrame .. | .ptpClientDelayReq ..
  | .ptpClientRenew .. | .ptpExchangeTimeout .. | .announceReceiptTimeout .. => true
  | _ => false

/-- The device serves its doors, and the message's door takes a doorbell, no other door waiting for service. -/
def listens (s : State) (m : Msg) : Prop :=
  s.dev.pwr.aonUp = true ∧ doorsServed s.dev = true ∧ barUp s.dev m.fn = true
    ∧ ((getDoor s.dev m.fn m.door.val).phase = .idle ∨ (getDoor s.dev m.fn m.door.val).phase = .done)
    ∧ ∀ e ∈ s.dev.mbx.doors, e.2.posted = none

/-! ### OFF -/

/-- The AON supply is down, and no command that waits would raise it. -/
def off (s : State) : Bool := !s.dev.pwr.aonUp && s.pending.all fun c => decide (c ≠ .aonPowerOn)

end Sys2Proof.Machine
end

