-- ==== Sys2Proof/WellFormed.lean ====
section
/-! DEFINITION. Well-formed commands: what a sender can send. The block gives every command a meaning, well-formed or not;
these checks say which terms of `Instr` stand for one. -/

namespace Sys2Proof

/-- A VF has the one door 0 (R334). -/
def doorFits (f : Fn) (door : Fin 8) : Bool := f.vf.isNone || decide (door = 0)

/-- A VF has four rings each way. -/
def ringFits (f : Fn) (ring : Fin 64) : Bool := f.vf.isNone || decide (ring.val < 4)

/-- The BAR of a VF is 64 KiB (R315). -/
def offsetFits (f : Fn) (offset : BitVec 18) : Bool := f.vf.isNone || decide (offset.toNat < 0x10000)

/-- A message fits its door's request buffer (Table MBX.1). -/
def msgFits (m : Msg) : Bool := decide (m.payload.length ≤ 4064) && doorFits m.fn m.door

/-- A receive report carries the frame's bytes. -/
def eventFits : RxEvent → Bool
  | .begins _ head => decide (head ≠ [])
  | .ends f => decide (f.bytes ≠ [])

/-- The operands of a command are such as its sender can give. -/
def Instr.wellFormed : Instr → Bool
  | .keepalive m => msgFits m
  | .doorStats m => msgFits m
  | .nodeStatus m => msgFits m
  | .arrayConfig m => msgFits m
  | .endpointConfig m => msgFits m
  | .control m => msgFits m
  | .controlClaim m => msgFits m
  | .controlRelease m => msgFits m
  | .deviceInfo m => msgFits m
  | .deviceConfig m => msgFits m
  | .tagRead m => msgFits m
  | .tagWrite m => msgFits m
  | .tagStatus m => msgFits m
  | .jigUpload m => msgFits m
  | .jigActivate m => msgFits m
  | .jigStatus m => msgFits m
  | .fwStatus m => msgFits m
  | .fwErase m => msgFits m
  | .fwWrite m => msgFits m
  | .fwVerify m => msgFits m
  | .fwSelectTrial m => msgFits m
  | .fwSelectPrefer m => msgFits m
  | .fwSelectCancel m => msgFits m
  | .fwConfirm m => msgFits m
  | .fwReload m => msgFits m
  | .tsRead m => msgFits m
  | .tsRate m => msgFits m
  | .tsSet m => msgFits m
  | .tsStep m => msgFits m
  | .tsClear m => msgFits m
  | .tshSteer m => msgFits m
  | .follower m => msgFits m
  | .viewCreate m => msgFits m
  | .viewRead m => msgFits m
  | .viewSmear m => msgFits m
  | .viewClear m => msgFits m
  | .leapTable m => msgFits m
  | .leapRead m => msgFits m
  | .leapPolicy m => msgFits m
  | .refConfig m => msgFits m
  | .refStatus m => msgFits m
  | .refDisqualifyForce m => msgFits m
  | .refDisqualifyRelease m => msgFits m
  | .servoConfig m => msgFits m
  | .servoStatus m => msgFits m
  | .selectConfig m => msgFits m
  | .seed m => msgFits m
  | .gnssConfig m => msgFits m
  | .gnssAntenna m => msgFits m
  | .gnssStatus m => msgFits m
  | .gnssChannels m => msgFits m
  | .gnssMeas m => msgFits m
  | .gnssPosition m => msgFits m
  | .gnssPositionResurvey m => msgFits m
  | .gnssBaseline m => msgFits m
  | .gnssBaselineResurvey m => msgFits m
  | .gnssSolution m => msgFits m
  | .gnssSubframes m => msgFits m
  | .gnssRestart m => msgFits m
  | .tiuInput m => msgFits m
  | .tiuStatus m => msgFits m
  | .tiuDevice m => msgFits m
  | .tiuEvents m => msgFits m
  | .tiuOutput m => msgFits m
  | .portOctet m => msgFits m
  | .portConfig m => msgFits m
  | .portStatus m => msgFits m
  | .portStats m => msgFits m
  | .wakePattern m => msgFits m
  | .beacon m => msgFits m
  | .portRestart m => msgFits m
  | .shim m => msgFits m
  | .shimLoop m => msgFits m
  | .launch m => msgFits m
  | .launchStats m => msgFits m
  | .tenantBind m => msgFits m
  | .tenantConfig m => msgFits m
  | .tenantView m => msgFits m
  | .tenantRetire m => msgFits m
  | .tenantEvents m => msgFits m
  | .tenantArray m => msgFits m
  | .addrEntry m => msgFits m
  | .ntpConfig m => msgFits m
  | .ntpAccess m => msgFits m
  | .ntpBcast m => msgFits m
  | .ntpStats m => msgFits m
  | .ctStatus m => msgFits m
  | .ctFlush m => msgFits m
  | .clsConfig m => msgFits m
  | .clsStats m => msgFits m
  | .ntsConfig m => msgFits m
  | .ntsKeyInstallGenerate m => msgFits m
  | .ntsKeyInstallImport m => msgFits m
  | .ntsKeyPromote m => msgFits m
  | .ntsKeyRotate m => msgFits m
  | .ntsKeyExport m => msgFits m
  | .ntsKeyRing m => msgFits m
  | .ntsKeyClear m => msgFits m
  | .ntsMint m => msgFits m
  | .ntsStats m => msgFits m
  | .ptpConfig m => msgFits m
  | .ptpPort m => msgFits m
  | .ptpGrants m => msgFits m
  | .ptpClient m => msgFits m
  | .ptpStats m => msgFits m
  | .nodePowerGate m => msgFits m
  | .nodePowerUngate m => msgFits m
  | .nodeReset m => msgFits m
  | .keySlots m => msgFits m
  | .keyGenerate m => msgFits m
  | .keyPublic m => msgFits m
  | .keyAssign m => msgFits m
  | .keyDestroy m => msgFits m
  | .pkeSign m => msgFits m
  | .pkeStatus m => msgFits m
  | .wrapKeyInstall m => msgFits m
  | .wrapKeyStatus m => msgFits m
  | .lcStatus m => msgFits m
  | .lcAdvance m => msgFits m
  | .lcSvnRaise m => msgFits m
  | .faultStatus m => msgFits m
  | .faultRecords m => msgFits m
  | .faultClearRecord m => msgFits m
  | .faultClearDescendants m => msgFits m
  | .faultClearGrace m => msgFits m
  | .faultClearGravest m => msgFits m
  | .faultClearCounts m => msgFits m
  | .faultClass m => msgFits m
  | .faultInject m => msgFits m
  | .faultCounts m => msgFits m
  | .powerStateRead m => msgFits m
  | .powerStateFull m => msgFits m
  | .powerStateListen m => msgFits m
  | .powerStateKeepTime m => msgFits m
  | .deviceReset m => msgFits m
  | .resetCauseRead m => msgFits m
  | .resetCauseClear m => msgFits m
  | .ctrConfig m => msgFits m
  | .gauge m => msgFits m
  | .ctrRead m => msgFits m
  | .scribeConfig m => msgFits m
  | .scribeArm m => msgFits m
  | .scribeTrigger m => msgFits m
  | .scribeStatus m => msgFits m
  | .scribeRead m => msgFits m
  | .scribeAdvance m => msgFits m
  | .obsConfig m => msgFits m
  | .unknownOpcode _ m => msgFits m
  | .doorbell fn door => doorFits fn door
  | .requestFragment _ m => msgFits m
  | .responseContinue _ m => msgFits m
  | .requestAbort _ m => msgFits m
  | .fragTimeout fn door => doorFits fn door
  | .respDiscardTimeout fn door => doorFits fn door
  | .slowHardwareComplete fn door _ => doorFits fn door
  | .deviceEventsW1c _ _ => true
  | .deviceEventMaskWrite _ _ => true
  | .vfEventW1c _ _ _ => true
  | .ringProducerWrite fn _ ring _ descs => ringFits fn ring && decide (descs.length ≤ 32768)
  | .ringEnableWrite fn _ ring _ => ringFits fn ring
  | .btCountLowRead _ => true
  | .readClearRegisterRead fn offset => offsetFits fn offset
  | .barRegisterWrite fn offset size _ => offsetFits fn offset && [1, 2, 4, 8].contains size
  | .aonPowerOn => true
  | .aonSupplyLoss => true
  | .mainRailsCheck _ => true
  | .resetNAssert => true
  | .pinLong => true
  | .resetNDeassert => true
  | .deviceResetStart => true
  | .fullBoot => true
  | .processorBoot => true
  | .fwReady => true
  | .mpWatchdogExpiry => true
  | .trialConfirmExpiry => true
  | .wakeNAssert => true
  | .perstAssert _ => true
  | .perstDeassert _ => true
  | .vfFlr _ _ => true
  | .pfFlr _ => true
  | .sidebandWake _ _ _ => true
  | .sidebandBlockRead _ => true
  | .jtagInstruction _ => true
  | .keepTimeEntry => true
  | .listenSharedAreaDrain => true
  | .baseTickEdge strobes => decide (strobes.length ≤ 18)
  | .leapSwitch => true
  | .hostLeapTableExpiry => true
  | .gpsLeapValidityLapse => true
  | .servoEvaluation => true
  | .seedVerifyEnd _ => true
  | .holdoverMaxExpiry _ => true
  | .keepaliveLapse => true
  | .faultRaise _ => true
  | .echoJudgement => true
  | .graceExpiry => true
  | .voltRange _ => true
  | .tempHigh _ => true
  | .tempCrit _ => true
  | .oscCheck _ => true
  | .pllUnlock _ => true
  | .pllRelock _ => true
  | .scrubPass _ => true
  | .rngHealthFail => true
  | .rngRecovery => true
  | .frameReceive e => eventFits e
  | .lockLoss _ _ _ _ => true
  | .linkDownDelayExpiry _ => true
  | .linkUp _ => true
  | .remoteFaultReceived _ => true
  | .skewChange _ => true
  | .pauseExpiry _ _ => true
  | .pauseWatchdog _ _ => true
  | .pauseHoldoffEnd _ _ => true
  | .descriptorGrant _ => true
  | .clientTableUpdate _ _ => true
  | .tableReadComplete _ _ => true
  | .aeadJobComplete _ _ _ => true
  | .txCreditAvailable _ _ => true
  | .contextTimeout _ _ => true
  | .powerGateComplete _ => true
  | .wakeComplete _ => true
  | .wakeTimeout _ => true
  | .idleRegate _ => true
  | .nodeResetRelease _ => true
  | .jigOldContextsDrained => true
  | .txFrameStart _ => true
  | .txFrameEnd _ => true
  | .launchDeadline _ _ _ => true
  | .launchSendMaxExpiry _ _ => true
  | .hostTxDescriptorFetch fn ring frame => ringFits fn ring && decide (frame.length ≤ 16383)
  | .beaconPeriod _ => true
  | .broadcastDue _ _ _ => true
  | .ptpMessageDue _ _ _ _ => true
  | .twoStepFollowUp => true
  | .grantExpiry _ _ => true
  | .grantEntryFree _ => true
  | .ptpClientFrame _ => true
  | .ptpClientDelayReq _ => true
  | .ptpClientRenew _ => true
  | .ptpExchangeTimeout _ => true
  | .ctSweep => true
  | .ctRetentionExit => true
  | .ntsKeyUsable _ _ => true
  | .ntsKeyRoleEdge _ => true
  | .tenantRetireComplete _ => true
  | .vfSummaryHoldoffEnd _ => true
  | .benchOperationComplete _ _ => true
  | .gaugeStrobe => true
  | .gaugeCopyComplete => true
  | .scribeSegmentComplete => true
  | .scribeRearmEnd => true
  | .gnssEpoch e => decide (e.chans.length = 48)
  | .baselineSurveyEnd _ => true
  | .spectrumMonitor _ _ _ => true
  | .notchRelease _ _ => true
  | .agcSecondReport _ _ _ _ _ => true
  | .acquisitionComplete _ _ => true
  | .pullInTimeout _ => true
  | .carrierLockCheck _ _ _ => true
  | .cn0Loss _ => true
  | .bitSyncWindow _ counts => decide (counts.length = 20)
  | .subframeReceived _ sums => decide (sums ≠ [])
  | .tiuInputEdge _ => true
  | .intervalOverflow _ => true
  | .frequencyGateEnd _ => true
  | .tiuCalPassComplete x => decide (x.hits.length = 400)
  | .tiuDllLock _ => true
  | .tiuDllUnlock _ => true
  | .ppsOutputEdge _ _ _ => true
  | .foutEdge _ _ _ => true
  | .outputSettingsApply _ => true
  | .shortLockLossEnd _ => true
  | .announceReceiptTimeout _ => true
  | .ringIrqHoldoffEnd fn _ ring => ringFits fn ring
  | .configurationSpaceWrite _ _ _ => true
  | .pcieLinkTrained _ => true
  | .pcieLinkDown _ => true
  | .flrComplete _ => true
  | .railWithinLimits _ => true
  | .tempEpisodeEnd _ _ => true

end Sys2Proof
end

