-- ==== Sys2Proof/Certificates/Slice0/Obligations.lean ====
section
/-! DEFINITION. The statements for the provers: the record commands, the status commands, the commands of each family, the
events of each part of the block, the mailbox, and what holds of every step. -/

open Sys2Proof

open Sys2Proof.Machine

/-- R348, R9, R479: the read form of a record of the device answers OK with the record's bytes and clears its RC
fields; nothing else changes but the door. -/
def Obligations.DeviceRecordReads : Prop :=
  ∀ r ∈ deviceRecords, ∀ (s : State) (m : Msg), byController s m = true → copied m = [] →
    answers (exec (r.row m) s) s m (plain .ok (recBytes r.kind (r.image s.dev 0))) (readClear s.dev r.kind 0)

/-- R9, R345, R479: the read form of a numbered unit's record answers OK with the record's bytes and clears its RC
fields; an index out of range is BAD_LENGTH, an absent unit NOT_PRESENT, and neither changes anything but the door. -/
def Obligations.UnitRecordReads : Prop :=
  ∀ r ∈ unitRecords, ∀ (s : State) (m : Msg), byController s m = true → (copied m).length = 4 →
    answers (exec (r.row m) s) s m
      (if r.bound ≤ rdLe (copied m) 0 1 then plain .badLength []
        else if r.present s.dev (rdLe (copied m) 0 1) = false then plain .notPresent []
        else plain .ok (recBytes r.kind (r.image s.dev (rdLe (copied m) 0 1))))
      (if r.bound ≤ rdLe (copied m) 0 1 ∨ r.present s.dev (rdLe (copied m) 0 1) = false then s.dev
        else readClear s.dev r.kind (rdLe (copied m) 0 1))

/-- R9, R329, R345, R479: the read form of a tenant's record answers OK with the record's bytes and clears its RC
fields; a tenant out of range is BAD_LENGTH, a RETIRING tenant STATE. The NTS record is not served by the AX8800-E. -/
def Obligations.TenantRecordReads : Prop :=
  ∀ r ∈ tenantRecords, ∀ (s : State) (m : Msg), byController s m = true → (copied m).length = 4 →
    (r.kind = .nts → s.dev.variant ≠ .e) →
    answers (exec (r.row m) s) s m
      (if 4096 ≤ rdLe (copied m) 0 2 then plain .badLength []
        else if tenantState s.dev (rdLe (copied m) 0 2) = 2 then plain .state []
        else plain .ok (recBytes r.kind (r.image s.dev (rdLe (copied m) 0 2))))
      (if 4096 ≤ rdLe (copied m) 0 2 ∨ tenantState s.dev (rdLe (copied m) 0 2) = 2 then s.dev
        else readClear s.dev r.kind (rdLe (copied m) 0 2))

/-- R9, R479: the records named by two indices or a wide one: a port's wake pattern, a tenant's access rule, a counter
event; and the TSH steering record. -/
def Obligations.IndexedRecordReads : Prop :=
  ∀ (s : State) (m : Msg), byController s m = true →
    ((copied m).length = 4 → rdLe (copied m) 0 1 < 16 → rdLe (copied m) 1 1 < 16 →
      portStarts s.dev (rdLe (copied m) 0 1) = true →
      answers (exec (.wakePattern m) s) s m
        (plain .ok (recBytes .wakePattern (getRec s.dev .wakePattern (rdLe (copied m) 0 1 * 16 + rdLe (copied m) 1 1))))
        (readClear s.dev .wakePattern (rdLe (copied m) 0 1 * 16 + rdLe (copied m) 1 1)))
    ∧ ((copied m).length = 4 → rdLe (copied m) 0 2 < 4096 → rdLe (copied m) 2 1 < 16 →
      tenantState s.dev (rdLe (copied m) 0 2) ≠ 2 →
      answers (exec (.ntpAccess m) s) s m
        (plain .ok (recBytes .access (getRec s.dev .access (rdLe (copied m) 0 2 * 16 + rdLe (copied m) 2 1))))
        (readClear s.dev .access (rdLe (copied m) 0 2 * 16 + rdLe (copied m) 2 1)))
    ∧ ((copied m).length = 4 → ctrPresent s.dev.variant (rdLe (copied m) 0 4) = true →
      answers (exec (.ctrConfig m) s) s m (plain .ok (recBytes .ctrEvent (getRec s.dev .ctrEvent (rdLe (copied m) 0 4))))
        (readClear s.dev .ctrEvent (rdLe (copied m) 0 4)))
    ∧ (copied m = [] →
      answers (exec (.tshSteer m) s) s m (plain .ok (recBytes .steer (getRec s.dev .steer 0))) s.dev)

/-- R347, R348, R349: a record written is clamped field by field, answers the record as applied with its clamp report,
and takes effect whole: at the first base-tick edge after it, but for the records of the discipline, at the next
evaluation, and those of the GNSS baseband, at the next second. The records whose limits refer to something else, and
those of one unit or tenant, come second. -/
def Obligations.PlainRecordWrites : Prop :=
  (∀ r ∈ plainWrites, ∀ (s : State) (m : Msg), byController s m = true →
    (copied m).length = idxLen r.2.1 + r.1.kind.bytes → rdLe (copied m) 0 r.2.1 < r.2.2 →
    (r.2.1 = 2 → tenantState s.dev (rdLe (copied m) 0 2) ≠ 2) →
    let i := rdLe (copied m) 0 r.2.1
    let old := getRec s.dev r.1.kind i
    let v := clampRecord r.1.kind.fields noDep 0 old (carried r.2.1 r.1.kind (copied m))
    answers (exec (r.1.row m) s) s m (withReport (recBytes r.1.kind (mergeRw r.1.kind.fields old v.1)) v.2)
      { s.dev with atEdge := s.dev.atEdge ++ [(s.dev.bt + 1, .write r.1.kind i v.1)] })
  ∧ ∀ r ∈ deviceWrites ++ unitWrites ++ tenantWrites, ∀ (s : State) (m : Msg), byController s m = true →
    (copied m).length = idxLen r.ib + r.kind.bytes → r.named s.dev (copied m) = true →
    let i := r.index (copied m)
    let req := carried r.ib r.kind (copied m)
    let v := clampRecord r.kind.fields (r.dep s.dev i req) 0 (getRec s.dev r.kind i) req
    answers (exec (r.row m) s) s m
      (withReport (recBytes r.kind (r.answer s.dev i (mergeRw r.kind.fields (r.image s.dev i) v.1))) v.2)
      (r.effect s.dev i req v.1)

/-- R66, R166, R268, R287, R295, R345, R358, R362, R384, R392, R402, R420, R439: the status commands that take no
payload answer OK with their record and change nothing but the door. The status commands of one unit, or of all of
them, answer OK with the records of the units named and change nothing but the door. -/
def Obligations.StatusReports : Prop :=
  (∀ r ∈ statusReports, ∀ (s : State) (m : Msg), byController s m = true → copied m = [] →
    answers (exec (r.1 m) s) s m (plain .ok (r.2 s.dev)) s.dev)
  ∧ ((∀ r ∈ unitReports, ∀ (s : State) (m : Msg), byController s m = true → (copied m).length = 4 →
    ∀ us, r.named s.dev (copied m) = some us →
      answers (exec (r.row m) s) s m (plain .ok (us.flatMap (r.bytes s.dev))) s.dev)
  ∧ ∀ (s : State) (m : Msg), byController s m = true → (copied m).length = 4 → rdLe (copied m) 0 1 = 0xFF →
      tagCurrent s.dev = none →
      answers (exec (.tagRead m) s) s m
        (plain .ok (leBytes 1 0xFF ++ leBytes 1 3 ++ leBytes 6 0 ++ List.replicate 256 0)) s.dev)

/-- R9, R85, R228, R246, R268, R295, R314, R387: the status commands whose records have RC fields answer OK with the
records of the units named as they were, and clear those fields. -/
def Obligations.ClearingReports : Prop :=
  (∀ r ∈ clearingReports, ∀ (s : State) (m : Msg), byController s m = true → (copied m).length = 4 →
    ∀ us, r.named s.dev (copied m) = some us →
      answers (exec (r.row m) s) s m (plain .ok (us.flatMap (r.bytes s.dev))) (us.foldl r.clear s.dev))
  ∧ ∀ (s : State) (m : Msg), byController s m = true → copied m = [] →
    answers (exec (.ctStatus m) s) s m (plain .ok (recBytes .ct (ctImage s.dev))) (readClear s.dev .ct 0)
    ∧ answers (exec (.leapRead m) s) s m (plain .ok (recBytes .leap (getRec s.dev .leap 0) ++ hostTableBytes s.dev))
        (readClear s.dev .leap 0)
    ∧ answers (exec (.scribeStatus m) s) s m (plain .ok (scribeBytes s.dev))
        (setFld (setFld s.dev .scribeHdr 0 ScrSt.trigIgnored 0) .scribeHdr 0 ScrSt.recordsLost 0)

/-- R397: PKE_STATUS returns one record of Table SEC.8 for each bench, in bench order, and its count of operations is
cleared by the read. -/
def Obligations.BenchStatus : Prop :=
  ∀ (s : State) (m : Msg), byController s m = true → copied m = [] →
    answers (exec (.pkeStatus m) s) s m
      (plain .ok (recBytes .bench (benchImage s.dev 0) ++ recBytes .bench (benchImage s.dev 1)
        ++ recBytes .bench (benchImage s.dev 2) ++ recBytes .bench (benchImage s.dev 3)))
      (readClear (readClear (readClear (readClear s.dev .bench 0) .bench 1) .bench 2) .bench 3)

/-- R113, R138, R199, R200, R227, R245: the statistics commands answer OK with the block's counters, 64 bits each in
index order, and return every counter of the block to zero; no other counter changes but the door's own. -/
def Obligations.StatisticsReadAndClear : Prop :=
  ∀ r ∈ statBlocks, ∀ (s : State) (m : Msg), byController s m = true → (copied m).length = 4 →
    (r.kind = .nts → s.dev.variant ≠ .e) → r.named s.dev (copied m) = true →
    let i := rdLe (copied m) 0 r.ib
    answers (exec (r.row m) s) s m
        (plain .ok ((List.range r.count).flatMap fun j => leBytes 8 (getStat s.dev r.kind i j))) (clearStats s.dev r.kind i)
      ∧ ∀ j < 64, getStat (clearStats s.dev r.kind i) r.kind i j = 0

/-- R7, R43: at AON power-on, whatever the device was before, each of TSA, TSB and TSH has value 0, INC_NOM for 10
MHz, SET = 0 and STEP_SOURCE = NONE, and TSH has SELECT = NONE; n < 2^48 advances from there give n × 100 ns. The
machine after reset is in that state. -/
def Obligations.TimescalesAtPowerOn : Prop :=
  let fromPowerOn (d : Dev) : Prop :=
    (∀ i < 3, (getTs d i).sec = 0 ∧ (getTs d i).ns = 0 ∧ (getTs d i).frac40 = 0 ∧ (getTs d i).inc = incNom d
      ∧ (getTs d i).inc = 100 * 2 ^ 40 ∧ (getTs d i).set = false ∧ (getTs d i).stepSource = 0)
    ∧ fld d .steer 0 Steer.select = 0
    ∧ ∀ i < 3, ∀ n < 2 ^ 48, (getTs (Nat.repeat advanceAll n d) i).total = n * 100 * 2 ^ 40
  fromPowerOn State.reset.dev ∧ ∀ s : State, acts (exec .aonPowerOn s) s fromPowerOn

/-- R37: the NS96 of a timescale has NANOSECONDS SECONDS × 10^9 + NANOSECONDS and FRACTION bits [39:8] of the
accumulated fraction; a TW96 value that becomes its value makes the accumulated fraction FRACTION × 2^24, whose 24 low
bits are zero. R84 gives the last clause: a PTP timestamp has the seconds and nanoseconds of B(s), and the fraction
beyond them in 2^-16 ns. -/
def Obligations.TimeWords : Prop :=
  (∀ t : Timescale, t.frac40 < 2 ^ 40 → t.ns96 / 2 ^ 32 = t.sec * 10 ^ 9 + t.ns ∧ t.ns96 % 2 ^ 32 = t.frac40 / 2 ^ 8)
  ∧ (∀ (t : Timescale) (tw : Nat), tw < 2 ^ 96 → tw / 2 ^ 16 % 2 ^ 32 < 10 ^ 9 →
    (t.withTotal (twTotal tw)).sec = tw / 2 ^ 48 ∧ (t.withTotal (twTotal tw)).ns = tw / 2 ^ 16 % 2 ^ 32
      ∧ (t.withTotal (twTotal tw)).frac40 = tw % 2 ^ 16 * 2 ^ 24 ∧ (t.withTotal (twTotal tw)).frac40 % 2 ^ 24 = 0)
  ∧ (∀ (d : Dev) (v nano f : Nat) (s : Int), viewBase d v s = ((nano * 2 ^ 32 + f : Nat) : Int) → nano < 2 ^ 64 → f < 2 ^ 32 →
    ptpTime d v s = (nano / 10 ^ 9, nano % 10 ^ 9, f / 2 ^ 16) ∧ nano / 10 ^ 9 < 2 ^ 48)

/-- R40, R41, R46, R47: TS_RATE, confined to INC_NOM × (1 ± 500 × 10^-6) of the frequency the next edge has, and
TS_CLEAR take effect at the first base-tick edge after the command and answer with that edge; while they are refused
they complete with STATE and change nothing. The bit numbers in the clamp report of TS_RATE are the model's choice
(assumption log 75). -/
def Obligations.TimescaleRateAndClear : Prop :=
  ∀ (s : State) (m : Msg), byController s m = true → rdLe (copied m) 0 1 ≤ 2 →
    let i := rdLe (copied m) 0 1
    ((copied m).length = 16 →
      let req := rdLe (copied m) 4 12 % 2 ^ 72
      let inc := confineInc (incNomAhead s.dev) req
      (rateRefused s.dev i = true → answers (exec (.tsRate m) s) s m (plain .state []) s.dev)
      ∧ (rateRefused s.dev i = false → answers (exec (.tsRate m) s) s m
          (withReport (leBytes 12 inc ++ leBytes 8 (s.dev.bt + 1)) (incEntry req inc))
          { s.dev with atEdge := s.dev.atEdge ++ [(s.dev.bt + 1, .rate i inc)] }))
    ∧ ((copied m).length = 4 →
      (clearRefused s.dev i = true → answers (exec (.tsClear m) s) s m (plain .state []) s.dev)
      ∧ (clearRefused s.dev i = false → answers (exec (.tsClear m) s) s m (plain .ok (leBytes 8 (s.dev.bt + 1)))
          { s.dev with atEdge := s.dev.atEdge ++ [(s.dev.bt + 1, .clear i)] }))

/-- R42, R44, R45, R46, R56, R74: TS_SET and TS_STEP of a timescale with SET = 0 wait for the edge that APPLY_BT
names: the next for 0, otherwise one 2 to 100,000,000 base ticks ahead; with SET = 1, or for any other APPLY_BT, they
complete with STATE and change nothing. A write of the TSH steering record and an upload of the leap table are judged
at the next base-tick edge; until then their doors stay in SERVING. -/
def Obligations.EdgeWaits : Prop :=
  (∀ (s : State) (m : Msg), byController s m = true → (copied m).length = 24 → rdLe (copied m) 0 1 ≤ 2 →
    let i := rdLe (copied m) 0 1
    let a := rdLe (copied m) 16 8
    let tw := rdLe (copied m) 4 12
    let value := twTotal (setF tw ⟨47, 16⟩ (min (tw / 2 ^ 16 % 2 ^ 32) 999999999))
    let off : Int := toInt 64 (rdLe (copied m) 4 8) * (2 ^ 40 : Nat) + (rdLe (copied m) 12 2 * 2 ^ 24 : Nat)
    let n := if a = 0 then s.dev.bt + 1 else a
    ((a = 0 ∨ (s.dev.bt + 2 ≤ a ∧ a ≤ s.dev.bt + 100000000)) → (getTs s.dev i).set = false →
      waits (exec (.tsSet m) s) s m .edge
        { s.dev with atEdge := s.dev.atEdge ++ [(n, .set i value (tw / 2 ^ 16 % 2 ^ 32) m.fn m.door.val)] }
      ∧ waits (exec (.tsStep m) s) s m .edge
        { s.dev with atEdge := s.dev.atEdge ++ [(n, .step i off m.fn m.door.val)] })
    ∧ ((getTs s.dev i).set = true ∨ (a ≠ 0 ∧ (a < s.dev.bt + 2 ∨ s.dev.bt + 100000000 < a)) →
      answers (exec (.tsSet m) s) s m (plain .state []) s.dev ∧ answers (exec (.tsStep m) s) s m (plain .state []) s.dev))
  ∧ (∀ (s : State) (m : Msg), byController s m = true →
    ((copied m).length = 48 →
      waits (exec (.tshSteer m) s) s m .edge
        { s.dev with atEdge := s.dev.atEdge ++ [(s.dev.bt + 1, .steer (rdLe (copied m) 0 48) m.fn m.door.val)] })
    ∧ (14 ≤ (copied m).length → rdLe (copied m) 12 2 ≤ 64 → (copied m).length = 16 + 16 * rdLe (copied m) 12 2 →
      waits (exec (.leapTable m) s) s m .edge
        { s.dev with atEdge := s.dev.atEdge ++ [(s.dev.bt + 1,
            .leapTable (decide (rdLe (copied m) 0 1 ≠ 0)) (rdLe (copied m) 4 8)
              ((List.range (rdLe (copied m) 12 2)).map fun j => (j, rdLe (copied m) (16 + 16 * j) 16)) m.fn m.door.val)] }))

/-- R70, R71, R81, R76: VIEW_CREATE of a view that is not created, VIEW_SMEAR outside the protected window, VIEW_CLEAR
of a view with no tenant bound or about to be, and LEAP_POLICY take effect at the next base-tick edge, and answer with
the record as clamped; otherwise VIEW_CREATE, VIEW_SMEAR and VIEW_CLEAR complete with STATE. That a VIEW_CREATE
waiting for its edge refuses a second one is the model's choice (assumption log 77). -/
def Obligations.ViewCommands : Prop :=
  ∀ (s : State) (m : Msg), byController s m = true →
    let p := copied m
    let v := rdLe p 0 2
    (p.length = 52 → v ≤ 255 →
      (flag s.dev .view v View.created = false → createDue s.dev v = false →
        let r := clampRecord viewFields (viewDep (rdLe p 4 48)) 0 (getRec s.dev .view v) (rdLe p 4 48)
        effects (exec (.viewCreate m) s) s m
          (fun d => withReport (recBytes .view (viewImage (applyViewCreate d v r.1) v)) r.2)
          (fun d => { d with atEdge := d.atEdge ++ [(d.bt + 1, .viewCreate v r.1)] }))
      ∧ (flag s.dev .view v View.created = true ∨ createDue s.dev v = true →
        answers (exec (.viewCreate m) s) s m (plain .state []) s.dev))
    ∧ (p.length = 12 → v ≤ 255 →
      (smearProtected s.dev v = true → answers (exec (.viewSmear m) s) s m (plain .state []) s.dev)
      ∧ (smearProtected s.dev v = false →
        let len := nearest 3600 172800 (rdLe p 4 4)
        let lead := min (rdLe p 8 4) len
        let es := (if len = rdLe p 4 4 then [] else [⟨255, 238, 0, .range, rdLe p 4 4, len⟩])
          ++ (if lead = rdLe p 8 4 then [] else [⟨237, 220, 0, .dependent, rdLe p 8 4, lead⟩])
        let r := setF (setF (getRec s.dev .view v) View.smearLenS len) View.smearLeadS lead
        effects (exec (.viewSmear m) s) s m (fun d => withReport (recBytes .view (viewImage (applyViewSmear d v r) v)) es)
          (fun d => { d with atEdge := d.atEdge ++ [(d.bt + 1, .viewSmear v r)] })))
    ∧ (p.length = 4 → v ≤ 255 →
      (fld s.dev .view v View.tenantsBound ≠ 0 ∨ bindDue s.dev v = true →
        answers (exec (.viewClear m) s) s m (plain .state []) s.dev)
      ∧ (fld s.dev .view v View.tenantsBound = 0 → bindDue s.dev v = false →
        answers (exec (.viewClear m) s) s m (plain .ok (leBytes 8 (s.dev.bt + 1)))
          { s.dev with atEdge := s.dev.atEdge ++ [(s.dev.bt + 1, .viewClear v)] }))
    ∧ (p.length = 4 →
      let back := nearestInt 10 255 (toInt 16 (rdLe p 2 2))
      let policy := if rdLe p 0 1 ≤ 3 then rdLe p 0 1 else 0
      let es := (if ofInt 16 back = rdLe p 2 2 then [] else [⟨239, 224, 0, .range, rdLe p 2 2, ofInt 16 back⟩])
        ++ (if policy = rdLe p 0 1 then [] else [⟨223, 222, 0, .enum, rdLe p 0 1, policy⟩])
      let r := setF (setS (getRec s.dev .leap 0) Leap.dFallbackS back) Leap.policy policy
      effects (exec (.leapPolicy m) s) s m (fun d => withReport (recBytes .leap (getRec (applyLeapPolicy d r) .leap 0)) es)
        (fun d => { d with atEdge := d.atEdge ++ [(d.bt + 1, .leapPolicy r)] }))

/-- R251, R263, R268: REF_DISQUALIFY sets or clears FORCED of a reference at once, and SEED asks for a seed of a
master that may be seeded; of another it completes with STATE. -/
def Obligations.ReferenceCommands : Prop :=
  ∀ (s : State) (m₀ : Msg),
    (let m := withByte 1 1 m₀
      let r := rdLe (copied m) 0 1
      byController s m = true → (copied m).length = 4 → rdLe (copied m) 1 1 = 1 → r < 10 → refPresent s.dev r = true →
      answers (exec (.refDisqualifyForce m₀) s) s m
        (plain .ok (recBytes .refStatus (refImage (setFld s.dev .refStatus r RefSt.forced 1) r)))
        (setFld s.dev .refStatus r RefSt.forced 1))
    ∧ (let m := withByte 1 0 m₀
      let r := rdLe (copied m) 0 1
      byController s m = true → (copied m).length = 4 → rdLe (copied m) 1 1 = 0 → r < 10 → refPresent s.dev r = true →
      answers (exec (.refDisqualifyRelease m₀) s) s m
        (plain .ok (recBytes .refStatus (refImage (setFld s.dev .refStatus r RefSt.forced 0) r)))
        (setFld s.dev .refStatus r RefSt.forced 0))
    ∧ (byController s m₀ = true → (copied m₀).length = 4 → rdLe (copied m₀) 0 1 < 2 →
      let i := rdLe (copied m₀) 0 1
      let asked (d : Dev) : Dev := { d with disc := { d.disc with seedReq := setBit d.disc.seedReq i true } }
      (seedMay s.dev i true = true →
        effects (exec (.seed m₀) s) s m₀ (fun d => plain .ok (recBytes .servoStatus (servoImage (asked d) i))) asked)
      ∧ (seedMay s.dev i true = false → answers (exec (.seed m₀) s) s m₀ (plain .state []) s.dev))

/-- R285, R288, R289, R290, R295: GNSS_MEAS answers the block of measurements named, or the latest, and STATE where
the ring does not hold it; GNSS_SUBFRAMES a channel's subframes and tap powers; GNSS_RESTART makes every channel of
the antenna IDLE and starts a cold search. The position of an antenna and the baseline are read; written, clamped, at
the next second; and surveyed anew, which discards a held one. -/
def Obligations.GnssCommands : Prop :=
  ∀ (s : State) (m₀ : Msg),
    (byController s m₀ = true → (copied m₀).length = 4 →
      let n := rdLe (copied m₀) 0 4
      let a := rdLe (copied m₀) 0 1
      let block := if n = 0xFFFFFFFF then s.dev.gnss.ring.getLast? else s.dev.gnss.ring.find? fun e => e.1 = n
      (∀ b, block = some b → answers (exec (.gnssMeas m₀) s) s m₀ (plain .ok b.2) s.dev)
      ∧ (block = none → answers (exec (.gnssMeas m₀) s) s m₀ (plain .state []) s.dev)
      ∧ (a < 48 → antPresent s.dev (a / 24) = true →
        answers (exec (.gnssSubframes m₀) s) s m₀ (plain .ok (subframeBytes (getChan s.dev a))) s.dev)
      ∧ (a < 2 → antPresent s.dev a = true →
        effects (exec (.gnssRestart m₀) s) s m₀ (fun d => plain .ok (leBytes 8 d.bt))
          (fun d => searchAll (dropSearch (idleChans d a) a) a true))
      ∧ (a < 2 → antPresent s.dev a = true → rdLe (copied m₀) 1 1 = 0 →
        answers (exec (.gnssPosition m₀) s) s m₀ (plain .ok (recBytes .gnssPos (getRec s.dev .gnssPos a)))
          (readClear s.dev .gnssPos a))
      ∧ (a = 0 → s.dev.variant = .f →
        answers (exec (.gnssBaseline m₀) s) s m₀ (plain .ok (recBytes .gnssBase (getRec s.dev .gnssBase 0)))
          (readClear s.dev .gnssBase 0)))
    ∧ (byController s m₀ = true → (copied m₀).length = 4 + RecKind.gnssPos.bytes → rdLe (copied m₀) 1 1 = 1 →
      let a := rdLe (copied m₀) 0 1
      let req := rdLe (copied m₀) 4 RecKind.gnssPos.bytes
      let old := getRec s.dev .gnssPos a
      let v := clampRecord RecKind.gnssPos.fields (positionDep req) 0 old req
      a < 2 → antPresent s.dev a = true →
      answers (exec (.gnssPosition m₀) s) s m₀
        (withReport (recBytes .gnssPos (mergeRw RecKind.gnssPos.fields old v.1)) v.2)
        { s.dev with gnss := { s.dev.gnss with writes := s.dev.gnss.writes ++ [(.gnssPos, a, v.1)] } })
    ∧ (byController s m₀ = true → (copied m₀).length = 4 + RecKind.gnssBase.bytes → rdLe (copied m₀) 0 1 = 1 →
      let req := rdLe (copied m₀) 4 RecKind.gnssBase.bytes
      let old := getRec s.dev .gnssBase 0
      let v := clampRecord RecKind.gnssBase.fields (baselineDep req) 0 old req
      s.dev.variant = .f →
      answers (exec (.gnssBaseline m₀) s) s m₀
        (withReport (recBytes .gnssBase (mergeRw RecKind.gnssBase.fields old v.1)) v.2)
        { s.dev with gnss := { s.dev.gnss with writes := s.dev.gnss.writes ++ [(.gnssBase, 0, v.1)] } })
    ∧ (let m := withByte 1 2 m₀
      let a := rdLe (copied m) 0 1
      byController s m = true → (copied m).length = 4 → rdLe (copied m) 1 1 = 2 → a < 2 → antPresent s.dev a = true →
      let anew (d : Dev) : Dev := restartSurvey (setFld d .gnssPos a GPos.posMode 0) a
      effects (exec (.gnssPositionResurvey m₀) s) s m (fun d => plain .ok (recBytes .gnssPos (getRec (anew d) .gnssPos a))) anew)
    ∧ (let m := withByte 0 2 m₀
      byController s m = true → (copied m).length = 4 → rdLe (copied m) 0 1 = 2 → s.dev.variant = .f →
      let anew (d : Dev) : Dev := startBaseline (setFld (setFld d .gnssBase 0 GBl.blMode 0) .gnssBase 0 GBl.blState 0)
      effects (exec (.gnssBaselineResurvey m₀) s) s m (fun d => plain .ok (recBytes .gnssBase (getRec (anew d) .gnssBase 0))) anew)

/-- R312, R314: TIU_EVENTS takes the oldest event records from the queue while no ring takes them, as many as COUNT
confined to 1–1024, and completes with STATE while one does; TIU_OUTPUT reads an output's record and clears its RC
fields, and its write is clamped and applied. -/
def Obligations.TimeIntervalCommands : Prop :=
  ∀ (s : State) (m : Msg), byController s m = true →
    ((copied m).length = 4 → flag s.dev .tiuDev 0 TDev.ringEn = true →
      answers (exec (.tiuEvents m) s) s m (plain .state []) s.dev)
    ∧ ((copied m).length = 4 → flag s.dev .tiuDev 0 TDev.ringEn = false →
      let c := rdLe (copied m) 0 2
      let n := nearest 1 1024 c
      answers (exec (.tiuEvents m) s) s m
        (withReport (s.dev.tiu.fifo.take n).flatten (if c = n then [] else [⟨15, 0, 0, .range, c, n⟩]))
        { s.dev with tiu := { s.dev.tiu with fifo := s.dev.tiu.fifo.drop n } })
    ∧ (rdLe (copied m) 0 1 < 6 →
      let o := rdLe (copied m) 0 1
      ((copied m).length = 4 →
        answers (exec (.tiuOutput m) s) s m (plain .ok (leBytes 16 (outImage s.dev o)))
          (setOutRec s.dev o (clearRc (outFields o) (outRec s.dev o))))
      ∧ ((copied m).length = 20 →
        let v := clampRecord (outFields o) (if o < 4 then ppsDep else foutDep (rdLe (copied m) 4 16)) 0 (outRec s.dev o)
          (rdLe (copied m) 4 16)
        effects (exec (.tiuOutput m) s) s m
          (fun d => withReport (leBytes 16 (mergeRw (outFields o) (outImage d o) v.1)) v.2) (fun d => writeOut d o v.1)))

/-- R113, R122, R480: PORT_STATS returns a port's counters, the pause time of a pause in effect counted up to the
read, and clears them; PORT_RESTART of a port of an octet in use waits for the next base-tick edge; SHIM_LOOP of two
ports whose links are up starts a run of COUNT frames, at least one, and waits for its end. Otherwise they complete
with STATE. -/
def Obligations.PortCommands : Prop :=
  ∀ (s : State) (m : Msg), byController s m = true → (copied m).length = 4 →
    let i := rdLe (copied m) 0 1
    let j := rdLe (copied m) 1 1
    (i < 16 → portStarts s.dev i = true →
      let counted (d : Dev) : Dev := pauseSettle d i true
      effects (exec (.portStats m) s) s m
        (fun d => plain .ok ((List.range 47).flatMap fun k => leBytes 8 (getStat (counted d) .port i k)))
        (fun d => clearStats (counted d) .port i))
    ∧ (i < 16 → portStarts s.dev i = true → (getPort s.dev i).anyPausedFrom = none →
      answers (exec (.portStats m) s) s m
        (plain .ok ((List.range 47).flatMap fun k => leBytes 8 (getStat s.dev .port i k))) (clearStats s.dev .port i))
    ∧ (i < laneCount s.dev.variant → octMode s.dev i ≠ 0 → portStarts s.dev i = true →
      waits (exec (.portRestart m) s) s m .edge
        { s.dev with atEdge := s.dev.atEdge ++ [(s.dev.bt + 1, .portRestart i m.fn m.door.val)] })
    ∧ (i < laneCount s.dev.variant → octMode s.dev i = 0 → answers (exec (.portRestart m) s) s m (plain .state []) s.dev)
    ∧ (i < 16 → j < 16 → portStarts s.dev i = true → portStarts s.dev j = true →
      (linkUp s.dev i = true → linkUp s.dev j = true →
        let n := rdLe (copied m) 2 2
        let run : LoopRun := { fn := m.fn, door := m.door.val, rx := j, count := max 1 n, sent := 0
                               nextBt := s.dev.bt + 1, open_ := [], got := 0, sum := 0, least := 0, most := 0 }
        waits (exec (.shimLoop m) s) s m (.shimLoop i j n)
          (setPort s.dev i { getPort s.dev i with loop := some run }))
      ∧ (linkUp s.dev i = false ∨ linkUp s.dev j = false → answers (exec (.shimLoop m) s) s m (plain .state []) s.dev))

/-- R320, R321, R350: KEEPALIVE of the controller host restarts the lapse timer and clears LAPSED, and of another PF
changes nothing; CONTROL_CLAIM succeeds only of a nominated host while the controller has lapsed; CONTROL_RELEASE
passes control to a nominated endpoint at the next edge. -/
def Obligations.ControlCommands : Prop :=
  ∀ (s : State) (m : Msg),
    (ready s m = true → copied m = [] → m.fn.ep.val ≠ controllerEp s.dev →
      let left : Nat := if s.dev.host.lapseRuns then (lapseBt s.dev - (s.dev.bt - s.dev.host.lapseFrom)) * btNs s.dev else 0
      answers (exec (.keepalive m) s) s m
        (plain .ok (leBytes 1 (controllerEp s.dev) ++ leBytes 1 0 ++ leBytes 1 (b2n (lapsed s.dev)) ++ leBytes 1 0
          ++ leBytes 4 (roundFree ((left : Rat) / 1000000)).toNat ++ leBytes 8 s.dev.bt)) s.dev)
    ∧ (byController s m = true → copied m = [] →
      let e := restartLapse (setFld s.dev .controller 0 Ctl.lapsed 0)
      answers (exec (.keepalive m) s) s m
        (plain .ok (leBytes 1 (controllerEp s.dev) ++ leBytes 1 1 ++ leBytes 1 (b2n (lapsed s.dev)) ++ leBytes 1 0
          ++ leBytes 4 (roundFree (((lapseBt e * btNs e : Nat) : Rat) / 1000000)).toNat ++ leBytes 8 s.dev.bt)) e
      ∧ answers (exec (.controlClaim m) s) s m (if nominated s.dev m.fn.ep.val then plain .state [] else plain .denied []) s.dev)
    ∧ (ready s m = true → copied m = [] → m.fn.ep.val ≠ controllerEp s.dev → nominated s.dev m.fn.ep.val = true →
      (lapsed s.dev = true → answers (exec (.controlClaim m) s) s m (plain .ok (controllerBytes s.dev))
        { s.dev with atEdge := s.dev.atEdge ++ [(s.dev.bt + 1, .control m.fn.ep.val)] })
      ∧ (lapsed s.dev = false → answers (exec (.controlClaim m) s) s m (plain .state []) s.dev))
    ∧ (byController s m = true → (copied m).length = 4 → rdLe (copied m) 0 1 ≤ 3 →
      let e := rdLe (copied m) 0 1
      (e ≠ controllerEp s.dev → nominated s.dev e = true →
        answers (exec (.controlRelease m) s) s m (plain .ok (controllerBytes s.dev))
          { s.dev with atEdge := s.dev.atEdge ++ [(s.dev.bt + 1, .control e)] })
      ∧ (e = controllerEp s.dev ∨ nominated s.dev e = false →
        answers (exec (.controlRelease m) s) s m (plain .state []) s.dev))

/-- R46, R322, R323, R327, R329: a bind of a free tenant to a free VF and a created view takes effect at the next
edge; a change of view and a retirement of a bound tenant wait for the edge they name; TENANT_EVENTS answers the event
word of the tenant's VF and clears the bits given. Of an unbound tenant the last three complete with STATE, and of a
bound one the first. -/
def Obligations.TenantCommands : Prop :=
  ∀ (s : State) (m : Msg), byController s m = true →
    let p := copied m
    let t := rdLe p 0 2
    let a := rdLe p 4 8
    let n := if a = 0 then s.dev.bt + 1 else a
    (t < 4096 →
      (p.length = 8 → tenantState s.dev t = 0 → rdLe p 2 1 < 4 → rdLe p 4 2 < 1024 → rdLe p 6 2 < 256 →
        rdLe p 4 2 < fld s.dev .endpoint (rdLe p 2 1) Ep.totalVfsActive → vfTenant s.dev (rdLe p 2 1) (rdLe p 4 2) = none →
        flag s.dev .view (rdLe p 6 2) View.created = true →
        bindPending s.dev t (rdLe p 2 1) (rdLe p 4 2) (rdLe p 6 2) = false →
        answers (exec (.tenantBind m) s) s m
          (plain .ok (recBytes .tenant (boundRecord s.dev t (rdLe p 2 1) (rdLe p 4 2) (rdLe p 6 2) (s.dev.bt + 1))))
          { s.dev with atEdge := s.dev.atEdge ++ [(s.dev.bt + 1, .bind t (rdLe p 2 1) (rdLe p 4 2) (rdLe p 6 2))] })
      ∧ (p.length = 8 → tenantState s.dev t = 1 → rdLe p 2 1 < 4 → rdLe p 4 2 < 1024 → rdLe p 6 2 < 256 →
        answers (exec (.tenantBind m) s) s m (plain .state []) s.dev)
      ∧ (p.length = 12 → tenantState s.dev t = 1 → (a = 0 ∨ (s.dev.bt + 2 ≤ a ∧ a ≤ s.dev.bt + 100000000)) →
        (rdLe p 2 2 < 256 → flag s.dev .view (rdLe p 2 2) View.created = true →
          waits (exec (.tenantView m) s) s m .edge
            { s.dev with atEdge := s.dev.atEdge ++ [(n, .tenantView t (rdLe p 2 2) m.fn m.door.val)] })
        ∧ waits (exec (.tenantRetire m) s) s m .edge
            { s.dev with atEdge := s.dev.atEdge ++ [(n, .retire t m.fn m.door.val)] })
      ∧ (p.length = 8 → tenantState s.dev t = 1 →
        answers (exec (.tenantEvents m) s) s m (plain .ok (leBytes 4 (eventWord s.dev (tenantEp s.dev t) (tenantVf s.dev t))))
          (clearEventBits s.dev (tenantEp s.dev t) (tenantVf s.dev t) (rdLe p 4 4)))
      ∧ (tenantState s.dev t = 0 →
        (p.length = 12 → (rdLe p 2 2 < 256 → answers (exec (.tenantView m) s) s m (plain .state []) s.dev)
          ∧ answers (exec (.tenantRetire m) s) s m (plain .state []) s.dev)
        ∧ (p.length = 8 → answers (exec (.tenantEvents m) s) s m (plain .state []) s.dev)))

/-- R168, R188, R235, R352: DOOR_STATS of a PF returns its eight doors' counters, and of a VF those of its one door,
and clears them; an address entry is read, released, or given to a bound tenant where no other entry conflicts, and
STATE names the one that does; CT_FLUSH empties the client and grant tables; PTP_GRANTS reports the clients and
granted rates of a tenant or of the device. -/
def Obligations.TableCommands : Prop :=
  ∀ (s : State) (m : Msg), byController s m = true →
    let p := copied m
    (p.length = 4 → rdLe p 0 1 ≤ 3 → rdLe p 2 2 = 0xFFFF →
      effects (exec (.doorStats m) s) s m (fun d => plain .ok ((List.range 8).flatMap (doorRecord d (pfOf (rdLe p 0 1)))))
        (fun d => (List.range 8).foldl (fun d k => clearStats d .door (doorKey (pfOf (rdLe p 0 1)) k)) d))
    ∧ (p.length = 4 → rdLe p 0 1 ≤ 3 → rdLe p 2 2 < fld s.dev .endpoint (rdLe p 0 1) Ep.totalVfsActive →
      rdLe p 2 2 ≠ 0xFFFF → let f := vfOf (rdLe p 0 1) (rdLe p 2 2)
      effects (exec (.doorStats m) s) s m (fun d => plain .ok (doorRecord d f 0)) (fun d => clearStats d .door (doorKey f 0)))
    ∧ (p.length = 4 → rdLe p 0 4 < 131072 →
      answers (exec (.addrEntry m) s) s m (plain .ok (recBytes .addrEntry (getRec s.dev .addrEntry (rdLe p 0 4)))) s.dev)
    ∧ (p.length = 4 + RecKind.addrEntry.bytes → rdLe p 0 4 < 131072 →
      let v := clampRecord addrFields (addrDep s.dev (carried 4 .addrEntry p)) 0 (getRec s.dev .addrEntry (rdLe p 0 4))
        (carried 4 .addrEntry p)
      (getF v.1 Addr.family = 0 ∨ (tenantBound s.dev (getF v.1 Addr.tenant) = true ∧ conflictOf s.dev (rdLe p 0 4) v.1 = none) →
        answers (exec (.addrEntry m) s) s m (withReport (recBytes .addrEntry v.1) v.2)
          { s.dev with atEdge := s.dev.atEdge ++ [(s.dev.bt + 1, .write .addrEntry (rdLe p 0 4) v.1)] })
      ∧ (getF v.1 Addr.family ≠ 0 → tenantBound s.dev (getF v.1 Addr.tenant) = false →
        answers (exec (.addrEntry m) s) s m (plain .state []) s.dev)
      ∧ (getF v.1 Addr.family ≠ 0 → tenantBound s.dev (getF v.1 Addr.tenant) = true →
        ∀ j, conflictOf s.dev (rdLe p 0 4) v.1 = some j →
        answers (exec (.addrEntry m) s) s m (plain .state (leBytes 4 j)) s.dev))
    ∧ (p = [] → ∃ e, answers (exec (.ctFlush m) s) s m (plain .ok (leBytes 8 s.dev.bt)) e
        ∧ e.ct.entries = [] ∧ e.ct.sweep = 0 ∧ e.ptp.grants = [] ∧ e.recs = s.dev.recs ∧ e.stats = s.dev.stats)
    ∧ (p.length = 4 →
      (rdLe p 0 2 < 4096 → tenantState s.dev (rdLe p 0 2) ≠ 2 →
        answers (exec (.ptpGrants m) s) s m
          (plain .ok (grantReport ((grantList s.dev).filter fun e => decide (e.2.tenant = rdLe p 0 2)))) s.dev)
      ∧ (rdLe p 0 2 = 0xFFFF → answers (exec (.ptpGrants m) s) s m (plain .ok (grantReport (grantList s.dev))) s.dev))

/-- R216, R217, R218, R219, R222, R223, R225, R479: the commands of a tenant's key ring wait for the edge that
APPLY_BT names, the next for 0 or one 2 to 100,000,000 base ticks ahead; for any other they complete with STATE. A key
is generated free; while a slot is PENDING or the random source is withheld a generation or a rotation completes with
STATE, as does a promotion of a KEY_ID that is not in the ring. An import that fails a check answers its reason; an
export answers a blob, or STATE without a wrap key or that KEY_ID. NTS_MINT of an algorithm the tenant does not serve
is DENIED. Of one it serves, under a key with role MINT and with a nest to mint on, it waits for its jobs, at most
WAKE_TIMEOUT_US for the nest, which in LISTEN it asks to wake; without such a key or nest it completes with STATE. -/
def Obligations.NtsKeyCommands : Prop :=
  (∀ (s : State) (m₀ : Msg), s.dev.variant ≠ .e →
    let n (a : Nat) : Nat := if a = 0 then s.dev.bt + 1 else a
    let named (m : Msg) (k : Nat → Prop) : Prop := byController s m = true ∧ k (copied m).length ∧ rdLe (copied m) 0 2 < 4096
      ∧ tenantState s.dev (rdLe (copied m) 0 2) ≠ 2
    let ahead (a : Nat) : Prop := a = 0 ∨ (s.dev.bt + 2 ≤ a ∧ a ≤ s.dev.bt + 100000000)
    let key := Config.freeValue s.dev.free % 2 ^ 256
    let t := rdLe (copied m₀) 0 2
    let due (e : List (Nat × RoleEdge)) (k : Nat) : Dev :=
      { s.dev with free := s.dev.free + k, nts := { s.dev.nts with edges := s.dev.nts.edges ++ e } }
    (let m := withByte 2 0 m₀
      let t := rdLe (copied m) 0 2
      named m (· = 12) → rdLe (copied m) 2 1 = 0 →
      (ahead (rdLe (copied m) 4 8) → s.dev.key.rngWithheld = false → ringPending s.dev t = false →
        waits (exec (.ntsKeyInstallGenerate m₀) s) s m .edge
          (due [(n (rdLe (copied m) 4 8), .install t 0 0 key false m.fn m.door.val)] 1))
      ∧ (¬ ahead (rdLe (copied m) 4 8) ∨ s.dev.key.rngWithheld = true ∨ ringPending s.dev t = true →
        answers (exec (.ntsKeyInstallGenerate m₀) s) s m (plain .state []) s.dev))
    ∧ (let m := withByte 2 1 m₀
      let t := rdLe (copied m) 0 2
      named m (12 ≤ ·) → rdLe (copied m) 2 1 = 1 →
      (ahead (rdLe (copied m) 4 8) →
        (∀ key id, importCheck s.dev t ((copied m).drop 12) = .inr (key, id) →
          waits (exec (.ntsKeyInstallImport m₀) s) s m .edge
            (due [(n (rdLe (copied m) 4 8), .install t id 1 key false m.fn m.door.val)] 0))
        ∧ (∀ st r, importCheck s.dev t ((copied m).drop 12) = .inl (st, r) →
          answers (exec (.ntsKeyInstallImport m₀) s) s m (plain st (ringBytes s.dev t ++ reasonTail r)) s.dev))
      ∧ (¬ ahead (rdLe (copied m) 4 8) → answers (exec (.ntsKeyInstallImport m₀) s) s m (plain .state []) s.dev))
    ∧ (named m₀ (· = 16) →
      let id := rdLe (copied m₀) 4 4
      (ahead (rdLe (copied m₀) 8 8) → (ringIds s.dev t).contains id = true → id ≠ 0 →
        waits (exec (.ntsKeyPromote m₀) s) s m₀ .edge
          (due [(n (rdLe (copied m₀) 8 8), .promote t id m₀.fn m₀.door.val)] 0))
      ∧ (¬ ahead (rdLe (copied m₀) 8 8) ∨ (ringIds s.dev t).contains id = false ∨ id = 0 →
        answers (exec (.ntsKeyPromote m₀) s) s m₀ (plain .state []) s.dev))
    ∧ (named m₀ (· = 12) →
      (ahead (rdLe (copied m₀) 4 8) →
        (s.dev.key.rngWithheld = false → ringPending s.dev t = false →
          waits (exec (.ntsKeyRotate m₀) s) s m₀ .edge
            (due [(n (rdLe (copied m₀) 4 8), .install t 0 0 key true m₀.fn m₀.door.val)] 1))
        ∧ waits (exec (.ntsKeyClear m₀) s) s m₀ .edge
            (due [(n (rdLe (copied m₀) 4 8), .clear t (some (m₀.fn, m₀.door.val)))] 0))
      ∧ (¬ ahead (rdLe (copied m₀) 4 8) ∨ s.dev.key.rngWithheld = true ∨ ringPending s.dev t = true →
        answers (exec (.ntsKeyRotate m₀) s) s m₀ (plain .state []) s.dev)
      ∧ (¬ ahead (rdLe (copied m₀) 4 8) → answers (exec (.ntsKeyClear m₀) s) s m₀ (plain .state []) s.dev))
    ∧ (named m₀ (· = 8) →
      (∀ wk k, wrapKey s.dev = some wk → sampleFind (ringSample s.dev t) (rdLe (copied m₀) 4 4) = some k →
        answers (exec (.ntsKeyExport m₀) s) s m₀ (plain .ok (exportBlob s.dev t k wk).1) (exportBlob s.dev t k wk).2)
      ∧ (wrapKey s.dev = none ∨ sampleFind (ringSample s.dev t) (rdLe (copied m₀) 4 4) = none →
        answers (exec (.ntsKeyExport m₀) s) s m₀ (plain .state []) s.dev)))
  ∧ (∀ (s : State) (m : Msg), byController s m = true → s.dev.variant ≠ .e → rdLe (copied m) 0 2 < 4096 →
    tenantState s.dev (rdLe (copied m) 0 2) ≠ 2 →
    let t := rdLe (copied m) 0 2
    let alg := rdLe (copied m) 2 2
    (algKey alg = none → 8 ≤ (copied m).length → answers (exec (.ntsMint m) s) s m (plain .denied []) s.dev)
    ∧ (∀ k, algKey alg = some k → (copied m).length = 8 + 2 * k →
      (bit (fld s.dev .nts t Nts.algMask) (algBit alg) = false → answers (exec (.ntsMint m) s) s m (plain .denied []) s.dev)
      ∧ (bit (fld s.dev .nts t Nts.algMask) (algBit alg) = true →
        (∀ j nest, sampleMint (ringSample s.dev t) = some j → mintNest s.dev t = some nest →
          delays (exec (.ntsMint m) s) s m
            (.mint nest (s.dev.bt + wakeLimit s.dev) (getF (ringEntry s.dev t j) KeyR.keyId) (ofBe (masterKey s.dev t j))
              (mintCount (copied m)).1 [])
            (fun d => if power d = 1 then wakeRequest d nest else d))
        ∧ (sampleMint (ringSample s.dev t) = none ∨ mintNest s.dev t = none →
          answers (exec (.ntsMint m) s) s m (plain .state []) s.dev))))

/-- R23, R24, R156, R157, R163, R166: NODE_POWER gates a node with its descendants, sets its CMD_GATED and returns
what its queues hold, or wakes it and clears CMD_GATED; under a GATED ancestor a gate has no effect and an ungate
completes with STATE; under an ancestor IN_RESET both wait for it. NODE_RESET waits for the next edge. A program's
upload waits while no context runs the old one, and its activation waits for the edge named while one is staged and
every nest is ON; otherwise they complete with STATE. -/
def Obligations.ArrayCommands : Prop :=
  ∀ (s : State) (m₀ : Msg),
    let clear (m : Msg) : Prop := byController s m = true ∧ (copied m).length = 4 ∧ nodeInSet (copied m) = true
      ∧ nodeArgPresent s.dev (copied m) = true
    let reset (a : Nat) : Bool := decide (nodeReset s.dev a = 1)
    let above (c : Nat) (q : Nat → Bool) : Prop := ∀ a ∈ properAncestors c, q a = true
    let report (d : Dev) (c : Nat) : List Byte := leBytes 8 d.bt ++ leBytes 4 (nodePower d c)
    let joins (m : Msg) (a c : Nat) : Dev :=
      setNode s.dev a { getNode s.dev a with doors := (getNode s.dev a).doors ++ [⟨m.fn, m.door.val, some (s.dev.bt, c)⟩] }
    (let m := withByte 2 0 m₀
      let c := nodeArg (copied m)
      clear m → rdLe (copied m) 2 1 = 0 →
      (above c (fun a => decide (nodeReset s.dev a ≠ 1)) →
        (above c (fun a => decide (nodePower s.dev a ≠ 2)) →
          let gated (d : Dev) : Dev :=
            let d₁ := gateRequest d c false
            let d₂ := (subtree d₁ c).foldl (fun d n => setFld d .nodeFlags n NodeFl.listenGated 0) d₁
            let d₃ := setFld d₂ .nodeFlags c NodeFl.cmdGated 1
            nodeEvent (if power d₃ = 0 then requeue d₃ (subtree d₃ c) else d₃) c
          effects (exec (.nodePowerGate m₀) s) s m (fun d => plain .ok (report (gated d) c)) gated)
        ∧ (∀ a ∈ properAncestors c, nodePower s.dev a = 2 →
          answers (exec (.nodePowerGate m₀) s) s m (plain .ok (report s.dev c)) s.dev))
      ∧ (∀ a, (properAncestors c).find? reset = some a → waits (exec (.nodePowerGate m₀) s) s m .edge (joins m a c)))
    ∧ (let m := withByte 2 1 m₀
      let c := nodeArg (copied m)
      clear m → rdLe (copied m) 2 1 = 1 →
      (above c (fun a => decide (nodeReset s.dev a ≠ 1) && decide (nodePower s.dev a ≠ 2)) →
        let woken (d : Dev) : Dev :=
          let e := wakeRequest (setFld d .nodeFlags c NodeFl.cmdGated 0) c
          if flag d .nodeFlags c NodeFl.cmdGated then nodeEvent e c else e
        effects (exec (.nodePowerUngate m₀) s) s m (fun d => plain .ok (report (woken d) c)) woken)
      ∧ (∀ a ∈ properAncestors c, nodePower s.dev a = 2 →
        answers (exec (.nodePowerUngate m₀) s) s m (plain .state []) s.dev)
      ∧ (∀ a, (properAncestors c).find? reset = some a → above c (fun a => decide (nodePower s.dev a ≠ 2)) →
        waits (exec (.nodePowerUngate m₀) s) s m .edge (joins m a c)))
    ∧ (clear m₀ → waits (exec (.nodeReset m₀) s) s m₀ .edge
        { s.dev with atEdge := s.dev.atEdge ++ [(s.dev.bt + 1, .nodeReset (nodeArg (copied m₀)) m₀.fn m₀.door.val)] })
    ∧ (byController s m₀ = true →
      ((copied m₀).length ≤ 128 + 131072 →
        (fld s.dev .jigStatus 0 Jig.oldContexts = 0 → waits (exec (.jigUpload m₀) s) s m₀ (.jigUpload (copied m₀)) s.dev)
        ∧ (fld s.dev .jigStatus 0 Jig.oldContexts ≠ 0 → answers (exec (.jigUpload m₀) s) s m₀ (plain .state []) s.dev))
      ∧ ((copied m₀).length = 8 →
        let a := rdLe (copied m₀) 0 8
        let ahead : Prop := a = 0 ∨ (s.dev.bt + 2 ≤ a ∧ a ≤ s.dev.bt + 100000000)
        (ahead → s.dev.arr.staged.isSome = true → nestsOn s.dev = true →
          waits (exec (.jigActivate m₀) s) s m₀ .edge
            { s.dev with atEdge := s.dev.atEdge ++ [(if a = 0 then s.dev.bt + 1 else a, .jigSwap m₀.fn m₀.door.val)] })
        ∧ (¬ ahead ∨ s.dev.arr.staged = none ∨ nestsOn s.dev = false →
          answers (exec (.jigActivate m₀) s) s m₀ (plain .state []) s.dev)))

/-- R387, R388, R389, R395, R396: KEY_GENERATE of an EMPTY slot marks it and joins the bench queue; KEY_PUBLIC answers
the public key of a slot that holds one; KEY_ASSIGN gives a slot to a BOUND tenant or to none; KEY_DESTROY zeroizes a
slot that is not assigned; PKE_SIGN of a slot that holds a key joins the bench queue. Otherwise they complete with
STATE and change nothing. -/
def Obligations.KeySlotCommands : Prop :=
  ∀ (s : State) (m : Msg), byController s m = true →
    let p := copied m
    let k := rdLe p 0 2
    let busy := flag s.dev .asymSlot k Slot.generating
    k < 512 →
    (p.length = 40 → 1 ≤ rdLe p 2 1 → rdLe p 2 1 ≤ 6 → rdLe p 3 1 ≤ 1 →
      (slotKind s.dev k = 0 → busy = false →
        delays (exec (.keyGenerate m) s) s m .bench
          (fun d => enqueueBench (setFld d .asymSlot k Slot.generating 1) (hostCtx s m)
            (.generate k (rdLe p 2 1) (decide (rdLe p 3 1 = 1)) (slice p 8 32)) (rdLe p 2 1)))
      ∧ (slotKind s.dev k ≠ 0 ∨ busy = true → answers (exec (.keyGenerate m) s) s m (plain .state []) s.dev))
    ∧ (p.length = 4 →
      let t := rdLe p 2 2
      (slotKind s.dev k = 0 → answers (exec (.keyPublic m) s) s m (plain .state []) s.dev)
      ∧ (slotKind s.dev k ≠ 0 → answers (exec (.keyPublic m) s) s m (plain .ok (publicBytes s.dev k)) s.dev)
      ∧ (slotKind s.dev k ≠ 0 → t < 4096 → tenantBound s.dev t = true →
        let e := setFld (setFld s.dev .asymSlot k Slot.assigned 1) .asymSlot k Slot.tenant t
        answers (exec (.keyAssign m) s) s m (plain .ok (slotBytes e k)) e)
      ∧ (slotKind s.dev k ≠ 0 → t = 0xFFFF →
        let e := setFld (setFld s.dev .asymSlot k Slot.assigned 0) .asymSlot k Slot.tenant 0
        answers (exec (.keyAssign m) s) s m (plain .ok (slotBytes e k)) e)
      ∧ (t < 4096 ∧ tenantBound s.dev t = false ∨ (t < 4096 ∨ t = 0xFFFF) ∧ slotKind s.dev k = 0 →
        answers (exec (.keyAssign m) s) s m (plain .state []) s.dev)
      ∧ (flag s.dev .asymSlot k Slot.assigned = true → answers (exec (.keyDestroy m) s) s m (plain .state []) s.dev)
      ∧ (flag s.dev .asymSlot k Slot.assigned = false →
        answers (exec (.keyDestroy m) s) s m (plain .ok (slotBytes (destroySlot s.dev k) k)) (destroySlot s.dev k)))
    ∧ (p.length = 16 + rdLe p 8 4 → rdLe p 8 4 ≤ signMax →
      (slotKind s.dev k ≠ 0 → busy = false →
        delays (exec (.pkeSign m) s) s m .bench
          (fun d => enqueueBench d (hostCtx s m) (.sign k (rdLe p 2 2) (rdLe p 4 1) (p.drop 16)) (slotKind d k)))
      ∧ (slotKind s.dev k = 0 ∨ busy = true → answers (exec (.pkeSign m) s) s m (plain .state []) s.dev))

/-- R375, R378, R381, R391: LC_ADVANCE to the next state, with its confirmation and an intent block not yet spent,
leaves its door waiting for OTP and holds it busy; to another state, or while OTP is busy, it completes with STATE,
and with another confirmation it is DENIED; PROVISIONED needs two distinct endpoints where a standby is named, and a
random source (the model's choice, log entry 84). LC_SVN_RAISE waits for OTP where the running images carry the counts
asked for, and WRAP_KEY_INSTALL, in PROVISIONED, while no wrap key is installed. -/
def Obligations.LifeCycleCommands : Prop :=
  ∀ (s : State) (m : Msg), ready s m = true → m.fn.ep.val = controllerEp s.dev →
    let p := copied m
    let k := rdLe p 0 1
    let otp := s.dev.key.otp
    let withheld := s.dev.key.rngWithheld
    let busy (d : Dev) : Dev := { d with key := { d.key with otpBusy := true } }
    (s.dev.key.lifeCycle ≤ 2 → 1 ≤ k → k ≤ 3 → p.length = lcLength k → (k = 1 → rdLe p 8 1 ≤ 3 ∧ rdLe p 9 1 ≤ 3) →
      (s.dev.key.otpBusy = true ∨ k ≠ otpState otp + 1 → answers (exec (.lcAdvance m) s) s m (plain .state []) s.dev)
      ∧ (s.dev.key.otpBusy = false → k = otpState otp + 1 →
        (slice p 4 4 ≠ lcConfirm k → answers (exec (.lcAdvance m) s) s m (plain .denied []) s.dev)
        ∧ (slice p 4 4 = lcConfirm k →
          let barred : Prop := k = 1 ∧ ((rdLe p 10 1 = 1 ∧ rdLe p 8 1 = rdLe p 9 1) ∨ withheld = true)
          (barred ∨ intentFree otp k = none → answers (exec (.lcAdvance m) s) s m (plain .state []) s.dev)
          ∧ (¬ barred → ∀ b, intentFree otp k = some b →
            let copy := if k = 1 then slice p 8 80 ++ leBytes 32 (Config.freeValue s.dev.free)
              else if k = 2 then slice p 8 8 else []
            waits (exec (.lcAdvance m) s) s m (.lcAdvance k copy b) (busy { s.dev with free := s.dev.free + 1 })))))
    ∧ (s.dev.key.lifeCycle = 1 ∨ s.dev.key.lifeCycle = 2 → p.length = 4 →
      let may : Prop := k ≤ 64 ∧ rdLe p 1 1 ≤ 64 ∧ k ≤ s.dev.pwr.running.svn ∧ rdLe p 1 1 ≤ s.dev.arr.active.svn
        ∧ s.dev.key.otpBusy = false
      (may → waits (exec (.lcSvnRaise m) s) s m (.svnRaise k (rdLe p 1 1)) (busy s.dev))
      ∧ (¬ may → answers (exec (.lcSvnRaise m) s) s m (plain .state []) s.dev))
    ∧ (s.dev.key.lifeCycle = 1 → p.length = 36 → rdLe p 2 1 ≤ 1 →
      let id := rdLe p 0 2
      (id = 0 ∨ id = 0xFFFF → answers (exec (.wrapKeyInstall m) s) s m (plain .denied []) s.dev)
      ∧ (id ≠ 0 → id ≠ 0xFFFF → otp.wrapState ≠ 0 → answers (exec (.wrapKeyInstall m) s) s m (plain .state []) s.dev)
      ∧ (id ≠ 0 → id ≠ 0xFFFF → otp.wrapState = 0 → wrapInstalling s.dev = false →
        (rdLe p 2 1 = 0 → waits (exec (.wrapKeyInstall m) s) s m (.wrapInstall id 0 (rdBe p 4 32)) s.dev)
        ∧ (rdLe p 2 1 = 1 → withheld = false → waits (exec (.wrapKeyInstall m) s) s m
            (.wrapInstall id 1 (Config.freeValue s.dev.free % 2 ^ 256)) { s.dev with free := s.dev.free + 1 })
        ∧ (rdLe p 2 1 = 1 → withheld = true → answers (exec (.wrapKeyInstall m) s) s m (plain .state []) s.dev)))

/-- R361, R365, R366, R367: a configuration tag, an erasure, a write and a verification of a firmware slot leave their
doors waiting for OTP or for the flash: a tag while a generation is empty; an erasure of a slot that is neither
preferred nor running nor next; a write at the end of what an EMPTY or PARTIAL slot holds; a verification of a slot
that is neither EMPTY nor DIRTY. Otherwise they complete with STATE. -/
def Obligations.FlashCommands : Prop :=
  ∀ (s : State) (m : Msg), byController s m = true →
    let p := copied m
    let k := rdLe p 0 1
    (rdLe p 0 2 ≤ 240 → p.length = 4 + rdLe p 0 2 →
      (∀ g, tagNext s.dev = some g → waits (exec (.tagWrite m) s) s m (.tagWrite g (p.drop 4)) s.dev)
      ∧ (tagNext s.dev = none → answers (exec (.tagWrite m) s) s m (plain .state []) s.dev))
    ∧ (p.length = 4 → k ≤ 1 →
      (preferredSlot s.dev ≠ k → runningSlot s.dev ≠ k → nextNames s.dev k = false →
        waits (exec (.fwErase m) s) s m (.fwErase k) s.dev)
      ∧ (preferredSlot s.dev = k ∨ runningSlot s.dev = k ∨ nextNames s.dev k = true →
        answers (exec (.fwErase m) s) s m (plain .state []) s.dev)
      ∧ (slotState s.dev k ≠ 0 → slotState s.dev k ≠ 2 → waits (exec (.fwVerify m) s) s m (.fwVerify k) s.dev)
      ∧ (slotState s.dev k = 0 ∨ slotState s.dev k = 2 → answers (exec (.fwVerify m) s) s m (plain .state []) s.dev))
    ∧ (12 ≤ p.length → (p.length - 8) % 4 = 0 → p.length ≤ 1048576 → k ≤ 1 → rdLe p 4 4 + (p.length - 8) ≤ 8384512 →
      (slotState s.dev k ≤ 1 → rdLe p 4 4 = fld s.dev .fwStatus 0 (Fw.sWrittenBytes k) →
        waits (exec (.fwWrite m) s) s m (.fwWrite k (rdLe p 4 4) (p.drop 8)) s.dev)
      ∧ (1 < slotState s.dev k ∨ rdLe p 4 4 ≠ fld s.dev .fwStatus 0 (Fw.sWrittenBytes k) →
        answers (exec (.fwWrite m) s) s m (plain .state []) s.dev))

/-- R364, R369, R370, R371: FW_SELECT names a VALID slot that does not run as the next for a trial, writes a
preference for a VALID slot while no trial is active, or withdraws the choice; FW_CONFIRM writes the preference for
the slot on trial and ends the trial; a preference needs room for its entry. FW_RELOAD, unless the next slot's table
layout does not fit, is followed by a processor boot 1 ms later. Otherwise they complete with STATE. -/
def Obligations.FirmwareChoice : Prop :=
  ∀ (s : State) (m₀ : Msg),
    let may (k : Nat) : Prop := slotValid s.dev k = true ∧ (preferWrite s.dev k).isSome = true
    (let m := withByte 1 0 m₀
      let k := rdLe (copied m) 0 1
      byController s m = true → (copied m).length = 4 → k ≤ 1 → rdLe (copied m) 1 1 = 0 →
      (slotValid s.dev k = true → runningSlot s.dev ≠ k →
        let next (d : Dev) : Dev := setFld d .fwStatus 0 Fw.nextSlot (2 + k)
        effects (exec (.fwSelectTrial m₀) s) s m (fun d => plain .ok (fwBytes (next d))) next)
      ∧ (slotValid s.dev k = false ∨ runningSlot s.dev = k →
        answers (exec (.fwSelectTrial m₀) s) s m (plain .state []) s.dev))
    ∧ (let m := withByte 1 1 m₀
      let k := rdLe (copied m) 0 1
      byController s m = true → (copied m).length = 4 → k ≤ 1 → rdLe (copied m) 1 1 = 1 →
      (may k → trialActive s.dev = false →
        effects (exec (.fwSelectPrefer m₀) s) s m (fun d => plain .ok (fwBytes ((preferWrite d k).getD d)))
          (fun d => (preferWrite d k).getD d))
      ∧ (¬ may k ∨ trialActive s.dev = true → answers (exec (.fwSelectPrefer m₀) s) s m (plain .state []) s.dev))
    ∧ (let m := withByte 1 2 m₀
      byController s m = true → (copied m).length = 4 → rdLe (copied m) 0 1 ≤ 1 → rdLe (copied m) 1 1 = 2 →
      let none_ (d : Dev) : Dev := setFld d .fwStatus 0 Fw.nextSlot 0
      effects (exec (.fwSelectCancel m₀) s) s m (fun d => plain .ok (fwBytes (none_ d))) none_)
    ∧ (byController s m₀ = true → copied m₀ = [] →
      let r := runningSlot s.dev
      (trialActive s.dev = true → may r →
        let kept (d : Dev) : Dev := setFld ((preferWrite d r).getD d) .fwStatus 0 Fw.trialActive 0
        effects (exec (.fwConfirm m₀) s) s m₀ (fun d => plain .ok (fwBytes (kept d))) kept)
      ∧ (trialActive s.dev = false ∨ ¬ may r → answers (exec (.fwConfirm m₀) s) s m₀ (plain .state []) s.dev)
      ∧ ((∀ k, nextSlot s.dev = some k → slotAbiFits s.dev k = true) →
        answers (exec (.fwReload m₀) s) s m₀ (plain .ok (leBytes 8 s.dev.bt))
          { s.dev with pwr := { s.dev.pwr with reloadDue := some (s.dev.bt + msToBt s.dev 1) } })
      ∧ (∀ k, nextSlot s.dev = some k → slotAbiFits s.dev k = false →
        answers (exec (.fwReload m₀) s) s m₀ (plain .state []) s.dev))

/-- R405, R418, R419, R420: FAULT_CLEAR waits for its edge, with its row's bit of the mask set; FAULT_CLASS reads the
record of a source, or of the collector, and writes it at the next edge; FAULT_INJECT arms a checker that is not
masked and not yet armed, and otherwise completes with STATE; FAULT_COUNTS answers the counts of the sources named and
changes nothing. -/
def Obligations.FaultCommands : Prop :=
  ∀ (s : State) (m₀ : Msg),
    (∀ r ∈ [((Instr.faultClearRecord : Msg → Instr), 4, 0x01), (.faultClearDescendants, 4, 0x02), (.faultClearGrace, 4, 0x04),
        (.faultClearGravest, 4, 0x08), (.faultClearCounts, 4, 0x10)],
      let m := withBit r.2.1 r.2.2 m₀
      byController s m = true → (copied m).length = 8 → faultInSet (copied m) = true →
      (nodeInSet (copied m) = true → nodeArgPresent s.dev (copied m) = true) →
      waits (exec (r.1 m₀) s) s m .edge
        { s.dev with atEdge := s.dev.atEdge ++ [(s.dev.bt + 1,
            .faultClear (rdLe (copied m) 0 1) (rdLe (copied m) 1 1) (rdLe (copied m) 4 4) m.fn m.door.val)] })
    ∧ (byController s m₀ = true →
      let p := copied m₀
      let id := rdLe p 0 2
      (id ≠ 0 → srcExists s.dev id = true →
        (p.length = 4 → answers (exec (.faultClass m₀) s) s m₀ (plain .ok (leBytes 16 (faultSrcImage s.dev id))) s.dev)
        ∧ (p.length = 20 →
          let v := clampRecord RecKind.faultSrc.fields (faultSrcDep id) 0 (getRec s.dev .faultSrc id) (rdLe p 4 16)
          answers (exec (.faultClass m₀) s) s m₀
            (withReport (leBytes 16 (mergeRw RecKind.faultSrc.fields (faultSrcImage s.dev id) v.1)) v.2)
            { s.dev with atEdge := s.dev.atEdge ++ [(s.dev.bt + 1, .write .faultSrc id v.1)] }))
      ∧ (id = 0 →
        (p.length = 4 → answers (exec (.faultClass m₀) s) s m₀ (plain .ok (leBytes 16 (getRec s.dev .collector 0))) s.dev)
        ∧ (p.length = 20 →
          let old := getRec s.dev .collector 0
          let v := clampRecord RecKind.collector.fields noDep 0 old (rdLe p 4 16)
          answers (exec (.faultClass m₀) s) s m₀
            (withReport (leBytes 16 (mergeRw RecKind.collector.fields old v.1)) v.2)
            { s.dev with atEdge := s.dev.atEdge ++ [(s.dev.bt + 1, .write .collector 0 v.1)] }))
      ∧ (p.length = 4 → rdLe p 2 1 ≤ 1 → rdLe p 3 1 ≠ 0 → srcExists s.dev id = true →
        ((srcInfo id).checker = true → srcClass s.dev id ≠ 5 → injectRemain s.dev id = 0 →
          let armed (d : Dev) : Dev :=
            let e := setFld d .faultSrc (checkerOf id) FSrc.injectRemain (rdLe p 3 1)
            { e with flt := { e.flt with injectMode := Tab.set 0 e.flt.injectMode (checkerOf id) (rdLe p 2 1) } }
          effects (exec (.faultInject m₀) s) s m₀ (fun d => plain .ok (recBytes .faultSrc (faultSrcImage (armed d) id))) armed)
        ∧ ((srcInfo id).checker = false ∨ srcClass s.dev id = 5 ∨ injectRemain s.dev id ≠ 0 →
          answers (exec (.faultInject m₀) s) s m₀ (plain .state []) s.dev))
      ∧ (p.length = 8 →
        let ids := (sourcesFrom s.dev id).take (rdLe p 4 4)
        answers (exec (.faultCounts m₀) s) s m₀
          (plain .ok (leBytes 4 ids.length ++ leBytes 4 0 ++ ids.flatMap (countEntry s.dev))) s.dev))

/-- R421, R422, R434, R441: POWER_STATE answers its record and, read, clears its fields; a state asked for is pending
until the next edge, KEEP-TIME from its answer on; the present state is answered and changes nothing; KEEP-TIME
completes with STATE during a trial, and any state asked for while a change is pending. A device reset is due 1 ms
after its answer, unless one is due already; RESET_CAUSE clears the bits given. -/
def Obligations.PowerCommands : Prop :=
  ∀ (s : State) (m₀ : Msg),
    let asked (v : Nat) (m : Msg) : Prop := m = withByte 0 v m₀ ∧ byController s m = true ∧ (copied m).length = 4
      ∧ rdLe (copied m) 0 1 = v
    let turns (i : Instr) (m : Msg) (f : Dev → Dev) : Prop := effects (exec i s) s m (fun d => plain .ok (powerBytes (f d))) f
    let pend (v : Nat) (d : Dev) : Dev := setFld d .power 0 Pow.pending v
    let atEdge (op : EdgeOp) (d : Dev) : Dev := { d with atEdge := d.atEdge ++ [(d.bt + 1, op)] }
    (∀ m, asked 0xFF m → answers (exec (.powerStateRead m₀) s) s m (plain .ok (recBytes .power (powerImage s.dev)))
      (readClear s.dev .power 0))
    ∧ (∀ v i, (v, i) ∈ [(0, Instr.powerStateFull m₀), (1, .powerStateListen m₀), (2, .powerStateKeepTime m₀)] →
      ∀ m, asked v m →
        (pendingState s.dev ≠ 0 → answers (exec i s) s m (plain .state []) s.dev)
        ∧ (pendingState s.dev = 0 → power s.dev = v → answers (exec i s) s m (plain .ok (powerBytes s.dev)) s.dev))
    ∧ (∀ m, asked 0 m → pendingState s.dev = 0 → power s.dev ≠ 0 →
        turns (.powerStateFull m₀) m fun d => atEdge .listenExit (pend 3 d))
    ∧ (∀ m, asked 1 m → pendingState s.dev = 0 → power s.dev ≠ 1 →
        turns (.powerStateListen m₀) m fun d => atEdge .listen (pend 1 d))
    ∧ (∀ m, asked 2 m → pendingState s.dev = 0 → power s.dev ≠ 2 →
      (trialActive s.dev = false →
        turns (.powerStateKeepTime m₀) m fun d => pend 2 { d with pwr := { d.pwr with ktFrom := some d.bt } })
      ∧ (trialActive s.dev = true → answers (exec (.powerStateKeepTime m₀) s) s m (plain .state []) s.dev))
    ∧ (byController s m₀ = true → copied m₀ = [] →
      answers (exec (.deviceReset m₀) s) s m₀ (plain .ok (leBytes 8 s.dev.bt))
        { s.dev with pwr := { s.dev.pwr with
          resetDue := some (s.dev.pwr.resetDue.getD (s.dev.bt + msToBt s.dev 1, 3)) } })
    ∧ (byController s m₀ = true → (copied m₀).length = 4 →
      let cleared (d : Dev) : Dev :=
        let c := fld d .resetCause 0 RCause.cause
        setFld d .resetCause 0 RCause.cause (c - (c &&& (rdLe (copied m₀) 0 2 % 2 ^ 15)))
      effects (exec (.resetCauseClear m₀) s) s m₀ (fun d => plain .ok (causeBytes (cleared d))) cleared)

/-- R444, R446, R448, R451, R453, R454: GAUGE strobes two base ticks ahead, one at a time, and is BUSY until then;
CTR_READ answers counters live or from a snapshot, and STATE where the snapshot is not held. SCRIBE_ARM empties every
segment and arms the first; SCRIBE_TRIGGER triggers an armed segment, and is otherwise STATE, counted while triggered
or rearming; SCRIBE_ADVANCE ends an armed or triggered segment; SCRIBE_READ answers records of a segment that has
ended; otherwise they complete with STATE. -/
def Obligations.ObserveCommands : Prop :=
  ∀ (s : State) (m : Msg), byController s m = true →
    let p := copied m
    (p = [] →
      (s.dev.obs.gauge = none →
        waits (exec (.gauge m) s) s m .gauge
          { s.dev with obs := { s.dev.obs with
            gauge := some { strobeBt := s.dev.bt + 2, fn := m.fn, door := m.door.val, captured := none } } })
      ∧ (∀ g, s.dev.obs.gauge = some g →
        answers (exec (.gauge m) s) s m (plain .busy (busyPayload ⟨lockGauge, g.fn, g.door, g.strobeBt - 2⟩)) s.dev))
    ∧ (p.length = 16 → rdLe p 8 4 ≠ 0 → rdLe p 4 4 + rdLe p 8 4 ≤ ctrCount →
      let idx := (List.range (rdLe p 8 4)).map (rdLe p 4 4 + ·)
      let id := rdLe p 0 4
      let snap := s.dev.obs.snaps.find? fun x => decide (x.id = id)
      (id = 0 →
        effects (exec (.ctrRead m) s) s m
          (fun d => plain .ok (leBytes 4 0 ++ leBytes 4 0 ++ leBytes 8 0
            ++ idx.flatMap fun i => leBytes 8 (liveValue (settleAll d) i))) settleAll)
      ∧ (id ≠ 0 → ∀ x, snap = some x →
        answers (exec (.ctrRead m) s) s m (plain .ok (leBytes 4 id ++ leBytes 4 0 ++ leBytes 8 x.strobeBt
          ++ idx.flatMap fun i => leBytes 8 (snapValue s.dev x i))) s.dev)
      ∧ (id ≠ 0 → snap = none → answers (exec (.ctrRead m) s) s m (plain .state []) s.dev))
    ∧ (p = [] →
      let st := scribeState s.dev
      let armed (d : Dev) : Dev := armSegment ((List.range 16).foldl (fun d i => setRec d .scribeSeg i 0)
        { d with obs := { d.obs with records := [] } }) 0
      let turns (i : Instr) (f : Dev → Dev) : Prop := effects (exec i s) s m (fun d => plain .ok (scribeBytes (f d))) f
      turns (.scribeArm m) armed
      ∧ (st = 1 → turns (.scribeTrigger m) (fun d => scribeTrigger d 1 0) ∧ turns (.scribeAdvance m) (fun d => endSegment d 3))
      ∧ (st = 2 → turns (.scribeAdvance m) (fun d => endSegment d 2))
      ∧ (st = 2 ∨ st = 3 →
        answers (exec (.scribeTrigger m) s) s m (plain .state []) (bumpFld s.dev .scribeHdr 0 ScrSt.trigIgnored))
      ∧ (st = 0 ∨ 3 < st → answers (exec (.scribeTrigger m) s) s m (plain .state []) s.dev)
      ∧ (st ≠ 1 → st ≠ 2 → answers (exec (.scribeAdvance m) s) s m (plain .state []) s.dev))
    ∧ (p.length = 12 → rdLe p 0 1 < 16 → 1 ≤ rdLe p 8 4 → rdLe p 8 4 ≤ 32767 →
      let st := fld s.dev .scribeSeg (rdLe p 0 1) ScrSt.eSegState
      (1 < st →
        let l := ((segList s.dev (rdLe p 0 1)).drop (rdLe p 4 4)).take (rdLe p 8 4)
        answers (exec (.scribeRead m) s) s m (plain .ok (leBytes 4 l.length ++ leBytes 4 0 ++ l.flatMap (leBytes 32))) s.dev)
      ∧ (st ≤ 1 → answers (exec (.scribeRead m) s) s m (plain .state []) s.dev))

/-- R318, R325, R327: writes of 1 clear the event bits of a PF and of a VF; a mask bit cleared over an event that
stands sends vector 8; PAGE_BASE is limited silently and SOURCE keeps one bit; a write of 8 bytes is its low dword,
then its high one; a write of another size or unaligned, to an offset the function does not have, or to a function
whose BAR is not reached, changes nothing. -/
def Obligations.HostRegisterWrites : Prop :=
  ∀ (s : State), s.dev.pwr.aonUp = true →
    (∀ (ep : Fin 4), let f := pfOf ep.val
      (barUp s.dev f = true →
        let x := getFn s.dev f
        (∀ bits : BitVec 32, becomes (exec (.deviceEventsW1c ep bits) s) s
          (fun d => setFn d f { x with deviceEvents := x.deviceEvents - (x.deviceEvents &&& bits.toNat) }))
        ∧ (∀ v : BitVec 32,
          let n := v.toNat % 16
          let shown := (List.range 4).any fun b => bit x.deviceEventMask b && !bit n b && bit x.deviceEvents b
          let masked (d : Dev) : Dev := setFn d f { x with deviceEventMask := n }
          becomes (exec (.deviceEventMaskWrite ep v) s) s (fun d => if shown then sendMsix (masked d) f 8 else masked d))
        ∧ (∀ v : BitVec 64,
          becomes (exec (.barRegisterWrite f 0x20000#18 4 v) s) s
            (fun d => setFn d f { x with pageBase := min (v.toNat % 2 ^ 32) 106495 })
          ∧ becomes (exec (.barRegisterWrite f 0x20004#18 4 v) s) s
            (fun d => setFn d f { x with winSource := v.toNat % 2 })))
      ∧ (barUp s.dev f = false → ∀ v : BitVec 32,
        rests (exec (.deviceEventsW1c ep v) s) s ∧ rests (exec (.deviceEventMaskWrite ep v) s) s))
    ∧ (∀ (ep : Fin 4) (vf : Fin 1024) (bits : BitVec 32),
      (barUp s.dev (vfOf ep.val vf.val) = true →
        let w := eventWord s.dev ep.val vf.val
        becomes (exec (.vfEventW1c ep vf bits) s) s
          (fun d => setRec d .eventWord (eventIdx ep.val vf.val) (w - (w &&& bits.toNat))))
      ∧ (barUp s.dev (vfOf ep.val vf.val) = false → rests (exec (.vfEventW1c ep vf bits) s) s))
    ∧ (∀ (f : Fn) (off : BitVec 18) (size : Nat) (v : BitVec 64),
      let o := off.toNat
      let i := exec (.barRegisterWrite f off size v) s
      (barUp s.dev f = false ∨ (f.vf.isSome = true ∧ 0x10000 ≤ o) ∨ ¬ (size = 4 ∧ o % 4 = 0 ∨ size = 8 ∧ o % 8 = 0) → rests i s)
      ∧ (barUp s.dev f = true → (f.vf.isSome = true → o < 0x10000) →
        (size = 4 → o % 4 = 0 → becomes i s (fun d => writeDword d f o (v.toNat % 2 ^ 32)))
        ∧ (size = 8 → o % 8 = 0 → becomes i s
          (fun d => writeDword (writeDword d f o (v.toNat % 2 ^ 32)) f (o + 4) (v.toNat / 2 ^ 32 % 2 ^ 32)))))

/-- R318, R331: a read of the low half of BT_COUNT latches all of it for the function; a read of a VF's EVENTS_IN_FLR,
and outside the FATAL safe state one of a ring's REFUSED, returns it and clears it; an unaligned read returns 0;
nothing answers outside the function's BAR or where that is not reached. -/
def Obligations.HostRegisterReads : Prop :=
  ∀ (s : State) (f : Fn), s.dev.pwr.aonUp = true →
    let reads (o : Nat) (v : Nat) (d : Dev) : Dev := { d with out := [.barRead f o v] }
    (barUp s.dev f = true →
      let x := getFn s.dev f
      exec (.btCountLowRead f) s
          = .next { s with dev := reads 0x10 (s.dev.bt % 2 ^ 32) (setFn s.dev f { x with btLatch := s.dev.bt % 2 ^ 64 }) }
      ∧ (f.vf.isSome = true → exec (.readClearRegisterRead f 8#18) s
          = .next { s with dev := reads 8 x.eventsInFlr (setFn s.dev f { x with eventsInFlr := 0 }) })
      ∧ (∀ (tx : Bool) (r : Fin 64), r.val < ringCount f → safe s.dev = false →
        let o := (if f.vf.isSome then 0x2000 + (if tx then 0x80 else 0) else 0x4000 + (if tx then 0x800 else 0))
          + 32 * r.val + 12
        let i := ringIdx f tx r.val
        exec (.readClearRegisterRead f (BitVec.ofNat 18 o)) s
          = .next { s with dev := reads o (getRec s.dev .ring i / 2 ^ 96 % 2 ^ 32) (setFld s.dev .ring i Rng.refused 0) })
      ∧ (∀ off : BitVec 18, off.toNat % 4 ≠ 0 → (f.vf.isSome = true → off.toNat < 0x10000) →
          exec (.readClearRegisterRead f off) s = .next { s with dev := reads off.toNat 0 s.dev }))
    ∧ (∀ off : BitVec 18, barUp s.dev f = false ∨ (f.vf.isSome = true ∧ 0x10000 ≤ off.toNat) →
        rests (exec (.readClearRegisterRead f off) s) s)
    ∧ (barUp s.dev f = false → rests (exec (.btCountLowRead f) s) s)

/-- R327, R330, R332: PRODUCER takes the value written, and with the ring enabled as many descriptors as it advances
are posted, those the host has put there; a ring that a write of its control word enables has CONSUMER at PRODUCER and
nothing posted; messages held back are sent when their holdoff ends. A ring the function does not have, or cannot be
reached, is not written. -/
def Obligations.RingEvents : Prop :=
  ∀ (s : State) (f : Fn) (tx : Bool) (r : Fin 64), s.dev.pwr.aonUp = true →
    let x := getRing s.dev f tx r.val
    (barUp s.dev f = true → r.val < ringCount f →
      (∀ (producer : BitVec 16) (ds : List (BitVec 256)),
        let n := (producer.toNat + 65536 - ringFld s.dev f tx r.val Rng.producer) % 65536
        let new := ds.take n ++ List.replicate (n - ds.length) 0
        let moved (d : Dev) : Dev := setFld d .ring (ringIdx f tx r.val) Rng.producer producer.toNat
        (ringEnabled s.dev f tx r.val = true → becomes (exec (.ringProducerWrite f tx r producer ds) s) s
          (fun d => tiuDrain (setRing (moved d) f tx r.val { x with posted := x.posted ++ new })))
        ∧ (ringEnabled s.dev f tx r.val = false → becomes (exec (.ringProducerWrite f tx r producer ds) s) s
          (fun d => tiuDrain (moved d))))
      ∧ (∀ v : BitVec 32,
        let e := ringWrite s.dev f tx r.val 160 191 v.toNat
        becomes (exec (.ringEnableWrite f tx r v) s) s (fun d => tiuDrain (ringWrite d f tx r.val 160 191 v.toNat))
        ∧ (ringEnabled s.dev f tx r.val = false → ringEnabled e f tx r.val = true →
          ringFld e f tx r.val Rng.consumer = ringFld e f tx r.val Rng.producer ∧ (getRing e f tx r.val).posted = [])
        ∧ (ringEnabled e f tx r.val = false → (getRing e f tx r.val).posted = [])))
    ∧ (barUp s.dev f = false ∨ ringCount f ≤ r.val →
      (∀ v : BitVec 32, rests (exec (.ringEnableWrite f tx r v) s) s)
      ∧ ∀ (p : BitVec 16) (ds : List (BitVec 256)), rests (exec (.ringProducerWrite f tx r p ds) s) s)
    ∧ (x.holdoff = false → rests (exec (.ringIrqHoldoffEnd f tx r) s) s)
    ∧ (x.holdoff = true → x.irqOwed = false →
        becomes (exec (.ringIrqHoldoffEnd f tx r) s) s (fun d => setRing d f tx r.val { x with holdoff := false }))
    ∧ (x.holdoff = true → x.irqOwed = true →
        becomes (exec (.ringIrqHoldoffEnd f tx r) s) s
          (fun d => ringMessage (setRing d f tx r.val { x with holdoff := false, irqOwed := false }) f tx r.val))
    ∧ (∀ ep : Fin 4, let y := getEp s.dev ep.val
      ((y.holdoff && y.summaryOwed) = false →
        becomes (exec (.vfSummaryHoldoffEnd ep) s) s (fun d => setEp d ep.val { y with holdoff := false }))
      ∧ ((y.holdoff && y.summaryOwed) = true →
        becomes (exec (.vfSummaryHoldoffEnd ep) s) s
          (fun d => summaryRise (setEp d ep.val { y with holdoff := false, summaryOwed := false }) ep.val)))

/-- R316, R317, R328, R422, R431, R437, R440: a function-level reset of a function that is reached puts it, and no
other, in FLR, and its completion sets its cause bit; PERST resets its endpoint, sets its cause bit and takes its link
down while the main rails are up; its release puts TOTAL_VFS in effect, and in KEEP-TIME begins a wake; the link
trains with PERST released, 1 ms after the rails were found; a configuration write sets the two bits, sends what they
held back, and the message owed since an FLR. -/
def Obligations.EndpointEvents : Prop :=
  ∀ (s : State), s.dev.pwr.aonUp = true →
    (∀ f i, (∃ ep vf, f = vfOf (Fin.val ep) (Fin.val vf) ∧ i = .vfFlr ep vf) ∨ (∃ ep, f = pfOf (Fin.val ep) ∧ i = .pfFlr ep) →
      (barUp s.dev f = true → acts (exec i s) s fun d =>
        (getFn d f).inFlr = true ∧ (getFn d f).eventOwed = f.vf.isSome ∧ ∀ g, Fn.key g ≠ Fn.key f → getFn d g = getFn s.dev g)
      ∧ (barUp s.dev f = false → rests (exec i s) s))
    ∧ (∀ f : Fn,
      ((getFn s.dev f).inFlr = true → becomes (exec (.flrComplete f) s) s
        (fun d => setCause (setFn d f { getFn d f with inFlr := false }) (if f.vf.isNone then 12 else 13)))
      ∧ ((getFn s.dev f).inFlr = false → rests (exec (.flrComplete f) s) s))
    ∧ (∀ ep : Fin 4, let e := ep.val
      let low (v : Bool) (d : Dev) : Dev := setEp d e { getEp d e with perst := v }
      let released (d : Dev) : Dev := setFld (setFld (low false d) .endpoint e Ep.totalVfsActive (fld d .endpoint e Ep.totalVfs))
        .endpoint e Ep.perstBt d.bt
      ((getEp s.dev e).perst = true →
        rests (exec (.perstAssert ep) s) s
        ∧ (safe s.dev = true ∨ resetHeld s.dev = true ∨ s.dev.pwr.ktFrom = none ∧ power s.dev ≠ 2 →
          becomes (exec (.perstDeassert ep) s) s released)
        ∧ (safe s.dev = false → resetHeld s.dev = false → s.dev.pwr.ktFrom = none → power s.dev = 2 →
          pendingState s.dev = 0 → s.dev.pwr.mainEnAt = none →
          becomes (exec (.perstDeassert ep) s) s (fun d => beginWake (noteWake (released d) 2 e))))
      ∧ ((getEp s.dev e).perst = false →
        rests (exec (.perstDeassert ep) s) s
        ∧ (mainPowered s.dev = true →
          becomes (exec (.perstAssert ep) s) s (fun d => setCause (resetEndpoint (low true d) e) (8 + e)))
        ∧ (mainPowered s.dev = false → becomes (exec (.perstAssert ep) s) s (low true)))
      ∧ (let trains : Prop :=
          fastRuns s.dev = true ∧ (getEp s.dev e).perst = false ∧ s.dev.pwr.railsBt + msToBt s.dev 1 ≤ s.dev.bt
         (trains → becomes (exec (.pcieLinkTrained ep) s) s (fun d => setEp d e { getEp d e with linkUp := true }))
        ∧ (¬ trains → rests (exec (.pcieLinkTrained ep) s) s))
      ∧ becomes (exec (.pcieLinkDown ep) s) s (fun d => setEp d e { getEp d e with linkUp := false }))
    ∧ (∀ (f : Fn) (bm mx : Bool), let x := getFn s.dev f
      let i := exec (.configurationSpaceWrite f bm mx) s
      let written (d : Dev) : Dev := flushMsix (setFn d f { x with busMaster := bm, msixEnable := mx }) f
      (barUp s.dev f = false → rests i s)
      ∧ (barUp s.dev f = true →
        (f.vf = none → becomes i s (fun d => tiuDrain (written d)))
        ∧ (∀ v, f.vf = some v →
          ((mx && !x.msixEnable && x.eventOwed) = false → becomes i s written)
          ∧ ((mx && !x.msixEnable && x.eventOwed) = true → becomes i s fun d =>
            let e := setFn (written d) f { getFn (written d) f with eventOwed := false }
            if eventWord e f.ep.val v.val = 0 then e else vfMessage e f.ep.val v.val))))

/-- R320, R329: the lapse timer that has run KEEPALIVE_LAPSE_MS stops, sets LAPSED, raises its source and sets bit 2
of DEVICE_EVENTS, and before that nothing happens; a RETIRING tenant whose time has come becomes UNBOUND, with its key
ring empty and its counters zero; before that, and of another tenant, nothing happens. -/
def Obligations.LapseAndRetirement : Prop :=
  ∀ (s : State), s.dev.pwr.aonUp = true →
    let lapses : Prop := s.dev.host.lapseRuns = true ∧ lapseBt s.dev ≤ s.dev.bt + 1 - s.dev.host.lapseFrom
    (lapses → becomes (exec .keepaliveLapse s) s fun d =>
      setDevEventAll (raise (setFld { d with host := { d.host with lapseRuns := false } } .controller 0 Ctl.lapsed 1)
        (srcId 0x60 0)) 2)
    ∧ (¬ lapses → rests (exec .keepaliveLapse s) s)
    ∧ (∀ t : Fin 4096, let n := Tab.get 0 s.dev.host.retireEnd t.val
      let due : Prop := tenantState s.dev t.val = 2 ∧ n ≠ 0 ∧ n ≤ s.dev.bt + 1
      (due → acts (exec (.tenantRetireComplete t) s) s fun d =>
        tenantState d t.val = 0 ∧ Tab.get 0 d.host.retireEnd t.val = 0 ∧ (∀ k < 3, ringEntry d t.val k = 0)
          ∧ ∀ k < 24, ctrValue d (tenantCtr t.val k) = 0)
      ∧ (¬ due → rests (exec (.tenantRetireComplete t) s) s))

/-- R17, R18, R406, R429, R463, R464, R476: the AON supply's start puts the device, but for OTP and flash, at its
reset values, and its loss leaves OFF; the main rails are found when none is low, or one of them is outside 20 ms
later; a rail a monitor watches that leaves its limits starts its episode and, where it supplies the packet path of a
running device, ends the definition of its service; temperature and oscillator episodes start and end; a PLL that
unlocks stops the domains it clocks until it locks again. -/
def Obligations.SupplyEvents : Prop :=
  ∀ (s : State),
    let o := s.dev.pwr.railsOut
    (acts (exec .aonPowerOn s) s fun d =>
      d.pwr.aonUp = true ∧ d.bt = 0 ∧ d.ts = TsState.reset ∧ d.mbx = MbxState.reset ∧ d.atEdge = []
        ∧ (s.dev.pwr.aonUp = false → d.key.otp = s.dev.key.otp ∧ d.key.flash = s.dev.key.flash))
    ∧ (s.dev.pwr.aonUp = true →
      acts (exec .aonSupplyLoss s) s (fun d => d.pwr.aonUp = false)
      ∧ (∀ low : List (Fin 16), let i := exec (.mainRailsCheck low) s
        let out := (List.range 16).filter fun r => isMain r && (low.map (·.val)).contains r
        (s.dev.pwr.phase ≠ .railsWait → rests i s)
        ∧ (s.dev.pwr.phase = .railsWait →
          (out = [] → acts i s fun d => d.pwr.phase = .bootRom ∧ d.pwr.railsBt = s.dev.bt)
          ∧ (out ≠ [] → s.dev.bt + 1 < s.dev.pwr.mainEnBt + msToBt s.dev 20 → rests i s)
          ∧ (∀ r rs, out = r :: rs → s.dev.pwr.mainEnBt + msToBt s.dev 20 ≤ s.dev.bt + 1 → becomes i s fun d =>
            setRail { d with pwr := { d.pwr with railsOut := rs.foldl (fun n r => setBit n r true) o } } r true)))
      ∧ (∀ r : Fin 16, let i := exec (.voltRange r) s
        (railWatched s.dev r.val = false → rests i s)
        ∧ (railWatched s.dev r.val = true →
          ((pathRail r.val && fastRuns s.dev) = true →
            becomes i s fun d => setRail { d with pwr := { d.pwr with railFailed := true } } r.val true)
          ∧ ((pathRail r.val && fastRuns s.dev) = false → becomes i s fun d => setRail d r.val true)))
      ∧ (∀ r : Fin 16, let i := exec (.railWithinLimits r) s
        let last := (List.range 16).all fun k => decide (k = r.val) || !(isMain k && bit o k)
        (bit o r.val = false → rests i s)
        ∧ (bit o r.val = true → s.dev.pwr.phase ≠ .railsWait ∨ last = false → becomes i s fun d => setRail d r.val false)
        ∧ (bit o r.val = true → s.dev.pwr.phase = .railsWait → last = true →
          becomes i s fun d => railsFound (setRail d r.val false)))
      ∧ (∀ (i : Fin 8) (c : Bool), let id := srcId (if c then 0x13 else 0x12) i.val
        let starts := exec (if c then .tempCrit i else .tempHigh i) s
        (sensorRuns s.dev i.val = true → becomes starts s fun d => startEpisode d id)
        ∧ (sensorRuns s.dev i.val = false → rests starts s)
        ∧ becomes (exec (.tempEpisodeEnd i c) s) s fun d => endEpisode d id)
      ∧ (∀ off : Bool, becomes (exec (.oscCheck off) s) s fun d =>
          if off then startEpisode d (srcId 0x14 0) else endEpisode d (srcId 0x14 0))
      ∧ (∀ i : Fin 5, let id := srcId 0x10 i.val
        let unlocks := exec (.pllUnlock i) s
        (fastRuns s.dev = false ∨ bit s.dev.pwr.plls i.val = false → rests unlocks s)
        ∧ (fastRuns s.dev = true → bit s.dev.pwr.plls i.val = true →
          (i.val = 0 → becomes unlocks s fun d => setPll (settleAll (haltProcessor (startEpisode d id))) 0 false)
          ∧ (i.val = 1 → becomes unlocks s fun d =>
            (List.range 17).foldl (fun d k => if folPresent d k then folStop d k else d)
              (setPll (tiuReset (captureHeld (startEpisode d id))) 1 false))
          ∧ (i.val = 2 → becomes unlocks s fun d => folStop (gnssPllLost (setPll (startEpisode d id) 2 false)) 17)
          ∧ (3 ≤ i.val → becomes unlocks s fun d => setPll (startEpisode d id) i.val false))
        ∧ (fastRuns s.dev = false ∨ (i.val = 4 ∧ s.dev.variant ≠ .f) → rests (exec (.pllRelock i) s) s)
        ∧ (fastRuns s.dev = true → i.val ≠ 4 ∨ s.dev.variant = .f → becomes (exec (.pllRelock i) s) s fun d =>
          endEpisode (setPll (if i.val = 0 then settleAll d else d) i.val true) id)))

/-- R370, R410, R412, R422–R427: RESET_N recognised low sets its cause and, outside the FATAL safe state, resets all
but the AON; an assertion of 2 s sets PIN_LONG; its end absorbs a device reset requested meanwhile and begins a full
boot; a device reset that is due begins and holds; the watchdog of a running firmware stops it and begins its boot; a
trial not confirmed in time goes back to the preferred slot. -/
def Obligations.ResetEvents : Prop :=
  ∀ (s : State), s.dev.pwr.aonUp = true →
    (s.dev.pwr.resetN.isSome = true → rests (exec .resetNAssert s) s)
    ∧ (s.dev.pwr.resetN = none → acts (exec .resetNAssert s) s fun d =>
      d.pwr.resetN = some s.dev.bt ∧ d.pwr.devReset = false ∧ bit (fld d .resetCause 0 RCause.cause) 1 = true
      ∧ (safe s.dev = false → d.mbx = MbxState.reset ∧ d.ports = [] ∧ d.pwr.halted = false))
    ∧ (∀ n, s.dev.pwr.resetN = some n →
      let counted := decide (n + twoSeconds s.dev ≤ fld s.dev .resetCause 0 RCause.lastResetBt)
        && bit (fld s.dev .resetCause 0 RCause.cause) 2
      (n + twoSeconds s.dev ≤ s.dev.bt → counted = false → becomes (exec .pinLong s) s fun d => setCause d 2)
      ∧ (s.dev.bt < n + twoSeconds s.dev ∨ counted = true → rests (exec .pinLong s) s))
    ∧ (s.dev.pwr.resetN = none → rests (exec .pinLong s) s ∧ rests (exec .resetNDeassert s) s)
    ∧ (∀ n, s.dev.pwr.resetN = some n → acts (exec .resetNDeassert s) s fun d =>
      d.pwr.resetN = none ∧ d.pwr.devReset = false ∧ d.pwr.resetDue = none
        ∧ (safe s.dev = false → d.pwr.bootKind = 2 ∧ power d = 0))
    ∧ (let due (n : Nat) : Prop := n ≤ s.dev.bt + 1 ∧ safe s.dev = false ∧ resetHeld s.dev = false
       (∀ n c, s.dev.pwr.resetDue = some (n, c) → due n → acts (exec .deviceResetStart s) s fun d =>
         d.pwr.devReset = true ∧ d.pwr.resetFrom = s.dev.bt ∧ d.pwr.resetDue = none ∧ d.mbx = MbxState.reset ∧ d.ports = [])
       ∧ ((∀ n c, s.dev.pwr.resetDue = some (n, c) → ¬ due n) → rests (exec .deviceResetStart s) s))
    ∧ (let watched : Prop := (s.dev.pwr.phase = .ready ∨ s.dev.pwr.phase = .fwStart) ∧ fastRuns s.dev = true
         ∧ s.dev.pwr.halted = false ∧ safe s.dev = false
       (watched → acts (exec .mpWatchdogExpiry s) s fun d =>
         d.pwr.phase = .bootRom ∧ d.pwr.bootKind = 4 ∧ d.pwr.reloadDue = none ∧ d.mbx.locks = [])
       ∧ (¬ watched → rests (exec .mpWatchdogExpiry s) s))
    ∧ (let ends : Prop := fwRuns s.dev = true ∧ trialActive s.dev = true ∧ confirmRemain s.dev = 0
         ∧ s.dev.pwr.reloadDue = none ∧ s.dev.pwr.resetDue = none
       (ends → becomes (exec .trialConfirmExpiry s) s fun d =>
         { d with pwr := if slotAbiFits d (preferredSlot d) then { d.pwr with reloadDue := some d.bt }
                         else { d.pwr with resetDue := some (d.bt, 3) } })
       ∧ (¬ ends → rests (exec .trialConfirmExpiry s) s))

/-- R34, R368, R379, R401, R430, R435–R440, R474: a full boot and a processor boot run only in their phase, with the
flash ready, and end with the firmware starting, or fatal; the starting firmware becomes ready; WAKE_N and the
sideband wake a device in LISTEN by the exit at the next edge, and one in KEEP-TIME by raising MAIN_EN; the timed
KEEP-TIME entry leaves only the AON running; 1 ms into LISTEN the frames of the shared area are dropped; the boundary-
scan port selects an instruction while it has power. -/
def Obligations.PowerEvents : Prop :=
  ∀ (s : State), s.dev.pwr.aonUp = true →
    let open_ : Prop := safe s.dev = false ∧ resetHeld s.dev = false
    (let starts : Prop := s.dev.pwr.phase = .fwStart ∧ fastRuns s.dev = true ∧ safe s.dev = false
     (starts → acts (exec .fwReady s) s fun d => d.pwr.phase = .ready ∧ d.pwr.tablesLost = false ∧ d.pwr.readyBt = s.dev.bt)
     ∧ (¬ starts → rests (exec .fwReady s) s))
    ∧ (let boots : Prop := s.dev.pwr.phase = .bootRom ∧ s.dev.pwr.bootKind ≤ 2 ∧ open_ ∧ flashReady s.dev = true
       let locked := readFlash (lockPlls (fresh s.dev))
       let x := if locked.pwr.bootKind = 0 then clearClients locked else locked
       let i := exec .fullBoot s
       (boots →
         (∀ d, rollForward x = (d, false) → becomes i s fun _ => d)
         ∧ (∀ d e, rollForward x = (d, true) → bootSlot d false = (none, e) → becomes i s fun _ => fatal e 0x65)
         ∧ (∀ d e k, rollForward x = (d, true) → bootSlot d false = (some k, e) →
           let b := startFirmware e k
           let jig := carriedJig b.pwr.running
           becomes i s fun _ => if copyReason b jig ≠ 0 then fatal b 0x24
             else { b with arr := { b.arr with active := jig, staged := none } }))
       ∧ (¬ boots → rests i s))
    ∧ (let boots : Prop := s.dev.pwr.phase = .bootRom ∧ 3 ≤ s.dev.pwr.bootKind ∧ s.dev.pwr.bootKind ≤ 5
       let reloads : Prop := ∃ n, s.dev.pwr.reloadDue = some n ∧ n ≤ s.dev.bt + 1 ∧ s.dev.pwr.phase = .ready
         ∧ s.dev.pwr.halted = false
       let i := exec .processorBoot s
       (open_ → boots → flashReady s.dev = true → becomes i s fun d =>
         bootProcessor (if d.pwr.bootKind = 5 then readFlash (lockPlls d) else d))
       ∧ (open_ → boots → flashReady s.dev = false → rests i s)
       ∧ (open_ → reloads → becomes i s fun d =>
         let e := setCause (processorStops d) 6
         bootProcessor { e with pwr := { e.pwr with phase := .bootRom, bootKind := 3, reloadDue := none } })
       ∧ (¬ open_ ∨ (¬ boots ∧ ¬ reloads) → rests i s))
    ∧ (open_ → s.dev.pwr.ktFrom = none → pendingState s.dev = 0 →
       let woken (code : Nat) (d : Dev) : Dev := if power d = 1
         then setPowerPending (defer (noteWake d code 0) .listenExit) 3 else beginWake (noteWake d code 0)
       power s.dev = 1 ∨ (power s.dev = 2 ∧ s.dev.pwr.mainEnAt = none) →
         becomes (exec .wakeNAssert s) s (fun d => woken 1 d)
         ∧ becomes (exec (.sidebandWake 0xA1#8 0x57#8 true) s) s (fun d => woken 3 (bumpFld d .power 0 Pow.sidebandWakes)))
    ∧ (¬ open_ ∨ (s.dev.pwr.ktFrom = none ∧ power s.dev = 0) →
       rests (exec .wakeNAssert s) s
       ∧ becomes (exec (.sidebandWake 0xA1#8 0x57#8 true) s) s fun d => bumpFld d .power 0 Pow.sidebandWakes)
    ∧ (∀ c d p, p = false ∨ c ≠ 0xA1#8 ∨ d ≠ 0x57#8 → rests (exec (.sidebandWake c d p) s) s)
    ∧ (∀ c, becomes (exec (.sidebandBlockRead c) s) s
        fun d => { d with atEdge := d.atEdge ++ [(d.bt + 1, .sideband c.toNat)] })
    ∧ (∀ n, s.dev.pwr.ktFrom = some n → open_ →
       (n + msToBt s.dev 4 ≤ s.dev.bt + 1 → acts (exec .keepTimeEntry s) s fun d => d.pwr.phase = .mainOff ∧ d.pwr.plls = 0
         ∧ d.pwr.ktFrom = none ∧ power d = 2 ∧ d.mbx = MbxState.reset ∧ d.arr.queue = [] ∧ d.arr.ctx = [])
       ∧ (s.dev.bt + 1 < n + msToBt s.dev 4 → rests (exec .keepTimeEntry s) s))
    ∧ (s.dev.pwr.ktFrom = none ∨ ¬ open_ → rests (exec .keepTimeEntry s) s)
    ∧ (let drains : Prop := power s.dev = 1 ∧ s.dev.pwr.sharedGated = true
         ∧ fld s.dev .power 0 Pow.entryBt + msToBt s.dev 1 ≤ s.dev.bt + 1
       (¬ drains → rests (exec .listenSharedAreaDrain s) s)
       ∧ (drains → acts (exec .listenSharedAreaDrain s) s fun d =>
         ∀ p < 16, ∀ q < 8, ∀ f ∈ portQueue d p q, f.area ≠ .shared))
    ∧ (∀ j : JtagInstr, let i := exec (.jtagInstruction j) s
       (mainPowered s.dev = false → rests i s)
       ∧ (mainPowered s.dev = true → acts i s fun d => d.key.jtag = jtagSelect s.dev j
         ∧ (jtagSelect s.dev j = .idcode → (.idcode (idcode s.dev.variant)) ∈ d.out)))

/-- R68, R73, R74, R75: a pending leap takes effect once TSH has reached its switch instant, and becomes the last; the
host table and the GPS parameters lapse, the first once the UTC count has reached EXPIRES_S, the second seven days
after they were accepted, each followed by an evaluation of the leap state; what the tick's stamps are converted with
is then taken anew. At any other time nothing else happens. -/
def Obligations.LeapEvents : Prop :=
  ∀ (s : State), s.dev.pwr.aonUp = true →
    let ends (i : Instr) (g : Dev → Dev) : Prop := becomes (exec i s) s (fun d => refreshTick (g d))
    (∀ l, s.dev.leap.pending = some l →
      (l.switch * sec32 ≤ (tshNs96 s.dev : Int) → ends .leapSwitch fun d => evalLeap (setRec
        { d with leap := { d.leap with pending := none, last := some l } } .leap 0
        (setF (setF (setF (setS (getRec d .leap 0) Leap.dNowS l.dNew) Leap.pending 0) Leap.dPendingS 0) Leap.mPendingS 0))
        false)
      ∧ ((tshNs96 s.dev : Int) < l.switch * sec32 → ends .leapSwitch fun d => d))
    ∧ (s.dev.leap.pending = none → ends .leapSwitch fun d => d)
    ∧ (let due : Prop := s.dev.leap.hostExpires ≠ 0 ∧ (s.dev.leap.hostExpires : Int) ≤ (tshSec s.dev : Int) - dNow s.dev
      (due → ends .hostLeapTableExpiry fun d => evalLeap { d with leap := { d.leap with hostExpired := true } } false)
      ∧ (¬ due → ends .hostLeapTableExpiry fun d => d))
    ∧ (let due : Prop := s.dev.leap.gps.isSome = true
        ∧ 604800 * 10 ^ 9 ≤ (s.dev.bt - fld s.dev .leap 0 Leap.gpsAcceptBt) * btNs s.dev
      (due → ends .gpsLeapValidityLapse fun d => evalLeap { d with leap := { d.leap with gpsLapsed := true } } false)
      ∧ (¬ due → ends .gpsLeapValidityLapse fun d => d))

/-- R38, R40, R41, R42: an advance adds INC to each timescale, set or not, carries into SECONDS, which wraps at 2^48,
and leaves INC and SET; a rate written takes the place of INC, within 500 × 10^-6 of INC_NOM; a base-tick edge of a
device under power completes with every part of the edge in order, and BT_COUNT is one more. -/
def Obligations.EdgeOrder : Prop :=
  (∀ (d : Dev) (i : Nat), i < 3 → (getTs d i).sec < 2 ^ 48 → (getTs d i).ns < 10 ^ 9 → (getTs d i).frac40 < 2 ^ 40 →
    (getTs d i).inc < 10 ^ 9 * 2 ^ 40 →
    (getTs (advanceAll d) i).total = ((getTs d i).total + (getTs d i).inc) % (2 ^ 48 * 10 ^ 9 * 2 ^ 40)
      ∧ (getTs (advanceAll d) i).ns < 10 ^ 9 ∧ (getTs (advanceAll d) i).inc = (getTs d i).inc
      ∧ (getTs (advanceAll d) i).set = (getTs d i).set)
  ∧ (∀ (d : Dev) (i inc : Nat), i < 3 →
    ((incNom d * 999500 + 999999) / 1000000 ≤ inc → inc ≤ incNom d * 1000500 / 1000000 → (getTs (applyRate d i inc) i).inc = inc)
    ∧ (inc < (incNom d * 999500 + 999999) / 1000000 →
      (getTs (applyRate d i inc) i).inc = (incNom d * 999500 + 999999) / 1000000)
    ∧ ((incNom d * 999500 + 999999) / 1000000 ≤ incNom d * 1000500 / 1000000 → incNom d * 1000500 / 1000000 < inc →
      (getTs (applyRate d i inc) i).inc = incNom d * 1000500 / 1000000))
  ∧ (∀ (s : State) (strobes : List Nat), s.dev.pwr.aonUp = true →
    becomes (exec (.baseTickEdge strobes) s) s (fun d => baseTick strobes d)
      ∧ acts (exec (.baseTickEdge strobes) s) s fun d => d.bt = s.dev.bt + 1)

/-- R259, R260, R263, R265: the firmware evaluates its references only while it runs; an evaluation takes up the
record writes that wait for it. A seed whose verification has ended with SEED_OK asks for its commit at a later edge;
a master whose holdover has lasted HOLDOVER_MAX_S leaves it; before that, or without the firmware, nothing happens. -/
def Obligations.DisciplineEvents : Prop :=
  ∀ (s : State), s.dev.pwr.aonUp = true →
    onlyIf (fwRuns s.dev = true) (exec .servoEvaluation s) s evaluate
    ∧ (fwRuns s.dev = true → acts (exec .servoEvaluation s) s fun d => d.disc.writes = [] ∧ d.disc.evalN = s.dev.disc.evalN + 1)
    ∧ (∀ m : Fin 2,
      onlyIf (fwRuns s.dev = true ∧ seedState s.dev m.val = 1 ∧ flag s.dev .servoStatus m.val SrvSt.seedOk = true
          ∧ elapsed s.dev (getServo s.dev m.val).seedBt (fld s.dev .servo m.val Srv.seedVerifyS) = true)
        (exec (.seedVerifyEnd m) s) s fun d => { setFld { d with free := d.free + 1 } .servoStatus m.val SrvSt.seedState 2 with
          atEdge := d.atEdge ++ [(d.bt + 2 + Config.freeValue d.free % 99999999, .seed m.val)] })
    ∧ (∀ m : Fin 2,
      onlyIf (fwRuns s.dev = true ∧ (getServo s.dev m.val).state = 3 ∧ fld s.dev .servo m.val Srv.holdoverMaxS ≠ 0
          ∧ elapsed s.dev (getServo s.dev m.val).stateBt (fld s.dev .servo m.val Srv.holdoverMaxS) = true)
        (exec (.holdoverMaxExpiry m) s) s fun d => publishFrozen (setState d m.val 0) m.val none)

/-- R270, R271, R272, R273, R274, R275, R277, R278, R280, R283, R290: a notch whose interferer has stayed away for 1 s
ends; the AGC report of a second; a search that has taken its time assigns what it detected; a channel that fails to
pull in, or whose signal is lost, becomes LOST and its PRN is searched again; the locks of a channel over its reports
and windows; the bits of one in BIT_SYNC; a spectrum. Without the antenna, the GNSS domain or the condition named
nothing happens. A measurement epoch within a base tick, once, writes its block into a ring of sixteen; a survey of
the baseline that has lasted BL_SURVEY_S holds what is good enough, or runs a second time, or fails. At any other time
nothing happens. -/
def Obligations.GnssEvents : Prop :=
  (∀ (s : State), s.dev.pwr.aonUp = true →
    (∀ (a : Fin 2) (n : Fin 4), onlyIf (gnssRuns s.dev = true ∧ notchOn s.dev a.val n.val = true
        ∧ ∃ b, Tab.get none (getAnt s.dev a.val).below n.val = some b ∧ 10 ^ 9 ≤ (s.dev.bt - b) * btNs s.dev)
      (exec (.notchRelease a n) s) s fun d => endEpisode (setNotch d a.val n.val false 0) (srcId 0x53 a.val))
    ∧ (∀ (a : Fin 2) (gain least : BitVec 16) (clipped : Nat) (pulses : List Pulse),
      let clip := ppm clipped sampleRate
      let blank := blankPpm s.dev a.val 1 pulses
      onlyIf (antRuns s.dev a.val = true) (exec (.agcSecondReport a gain least clipped pulses) s) s fun d =>
        episodeIf (episodeIf (episodeIf (setRec d .gnssAntStatus a.val
          (setF (setF (setF (getRec d .gnssAntStatus a.val) GAntSt.agcGainCdb (min 4800 gain.toNat)) GAntSt.clipPpm clip)
            GAntSt.blankPpm blank)) (decide (4800 ≤ least.toNat)) (srcId 0x50 a.val)) (decide (1000 < clip)) (srcId 0x51 a.val))
          (decide (100000 < blank)) (srcId 0x52 a.val))
    ∧ (∀ (a : Fin 2) (found : List Detection),
      (s.dev.gnss.acq = none → rests (exec (.acquisitionComplete a found) s) s)
      ∧ ∀ r, s.dev.gnss.acq = some r →
        onlyIf (r.ant = a.val ∧ antRuns s.dev a.val = true ∧ fwRuns s.dev = true
            ∧ r.duration ≤ (s.dev.bt - r.fromBt) * btNs s.dev)
          (exec (.acquisitionComplete a found) s) s fun d =>
            startSearch ((found.filter (detects d r)).foldl
              (fun d x => assignPrn a.val d (x.prn.val + 1) x.code.val (dopplerOf x.bin.val))
              { d with gnss := { d.gnss with acq := none } }))
    ∧ (∀ i : Fin 48,
      let x := getChan s.dev i.val
      let lost (d : Dev) : Dev := wantPrns (setChan d i.val { Channel.idle with prn := x.prn, state := 3, since := d.bt })
        (i.val / 24) [(x.prn, false)]
      onlyIf (chanRuns s.dev i.val = true ∧ x.state = 1 ∧ 500 * 10 ^ 6 ≤ (s.dev.bt - x.since) * btNs s.dev)
          (exec (.pullInTimeout i) s) s lost
      ∧ onlyIf (chanRuns s.dev i.val = true ∧ x.state = 2
            ∧ ∃ b, x.lowBt = some b ∧ fld s.dev .gnssAnt (i.val / 24) GAnt.cn0LossMs * 10 ^ 6 ≤ (s.dev.bt - b) * btNs s.dev)
          (exec (.cn0Loss i) s) s lost
      ∧ (∀ (v : PullReport) (r : LoopReport),
        let low := decide (r.cn0.toNat < fld s.dev .gnssAnt (i.val / 24) GAnt.cn0LossDbhz * 100)
        let y := { x with cn0 := r.cn0.toNat, lowBt := if low then some (x.lowBt.getD s.dev.bt) else none }
        (x.state = 1 → onlyIf (chanRuns s.dev i.val = true ∧ v.peak.natAbs ≤ 16 ∧ v.freq.natAbs < 25000
            ∧ (s.dev.bt - x.since) * btNs s.dev ≤ 500 * 10 ^ 6)
          (exec (.carrierLockCheck i v r) s) s fun d => setChan d i.val { x with state := 2, codeLock := true })
        ∧ (x.state = 2 → onlyIf (chanRuns s.dev i.val = true) (exec (.carrierLockCheck i v r) s) s fun d => setChan d i.val
            (if 800 ≤ r.costas ∧ x.lockBt.isNone then
               { y with lockBt := some d.bt, phaseBase := r.phase / 65536 * 65536, windowBt := d.bt }
             else if r.costas < 500 ∧ x.lockBt.isSome then
               { y with lockBt := none, bitSync := false, frameSync := false, inverted := false, slip := true, badRun := 0
                        cands := [], words := [] }
             else y))
        ∧ (x.state ≠ 1 → x.state ≠ 2 → rests (exec (.carrierLockCheck i v r) s) s))
      ∧ (∀ counts : List Nat,
        let due : Prop := chanRuns s.dev i.val = true ∧ x.state = 2 ∧ x.lockBt.isSome = true ∧ x.bitSync = false
          ∧ 2 * 10 ^ 9 ≤ (s.dev.bt - x.windowBt) * btNs s.dev
        (∀ p, bitPosition counts = some p → onlyIf due (exec (.bitSyncWindow i counts) s) s fun d =>
          setChan { d with free := d.free + 1 } i.val { x with
            bitSync := true, bitPos := p, bits := 0, stream := Config.freeValue d.free % 4, cands := [], words := [] })
        ∧ (bitPosition counts = none → onlyIf due (exec (.bitSyncWindow i counts) s) s fun d =>
          setChan d i.val { x with windowBt := d.bt }))
      ∧ (∀ sums : List Int, onlyIf (chanRuns s.dev i.val = true ∧ x.bitSync = true)
          (exec (.subframeReceived i sums) s) s fun d => sums.foldl (receiveBit i.val) d))
    ∧ (∀ (a : Fin 2) (power : List Nat) (tracked : List Int),
      let runs : Prop := antRuns s.dev a.val = true ∧ flag s.dev .gnssAnt a.val GAnt.notchEn = true
      (gnssRuns s.dev = false ∨ (runs ∧ power.length ≠ 1024) → rests (exec (.spectrumMonitor a power tracked) s) s)
      ∧ (gnssRuns s.dev = true → ¬ runs → becomes (exec (.spectrumMonitor a power tracked) s) s
          fun d => setAnt d a.val { getAnt d a.val with bins := [] })
      ∧ (runs → power.length = 1024 → becomes (exec (.spectrumMonitor a power tracked) s) s fun d =>
        let hot := hotBins (fld d .gnssAnt a.val GAnt.notchThreshDb) power
        let d := (List.range 4).foldl (trackNotch a.val hot tracked) d
        let bins := hot.foldl (fun t k => Tab.set 0 t k (min 3 (Tab.get 0 (getAnt d a.val).bins k + 1))) ([] : Tab Nat)
        let d := setAnt d a.val { getAnt d a.val with bins := bins }
        let d := if (List.range 4).all (notchOn d a.val) then d else endEpisode d (srcId 0x53 a.val)
        (hot.filter fun k => Tab.get 0 bins k = 3).foldl (interferer a.val) d)))
  ∧ (∀ (s : State), s.dev.pwr.aonUp = true →
    (∀ (x : EpochData),
      let takes : Prop := gnssRuns s.dev = true ∧ folTracks s.dev 17 = true ∧ s.dev.gnss.epochBt ≠ some s.dev.bt
      (¬ takes ∨ epochInstant s.dev = none → rests (exec (.gnssEpoch x) s) s)
      ∧ (∀ e, takes → epochInstant s.dev = some e → becomes (exec (.gnssEpoch x) s) s fun d =>
        let n := (d.gnss.blocks + 1) % 2 ^ 32
        let l := d.gnss.ring ++ [(n, measBlock d n e x)]
        let d := { d with gnss := { d.gnss with
          ring := l.drop (l.length - 16), blocks := n, epochBt := some d.bt } }
        epochWork ((List.range (chanCount d)).foldl (latchChan x) d) e x))
    ∧ (let ended : Prop := gnssRuns s.dev = true ∧ fwRuns s.dev = true ∧ fld s.dev .gnssBase 0 GBl.blState = 1
        ∧ fld s.dev .gnssBase 0 GBl.blSurveyS * 10 ^ 9 ≤ (s.dev.bt - s.dev.gnss.blFrom) * btNs s.dev
      (∀ b, fitGood b = true → onlyIf ended (exec (.baselineSurveyEnd (some b)) s) s fun d => holdBaseline d b.base)
      ∧ (∀ o : Option BaselineFit, o.filter fitGood = none →
        (s.dev.gnss.blSecond = false → onlyIf ended (exec (.baselineSurveyEnd o) s) s
          fun d => { d with gnss := { d.gnss with blFrom := d.bt, blSecond := true } })
        ∧ (s.dev.gnss.blSecond = true → onlyIf ended (exec (.baselineSurveyEnd o) s) s
          fun d => raise { d with gnss := { d.gnss with blFrom := d.bt, blSecond := false } } (srcId 0x55 0)))))

/-- R296, R297, R300, R301, R304, R305, R308, R309, R310, R311, R312: an edge of an input whose capture does not run,
or that EDGE does not choose, changes its level alone; one shorter than MIN_PULSE_NS is a glitch, one within
HOLDOFF_NS of the last is rejected, any other is captured and accepted. An interval whose start has waited 2^32 coarse
ticks overflows; a gate in FREQUENCY mode ends at its boundary, where the next begins; a delay line locks, calibrates
with 2^20 hits and unlocks. At any other time nothing happens. A pulse or cycle of an output begins only where the
output may begin one, at an instant due in the base tick or at the load that carried follower 16 past it, and not
within the one before; it ends when its end has come; each edge leaves the pin OUT_TRIM_PS before its instant; changed
settings at least 1 ms old apply at a whole second. At any other time nothing happens. -/
def Obligations.TiuEvents : Prop :=
  (∀ (s : State), s.dev.pwr.aonUp = true →
    (∀ e : TiuEdge,
      let i := e.input.val
      let changed (d : Dev) : Dev := setIn d i { getIn d i with level := e.level }
      let runs : Prop := tiuRuns s.dev = true ∧ capturing s.dev i = true ∧ edgeChosen s.dev i e.level = true
      (¬ runs → becomes (exec (.tiuInputEdge e) s) s changed)
      ∧ (runs → e.heldNs < fld s.dev .tiuIn i TIn.minPulseNs →
        becomes (exec (.tiuInputEdge e) s) s (fun d => bumpFld (changed d) .tiuInStatus i TInSt.glitches))
      ∧ (runs → fld s.dev .tiuIn i TIn.minPulseNs ≤ e.heldNs → ∀ fine d₂, fineOf (changed (fresh s.dev)) e = (fine, d₂) →
        let c := capture d₂ e fine
        let early : Prop := ∃ l, (getIn s.dev i).lastStamp = some l
          ∧ c.stamp - l < (fld s.dev .tiuIn i TIn.holdoffNs : Int) * 2 ^ 32
        (early → becomes (exec (.tiuInputEdge e) s) s (fun _ => bumpFld d₂ .tiuInStatus i TInSt.holdoffRejects))
        ∧ (¬ early → becomes (exec (.tiuInputEdge e) s) s (fun _ => acceptEdge d₂ i (!e.level) c))))
    ∧ (∀ i : Fin 8,
      ((getIn s.dev i.val).waiting = none → rests (exec (.intervalOverflow i) s) s)
      ∧ (∀ a, (getIn s.dev i.val).waiting = some a →
        onlyIf (tiuRuns s.dev = true ∧ a.tick + 2 ^ 32 ≤ coarseAhead s.dev) (exec (.intervalOverflow i) s) s fun d =>
          let d := bumpFld (setIn d i.val { getIn d i.val with waiting := none }) .tiuInStatus i.val TInSt.overflows
          produce d (overflowRecord d i.val a))
      ∧ (let counts : Prop := tiuRuns s.dev = true ∧ inMode s.dev i.val = 3
        (¬ counts ∨ dueIn s.dev 0 (gateLength s.dev i.val * 2 ^ 8) = none → rests (exec (.frequencyGateEnd i) s) s)
        ∧ (∀ t, counts → dueIn s.dev 0 (gateLength s.dev i.val * 2 ^ 8) = some t →
          let b : Int := (t / 2 ^ 8).floor
          let next (d : Dev) : Dev :=
            let late := tiuStep d && decide (b * 2 ^ 8 ≤ max (loadSpan d).1 (loadSpan d).2)
            setIn d i.val { getIn d i.val with
              gate := some { start := b, first := none, last := b, count := 0, uncal := false
                             untracked := !folTracks d 16 || late, gap := false } }
          ((getIn s.dev i.val).gate = none → becomes (exec (.frequencyGateEnd i) s) s next)
          ∧ (∀ g, (getIn s.dev i.val).gate = some g →
            onlyIf (g.start < b) (exec (.frequencyGateEnd i) s) s fun d => next (closeGate d i.val g b))))
      ∧ (∀ hits : List Nat,
        onlyIf (tiuRuns s.dev = true ∧ flag s.dev .tiuInStatus i.val TInSt.dllLock = true ∧ hits.length = 400
            ∧ hits.sum = 2 ^ 20)
          (exec (.tiuCalPassComplete ⟨i, hits⟩) s) s fun d =>
            setFld (setIn d i.val { getIn d i.val with calBt := some d.bt, hits := hits }) .tiuInStatus i.val TInSt.calState 2)
      ∧ onlyIf (tiuRuns s.dev = true ∧ flag s.dev .tiuInStatus i.val TInSt.dllLock = false) (exec (.tiuDllLock i) s) s
          (fun d => setFld (setFld d .tiuInStatus i.val TInSt.dllLock 1) .tiuInStatus i.val TInSt.calState 1)
      ∧ onlyIf (flag s.dev .tiuInStatus i.val TInSt.dllLock = true) (exec (.tiuDllUnlock i) s) s
          (fun d => raise (setFld (setFld d .tiuInStatus i.val TInSt.dllLock 0) .tiuInStatus i.val TInSt.calState 0)
            (srcId 0x58 i.val))))
  ∧ (∀ (s : State), s.dev.pwr.aonUp = true →
    let leaves (d : Dev) (o : Nat) (x : TiuOutput) (t : Rat) : Dev :=
      emit (setOut d o x) (.output o (outLevel (setOut d o x) o) (roundFree (t * 1000 / 2 ^ 40) - outTrim (setOut d o x) o))
    let ends (i : Instr) (o : Nat) : Prop := onlyIf (endDue s.dev o = true) (exec i s) s
      fun d => leaves d o { getOut d o with active := false } (getOut d o).endAt
    let begins (i : Instr) (o : Nat) (off period length cycle : Rat) (byLoad : Bool) (steps : Fld) : Prop :=
      (mayBegin s.dev o = false ∨ dueOrLoad s.dev o off period byLoad = none → rests (exec i s) s)
      ∧ ∀ t, mayBegin s.dev o = true → dueOrLoad s.dev o off period byLoad = some t →
        let x := getOut s.dev o
        onlyIf (¬ ((x.active = true ∧ t < x.endAt) ∨ t < x.cycleEnd)) (exec i s) s fun d =>
          let d := if x.active then leaves d o { x with active := false } x.endAt else d
          let d := leaves d o { x with active := true, endAt := t + length, cycleEnd := t + cycle, last := some t } t
          if byLoad then setOutRec d o (bumpF (outRec d o) steps) else d
    (∀ (o : Fin 4) (b : Bool),
      let r := getRec s.dev .ppsOut o.val
      let pulse : Rat := getF r Pps.pulseUs * 1000 * 2 ^ 40
      ends (.ppsOutputEdge o false b) o.val
      ∧ begins (.ppsOutputEdge o true b) o.val
        ((((getS r Pps.offsetNs : Int) : Rat) + (getF r Pps.offsetFinePs : Rat) / 1000) * 2 ^ 40)
        (getF r Pps.periodMs * 10 ^ 6 * 2 ^ 40) pulse pulse b Pps.stepEvents)
    ∧ (∀ (o : Fin 2) (b : Bool),
      let r := getRec s.dev .fout o.val
      let period : Rat := (getF r Fout.freqDen : Rat) * 10 ^ 9 * 2 ^ 40 / getF r Fout.freqNum
      ends (.foutEdge o false b) (4 + o.val)
      ∧ begins (.foutEdge o true b) (4 + o.val) 0 period (period / 2) period b Fout.stepEvents)
    ∧ (∀ (o : Fin 6),
      let x := getOut s.dev o.val
      let old (w : Nat × Nat) : Bool := decide (1000000 ≤ (s.dev.bt - w.1) * btNs s.dev)
      onlyIf (fastRuns s.dev = true ∧ (dueIn s.dev 0 (10 ^ 9 * 2 ^ 40)).isSome = true) (exec (.outputSettingsApply o) s) s fun d =>
        setOut (setOutRec d o.val
          ((x.pending.filter old).foldl (fun r w => copyFields (slowFields o.val) r w.2) (outRec d o.val))) o.val
          { x with pending := x.pending.filter fun w => !old w }))

/-- R384, R385, R394, R395, R396, R446, R447, R451, R453: a failed health test of the random source withholds it until
it recovers; a bench finishes once the time of its operation is over, counts it, loads the booted image's microcode
and takes the next request; the strobe of a GAUGE captures every counter, the copy ends it and leaves the latest two
snapshots; a full segment of the scribe ends, and REARM ends after two base ticks. At any other time nothing happens.
-/
def Obligations.KeyAndObserveEvents : Prop :=
  ∀ (s : State), s.dev.pwr.aonUp = true →
    onlyIf (fastRuns s.dev = true) (exec .rngHealthFail s) s
      (fun d => raise { d with key := { d.key with rngWithheld := true } } (srcId 0x0A 0))
    ∧ onlyIf (fastRuns s.dev = true) (exec .rngRecovery s) s (fun d => { d with key := { d.key with rngWithheld := false } })
    ∧ (∀ (b : Fin 4) (r : BenchResult),
      let i := exec (.benchOperationComplete b r) s
      (runningOn s.dev b.val = none → rests i s)
      ∧ (∀ q n, runningOn s.dev b.val = some (q, n) →
        let ended : Prop := fastRuns s.dev = true ∧ benchUs q * 1000 ≤ (s.dev.bt - n) * btNs s.dev
        let ok := decide (r = .done)
        onlyIf ended i s fun d =>
          let d := setFld (bumpFld (setRunning d b.val none) .bench b.val Bench.ops) .bench b.val Bench.ucodeVersion
            d.pwr.running.ucodeVersion
          let d := if r = .unverified then raise d (srcId 0x0D b.val) else d
          let d := match q.op with
            | .sign k scheme ik input => signDone d q k scheme ik input ok
            | .generate k kind der label => generateDone d q k kind der label ok
          if fwRuns d then startBenches d else d))
    ∧ (s.dev.obs.gauge = none → rests (exec .gaugeStrobe s) s ∧ rests (exec .gaugeCopyComplete s) s)
    ∧ (∀ g, s.dev.obs.gauge = some g →
      let takes : Prop := g.captured = none ∧ g.strobeBt ≤ s.dev.bt ∧ fastRuns s.dev = true
      (¬ takes → rests (exec .gaugeStrobe s) s)
      ∧ (takes → acts (exec .gaugeStrobe s) s fun d => ∃ snap, d.obs.gauge = some { g with captured := some snap }
        ∧ snap.strobeBt = g.strobeBt ∧ snap.id = s.dev.obs.snapCount + 1 ∧ snap.values = d.obs.ctr)
      ∧ (g.captured = none → rests (exec .gaugeCopyComplete s) s)
      ∧ (∀ snap, g.captured = some snap → becomes (exec .gaugeCopyComplete s) s fun d =>
        let kept := d.obs.snaps ++ [snap]
        complete { d with obs := { d.obs with gauge := none, snapCount := d.obs.snapCount + 1
                                              snaps := kept.drop (kept.length - 2) } }
          g.fn g.door .ok (leBytes 4 snap.id ++ leBytes 4 0 ++ leBytes 8 snap.strobeBt) []))
    ∧ onlyIf (scribeState s.dev = 2 ∧ segRecords s.dev - fld s.dev .scribe 0 Scr.preTrigger ≤ s.dev.obs.post)
      (exec .scribeSegmentComplete s) s (fun d => endSegment d 2)
    ∧ (let ended : Prop := scribeState s.dev = 3 ∧ s.dev.obs.rearmBt + 2 ≤ s.dev.bt
      let next := curSegment s.dev + 1
      onlyIf ended (exec .scribeRearmEnd s) s fun d =>
        if flag s.dev .scribe 0 Scr.autoRearm = true ∧ next < fld s.dev .scribe 0 Scr.segments then armSegment d next
        else if flag s.dev .scribe 0 Scr.autoRearm = true ∧ flag s.dev .scribe 0 Scr.wrap = true then armSegment d 0
        else setScribe d 4)

/-- R406, R407, R410, R411, R416, R418: a raise of a source that does not exist, or whose domain is stopped, does
nothing; one of the monitors starts an episode unless it is in one; any other reaches the collector with what it does
to its unit; a raise that waits in the queue is taken from it. Echoes are judged once their 10 base ticks are over; a
grace timer that runs out escalates, with a device reset outside the FATAL safe state; the scrubber raises what it
finds, and every group uses up what is injected there. -/
def Obligations.FaultEvents : Prop :=
  ∀ (s : State), s.dev.pwr.aonUp = true →
    (∀ r : RaiseIn,
      let id := r.source.toNat
      let i := exec (.faultRaise r) s
      let queued := s.dev.flt.queue.find? fun q => decide (q.source = id) && decide (q.detail = r.detail.toNat)
      (srcExists s.dev id = false ∨ (queued = none ∧ srcRuns s.dev id = false) → rests i s)
      ∧ (srcExists s.dev id = true →
        (∀ q, queued = some q →
          becomes i s fun d => handleRaise { d with flt := { d.flt with queue := d.flt.queue.erase q } } q)
        ∧ (queued = none → srcRuns s.dev id = true →
          (0x10 ≤ srcCode id ∧ srcCode id ≤ 0x14 → onlyIf (id ∉ s.dev.flt.episodes) i s fun d =>
            handleRaise { d with flt := { d.flt with episodes := d.flt.episodes ++ [id] } } ⟨id, 0, false⟩)
          ∧ (srcCode id < 0x10 ∨ 0x14 < srcCode id →
            (0 < injectRemain s.dev id ∧ modeFits s.dev id = true → becomes i s fun d =>
              handleRaise (unitEffect (setFld d .faultSrc (checkerOf id) FSrc.injectRemain (injectRemain s.dev id - 1)) r true)
                ⟨id, r.detail.toNat, true⟩)
            ∧ (¬ (0 < injectRemain s.dev id ∧ modeFits s.dev id = true) → becomes i s fun d =>
              handleRaise (unitEffect d r false) ⟨id, r.detail.toNat, false⟩)))))
    ∧ becomes (exec .echoJudgement s) s (fun d =>
        let due := d.flt.echoes.filter fun e => decide (e.2.2 + 10 ≤ d.bt)
        due.foldl (fun d e => judgeEcho d e.1 e.2.1)
          { d with flt := { d.flt with echoes := d.flt.echoes.filter fun e => !decide (e.2.2 + 10 ≤ d.bt) } })
    ∧ (∀ e, s.dev.flt.echoes = [e] →
      (s.dev.bt < e.2.2 + 10 → rests (exec .echoJudgement s) s)
      ∧ (e.2.2 + 10 ≤ s.dev.bt → becomes (exec .echoJudgement s) s
        fun d => judgeEcho { d with flt := { d.flt with echoes := [] } } e.1 e.2.1))
    ∧ (s.dev.flt.graceEnd = none → rests (exec .graceExpiry s) s)
    ∧ (∀ n, s.dev.flt.graceEnd = some n →
      (s.dev.bt < n → rests (exec .graceExpiry s) s)
      ∧ (n ≤ s.dev.bt → acts (exec .graceExpiry s) s fun d =>
        d.flt.graceEnd = none ∧ fld d .faultRec recGrace FRec.escalated = 1
        ∧ fld d .faultStatus 0 FSt.escalationBt = s.dev.bt % 2 ^ 64
        ∧ d.pwr.resetDue = if safe s.dev then s.dev.pwr.resetDue else some (s.dev.bt, 4)))
    ∧ (∀ es : List ScrubError, onlyIf (fastRuns s.dev = true) (exec (.scrubPass es) s) s fun d =>
        (List.range 292).foldl scrubInjected (es.foldl (fun d e =>
          let g := e.group.val
          if srcExists d (srcId 0x01 g) = false then d
          else if e.double then raise (scrubLost d g) (srcId 0x02 g) e.word.toNat
          else raise d (srcId 0x01 g) e.word.toNat) d))

/-- R216, R217, R218, R219: the changes of a tenant's key ring due at an edge are made there, in the order requested,
and leave the list of those that wait; a key whose slot has become usable is written there with the S2V value of its
KEY_ID, and a rotation's promotion follows; before that, and with nothing pending, the slot stays as it is. -/
def Obligations.KeyRingEvents : Prop :=
  ∀ (s : State), s.dev.pwr.aonUp = true →
    (∀ t : Fin 4096,
      let due (e : Nat × RoleEdge) : Bool := decide (e.1 ≤ s.dev.bt) && decide (e.2.tenant = t.val)
      becomes (exec (.ntsKeyRoleEdge t) s) s (fun d =>
        (s.dev.nts.edges.filter due).foldl (fun d e => applyRole d e.2)
          { d with nts := { d.nts with edges := s.dev.nts.edges.filter fun e => !due e } })
      ∧ acts (exec (.ntsKeyRoleEdge t) s) s fun d => d.nts.edges = s.dev.nts.edges.filter fun e => !due e)
    ∧ (∀ (t : Fin 4096) (k : Fin 3),
      let i := ringSlot t.val k.val
      let x := exec (.ntsKeyUsable t k) s
      (Tab.get none s.dev.nts.pendingKeys i = none → rests x s)
      ∧ (∀ p, Tab.get none s.dev.nts.pendingKeys i = some p →
        let id := fld s.dev .keyRing i KeyR.keyId
        onlyIf (fld s.dev .keyRing i KeyR.role = 1 ∧ fld s.dev .keyRing i KeyR.usableBt ≤ s.dev.bt) x s fun d =>
          let d := setFld (setMaster (setPendingKey d i none) i p.key (cookieS2v (beBytes 32 p.key) id)) .keyRing i KeyR.role 2
          if p.promote then (applyPromote d t.val (fld d .keyRing i KeyR.keyId)).getD d else d))

/-- R87, R91, R92, R107, R108, R117, R480: lock loss takes the locks of its lanes, ends the frame in progress on
receive, sends Remote Fault and starts the loss; only a loss or Remote Fault that has lasted LINK_DOWN_DELAY_US takes
the link down and flushes its queues; one that ends in time leaves it up; a link comes up, or goes to REMOTE_FAULT,
with its locks; a change of skew of an aligned port is applied and counted. A pause that ends before the next edge is
taken off; one that the watchdog breaks once it has lasted PAUSE_WD_MS is taken off too, counted and raised, and
starts the holdoff of its class where PAUSE_HOLDOFF_MS is not 0; the end of a holdoff clears that class alone. -/
def Obligations.LinkAndPauseEvents : Prop :=
  (∀ (s : State) (p : Fin 16), pathOpen s →
    let k := p.val
    let x := getPort s.dev k
    (∀ lanes cdr : BitVec 8, ∀ b : Bool,
      let mine := lanes.toNat &&& laneBits s.dev k
      let l := fld s.dev .portStatus k PrtSt.laneLock
      (portStarts s.dev k = false ∨ mine = 0 → rests (exec (.lockLoss p lanes cdr b) s) s)
      ∧ (portStarts s.dev k = true → mine ≠ 0 → acts (exec (.lockLoss p lanes cdr b) s) s fun d =>
        fld d .portStatus k PrtSt.laneLock = l - (l &&& mine) ∧ fld d .portStatus k PrtSt.alignLock = 0
          ∧ fld d .portStatus k PrtSt.fecLock = 0 ∧ (getPort d k).lossFrom = some (x.lossFrom.getD s.dev.bt)
          ∧ (getPort d k).rxCur = none ∧ (getPort d k).sendsFault = true
          ∧ linkState d k = if linkState s.dev k = 4 then 1 else linkState s.dev k))
    ∧ (faultSpan s.dev k = none →
      rests (exec (.linkDownDelayExpiry p) s) s ∧ ∀ sk, rests (exec (.shortLockLossEnd ⟨p, sk⟩) s) s)
    ∧ (∀ n, faultSpan s.dev k = some n →
      onlyIf (linkUp s.dev k = true ∧ fld s.dev .port k Prt.linkDownDelayUs * 1000 ≤ (n + 1) * btNs s.dev)
        (exec (.linkDownDelayExpiry p) s) s (fun d =>
          let d := raise (bumpPort (setFld d .portStatus k PrtSt.linkDownBt s.dev.bt) k 44) (srcId 0x31 k)
          flushQueues (setLink d k (if x.lossFrom.isSome then 1 else 4)) k .linkDown)
      ∧ ∀ sk, onlyIf (linkUp s.dev k = true ∧ serdesUp s.dev k = true
            ∧ n * btNs s.dev ≤ fld s.dev .port k Prt.linkDownDelayUs * 1000 + btNs s.dev)
          (exec (.shortLockLossEnd ⟨p, sk⟩) s) s (fun d => fullLock (bumpPort d k 19) k sk))
    ∧ (∀ sk, onlyIf (portStarts s.dev k = true ∧ serdesUp s.dev k = true ∧ linkUp s.dev k = false) (exec (.linkUp ⟨p, sk⟩) s) s
        fun d => setLink (setFld (fullLock d k sk) .portStatus k PrtSt.linkUpBt s.dev.bt) k 3)
    ∧ (∀ sk, acts (exec (.linkUp ⟨p, sk⟩) s) s fun d =>
        portStarts s.dev k = true → serdesUp s.dev k = true → linkUp s.dev k = false →
        linkState d k = 3 ∧ (getPort d k).skew = sk ∧ (getPort d k).lossFrom = none ∧ (getPort d k).remoteFrom = none
          ∧ (getPort d k).sendsFault = false ∧ fld d .portStatus k PrtSt.alignLock = 1)
    ∧ (let seen : Prop := portStarts s.dev k = true ∧ serdesUp s.dev k = true
      (linkUp s.dev k = false → onlyIf seen (exec (.remoteFaultReceived p) s) s fun d => setLink (setLocks d k) k 4)
      ∧ (linkUp s.dev k = true → onlyIf seen (exec (.remoteFaultReceived p) s) s fun d =>
        let d := setLocks (if x.lossFrom.isSome then bumpPort d k 19 else d) k
        setPort d k { getPort d k with remoteFrom := some (x.remoteFrom.getD s.dev.bt) }))
    ∧ (∀ sk : List Int,
      onlyIf (fld s.dev .portStatus k PrtSt.alignLock ≠ 0 ∧ x.lossFrom = none ∧ x.skew ≠ sk) (exec (.skewChange ⟨p, sk⟩) s) s
        fun d => bumpLaunch (setPort d k { x with skew := sk }) k 13))
  ∧ (∀ (s : State) (p : Fin 16) (c : Fin 8), pathOpen s →
    let k := p.val
    (pauseOf s.dev k c.val = none → rests (exec (.pauseExpiry p c) s) s ∧ rests (exec (.pauseWatchdog p c) s) s)
    ∧ (∀ x, pauseOf s.dev k c.val = some x →
      onlyIf (x.endPs ≤ (s.dev.bt + 1) * btNs s.dev * 1000) (exec (.pauseExpiry p c) s) s (fun d => setPause d k c.val none)
      ∧ onlyIf (fld s.dev .port k Prt.pauseWdMs * 1000000 ≤ (s.dev.bt - x.since + 1) * btNs s.dev)
        (exec (.pauseWatchdog p c) s) s fun d =>
          let d := setPause d k c.val none
          let ms := fld d .port k Prt.pauseHoldoffMs
          let d := if ms = 0 then d
            else
              let d := setFld d .portStatus k PrtSt.wdHoldoff (fld d .portStatus k PrtSt.wdHoldoff ||| 2 ^ c.val)
              setPort d k { getPort d k with
                holdoffEnd := Tab.set 0 (getPort d k).holdoffEnd c.val (d.bt + (ms * 1000000 + btNs d - 1) / btNs d) }
          tenantEvent (raise (traceMac (bumpPort d k 43) 4 k 0 c.val 0 0) (srcId 0x32 k))
            (portTenants (traceMac (bumpPort d k 43) 4 k 0 c.val 0 0) k) evPort)
    ∧ (let h := fld s.dev .portStatus k PrtSt.wdHoldoff
      let ended : Prop := Tab.get 0 (getPort s.dev k).holdoffEnd c.val ≤ s.dev.bt + 1
      (¬ ended → rests (exec (.pauseHoldoffEnd p c) s) s)
      ∧ (ended → acts (exec (.pauseHoldoffEnd p c) s) s fun d =>
        fld d .portStatus k PrtSt.wdHoldoff = h - (h &&& 2 ^ c.val)
          ∧ fld d .portStatus k PrtSt.paused = fld s.dev .portStatus k PrtSt.paused
          ∧ Tab.get 0 (getPort d k).holdoffEnd c.val = 0)))

/-- R104, R111, R119, R120, R126, R129, R130, R132, R136, R239, R332: a frame starts only on a port that is up and
free: Q7 heads past their deadline go first, then the queue that may start one; the frame that starts is the one being
sent, and its last byte delivers it. A launch past its deadline is discarded or, under SEND, given up; a descriptor is
fetched into its queue with room for it; a beacon is queued when its period is over. At any other time nothing
happens. -/
def Obligations.TransmitEvents : Prop :=
  ∀ (s : State) (p : Fin 16), pathOpen s →
    let k := p.val
    let x := getPort s.dev k
    (∀ t : TxStart, t.port = p →
      let open_ : Prop := linkUp s.dev k = true ∧ serdesUp s.dev k = true ∧ x.lossFrom = none ∧ x.remoteFrom = none
        ∧ x.cur = none ∧ scanHeld s.dev = false
      let tracks := latchTracks s.dev k t.ins
      let start := txStamp s.dev k t.ins t.lane.val
      let boundary : Rat := (start : Rat) - preamble s.dev k
      let kept := if tracks then dropLate (portQueue s.dev k 7).length (fresh s.dev) k start else fresh s.dev
      (¬ open_ → rests (exec (.txFrameStart t) s) s)
      ∧ (open_ → ∀ q held d₂, pickQueue kept k start tracks = (q, held, d₂) →
        (q = none → held = false → becomes (exec (.txFrameStart t) s) s (fun _ => endKerfIdle d₂ k boundary))
        ∧ (q = none → held = true → becomes (exec (.txFrameStart t) s) s (fun _ =>
          if (getPort d₂ k).kerfIdle.isNone then setPort d₂ k { getPort d₂ k with kerfIdle := some boundary } else d₂))
        ∧ (∀ n f fs, q = some n → portQueue (endKerfIdle d₂ k boundary) k n = f :: fs →
          becomes (exec (.txFrameStart t) s) s (fun _ => startFrame (endKerfIdle d₂ k boundary) t n f fs))))
    ∧ (∀ (d : Dev) (t : TxStart) (q : Nat) (f : TxFrame) (fs : List TxFrame), t.port = p →
      f.insert = .none ∨ latchTracks d k t.ins = true →
      (getPort (startFrame d t q f fs) k).cur.map (fun c => (c.frame, c.queue)) = some (f, q))
    ∧ (x.cur = none → rests (exec (.txFrameEnd p) s) s)
    ∧ (∀ c, x.cur = some c → becomes (exec (.txFrameEnd p) s) s fun d =>
        let d := bumpPort (bumpPort (setPort d k { x with cur := none }) k (23 + c.queue)) k 31 (TxFrame.len c.frame)
        let d := stampReturns (emit d (.frame k (finalBytes s.dev k c.frame (c.stamp.getD 0)) c.aborted)) c
        match c.frame.who with
        | .host fn ring slot cookie ts =>
          txReady d fn ring slot (txWb (if c.aborted then 4 else 0) cookie (if ts then c.stamp else none) (ts && c.step))
        | .beacon => bumpPort d k 45
        | _ => d)
    ∧ (∀ (n : Nat) (a : LaunchEdge),
      (takeQ7 (fresh s.dev) k n = none →
        rests (exec (.launchDeadline p n a) s) s ∧ rests (exec (.launchSendMaxExpiry p ⟨n, a⟩) s) s)
      ∧ (∀ f l d₂, takeQ7 (fresh s.dev) k n = some (f, l, d₂) →
        let g := (launchEdge s.dev k (txStamp s.dev k a.edge a.lane.val) l.l).2
        onlyIf (l.policy = 0 ∧ reached s.dev (l.deadline g).floor.toNat = true) (exec (.launchDeadline p n a) s) s
          (fun _ => judgeLaunch d₂ k f 3 (l.deadline g - l.l) g)
        ∧ onlyIf (l.policy = 1 ∧ reached s.dev l.expiry = true) (exec (.launchSendMaxExpiry p ⟨n, a⟩) s) s
          (fun _ => judgeLaunch d₂ k f 5 ((l.expiry : Rat) - l.l) g)))
    ∧ (∀ (f : Fn) (r : Fin 64) bytes, let ring := getRing s.dev f true r.val
      let port := ringFld s.dev f true r.val Rng.port
      (ring.posted = [] → rests (exec (.hostTxDescriptorFetch f r bytes) s) s)
      ∧ (∀ desc rest, ring.posted = desc :: rest →
        let v := desc.toNat
        let q := getF v TxDesc.queue
        let fetches : Prop := ringEnabled s.dev f true r.val = true ∧ live s.dev f = true ∧ fnExists s.dev f = true
          ∧ occupancy s.dev port q + maxFrame s.dev port
            ≤ getF (fld s.dev .port port Prt.qLimitKib) ⟨16 * q + 15, 16 * q⟩ * kib
        let slot := (ringFld s.dev f true r.val Rng.consumer + ring.inFlight.length) % 65536
        let taken (d : Dev) : Dev := setRing d f true r.val
          { ring with posted := rest, inFlight := ring.inFlight ++ [(slot, none)] }
        (¬ fetches → rests (exec (.hostTxDescriptorFetch f r bytes) s) s)
        ∧ (fetches → descOk (taken (fresh s.dev)) f port v = false → becomes (exec (.hostTxDescriptorFetch f r bytes) s) s
          (fun d => txReady (taken d) f r.val slot (txWb 3 (getF v TxDesc.cookie) none false)))
        ∧ (fetches → descOk (taken (fresh s.dev)) f port v = true → ∃ frame : TxFrame,
          frame.bytes = slice bytes 0 (getF v TxDesc.bufLen)
            ∧ frame.who = .host f r.val slot (getF v TxDesc.cookie) (decide (getF v TxDesc.tsReq = 1))
            ∧ frame.insertOff = getF v TxDesc.insertOffset ∧ frame.launch = none
            ∧ becomes (exec (.hostTxDescriptorFetch f r bytes) s) s (fun d => enqueue (taken d) port q frame))))
    ∧ onlyIf (beaconRuns s.dev k = true
        ∧ fld s.dev .beacon k Bcn.beaconPeriodMs * 1000000 ≤ (s.dev.bt + 1 - x.beaconBt) * btNs s.dev)
      (exec (.beaconPeriod p) s) s fun d =>
        let d := setPort d k { x with beaconBt := s.dev.bt }
        let d := setFld d .beacon k Bcn.sequence (fld d .beacon k Bcn.sequence + 1)
        enqueue d k 4 (beaconFrame d k)

/-- R87, R91, R94, R96, R97, R98, R99, R100, R101, R106, R109: while a port's link is up and its lanes are locked, the
start of a frame holds space for it, unless its destination does not pass or it is a MAC control frame; its end takes
it through the cases in order: a fragment, a runt, a frame for another address, a MAC control frame, one refused for
space, one with a bad FEC or FCS, one whose checksums fail, one that LISTEN's patterns drop; any other is stored.
Otherwise the port receives nothing. -/
def Obligations.FrameReceipt : Prop :=
  ∀ (s : State), pathOpen s →
    (∀ (p : Fin 16) (head : List Byte),
      let k := p.val
      let x := getPort s.dev k
      let e := setPort (fresh s.dev) k { x with rxCur := none }
      let q := parseL2 (fld s.dev .port k Prt.outerTpid) head
      let c : RxCurrent := if q.etherType = 0x8808 ∨ ¬ daPasses e k q.dst = true then ⟨none, false⟩
        else match rxAdmit e k with | some a => ⟨some a, false⟩ | none => ⟨none, true⟩
      onlyIf (receives s.dev k = true) (exec (.frameReceive (.begins p head)) s) s fun _ =>
        setPort e k { x with rxCur := some c })
    ∧ (∀ f : RxFrame,
      let k := f.port.val
      let i := exec (.frameReceive (.ends f)) s
      let cur := (getPort s.dev k).rxCur
      let e := setPort (fresh s.dev) k { getPort s.dev k with rxCur := none }
      let fec := usesFec s.dev k
      let d₁ := if fec then bumpPort (bumpPort (bumpPort e k 20 f.cwCorrected) k 21 f.cwBad) k 22 f.symErr else e
      let q := parseFrame (fld d₁ .port k Prt.outerTpid) f.bytes
      let area := match cur with
        | some c => if c.refused then none else match c.area with | some a => some a | none => rxAdmit d₁ k
        | none => rxAdmit d₁ k
      let ends (d : Dev) : Prop := becomes i s fun _ => d
      (receives s.dev k = false → rests i s)
      ∧ (receives s.dev k = true →
        (f.fragment = true → ends (bumpPort d₁ k 7))
        ∧ (f.fragment = false → f.bytes.length + 4 < 64 → ends (bumpPort d₁ k 6))
        ∧ (f.fragment = false → 64 ≤ f.bytes.length + 4 →
          (q.etherType = 0x8808 → ends (macControl d₁ { f with fecBad := fec && f.fecBad } q))
          ∧ (q.etherType ≠ 0x8808 → daPasses d₁ k q.dst = false → ends (bumpPort d₁ k 11))
          ∧ (q.etherType ≠ 0x8808 → daPasses d₁ k q.dst = true →
            (area = none → ends (bumpPort (bumpPort d₁ k 9) k 10 (f.bytes.length + 4)))
            ∧ (∀ a, area = some a →
              ((fec && f.fecBad) = true → ends (bumpPort d₁ k 5))
              ∧ ((fec && f.fecBad) = false → f.fcsOk = false → ends (bumpPort d₁ k 4))
              ∧ ((fec && f.fecBad) = false → f.fcsOk = true →
                ∀ dropped d₂, wakeTest d₁ k (f.bytes.take (maxFrame d₁ k - 4)) = (dropped, d₂) →
                let drops : Prop := fld d₂ .port k Prt.badCsumAction ≠ 1
                (q.l3Status = 1 → drops → ends (bumpPort d₂ k 12))
                ∧ (q.l3Status ≠ 1 → q.l4Status = 1 → drops → ends (bumpPort d₂ k 13))
                ∧ ((q.l3Status ≠ 1 ∧ q.l4Status ≠ 1) ∨ ¬ drops →
                  (dropped = true → ends (bumpPort d₂ k 18))
                  ∧ (dropped = false → ends (storeFrame d₂ f q a)))))))))

/-- R139, R141, R147, R151, R152, R171, R185, R188, R191, R193: an engine with no free thread grants nothing; with one
it takes the descriptor chosen for it, gives it a context on a thread of its own and starts handling it. A context
goes on when what it waits for has come, and only in the phase that waits for it; one held for its timeout is
abandoned; a lane's job completes no sooner than its cycles allow. A broadcast is due 20 µs before its launch instant,
of an enabled tenant, and sent unless its served state or its source forbids. -/
def Obligations.ServiceEvents : Prop :=
  (∀ (d : Dev) (c e code : Nat) (x : Desc) (p : List Nat),
    let a := allocate d c e code x p
    a.1 / 8 = e ∧ ctxAt a.2.2 e (a.1 % 8) = some a.2.1 ∧ a.2.1.desc = x ∧ a.2.1.allocBt = d.bt)
  ∧ ∀ (s : State), pathOpen s →
    (∀ (e : Fin 128),
      let i := exec (.descriptorGrant e) s
      (freeThreads s.dev e.val = [] → rests i s)
      ∧ (freeThreads s.dev e.val ≠ [] → ∀ g d₂, grantAt (retentionExit (fresh s.dev)) e.val = (g, d₂) →
        (g = none → becomes i s fun _ => d₂)
        ∧ (∀ c x p, g = some (c, x, p) → becomes i s fun _ =>
          let code := if takesNts d₂ (draft d₂ c x) then 1 else serviceCode x.service
          let (k, ctx, d) := allocate d₂ c e.val code x p
          let (n, d) := drawUpTo d 4
          let (m, d) := drawUpTo d 4
          startHandling (countNode (countNode d e.val 28 n) e.val 29 m) k ctx)))
    ∧ (∀ (e : Fin 128) (t : Fin 8),
      let k := 8 * e.val + t.val
      (ctxAt s.dev e.val t.val = none →
        rests (exec (.clientTableUpdate e t) s) s ∧ rests (exec (.tableReadComplete e t) s) s
        ∧ rests (exec (.txCreditAvailable e t) s) s ∧ rests (exec (.contextTimeout e t) s) s)
      ∧ (∀ x, ctxAt s.dev e.val t.val = some x →
        (x.nts = none → onlyIf (x.phase = .client) (exec (.clientTableUpdate e t) s) s fun d => ntpClient d k x)
        ∧ (x.nts.isSome = true → onlyIf (x.phase = .client) (exec (.clientTableUpdate e t) s) s fun d => ntsClient d k x)
        ∧ (x.phase = .grant → becomes (exec (.tableReadComplete e t) s) s fun d => ptpGranted d k x)
        ∧ (∀ w, x.phase = .ring → x.nts = some w → becomes (exec (.tableReadComplete e t) s) s fun d => ntsSampled d k x w)
        ∧ (x.phase ≠ .grant → x.phase ≠ .ring → rests (exec (.tableReadComplete e t) s) s)
        ∧ (∀ o, x.phase = .credit o → becomes (exec (.txCreditAvailable e t) s) s fun d => handOn d k x o)
        ∧ ((∀ o, x.phase ≠ .credit o) → rests (exec (.txCreditAvailable e t) s) s)
        ∧ onlyIf (x.timeoutUs * 1000 ≤ (s.dev.bt - x.allocBt + 1) * btNs s.dev) (exec (.contextTimeout e t) s) s
            fun d => engineException (abandonContext d k x) k 1 x.desc.tenant)
      ∧ (∀ ok : Bool,
        (laneOf s.dev e.val t.val = none → rests (exec (.aeadJobComplete e t ok) s) s)
        ∧ (∀ l r, laneOf s.dev e.val t.val = some (l, r) →
          onlyIf (ok = false ∨ r.from_ + r.job.blocks ≤ (s.dev.bt + 1) * cyclesPerBt s.dev) (exec (.aeadJobComplete e t ok) s) s
            fun d =>
              let d := settle d (128 + l / 2)
              let d := jobReturned (finishLane d l r ok (cycleAt d d.obs.phase)) r ok
              startLanes d (l / 2) (cycleAt d d.obs.phase))))
    ∧ (∀ (t : Fin 4096) (p : Fin 16) (l : Nat),
      let due : Prop := s.dev.pwr.tablesLost = false ∧ tenantBound s.dev t.val = true
        ∧ flag s.dev .bcast t.val Bc.bcastEn = true ∧ bit (fld s.dev .bcast t.val Bc.portMask) p.val = true
        ∧ portStarts s.dev p.val = true ∧ bcastGrid s.dev t.val l = true ∧ reached s.dev ((l - 20000) * 2 ^ 32) = true
      let i := exec (.broadcastDue t p l) s
      let alarm := isAlarm (servedState s.dev t.val (svcNow s.dev))
      let source := (sourceEntry s.dev t.val p.val (fld s.dev .bcast t.val Bc.bcastFamily)).isSome
      (¬ due → rests i s)
      ∧ (due → alarm = true → becomes i s fun d => bumpNtp d t.val 28)
      ∧ (due → alarm = false → source = false → becomes i s fun d => bumpNtp d t.val 29)
      ∧ (due → alarm = false → source = true → becomes i s
          fun d => wakeTarget (dispatch d (ownDesc d t.val p.val (.bcast p.val l))) t.val))

/-- R63, R238, R239, R243, R244: a message of a schedule that stands is due once its instant has come, at an instant
of its grid; a due one counts in statistic 22 with the served state 0 or where a UDP group has no source entry, in 21
with the last still under way, and is otherwise dispatched, with a wake of its target. The Follow_Up of a returned
stamp leaves its list, is dropped with the served state 0, and else goes to Q4, to the grant's client or to the group.
An expired grant ends and is counted; an entry that has held none for one second is freed. The client instances run
only with the firmware, and send and follow a master only at a port that starts. A frame that waits is taken; one in
the instance's domain, of its master's address where it negotiates, is handled by its type: an Announce, GRANT TLVs, a
Sync of the selected master, a Follow_Up, a Delay_Resp. A Delay_Req is sent at its period, under a grant where the
instance negotiates, and joins the latest Sync's exchange if that has none; grants not held, or held for half their
duration, are asked for; an exchange ends after 4 s; a selected master silent for three Announce periods is left. -/
def Obligations.PtpEvents : Prop :=
  (∀ (s : State), pathOpen s →
    (∀ (mc : Bool) (i : Fin 65536) (an : Bool) (due : Nat),
      let key := schedKey mc i.val an
      let row := exec (.ptpMessageDue mc i an due) s
      (schedule s.dev key = none → rests row s)
      ∧ (∀ t p log, schedule s.dev key = some (t, p, log) →
        let isDue : Prop := dueGrid key log due = true ∧ reached s.dev due = true
        let noSource : Prop := ∃ q, schedPort key = some q ∧ fld s.dev .ptpPort q PPort.transport ≠ 0
          ∧ groupSource s.dev t q (fld s.dev .ptpPort q PPort.transport) = none
        (¬ isDue → rests row s)
        ∧ (isDue → (servedState s.dev t (svcNow s.dev) = 0 ∨ noSource) → becomes row s fun d => bumpPtp d t 22)
        ∧ (isDue → servedState s.dev t (svcNow s.dev) ≠ 0 → ¬ noSource →
          (schedBusy s.dev key = true → becomes row s fun d => bumpPtp d t 21)
          ∧ (schedBusy s.dev key = false → becomes row s
              fun d => wakeTarget (dispatch d (ownDesc d t p (.sched key due))) t))))
    ∧ (s.dev.ptp.followUps = [] → rests (exec .twoStepFollowUp s) s)
    ∧ (∀ u rest, s.dev.ptp.followUps = u :: rest →
      let row := exec .twoStepFollowUp s
      let left (d : Dev) : Dev := { d with ptp := { d.ptp with followUps := rest } }
      let sent (d : Dev) : List Byte :=
        let ts := ptpTime (atStamp d u.stamp) (tenantView d u.tenant) u.stamp
        ptpHeader d u.tenant u.port ptpFollowUp 44 u.domain (if u.grant.isSome then 4 else 0) 0 ts.2.2 u.seq
          (if u.grant.isSome then 0x7F else ofInt 8 u.log) ++ stampBytes ts
      (servedState s.dev u.tenant (svcNow s.dev) = 0 → becomes row s left)
      ∧ (servedState s.dev u.tenant (svcNow s.dev) ≠ 0 →
        (∀ g, u.grant = some g → becomes row s fun d =>
          enqueue (left d) u.port 4 ((ptpUdp (left d) u.tenant u.port g.entry g.mac g.tags (decide (g.family = 2)) g.addr 320
            (sent (left d))).tx (.ptp u.tenant 3 none none)))
        ∧ (u.grant = none → becomes row s fun d =>
          match ptpGroup (left d) u.tenant u.port 320 (groupSource (left d) u.tenant u.port) (sent (left d)) with
          | some f => enqueue (left d) u.port 4 (f.tx (.ptp u.tenant 3 none none))
          | none => bumpPtp (left d) u.tenant 22)))
    ∧ (∀ (g : Fin 65536),
      (grantEntry s.dev g.val = none →
        (∀ k, rests (exec (.grantExpiry g k) s) s) ∧ rests (exec (.grantEntryFree g) s) s)
      ∧ (∀ x, grantEntry s.dev g.val = some x →
        (∀ k, x.grant (grantType k.val) = none → rests (exec (.grantExpiry g k) s) s)
        ∧ (∀ k y, x.grant (grantType k.val) = some y →
          onlyIf (y.expiryBt ≤ s.dev.bt) (exec (.grantExpiry g k) s) s
            fun d => setGrant (bumpPtp d x.tenant 7) g.val (some (endGrant d x (grantType k.val))))
        ∧ onlyIf (x.holdsNone = true ∧ 10 ^ 9 ≤ (s.dev.bt - x.idleBt) * btNs s.dev) (exec (.grantEntryFree g) s) s
            fun d => setGrant d g.val none)))
  ∧ (∀ (s : State) (m : Fin 2), pathOpen s →
    (fwRuns s.dev = false → rests (exec (.ptpClientFrame m) s) s ∧ rests (exec (.ptpClientDelayReq m) s) s
      ∧ rests (exec (.ptpClientRenew m) s) s ∧ rests (exec (.ptpExchangeTimeout m) s) s
      ∧ rests (exec (.announceReceiptTimeout m) s) s)
    ∧ (fwRuns s.dev = true →
      let c := getClient s.dev m.val
      (s.dev.ptp.inbox.find? (fun e => e.1 = m.val) = none → rests (exec (.ptpClientFrame m) s) s)
      ∧ (∀ x, s.dev.ptp.inbox.find? (fun e => e.1 = m.val) = some (m.val, x) →
        let row := exec (.ptpClientFrame m) s
        let took (d : Dev) : Dev := { d with ptp := { d.ptp with inbox := d.ptp.inbox.erase (m.val, x) } }
        let b := (ptpMessage (took (fresh s.dev)) x.pkt).1
        let source := (ptpMessage (took (fresh s.dev)) x.pkt).2.ipSrc
        (clientPort s.dev m.val = none → becomes row s took)
        ∧ (∀ p, clientPort s.dev m.val = some p →
          let heard : Prop := msgMalformed b = false ∧ rdBe b 4 1 = fld s.dev .ptpPort p PPort.domain
            ∧ (negotiates s.dev p = true → source = fld s.dev .ptpPort p PPort.masterAddr)
          let mine : Prop := msgSource b = fld s.dev .ptpClient m.val PCli.masterPortId
          let least : Nat := if msgType b = ptpAnnounce then 64 else if msgType b = ptpDelayResp then 54 else 44
          let handled : Prop := heard ∧ least ≤ msgLen b
            ∧ (msgType b = ptpAnnounce ∨ msgType b = ptpSignaling ∨ msgType b = ptpSync ∧ mine ∨ msgType b = ptpFollowUp
              ∨ msgType b = ptpDelayResp)
          (¬ handled → becomes row s took)
          ∧ (handled →
            (msgType b = ptpAnnounce → becomes row s fun d => clientAnnounce (took d) m.val b)
            ∧ (msgType b = ptpSignaling → becomes row s fun d => clientSignaling (took d) m.val b)
            ∧ (msgType b = ptpSync → becomes row s fun d => clientSync (took d) m.val x.pkt b)
            ∧ (msgType b = ptpFollowUp → becomes row s fun d => clientFollowUp (took d) m.val b)
            ∧ (msgType b = ptpDelayResp → becomes row s fun d => clientDelayResp (took d) m.val p b))))
      ∧ (clientPort s.dev m.val = none → rests (exec (.ptpClientDelayReq m) s) s
        ∧ rests (exec (.ptpClientRenew m) s) s ∧ rests (exec (.announceReceiptTimeout m) s) s)
      ∧ (∀ p, clientPort s.dev m.val = some p →
        let r := getRec s.dev .ptpPort p
        let late (e : Nat × Nat × Nat × Bool) : Bool := decide (e.1 = fld s.dev .ptpClient m.val PCli.masterPortId)
          && decide (3 * (2 : Rat) ^ (sfld s.dev .ptpPort p PPort.logAnnounce) * 10 ^ 9 ≤ ((s.dev.bt - e.2.2.1) * btNs s.dev : Nat))
        let want := [(ptpAnnounce, PPort.logAnnounce), (ptpSync, PPort.logSync), (ptpDelayResp, PPort.logDelay)].filter
          fun e => grantWanted s.dev c e.1
        let tlvs := want.flatMap fun e => beBytes 2 0x0004 ++ beBytes 2 6 ++ beBytes 1 (e.1 * 16)
          ++ beBytes 1 (ofInt 8 (getS r e.2)) ++ beBytes 4 300
        onlyIf (fld s.dev .ptpClient m.val PCli.masterPortId ≠ 0
            ∧ (negotiates s.dev p = true → clientHolds s.dev c ptpDelayResp = true) ∧ delayReqDue s.dev c p = true)
          (exec (.ptpClientDelayReq m) s) s (fun d =>
            let ex := c.exchange.map fun e => if e.reqSeq.isNone then { e with reqSeq := some c.seqDelay } else e
            let d := setClient d m.val { c with exchange := ex, seqDelay := (c.seqDelay + 1) % 65536, delayBt := d.bt }
            clientSend d m.val p 6 320 (some c.seqDelay)
              (ptpHeader d (getF r PPort.tenant) p ptpDelayReq 44 (getF r PPort.domain)
                (if negotiates s.dev p then 4 else 0) 0 0 c.seqDelay (ofInt 8 (getS r PPort.logDelay)) ++ beBytes 10 0))
        ∧ onlyIf (negotiates s.dev p = true ∧ want ≠ []) (exec (.ptpClientRenew m) s) s (fun d =>
            let d := setClient d m.val { c with seqSignaling := (c.seqSignaling + 1) % 65536 }
            clientSend d m.val p 4 320 none (ptpHeader d (getF r PPort.tenant) p ptpSignaling (44 + tlvs.length)
              (getF r PPort.domain) 4 0 0 c.seqSignaling 0x7F ++ beBytes 10 (2 ^ 80 - 1) ++ tlvs))
        ∧ onlyIf (c.masters.any late = true) (exec (.announceReceiptTimeout m) s) s
            fun d => selectMaster (setClient d m.val { c with masters := c.masters.filter fun e => !late e }) m.val)
      ∧ (c.exchange = none → rests (exec (.ptpExchangeTimeout m) s) s)
      ∧ (∀ e, c.exchange = some e →
        onlyIf (4 * 10 ^ 9 ≤ (s.dev.bt - e.startBt) * btNs s.dev) (exec (.ptpExchangeTimeout m) s) s
          fun d => discardExchange d m.val)))

/-- R23, R24, R157, R160, R161, R187, R188, R413: a GATING node is GATED once it holds no context or 10 µs after its
request; its last gating takes the client table into retention. A node's reset ends at its instant, with the firmware
where a memory is reloaded: its nodes run unfenced, and the doors that waited are answered. In LISTEN an ON node idle
for its time, or one woken for its logic whose children are GATED, gates again. The WAKING nodes of a wake turn ON
together, or one fails after its WAKE_TIMEOUT_US and is GATED with its queue moved. Without an old context
OLD_CONTEXTS is 0. The sweep takes one bucket a coarse tick, none in retention; retention ends once a node is no
longer GATED, with a clear after 2^20 coarse ticks. -/
def Obligations.ArrayEvents : Prop :=
  ∀ (s : State),
    (s.dev.pwr.aonUp = true →
      (∀ c : Fin 149,
        let x := getNode s.dev c.val
        (x.gateBt = none → rests (exec (.powerGateComplete c) s) s)
        ∧ (∀ n, x.gateBt = some n →
          onlyIf (nodePower s.dev c.val = 1 ∧ (contextsBusy s.dev c.val = 0 ∨ 10000 ≤ (s.dev.bt - n + 1) * btNs s.dev))
            (exec (.powerGateComplete c) s) s fun d => noteRetention (gateDone d c.val))
        ∧ (x.resetEnd = none → rests (exec (.nodeResetRelease c) s) s)
        ∧ (∀ n, x.resetEnd = some n →
          onlyIf (n ≤ s.dev.bt ∧ (((subtree s.dev c.val).any fun n => (getNode s.dev n).reload) = true → fwRuns s.dev = true))
            (exec (.nodeResetRelease c) s) s fun d =>
              let runs := (subtree d c.val).foldl (fun d n =>
                let d := setFld (setFld (settleLine d n) .nodeStatus n NodeSt.reset 0) .nodeStatus n NodeSt.fenced 0
                let d := setNode d n { getNode d n with resetEnd := none, reload := false, doors := [] }
                if 128 ≤ n ∧ n < 144 then returnLanes d n else d) d
              x.doors.foldl endNodeWait (setCause runs 14)))
      ∧ (s.dev.ct.retainedFrom = none → rests (exec .ctRetentionExit s) s)
      ∧ (∀ n, s.dev.ct.retainedFrom = some n →
        (allGated s.dev = true → rests (exec .ctRetentionExit s) s)
        ∧ (allGated s.dev = false → becomes (exec .ctRetentionExit s) s fun d =>
          let e := if 2 ^ 20 ≤ (s.dev.bt - n) / 16384 then clearClients d else d
          { e with ct := { e.ct with retainedFrom := none } })))
    ∧ (pathOpen s →
      (∀ c : Fin 149,
        let x := getNode s.dev c.val
        let idle : Prop :=
          (x.logicOnly = true ∧ ∀ n ∈ descendants s.dev.variant c.val, parentOf n = some c.val → nodePower s.dev n = 2)
          ∨ (x.logicOnly = false ∧ x.idleMs ≠ 0 ∧ x.idleMs * 1000000 ≤ (s.dev.bt - x.lastGrantBt + 1) * btNs s.dev)
        onlyIf (power s.dev = 1 ∧ nodePower s.dev c.val = 0 ∧ idle) (exec (.idleRegate c) s) s
          (fun d => gateRequest d c.val true)
        ∧ onlyIf (nodePower s.dev c.val = 3) (exec (.wakeComplete c) s) s
            (fun d => (properAncestors c.val ++ subtree d c.val).foldl nodeOn d)
        ∧ (x.wakeBt = none → rests (exec (.wakeTimeout c) s) s)
        ∧ (∀ n, x.wakeBt = some n →
          onlyIf (nodePower s.dev c.val = 3 ∧ x.wakeUs * 1000 ≤ (s.dev.bt - n + 1) * btNs s.dev) (exec (.wakeTimeout c) s) s
            fun d =>
              let failed := setFld (setPower (settleLine d c.val) c.val 2) .nodeFlags c.val NodeFl.wakeFailed 1
              let asleep := setNode failed c.val { getNode failed c.val with wakeBt := none, logicOnly := false }
              let told := nodeEvent (raise (countNest asleep c.val 12) (srcId 0x21 c.val)) c.val
              let was := fld told .nodeFlags c.val NodeFl.cmdGated
              let moved := requeue (setFld told .nodeFlags c.val NodeFl.cmdGated 1) [c.val]
              noteRetention (setFld moved .nodeFlags c.val NodeFl.cmdGated was)))
      ∧ onlyIf ((s.dev.arr.ctx.any fun e => match e.2 with | some x => x.oldImage | none => false) = false)
          (exec .jigOldContextsDrained s) s (fun d => setFld d .jigStatus 0 Jig.oldContexts 0)
      ∧ onlyIf (s.dev.ct.retainedFrom = none ∧ s.dev.ct.sweepAt < s.dev.bt / 16384) (exec .ctSweep s) s
          (fun d =>
            let swept := (List.range 4).foldl (fun e w =>
              let i := 4 * s.dev.ct.sweep + w
              let old := ctEntry e i
              let left := decayed e old (sweepLeak s.dev)
              if entValid old = false then e
              else if left = 0 then bumpFld (setEntry e i 0) .ct 0 Ct.sweepFreed
              else setEntry e i (mkEntry (entPrint old) left (coarseTick e) (entKod old))) d
            { swept with ct := { swept.ct with sweep := (s.dev.ct.sweep + 1) % 2 ^ 20, sweepAt := s.dev.bt / 16384 } }))

/-- R335, R336, R341, R342, R345, R351, R353: a doorbell on a door in IDLE or DONE posts the request its buffer holds,
in every other respect leaving the device alone but for response fragments not fetched, which one without CONTINUE
discards and counts; on a door in POSTED or SERVING it is only counted; on a door that is not there or not reached it
does nothing. An opcode outside the map is UNKNOWN_OP. While doors are not served a message waits in POSTED. Slow
hardware that ends completes the command that waits for it, and only while doors are served. -/
def Obligations.DoorsAndDoorbells : Prop :=
  (∀ (s : State) (f : Fn) (k : Fin 8), s.dev.pwr.aonUp = true →
    (barUp s.dev f = true → (f.vf.isSome = true → k.val = 0) →
      let x := getDoor s.dev f k.val
      let q := requestOf f k.val x.reqBuf
      let lost := x.more.isSome && !bit q.2.flags.toNat 0
      (x.phase = .idle ∨ x.phase = .done →
        acts (exec (.doorbell f k) s) s fun d => ∃ tag, getDoor d f k.val
            = { x with phase := .posted, posted := some ⟨q.1, q.2, tag, s.dev.bt⟩, resp := none,
                       more := if lost then none else x.more, seqLow := q.2.sequence.toNat % 65536 }
          ∧ (∀ g j, doorKey g j ≠ doorKey f k.val → getDoor d g j = getDoor s.dev g j)
          ∧ { d with mbx := s.dev.mbx } = (if lost then bumpDoor (fresh s.dev) f k.val dsRespDiscarded else fresh s.dev)
          ∧ d.mbx.locks = s.dev.mbx.locks)
      ∧ (x.phase = .posted ∨ x.phase = .serving →
        becomes (exec (.doorbell f k) s) s (fun d => bumpDoor d f k.val dsIgnored)))
    ∧ (barUp s.dev f = false ∨ (f.vf.isSome = true ∧ k.val ≠ 0) → rests (exec (.doorbell f k) s) s))
  ∧ (∀ (s : State) (m : Msg) (op : BitVec 16), ready s m = true → cmdOf op.toNat = none →
      answers (exec (.unknownOpcode op m) s) s m (plain .unknownOp []) s.dev)
  ∧ (∀ (s : State) (m : Msg) (op : BitVec 16), s.dev.pwr.aonUp = true → doorsServed s.dev = false → barUp s.dev m.fn = true →
      let x := getDoor s.dev m.fn m.door.val
      x.phase = .idle ∨ x.phase = .done → x.posted = none →
      acts (exec (.unknownOpcode op m) s) s fun d => (getDoor d m.fn m.door.val).phase = .posted
        ∧ ∃ tag, (getDoor d m.fn m.door.val).posted = some ⟨op.toNat, m, tag, s.dev.bt⟩)
  ∧ (∀ (s : State) (f : Fn) (k : Fin 8) (r : SlowResult), s.dev.pwr.aonUp = true →
      let ok := decide (r ≠ .readbackDiffers)
      let ends (g : Dev → Dev) : Prop := becomes (exec (.slowHardwareComplete f k r) s) s g
      let w := waitingAt s.dev f k.val
      (doorsServed s.dev = false → rests (exec (.slowHardwareComplete f k r) s) s)
      ∧ (w = none → rests (exec (.slowHardwareComplete f k r) s) s)
      ∧ (doorsServed s.dev = true →
        (∀ bs, w = some (.jigUpload bs) → ends fun d => jigUploadDone d f k.val bs)
        ∧ (∀ g bs, w = some (.tagWrite g bs) → ends fun d => tagWriteDone d f k.val g bs ok)
        ∧ (∀ z, w = some (.fwErase z) → ends fun d => fwEraseDone d f k.val z)
        ∧ (∀ z o bs, w = some (.fwWrite z o bs) → ends fun d => fwWriteDone d f k.val z o bs ok)
        ∧ (∀ z, w = some (.fwVerify z) → ends fun d => fwVerifyDone d f k.val z)
        ∧ (∀ t bs z, w = some (.lcAdvance t bs z) → ends fun d => lcAdvanceDone d f k.val t bs z ok)
        ∧ (∀ a b, w = some (.svnRaise a b) → ends fun d => svnRaiseDone d f k.val a b)
        ∧ (∀ i fm key, w = some (.wrapInstall i fm key) → ends fun d => wrapInstallDone d f k.val i fm key)
        ∧ (∀ a b n, w = some (.shimLoop a b n) → ends fun d => shimLoopDone d f k.val a n)))

/-- R339, R340, R341, R343, R344, R345: fragment 0 of a request that passes the early checks, and that no lock keeps
out, takes its locks and is kept; one that fails them is answered. A fragment that continues the request a door holds
is added to it, the last makes it whole, one that does not continue it is BAD_LENGTH and an ABORT is OK, and both
discard it with its locks; CONTINUE fetches the next fragment of a response, any other CONTINUE is BAD_LENGTH; a
partial request, or fragments not fetched, are discarded when 2,000 ms have passed. -/
def Obligations.FragmentedMessages : Prop :=
  (∀ (s : State) (m : Msg) (op : BitVec 16), listens s m → (getDoor s.dev m.fn m.door.val).more = none →
    let x := getDoor s.dev m.fn m.door.val
    let kept (t : State) (p : Option Partial) : Prop := t.pending = s.pending ∧ (getDoor t.dev m.fn m.door.val).partial_ = p
    let free (t : State) : Prop := ∀ l ∈ t.dev.mbx.locks, ¬ (l.fn = m.fn ∧ l.door = m.door.val)
    (∀ p, x.partial_ = some p →
      (∃ t, exec (.requestAbort op m) s = .next t ∧ answer t m = plain .ok [] ∧ kept t none ∧ free t)
      ∧ (bit m.flags.toNat 1 = false → continues p op.toNat m = true → p.next + 1 < p.total →
        ∃ t, exec (.requestFragment op m) s = .next t ∧ answer t m = plain .ok []
          ∧ kept t (some { p with next := p.next + 1, bytes := p.bytes ++ copied m }) ∧ t.dev.mbx.locks = s.dev.mbx.locks)
      ∧ (bit m.flags.toNat 1 = false → continues p op.toNat m = true → p.total ≤ p.next + 1 →
        ∃ t, exec (.requestFragment op m) s = .next t ∧ kept t none
          ∧ ((answer t m).isSome = true ∨ (servingFor t m).isSome = true))
      ∧ (bit m.flags.toNat 1 = false → continues p op.toNat m = false →
        ∃ t, exec (.requestFragment op m) s = .next t ∧ answer t m = plain .badLength [] ∧ kept t none ∧ free t))
    ∧ (x.partial_ = none → bit m.flags.toNat 0 = false →
      (∀ st, (∀ M, earlyCheck { fresh s.dev with mbx := M } (cmdOf op.toNat) op.toNat m s.dev.bt = some st) → st ≠ .clamped →
        ∃ t, exec (.requestFragment op m) s = .next t ∧ answer t m = plain st [] ∧ kept t none)
      ∧ (∀ c, cmdOf op.toNat = some c →
        (∀ M, earlyCheck { fresh s.dev with mbx := M } (some c) op.toNat m s.dev.bt = none) → 2 ≤ m.fragTotal.toNat →
        s.dev.mbx.locks = [] →
        ∃ t, exec (.requestFragment op m) s = .next t ∧ answer t m = plain .ok []
          ∧ kept t (some { op := op.toNat, sequence := m.sequence, total := m.fragTotal.toNat, acting := m.acting, next := 1,
                           bytes := copied m })
          ∧ t.dev.mbx.locks = (c.locks (copied m)).map fun l => ⟨l, m.fn, if m.fn.vf.isSome then 0 else m.door.val, s.dev.bt⟩)))
  ∧ (∀ (s : State) (m : Msg) (op : BitVec 16), listens s m → (getDoor s.dev m.fn m.door.val).partial_ = none →
    let fits (r : More) : Prop := op.toNat = r.head.op ∧ m.sequence = r.head.sequence ∧ m.acting.toNat = r.head.acting
      ∧ m.fragIndex.toNat = r.next ∧ m.length.toNat = 0
    let more := (getDoor s.dev m.fn m.door.val).more
    (∀ r, more = some r → fits r →
      ∃ t, exec (.responseContinue op m) s = .next t ∧ t.pending = s.pending
        ∧ answer t m = some (r.head.status, (r.whole.drop (r.next * fragMax)).take fragMax)
        ∧ (getDoor t.dev m.fn m.door.val).more = if r.next + 1 < r.head.fragTotal then some { r with next := r.next + 1 } else none)
    ∧ ((∀ r, more = some r → ¬ fits r) →
      ∃ t, exec (.responseContinue op m) s = .next t ∧ t.pending = s.pending ∧ answer t m = plain .badLength []
        ∧ (getDoor t.dev m.fn m.door.val).more = more))
  ∧ (∀ (s : State) (f : Fn) (k : Fin 8), s.dev.pwr.aonUp = true →
    let x := getDoor s.dev f k.val
    let late : Prop := doorsServed s.dev = true ∧ x.phase = .done ∧ x.lastServedBt + msToBt s.dev 2000 ≤ s.dev.bt + 1
    (late → x.partial_.isSome = true → becomes (exec (.fragTimeout f k) s) s
      (fun d => bumpDoor (setDoor (releaseLocks d f k.val) f k.val { x with partial_ := none }) f k.val dsFragTimeouts))
    ∧ (late → x.more.isSome = true → becomes (exec (.respDiscardTimeout f k) s) s
      (fun d => bumpDoor (setDoor d f k.val { x with more := none }) f k.val dsRespDiscarded))
    ∧ (¬ late ∨ x.partial_ = none → rests (exec (.fragTimeout f k) s) s)
    ∧ (¬ late ∨ x.more = none → rests (exec (.respDiscardTimeout f k) s) s))

/-- R335, R336, R345, R353: each command is that of its opcode, and a ready request of any opcode at all is taken at
once: its door ends in DONE with an answer or waits in SERVING, with no request left POSTED in it. -/
def Obligations.EveryRequestIsTaken : Prop :=
  (∀ r ∈ opcodeRows, ∀ (s : State) (m : Msg), exec (r.1 m) s = exec (.unknownOpcode (BitVec.ofNat 16 r.2) m) s)
  ∧ ∀ (s : State) (m : Msg) (op : BitVec 16), ready s m = true →
    ∃ t, exec (.unknownOpcode op m) s = .next t ∧ (getDoor t.dev m.fn m.door.val).posted = none
      ∧ (((getDoor t.dev m.fn m.door.val).phase = .done ∧ (answer t m).isSome = true)
        ∨ ((getDoor t.dev m.fn m.door.val).phase = .serving ∧ (servingFor t m).isSome = true))

/-- The command at the front of the queue is taken and has its effect with the rest left waiting; with an empty queue
the block idles (the model's choice, assumption log 1); a command put at the front is the next one taken. No word
spells a command. -/
def Obligations.StepTakesFront : Prop :=
  (∀ (s : State) (c : Instr), step { s with pending := c :: s.pending } = exec c s)
  ∧ (∀ s : State, s.pending = [] → step s = .next s)
  ∧ (∀ (s : State) (c : Instr), step (s.withCommand c) = exec c s)
  ∧ ∀ (s : State) (n w : Nat), s.withFetchWord n w = s

/-- R464: a command answers a next state whose queue is the state's, but for the steps of the packet path once a rail
that supplies it has failed: service is then not defined, and they stop. No command is refused. A step of a packet
path that has no supply or does not run changes nothing. -/
def Obligations.OnlyRailFailureStops : Prop :=
  ∀ (c : Instr) (s : State),
    (pathRow c = true → s.dev.pwr.railFailed = true → exec c s = .fault .serviceUndefined)
    ∧ (pathRow c = false ∨ s.dev.pwr.railFailed = false → ∃ t, exec c s = .next t ∧ t.pending = s.pending)
    ∧ (pathRow c = true → s.dev.pwr.railFailed = false → (s.dev.pwr.aonUp = false ∨ pathRuns s.dev = false) → rests (exec c s) s)

/-- R433, Table BOOT.8: in OFF nothing runs. From a state with the AON supply down, and no command waiting that raises
it, every step leaves the device as it was and leads to such a state. -/
def Obligations.OffRunsNothing : Prop :=
  ∀ s t : State, off s = true → step s = .next t → off t = true ∧ fresh t.dev = fresh s.dev

/-- R433, Table BOOT.8: OFF is entered by the loss of the AON supply, from every state under power; the machine after
reset is under power with no command waiting, and its waiting commands stay well formed. -/
def Obligations.OffIsEntered : Prop :=
  (∀ s : State, s.dev.pwr.aonUp = true → (∀ c ∈ s.pending, c ≠ .aonPowerOn) →
    ∃ t, exec .aonSupplyLoss s = .next t ∧ off t = true)
  ∧ off State.reset = false ∧ State.reset.pending = []
  ∧ ∀ s t : State, s.pending.all Instr.wellFormed = true → step s = .next t → t.pending.all Instr.wellFormed = true
end

