-- ==== Sys2Proof/Laws/Tab.lean ====
section
/-! SUPPORT. The laws of the sparse tables that hold records, counters and doors: what a read gives after a write, and
that every table operation keeps the canonical form. -/

namespace Sys2Proof.Machine

open Sys2Proof

variable {α : Type}

@[simp] theorem Tab.get_nil (d : α) (k : Nat) : Tab.get d [] k = d := rfl

theorem Tab.get_insert_same (d : α) (t : Tab α) (k : Nat) (v : α) : Tab.get d (Tab.insert t k v) k = v := by
  induction t with
  | nil => simp [Tab.insert, Tab.get]
  | cons e t ih =>
    obtain ⟨k', v'⟩ := e
    unfold Tab.insert
    split
    · simp [Tab.get]
    · rename_i h
      split
      · simp [Tab.get]
      · simpa [Tab.get, h] using ih

theorem Tab.get_insert_other (d : α) (t : Tab α) (k j : Nat) (v : α) (h : j ≠ k) :
    Tab.get d (Tab.insert t k v) j = Tab.get d t j := by
  induction t with
  | nil => simp [Tab.insert, Tab.get, h]
  | cons e t ih =>
    obtain ⟨k', v'⟩ := e
    unfold Tab.insert
    split
    · rename_i hk
      subst hk
      simp [Tab.get, h]
    · split
      · simp [Tab.get, h]
      · simp only [Tab.get, ih]

theorem Tab.erase_cons (k' : Nat) (v' : α) (t : Tab α) (k : Nat) :
    Tab.erase ((k', v') :: t) k = if k' = k then Tab.erase t k else (k', v') :: Tab.erase t k := by
  unfold Tab.erase
  rw [List.filter_cons]
  by_cases h : k' = k <;> simp [h]

theorem Tab.get_erase_same (d : α) (t : Tab α) (k : Nat) : Tab.get d (Tab.erase t k) k = d := by
  induction t with
  | nil => rfl
  | cons e t ih =>
    obtain ⟨k', v'⟩ := e
    rw [Tab.erase_cons]
    split
    · exact ih
    · rename_i hk
      have hk' : ¬ k = k' := fun h => hk h.symm
      simpa only [Tab.get, hk', ite_false] using ih

theorem Tab.get_erase_other (d : α) (t : Tab α) (k j : Nat) (h : j ≠ k) :
    Tab.get d (Tab.erase t k) j = Tab.get d t j := by
  induction t with
  | nil => rfl
  | cons e t ih =>
    obtain ⟨k', v'⟩ := e
    rw [Tab.erase_cons]
    split
    · rename_i hk
      have hj : ¬ j = k' := hk ▸ h
      simpa only [Tab.get, hj, ite_false] using ih
    · simp only [Tab.get, ih]

/-- A read of the key just written gives the value written. -/
@[simp] theorem Tab.get_set_same [DecidableEq α] (d : α) (t : Tab α) (k : Nat) (v : α) :
    Tab.get d (Tab.set d t k v) k = v := by
  unfold Tab.set
  split
  · rename_i h; rw [h]; exact Tab.get_erase_same d t k
  · exact Tab.get_insert_same d t k v

/-- A write leaves every other key alone. -/
theorem Tab.get_set_other [DecidableEq α] (d d' : α) (t : Tab α) (k j : Nat) (v : α) (h : j ≠ k) :
    Tab.get d (Tab.set d' t k v) j = Tab.get d t j := by
  unfold Tab.set
  split
  · exact Tab.get_erase_other d t k j h
  · exact Tab.get_insert_other d t k j v h

/-- What a write leaves in the table: the entry written, or one that stood there before. -/
theorem Tab.mem_set [DecidableEq α] (d : α) (t : Tab α) (k : Nat) (v : α) (e : Nat × α) (h : e ∈ Tab.set d t k v) :
    e = (k, v) ∨ e ∈ t := by
  unfold Tab.set at h
  split at h
  · exact .inr (List.mem_of_mem_filter h)
  · clear * - h
    induction t with
    | nil => simp [Tab.insert] at h; exact .inl h
    | cons x t ih =>
      unfold Tab.insert at h
      split at h
      · rcases List.mem_cons.1 h with h | h
        · exact .inl h
        · exact .inr (List.mem_cons_of_mem _ h)
      · split at h
        · rcases List.mem_cons.1 h with h | h
          · exact .inl h
          · exact .inr h
        · rcases List.mem_cons.1 h with h | h
          · exact .inr (h ▸ List.mem_cons_self)
          · rcases ih h with h | h
            · exact .inl h
            · exact .inr (List.mem_cons_of_mem _ h)

/-! ### The canonical form -/

theorem Tab.risesFrom_mono (t : Tab α) (n m : Nat) (h : n ≤ m) (w : Tab.risesFrom m t = true) :
    Tab.risesFrom n t = true := by
  cases t with
  | nil => rfl
  | cons e t =>
    simp only [Tab.risesFrom, Bool.and_eq_true, decide_eq_true_eq] at *
    exact ⟨Nat.le_trans h w.1, w.2⟩

theorem Tab.risesFrom_filter (t : Tab α) (p : Nat × α → Bool) (n : Nat) (w : Tab.risesFrom n t = true) :
    Tab.risesFrom n (t.filter p) = true := by
  induction t generalizing n with
  | nil => rfl
  | cons e t ih =>
    simp only [Tab.risesFrom, Bool.and_eq_true, decide_eq_true_eq] at w
    rw [List.filter_cons]
    split
    · simp only [Tab.risesFrom, Bool.and_eq_true, decide_eq_true_eq]
      exact ⟨w.1, ih _ w.2⟩
    · exact Tab.risesFrom_mono _ n (e.1 + 1) (by omega) (ih _ w.2)

theorem Tab.risesFrom_insert (t : Tab α) (k n : Nat) (v : α) (h : n ≤ k) (w : Tab.risesFrom n t = true) :
    Tab.risesFrom n (Tab.insert t k v) = true := by
  induction t generalizing n with
  | nil => simp [Tab.insert, Tab.risesFrom, h]
  | cons e t ih =>
    obtain ⟨k', v'⟩ := e
    simp only [Tab.risesFrom, Bool.and_eq_true, decide_eq_true_eq] at w
    unfold Tab.insert
    split
    · rename_i hk
      simp only [Tab.risesFrom, Bool.and_eq_true, decide_eq_true_eq]
      exact ⟨h, hk ▸ w.2⟩
    · split
      · simp only [Tab.risesFrom, Bool.and_eq_true, decide_eq_true_eq]
        exact ⟨h, by omega, w.2⟩
      · simp only [Tab.risesFrom, Bool.and_eq_true, decide_eq_true_eq]
        exact ⟨w.1, ih _ (by omega) w.2⟩

theorem Tab.wf_filter [DecidableEq α] (d : Nat → α) (t : Tab α) (p : Nat × α → Bool) (w : Tab.wf d t = true) :
    Tab.wf d (t.filter p) = true := by
  simp only [Tab.wf, Bool.and_eq_true] at *
  refine ⟨Tab.risesFrom_filter t p 0 w.1, ?_⟩
  rw [List.all_eq_true] at *
  exact fun e he => w.2 e (List.mem_of_mem_filter he)

/-- Every write of a table keeps its canonical form: strictly rising keys, no entry equal to the key's default. -/
theorem Tab.wf_set [DecidableEq α] (d : Nat → α) (t : Tab α) (k : Nat) (v : α) (w : Tab.wf d t = true) :
    Tab.wf d (Tab.set (d k) t k v) = true := by
  have hs := Tab.mem_set (d k) t k v
  unfold Tab.set at *
  split
  · exact Tab.wf_filter d t _ w
  · rename_i h
    simp only [h, ite_false] at hs
    simp only [Tab.wf, Bool.and_eq_true] at *
    refine ⟨Tab.risesFrom_insert t k 0 v (Nat.zero_le _) w.1, ?_⟩
    rw [List.all_eq_true] at *
    intro e he
    rcases hs e he with he | he
    · subst he; simpa using h
    · exact w.2 e he

/-- Two canonical tables that read alike at every key are the same table. -/
theorem Tab.ext_of_get [DecidableEq α] (d : Nat → α) (t u : Tab α) (n : Nat)
    (ht : Tab.risesFrom n t = true) (hu : Tab.risesFrom n u = true)
    (hdt : ∀ e ∈ t, e.2 ≠ d e.1) (hdu : ∀ e ∈ u, e.2 ≠ d e.1)
    (h : ∀ k, Tab.get (d k) t k = Tab.get (d k) u k) : t = u := by
  have low : ∀ (t : Tab α) (n k : Nat), Tab.risesFrom n t = true → k < n → Tab.get (d k) t k = d k := by
    intro t
    induction t with
    | nil => intros; rfl
    | cons e t ih =>
      intro n k hr hk
      simp only [Tab.risesFrom, Bool.and_eq_true, decide_eq_true_eq] at hr
      have : ¬ k = e.1 := by omega
      simp only [Tab.get, this, ite_false]
      exact ih _ _ hr.2 (by omega)
  induction t generalizing u n with
  | nil =>
    cases u with
    | nil => rfl
    | cons e u =>
      have := h e.1
      simp only [Tab.get, ite_true] at this
      exact absurd this.symm (hdu e List.mem_cons_self)
  | cons e t ih =>
    cases u with
    | nil =>
      have := h e.1
      simp only [Tab.get, ite_true] at this
      exact absurd this (hdt e List.mem_cons_self)
    | cons f u =>
      simp only [Tab.risesFrom, Bool.and_eq_true, decide_eq_true_eq] at ht hu
      have hk : e.1 = f.1 := by
        rcases Nat.lt_trichotomy e.1 f.1 with hlt | heq | hgt
        · have h1 := h e.1
          have h2 : ¬ e.1 = f.1 := by omega
          simp only [Tab.get, ite_true, h2, ite_false] at h1
          rw [low u _ e.1 hu.2 (by omega)] at h1
          exact absurd h1 (hdt e List.mem_cons_self)
        · exact heq
        · have h1 := h f.1
          have h2 : ¬ f.1 = e.1 := by omega
          simp only [Tab.get, ite_true, h2, ite_false] at h1
          rw [low t _ f.1 ht.2 (by omega)] at h1
          exact absurd h1.symm (hdu f List.mem_cons_self)
      have hv : e.2 = f.2 := by
        have h1 := h e.1
        simpa only [Tab.get, ite_true, hk] using h1
      have htu : t = u := by
        refine ih u (e.1 + 1) ht.2 (hk ▸ hu.2) (fun x hx => hdt x (List.mem_cons_of_mem _ hx))
          (fun x hx => hdu x (List.mem_cons_of_mem _ hx)) fun k => ?_
        by_cases hke : k = e.1
        · subst hke
          rw [low t _ e.1 ht.2 (by omega), low u _ e.1 hu.2 (by omega)]
        · have h1 := h k
          have h2 : ¬ k = f.1 := hk ▸ hke
          simpa only [Tab.get, hke, h2, ite_false] using h1
      rw [htu]
      exact congrArg (· :: u) (Prod.ext hk hv)

end Sys2Proof.Machine
end

