-- ==== Sys2Proof/Laws/Mailbox.lean ====
section
/-! SUPPORT. What one mailbox message can do: a ready request of a host is taken, checked and answered, and nothing but
its door and its command's effect changes. -/

namespace Sys2Proof.Machine

open Sys2Proof

theorem Tab.get_all {α : Type} (p : α → Bool) (d : α) (t : Tab α) (k : Nat) (hd : p d = true)
    (h : t.all (fun e => p e.2) = true) : p (Tab.get d t k) = true := by
  induction t with
  | nil => exact hd
  | cons e t ih =>
    simp only [List.all_cons, Bool.and_eq_true] at h
    unfold Tab.get
    split
    · exact h.1
    · exact ih h.2

/-- The step of the search for the least tag. -/
def leastStep (best : Option (Nat × Posted)) (e : Nat × Door) : Option (Nat × Posted) :=
  match e.2.posted, best with
  | none, _ => best
  | some p, none => some (e.1, p)
  | some p, some (k, q) => if p.tag < q.tag ∨ (p.tag = q.tag ∧ p.bt < q.bt) then some (e.1, p) else some (k, q)

theorem leastPosted_eq (d : Dev) : leastPosted d = d.mbx.doors.foldl leastStep none := rfl

theorem foldl_leastStep_none (t : Tab Door) (b : Option (Nat × Posted))
    (h : t.all (fun e => e.2.posted.isNone) = true) : t.foldl leastStep b = b := by
  induction t generalizing b with
  | nil => rfl
  | cons e t ih =>
    simp only [List.all_cons, Bool.and_eq_true, Option.isNone_iff_eq_none] at h
    have h1 : leastStep b e = b := by simp [leastStep, h.1]
    simp only [List.foldl_cons, h1]
    exact ih b h.2

theorem foldl_leastStep_insert (t : Tab Door) (k : Nat) (y : Door) (po : Posted) (hy : y.posted = some po)
    (h : t.all (fun e => e.2.posted.isNone) = true) : (Tab.insert t k y).foldl leastStep none = some (k, po) := by
  induction t with
  | nil => simp [Tab.insert, leastStep, hy]
  | cons e t ih =>
    obtain ⟨k', v'⟩ := e
    simp only [List.all_cons, Bool.and_eq_true, Option.isNone_iff_eq_none] at h
    have h0 : leastStep none (k', v') = none := by simp [leastStep, h.1]
    have h1 : leastStep none (k, y) = some (k, po) := by simp [leastStep, hy]
    unfold Tab.insert
    split
    · simp only [List.foldl_cons, h1]
      exact foldl_leastStep_none t _ h.2
    · split
      · have h2 : leastStep (some (k, po)) (k', v') = some (k, po) := by simp [leastStep, h.1]
        simp only [List.foldl_cons, h1, h2]
        exact foldl_leastStep_none t _ h.2
      · simp only [List.foldl_cons, h0]
        exact ih h.2

/-- The door just POSTED, all others free, is the one that is served. -/
theorem leastPosted_set (d : Dev) (t : Tab Door) (k : Nat) (y : Door) (po : Posted)
    (hd : d.mbx.doors = Tab.set Door.idle t k y) (hy : y.posted = some po)
    (h : t.all (fun e => e.2.posted.isNone) = true) : leastPosted d = some (k, po) := by
  rw [leastPosted_eq, hd]
  have hne : ¬ y = Door.idle := by intro he; rw [he] at hy; exact absurd hy (by simp [Door.idle])
  simp only [Tab.set, hne, ite_false]
  exact foldl_leastStep_insert t k y po hy h

@[simp] theorem getDoor_setDoor (d : Dev) (f : Fn) (k : Nat) (x : Door) : getDoor (setDoor d f k x) f k = x := by
  simp [getDoor, setDoor]

theorem getDoor_setDoor_other (d : Dev) (f g : Fn) (k j : Nat) (x : Door) (h : doorKey g j ≠ doorKey f k) :
    getDoor (setDoor d f k x) g j = getDoor d g j := by
  simp only [getDoor, setDoor]
  exact Tab.get_set_other _ _ _ _ _ _ h

/-- What `ready` says, one fact a line. -/
theorem ready_facts {s : State} {m : Msg} (h : ready s m = true) :
    s.dev.pwr.aonUp = true ∧ doorsServed s.dev = true ∧ barUp s.dev m.fn = true
      ∧ ((getDoor s.dev m.fn m.door.val).phase = .idle ∨ (getDoor s.dev m.fn m.door.val).phase = .done)
      ∧ (getDoor s.dev m.fn m.door.val).partial_ = none ∧ (getDoor s.dev m.fn m.door.val).more = none
      ∧ (getDoor s.dev m.fn m.door.val).posted = none
      ∧ s.dev.mbx.doors.all (fun e => e.2.posted.isNone) = true ∧ s.dev.mbx.locks = []
      ∧ headerOk m = true ∧ m.fragTotal.toNat = 1 ∧ bit m.flags.toNat 0 = false ∧ bit m.flags.toNat 1 = false
      ∧ m.fn.vf = none ∧ m.acting.toNat = 2 ^ 32 - 1 := by
  simp only [ready, doorFree, hostRequest, Bool.and_eq_true, Bool.or_eq_true, decide_eq_true_eq,
    Option.isNone_iff_eq_none, List.isEmpty_iff, Bool.not_eq_eq_eq_not, Bool.not_true] at h
  obtain ⟨⟨⟨⟨⟨ha, hs⟩, hb⟩, ⟨⟨⟨hp, hq⟩, hm⟩, hall⟩⟩, hl⟩, ⟨⟨⟨⟨⟨hh, ht⟩, h0⟩, h1⟩, hv⟩, hac⟩⟩ := h
  have hall' : s.dev.mbx.doors.all (fun e => e.2.posted.isNone) = true := by
    rw [List.all_eq_true] at *
    exact hall
  refine ⟨ha, hs, hb, hp, hq, hm, ?_, hall', hl, hh, ht, h0, h1, hv, hac⟩
  have := Tab.get_all (fun x : Door => x.posted.isNone) Door.idle s.dev.mbx.doors (doorKey m.fn m.door.val) rfl hall'
  simpa [getDoor] using this

/-- A doorbell on a free door: the request is copied and tagged. -/
theorem ring_free (d : Dev) (op : Nat) (m : Msg)
    (hp : (getDoor d m.fn m.door.val).phase = .idle ∨ (getDoor d m.fn m.door.val).phase = .done)
    (hm : (getDoor d m.fn m.door.val).more = none) :
    ∃ (fin : Tab Rat) (tag : Rat), ring d op m = { d with mbx := { d.mbx with
      finish := fin
      doors := Tab.set Door.idle d.mbx.doors (doorKey m.fn m.door.val)
        { getDoor d m.fn m.door.val with
          phase := .posted, posted := some ⟨op, m, tag, d.bt⟩, resp := none, more := none
          seqLow := m.sequence.toNat % 65536 } } } := by
  unfold ring
  rcases hp with hp | hp <;>
  · simp only [hp, hm, Option.isSome_none, Bool.false_and, Bool.false_eq_true, ite_false]
    exact ⟨_, _, rfl⟩

/-- A ready request is posted and taken at once: what is served is the device as it was, but for the mailbox. -/
theorem message_ready {s : State} {m : Msg} (h : ready s m = true) (op : Nat) (c : Option Cmd) :
    ∃ (M : MbxState) (po : Posted), M.locks = [] ∧ po.op = op ∧ po.msg = m ∧ po.bt = s.dev.bt
      ∧ (getDoor { fresh s.dev with mbx := M } m.fn m.door.val).partial_ = none
      ∧ (∀ f k, doorKey f k ≠ doorKey m.fn m.door.val →
          getDoor { fresh s.dev with mbx := M } f k = getDoor s.dev f k)
      ∧ message op c m (fresh s.dev) = serveNew { fresh s.dev with mbx := M } c op m po := by
  obtain ⟨ha, hs, hb, hp, hq, hm, hpo, hall, hl, hh, ht, h0, h1, hv, hac⟩ := ready_facts h
  have hb' : barUp (fresh s.dev) m.fn = true := hb
  have hs' : doorsServed (fresh s.dev) = true := hs
  have hpo' : (getDoor (fresh s.dev) m.fn m.door.val).posted = none := hpo
  have hq' : (getDoor (fresh s.dev) m.fn m.door.val).partial_ = none := hq
  have hm' : (getDoor (fresh s.dev) m.fn m.door.val).more = none := hm
  have hp' : (getDoor (fresh s.dev) m.fn m.door.val).phase = .idle
      ∨ (getDoor (fresh s.dev) m.fn m.door.val).phase = .done := hp
  have hring : ∃ (M : MbxState) (y : Door) (po : Posted),
      ring (writeRequest (fresh s.dev) op m) op m = { fresh s.dev with mbx := M }
      ∧ M.locks = [] ∧ po.op = op ∧ po.msg = m ∧ po.bt = s.dev.bt ∧ y.posted = some po ∧ y.partial_ = none
      ∧ M.doors = Tab.set Door.idle (writeRequest (fresh s.dev) op m).mbx.doors (doorKey m.fn m.door.val) y := by
    obtain ⟨x, hx⟩ : ∃ x, writeRequest (fresh s.dev) op m = setDoor (fresh s.dev) m.fn m.door.val x
        ∧ x.phase = (getDoor (fresh s.dev) m.fn m.door.val).phase
        ∧ x.more = (getDoor (fresh s.dev) m.fn m.door.val).more
        ∧ x.partial_ = (getDoor (fresh s.dev) m.fn m.door.val).partial_ := ⟨_, rfl, rfl, rfl, rfl⟩
    obtain ⟨hw, hxp, hxm, hxq⟩ := hx
    have hgx : getDoor (writeRequest (fresh s.dev) op m) m.fn m.door.val = x := by rw [hw]; exact getDoor_setDoor _ _ _ _
    obtain ⟨fin, tag, hr⟩ := ring_free (writeRequest (fresh s.dev) op m) op m (by rw [hgx, hxp]; exact hp')
      (by rw [hgx, hxm]; exact hm')
    rw [hr, hgx]
    refine ⟨_, _, _, rfl, ?_, rfl, rfl, ?_, rfl, ?_, rfl⟩
    · rw [hw]; exact hl
    · rw [hw]; rfl
    · rw [← hq', ← hxq]
  obtain ⟨M, y, po, hM, hMl, hop, hmsg, hbt, hy, hyp, hMd⟩ := hring
  have hallw : (writeRequest (fresh s.dev) op m).mbx.doors.all (fun e => e.2.posted.isNone) = true := by
    rw [List.all_eq_true] at *
    intro e he
    simp only [writeRequest, setDoor] at he
    rcases Tab.mem_set _ _ _ _ _ he with he | he
    · subst he; simp [hpo']
    · exact hall e he
  have hgd : getDoor { fresh s.dev with mbx := M } m.fn m.door.val = y := by simp [getDoor, hMd]
  have hleast : leastPosted { fresh s.dev with mbx := M } = some (doorKey m.fn m.door.val, po) :=
    leastPosted_set _ _ _ y po hMd hy hallw
  refine ⟨{ M with v := po.tag }, po, hMl, hop, hmsg, hbt, ?_, ?_, ?_⟩
  · have : getDoor { fresh s.dev with mbx := { M with v := po.tag } } m.fn m.door.val = y := hgd
    rw [this]; exact hyp
  · intro f k hk
    have h1 : getDoor { fresh s.dev with mbx := { M with v := po.tag } } f k
        = Tab.get Door.idle M.doors (doorKey f k) := rfl
    rw [h1, hMd, Tab.get_set_other _ _ _ _ _ _ hk]
    exact getDoor_setDoor_other (fresh s.dev) m.fn f m.door.val k _ hk
  · have hgd' : getDoor { fresh s.dev with mbx := { M with v := po.tag } } m.fn m.door.val = y := hgd
    have hs2 : doorsServed { fresh s.dev with mbx := M } = true := hs
    have hmsgd : message op c m (fresh s.dev)
        = serveIfLeast (ring (writeRequest (fresh s.dev) op m) op m) c op m := by
      unfold message
      simp only [hb', Bool.not_true, Bool.false_eq_true, ite_false, hpo']
      rcases hp' with hp' | hp' <;> simp only [hp', hM, hs2, ite_true]
    rw [hmsgd, hM]
    simp only [serveIfLeast, hleast, hop, hmsg, and_self, ite_true, serveMessage]
    rw [hgd', hyp]
    simp only [h0, Bool.false_eq_true, ite_false]

/-- The requester of a ready request. -/
theorem ctxOf_ready {s : State} {m : Msg} (h : ready s m = true) (d : Dev) :
    ctxOf d m s.dev.bt = hostCtx s m := by
  obtain ⟨-, -, -, -, -, -, -, -, -, -, -, -, -, hv, hac⟩ := ready_facts h
  simp [ctxOf, hostCtx, hv, hac]

/-- Checks 1 to 4 of a ready request that its command allows. -/
theorem earlyCheck_ready {s : State} {m : Msg} (h : ready s m = true) (c : Cmd) (d : Dev)
    (ha : opAbsent d.variant c.op = false) (hal : c.allowed (hostCtx s m) (copied m) d = true) :
    earlyCheck d (some c) c.op m s.dev.bt = none := by
  obtain ⟨-, -, -, -, -, -, -, -, -, hh, ht, -, -, hv, hac⟩ := ready_facts h
  have hfi : m.fragIndex.toNat = 0 := by
    simp only [headerOk, Bool.and_eq_true, decide_eq_true_eq] at hh
    omega
  have hact : actingValid d m = true := by simp [actingValid, hac]
  simp only [earlyCheck, hh, hfi, ha, hact, ctxOf_ready h, hal, Bool.not_true, Bool.false_eq_true, ne_eq, not_true_eq_false,
    or_self, ite_false]

/-- A ready request that its command allows runs at once. -/
theorem serveNew_ready {s : State} {m : Msg} (h : ready s m = true) (c : Cmd) (d : Dev) (po : Posted)
    (hbt : po.bt = s.dev.bt) (ha : opAbsent d.variant c.op = false)
    (hal : c.allowed (hostCtx s m) (copied m) d = true) :
    serveNew d (some c) c.op m po = runWhole d c c.op m po (copied m) := by
  obtain ⟨-, -, -, -, -, -, -, -, -, -, ht, -, -, -, -⟩ := ready_facts h
  simp only [serveNew, hbt, earlyCheck_ready h c d ha hal, ht, ite_true]

/-! ### What a response writes -/

theorem getFn_setFn_same (d : Dev) (f : Fn) (x : FnState) : getFn (setFn d f x) f = x := by simp [getFn, setFn]

theorem sendMsix_mbx (d : Dev) (f : Fn) (v : Nat) : (sendMsix d f v).mbx = d.mbx := by
  unfold sendMsix; dsimp only; split
  · rfl
  · split <;> rfl

theorem sendMsix_stats (d : Dev) (f : Fn) (v : Nat) : (sendMsix d f v).stats = d.stats := by
  unfold sendMsix; dsimp only; split
  · rfl
  · split <;> rfl

theorem sendMsix_eq (d : Dev) (f : Fn) (v : Nat) :
    sendMsix d f v = { d with host := { d.host with fns := (sendMsix d f v).host.fns }, out := (sendMsix d f v).out } := by
  unfold sendMsix; dsimp only; split
  · rfl
  · split <;> rfl

/-- An interrupt message changes nothing of a function but its pending bits. -/
theorem sendMsix_getFn (d : Dev) (f g : Fn) (v : Nat) :
    { getFn (sendMsix d f v) g with pendingBits := 0 } = { getFn d g with pendingBits := 0 } := by
  unfold sendMsix; dsimp only; split
  · rfl
  · split
    · by_cases hk : Fn.key g = Fn.key f
      · have h1 : getFn d g = getFn d f := by simp only [getFn, hk]
        have h2 : ∀ x, getFn (setFn d f x) g = x := by intro x; simp [getFn, setFn, hk]
        rw [h1, h2]
      · have h2 : ∀ x, getFn (setFn d f x) g = getFn d g := by
          intro x; simp only [getFn, setFn]; exact Tab.get_set_other _ _ _ _ _ _ hk
        rw [h2]
    · rfl

theorem bumpDoor_mbx (d : Dev) (f : Fn) (k n : Nat) : (bumpDoor d f k n).mbx = d.mbx := rfl

theorem bumpDoor_eq (d : Dev) (f : Fn) (k n : Nat) : bumpDoor d f k n = { d with stats := (bumpDoor d f k n).stats } := rfl

/-- A door counter leaves the counters of every other block alone. -/
theorem bumpDoor_stats (d : Dev) (f : Fn) (k n j : Nat) (hn : n < 64) (h : j / 64 ≠ statKey .door (doorKey f k) 0 / 64) :
    Tab.get 0 (bumpDoor d f k n).stats j = Tab.get 0 d.stats j := by
  simp only [bumpDoor, bumpStat, setStat]
  refine Tab.get_set_other _ _ _ _ _ _ ?_
  intro he
  subst he
  apply h
  simp only [statKey, StatKind.code]
  omega

theorem butDoor_setDoor {e d : Dev} {m : Msg} (h : butDoor e d m) (x : Door) :
    butDoor e (setDoor d m.fn m.door.val x) m := by
  obtain ⟨⟨M, S, F, O, rfl⟩, h2, h3, h4, h5⟩ := h
  exact ⟨⟨_, _, _, _, rfl⟩, fun f k hk => (getDoor_setDoor_other _ m.fn f m.door.val k x hk).trans (h2 f k hk), h3, h4, h5⟩

theorem butDoor_bumpDoor {e d : Dev} {m : Msg} (h : butDoor e d m) (n : Nat) (hn : n < 64) :
    butDoor e (bumpDoor d m.fn m.door.val n) m := by
  obtain ⟨⟨M, S, F, O, rfl⟩, h2, h3, h4, h5⟩ := h
  exact ⟨⟨_, _, _, _, rfl⟩, h2, fun k hk => (bumpDoor_stats _ m.fn m.door.val n k hn hk).trans (h3 k hk), h4, h5⟩

theorem butDoor_sendMsix {e d : Dev} {m : Msg} (h : butDoor e d m) (v : Nat) : butDoor e (sendMsix d m.fn v) m := by
  obtain ⟨⟨M, S, F, O, hd⟩, h2, h3, h4, h5⟩ := h
  refine ⟨?_, ?_, ?_, ?_, ?_⟩
  · rw [sendMsix_eq d m.fn v]
    generalize (sendMsix d m.fn v).host.fns = F'
    generalize (sendMsix d m.fn v).out = O'
    subst hd
    exact ⟨_, _, _, _, rfl⟩
  · intro f k hk
    rw [← h2 f k hk]
    simp only [getDoor, sendMsix_mbx]
  · intro k hk
    rw [← h3 k hk, sendMsix_stats]
  · intro f
    rw [← h4 f, sendMsix_getFn]
  · intro l hl
    rw [sendMsix_mbx] at hl
    exact h5 l hl

theorem butDoor_releaseLocks {e d : Dev} {m : Msg} (h : butDoor e d m) :
    butDoor e (releaseLocks d m.fn m.door.val) m := by
  obtain ⟨⟨M, S, F, O, rfl⟩, h2, h3, h4, h5⟩ := h
  exact ⟨⟨_, _, _, _, rfl⟩, h2, h3, h4, fun l hl => h5 l (List.mem_of_mem_filter hl)⟩

/-- A response changes the door, its counters and the pending bits alone. -/
theorem butDoor_writeResponse {e d : Dev} {m : Msg} (h : butDoor e d m) (x : Door) (r : Response) (more : Option More) :
    butDoor e (writeResponse d m x r more) m := by
  have ite_ : ∀ (c : Prop) [Decidable c] (a b : Dev), butDoor e a m → butDoor e b m → butDoor e (if c then a else b) m := by
    intro c _ a b ha hb
    split
    · exact ha
    · exact hb
  have bump_ : ∀ (c : Prop) [Decidable c] (a : Dev) n, n < 64 → butDoor e a m →
      butDoor e (if c then bumpDoor a m.fn m.door.val n else a) m := by
    intro c _ a n hn ha
    exact ite_ c _ _ (butDoor_bumpDoor ha n hn) ha
  have h0 := butDoor_bumpDoor (butDoor_setDoor h
    { x with phase := .done, posted := none, serving := none, resp := some r, more := more, lastServedBt := d.bt })
    dsMessages (by decide)
  have h1 := bump_ (r.status = .internal) _ dsInternal (by decide) (bump_ (r.status = .busy) _ dsBusy (by decide) h0)
  exact ite_ (bit m.flags.toNat 2 = true) _ _ h1 (butDoor_sendMsix h1 _)

/-- The door after a response has been written. -/
theorem writeResponse_door (d : Dev) (m : Msg) (x : Door) (r : Response) (more : Option More) :
    getDoor (writeResponse d m x r more) m.fn m.door.val
      = { x with phase := .done, posted := none, serving := none, resp := some r, more := more, lastServedBt := d.bt } := by
  unfold writeResponse
  dsimp only
  have h1 : ∀ (d : Dev) v, getDoor (sendMsix d m.fn v) m.fn m.door.val = getDoor d m.fn m.door.val := by
    intro d v; simp only [getDoor, sendMsix_mbx]
  have h2 : ∀ (d : Dev) n, getDoor (bumpDoor d m.fn m.door.val n) m.fn m.door.val = getDoor d m.fn m.door.val :=
    fun _ _ => rfl
  split <;> split <;> split <;> simp only [h1, h2, getDoor_setDoor]

theorem getDoor_releaseLocks (d : Dev) (f g : Fn) (k j : Nat) : getDoor (releaseLocks d f k) g j = getDoor d g j := rfl

/-- The answer a response leaves in its door. -/
theorem respond_answer (d : Dev) (op : Nat) (m : Msg) (st : Status) (pl : List Byte) (es : List ClampEntry) (q : List Instr) :
    answer { dev := respond d op m st pl es, pending := q } m
      = if st = .ok ∧ es ≠ [] then plain .clamped (padTo 8 pl ++ clampReport es)
        else if st = .clamped then plain .clamped (padTo 8 pl ++ clampReport es) else plain st pl := by
  simp only [answer, respond, writeResponse_door, ite_true, Option.map_some, plain]
  split
  · rfl
  · split <;> rename_i h <;> simp_all

theorem butDoor_respond {e d : Dev} {m : Msg} (h : butDoor e d m) (op : Nat) (st : Status) (pl : List Byte)
    (es : List ClampEntry) : butDoor e (respond d op m st pl es) m :=
  butDoor_writeResponse (butDoor_releaseLocks h) _ _ _

/-- A device whose mailbox alone was touched at one message's door, with the body's effect on the rest. -/
theorem butDoor_effect {s : State} {m : Msg} {e : Dev} {M : MbxState} (L : List Lock) (O : List Emission)
    (hdoors : ∀ f k, doorKey f k ≠ doorKey m.fn m.door.val →
      getDoor { fresh s.dev with mbx := M } f k = getDoor s.dev f k)
    (hm : e.mbx = s.dev.mbx) (hL : ∀ l ∈ L, l.fn = m.fn ∧ l.door = m.door.val) :
    butDoor e { e with mbx := { M with locks := L }, out := O } m := by
  refine ⟨⟨_, _, _, _, rfl⟩, ?_, fun _ _ => rfl, fun _ => rfl, fun l hl => .inr (hL l hl)⟩
  intro f k hk
  have h1 : getDoor e f k = getDoor s.dev f k := by simp only [getDoor, hm]
  rw [h1]
  exact hdoors f k hk

/-- What a ready request that is answered at once does: its command's own effect, and its answer in the door. -/
theorem mailbox_done {s : State} {m : Msg} (h : ready s m = true) (c : Cmd) (st : Status) (pl : List Byte)
    (es : List ClampEntry) (e : Dev) (ha : opAbsent s.dev.variant c.op = false)
    (hal : ∀ M, c.allowed (hostCtx s m) (copied m) { fresh s.dev with mbx := M } = true) (hm : e.mbx = s.dev.mbx)
    (hrun : ∀ M : MbxState, M.locks = [] → ∃ L O, (∀ l ∈ L, l.fn = m.fn ∧ l.door = m.door.val) ∧
      runCmd c (hostCtx s m) (copied m) { fresh s.dev with mbx := M }
        = .done st pl es { e with mbx := { M with locks := L }, out := O }) :
    answers (mailbox c m s) s m
      (if st = .ok ∧ es ≠ [] then plain .clamped (padTo 8 pl ++ clampReport es)
        else if st = .clamped then plain .clamped (padTo 8 pl ++ clampReport es) else plain st pl) e := by
  obtain ⟨M, po, hMl, hop, hmsg, hbt, -, hdoors, hmes⟩ := message_ready h c.op (some c)
  obtain ⟨L, O, hL, hr⟩ := hrun M hMl
  have hon : s.dev.pwr.aonUp = true := (ready_facts h).1
  have hon' : (fresh s.dev).pwr.aonUp = true := hon
  have hrw : runWhole { fresh s.dev with mbx := M } c c.op m po (copied m)
      = respond { e with mbx := { M with locks := L }, out := O } c.op m st pl es := by
    simp only [runWhole, hbt, ctxOf_ready h, hr]
  have hall := serveNew_ready h c { fresh s.dev with mbx := M } po hbt ha (hal M)
  refine ⟨{ s with dev := respond { e with mbx := { M with locks := L }, out := O } c.op m st pl es }, ?_, rfl, ?_, ?_⟩
  · unfold mailbox whenOn withDev
    simp only [hon', ite_true, hmes]
    rw [hall, hrw]
  · exact respond_answer _ _ _ _ _ _ _
  · exact butDoor_respond (butDoor_effect L O hdoors hm hL) _ _ _ _

/-- A ready request answered OK, with its clamp report. -/
theorem mailbox_ok {s : State} {m : Msg} (h : ready s m = true) (c : Cmd) (pl : List Byte)
    (es : List ClampEntry) (e : Dev) (ha : opAbsent s.dev.variant c.op = false)
    (hal : ∀ M, c.allowed (hostCtx s m) (copied m) { fresh s.dev with mbx := M } = true) (hm : e.mbx = s.dev.mbx)
    (hrun : ∀ M : MbxState, M.locks = [] → ∃ L O, (∀ l ∈ L, l.fn = m.fn ∧ l.door = m.door.val) ∧
      runCmd c (hostCtx s m) (copied m) { fresh s.dev with mbx := M }
        = .done .ok pl es { e with mbx := { M with locks := L }, out := O }) :
    answers (mailbox c m s) s m (withReport pl es) e := by
  have := mailbox_done h c .ok pl es e ha hal hm hrun
  by_cases hes : es = [] <;> simpa [withReport, hes] using this

/-- A ready request whose command leaves its door in SERVING. -/
theorem mailbox_waits {s : State} {m : Msg} (h : ready s m = true) (c : Cmd) (w : Waiting) (e : Dev)
    (ha : opAbsent s.dev.variant c.op = false)
    (hal : ∀ M, c.allowed (hostCtx s m) (copied m) { fresh s.dev with mbx := M } = true) (hm : e.mbx = s.dev.mbx)
    (hrun : ∀ M : MbxState, M.locks = [] → ∃ L O, (∀ l ∈ L, l.fn = m.fn ∧ l.door = m.door.val) ∧
      runCmd c (hostCtx s m) (copied m) { fresh s.dev with mbx := M }
        = .wait w { e with mbx := { M with locks := L }, out := O }) :
    waits (mailbox c m s) s m w e := by
  obtain ⟨M, po, hMl, hop, hmsg, hbt, -, hdoors, hmes⟩ := message_ready h c.op (some c)
  obtain ⟨L, O, hL, hr⟩ := hrun M hMl
  have hon' : (fresh s.dev).pwr.aonUp = true := (ready_facts h).1
  have hrw : runWhole { fresh s.dev with mbx := M } c c.op m po (copied m)
      = setDoor { e with mbx := { M with locks := L }, out := O } m.fn m.door.val
          { getDoor { e with mbx := { M with locks := L }, out := O } m.fn m.door.val with
            phase := .serving, posted := none, partial_ := none, serving := some (po, w) } := by
    simp only [runWhole, hbt, ctxOf_ready h, hr]
  have hall := serveNew_ready h c { fresh s.dev with mbx := M } po hbt ha (hal M)
  refine ⟨{ s with dev := runWhole { fresh s.dev with mbx := M } c c.op m po (copied m) }, ?_, ?_, ?_, ?_⟩
  · unfold mailbox whenOn withDev
    simp only [hon', ite_true, hmes]
    rw [hall]
  · rfl
  · simp only [servingFor, hrw, getDoor_setDoor, ite_true, Option.map_some]
  · rw [hrw]
    exact butDoor_setDoor (butDoor_effect L O hdoors hm hL) _

/-- Checks 5 to 8 of a command that takes no lock and names no tenant. -/
theorem runCmd_plain (c : Cmd) (x : Ctx) (p : List Byte) (d : Dev) (hc : c.check x p d = none) (hl : c.locks p = [])
    (hs : (c.cls p).serves d.key.lifeCycle = true) (ht : ∀ t, c.tenant p = some t → tenantState d t ≠ 2) :
    runCmd c x p d = c.body x p (takeLocks d x []) := by
  simp only [runCmd, hc, hl, busyLock, List.foldl_nil, hs, Bool.not_true, Bool.false_eq_true, ite_false]
  rcases hc' : c.tenant p with _ | t
  · rfl
  · simp [ht t hc']

/-- A request that fails check 5 or 6. -/
theorem runCmd_check (c : Cmd) (x : Ctx) (p : List Byte) (d : Dev) (st : Status) (hc : c.check x p d = some st) :
    runCmd c x p d = .done st [] [] d := by simp only [runCmd, hc]

/-- A request that takes no lock and names a RETIRING tenant (R329). -/
theorem runCmd_retiring (c : Cmd) (x : Ctx) (p : List Byte) (d : Dev) (t : Nat) (hc : c.check x p d = none)
    (hl : c.locks p = []) (ht : c.tenant p = some t) (h2 : tenantState d t = 2) :
    runCmd c x p d = .done .state [] [] d := by
  simp only [runCmd, hc, hl, busyLock, List.foldl_nil, ht, h2, decide_true, ite_true, ite_self]

theorem takeLocks_nil (d : Dev) (x : Ctx) : takeLocks d x [] = d := by simp [takeLocks]

/-- With no lock held no lock refuses. -/
theorem busyLock_none (d : Dev) (x : Ctx) (cs : List Nat) (h : d.mbx.locks = []) : busyLock d x cs = none := by
  have hl : ∀ c, lockHolder d c = none := by intro c; simp [lockHolder, h]
  simp only [busyLock, hl]
  induction cs with
  | nil => rfl
  | cons c cs ih => simp [ih]

/-- The families outside NTS are on every variant. -/
theorem opAbsent_other (v : Variant) (op : Nat) (h : op / 256 ≠ 0x32) : opAbsent v op = false := by simp [opAbsent, h]

theorem byController_ready {s : State} {m : Msg} (h : byController s m = true) : ready s m = true := by
  simp only [byController, Bool.and_eq_true] at h; exact h.1.1

theorem byController_lifeCycle {s : State} {m : Msg} (h : byController s m = true) :
    s.dev.key.lifeCycle = 1 ∨ s.dev.key.lifeCycle = 2 := by
  simp only [byController, Bool.and_eq_true, Bool.or_eq_true, decide_eq_true_eq] at h; exact h.2

/-- Every class of a command but that of WRAP_KEY_INSTALL is served in the states a controller's request is taken in. -/
theorem serves_byController {s : State} {m : Msg} (h : byController s m = true) (k : LcClass) (hk : k ≠ .prov) :
    k.serves s.dev.key.lifeCycle = true := by
  have := byController_lifeCycle h
  cases k <;> simp_all [LcClass.serves]; omega

/-- The controller host holds the rights of the C and P columns. -/
theorem allowed_byController {s : State} {m : Msg} (h : byController s m = true) (c : Cmd) (p : List Byte) (M : MbxState)
    (hadm : c.admits (hostCtx s m) p { fresh s.dev with mbx := M } true = true)
    (hw : (if c.isWrite p then c.writeBy else c.readBy).contains .c = true
      ∨ (if c.isWrite p then c.writeBy else c.readBy).contains .p = true) :
    c.allowed (hostCtx s m) p { fresh s.dev with mbx := M } = true := by
  have hr := byController_ready h
  simp only [byController, Bool.and_eq_true, decide_eq_true_eq] at h
  obtain ⟨⟨-, hep⟩, -⟩ := h
  have hv : m.fn.vf = none := by have := ready_facts hr; tauto
  have hctl : controllerEp { fresh s.dev with mbx := M } = controllerEp s.dev := rfl
  have hc : (hostCtx s m).holds { fresh s.dev with mbx := M } (c.tenant p) .c = true := by
    simp [Ctx.holds, Ctx.asHost, Ctx.isPf, hostCtx, hv, Ctx.controls, Ctx.ep, hep, hctl]
  have hp : (hostCtx s m).holds { fresh s.dev with mbx := M } (c.tenant p) .p = true := by
    simp [Ctx.holds, Ctx.asHost, Ctx.isPf, hostCtx, hv]
  have h1 : (hostCtx s m).acting = none := rfl
  have h2 : ((if c.isWrite p then c.writeBy else c.readBy).any fun w =>
      (hostCtx s m).holds { fresh s.dev with mbx := M } (c.tenant p) w) = true := by
    rw [List.any_eq_true]
    rcases hw with hw | hw
    · exact ⟨.c, by simpa using hw, hc⟩
    · exact ⟨.p, by simpa using hw, hp⟩
  simp only [Cmd.allowed, h1, Bool.true_and]
  rw [h2]
  exact hadm

/-- Checks 5 to 8 passed: a command's body runs, with its locks taken. -/
theorem runCmd_ran (c : Cmd) (x : Ctx) (p : List Byte) (d : Dev) (hl : d.mbx.locks = []) (hc : c.check x p d = none)
    (hs : (c.cls p).serves d.key.lifeCycle = true) (ht : ∀ t, c.tenant p = some t → tenantState d t ≠ 2) :
    ∃ L, (∀ l ∈ L, l.fn = x.fn ∧ l.door = x.door) ∧
      runCmd c x p d = c.body x p { d with mbx := { d.mbx with locks := L } } := by
  refine ⟨(c.locks p).filter (fun k => (lockHolder d k).isNone) |>.map fun k => ⟨k, x.fn, x.door, d.bt⟩, ?_, ?_⟩
  · intro l hl'
    simp only [List.mem_map] at hl'
    obtain ⟨k, -, rfl⟩ := hl'
    exact ⟨rfl, rfl⟩
  · have h1 : runCmd c x p d = c.body x p (takeLocks d x (c.locks p)) := by
      simp only [runCmd, hc, busyLock_none d x _ hl, hs, Bool.not_true, Bool.false_eq_true, ite_false]
      rcases hc' : c.tenant p with _ | t
      · rfl
      · simp [ht t hc']
    rw [h1]
    simp only [takeLocks, hl, List.nil_append]

theorem cls_ne {c : Cmd} (h : c.readCls ≠ .prov ∧ c.writeCls ≠ .prov) (p : List Byte) : c.cls p ≠ .prov := by
  unfold Cmd.cls; split
  · exact h.2
  · exact h.1

/-- A command that names no tenant meets no RETIRING one. -/
theorem noTenant {c : Cmd} {p : List Byte} (d : Dev) (h : c.tenant p = none) :
    ∀ t, c.tenant p = some t → tenantState d t ≠ 2 := by intro t ht; rw [h] at ht; cases ht

/-- A controller's request that passes its checks and whose body answers: the answer, and the body's effect. -/
theorem ran_done {s : State} {m : Msg} (h : byController s m = true) (c : Cmd) (st : Status) (pl : List Byte)
    (es : List ClampEntry) (e : Dev) (ha : opAbsent s.dev.variant c.op = false)
    (hadm : ∀ M, c.admits (hostCtx s m) (copied m) { fresh s.dev with mbx := M } true = true)
    (hw : (if c.isWrite (copied m) then c.writeBy else c.readBy).contains .c = true
      ∨ (if c.isWrite (copied m) then c.writeBy else c.readBy).contains .p = true)
    (hm : e.mbx = s.dev.mbx) (hcls : c.readCls ≠ .prov ∧ c.writeCls ≠ .prov)
    (hc : ∀ M, c.check (hostCtx s m) (copied m) { fresh s.dev with mbx := M } = none)
    (ht : ∀ t, c.tenant (copied m) = some t → tenantState s.dev t ≠ 2)
    (hb : ∀ M, ∃ O, c.body (hostCtx s m) (copied m) { fresh s.dev with mbx := M }
      = .done st pl es { e with mbx := M, out := O }) :
    answers (mailbox c m s) s m
      (if st = .ok ∧ es ≠ [] then plain .clamped (padTo 8 pl ++ clampReport es)
        else if st = .clamped then plain .clamped (padTo 8 pl ++ clampReport es) else plain st pl) e := by
  refine mailbox_done (byController_ready h) c st pl es e ha (fun M => allowed_byController h c _ M (hadm M) hw) hm ?_
  intro M hM
  obtain ⟨L, hL, hr⟩ := runCmd_ran c (hostCtx s m) (copied m) { fresh s.dev with mbx := M } hM (hc M)
    (serves_byController h _ (cls_ne hcls _)) ht
  obtain ⟨O, hO⟩ := hb { M with locks := L }
  exact ⟨L, O, hL, hr.trans hO⟩

theorem ran_ok {s : State} {m : Msg} (h : byController s m = true) (c : Cmd) (pl : List Byte)
    (es : List ClampEntry) (e : Dev) (ha : opAbsent s.dev.variant c.op = false)
    (hadm : ∀ M, c.admits (hostCtx s m) (copied m) { fresh s.dev with mbx := M } true = true)
    (hw : (if c.isWrite (copied m) then c.writeBy else c.readBy).contains .c = true
      ∨ (if c.isWrite (copied m) then c.writeBy else c.readBy).contains .p = true)
    (hm : e.mbx = s.dev.mbx) (hcls : c.readCls ≠ .prov ∧ c.writeCls ≠ .prov)
    (hc : ∀ M, c.check (hostCtx s m) (copied m) { fresh s.dev with mbx := M } = none)
    (ht : ∀ t, c.tenant (copied m) = some t → tenantState s.dev t ≠ 2)
    (hb : ∀ M, ∃ O, c.body (hostCtx s m) (copied m) { fresh s.dev with mbx := M }
      = .done .ok pl es { e with mbx := M, out := O }) :
    answers (mailbox c m s) s m (withReport pl es) e := by
  have := ran_done h c .ok pl es e ha hadm hw hm hcls hc ht hb
  by_cases hes : es = [] <;> simpa [withReport, hes] using this

/-- A controller's request that passes its checks and whose body leaves the door in SERVING. -/
theorem ran_waits {s : State} {m : Msg} (h : byController s m = true) (c : Cmd) (w : Waiting) (e : Dev)
    (ha : opAbsent s.dev.variant c.op = false)
    (hadm : ∀ M, c.admits (hostCtx s m) (copied m) { fresh s.dev with mbx := M } true = true)
    (hw : (if c.isWrite (copied m) then c.writeBy else c.readBy).contains .c = true
      ∨ (if c.isWrite (copied m) then c.writeBy else c.readBy).contains .p = true)
    (hm : e.mbx = s.dev.mbx) (hcls : c.readCls ≠ .prov ∧ c.writeCls ≠ .prov)
    (hc : ∀ M, c.check (hostCtx s m) (copied m) { fresh s.dev with mbx := M } = none)
    (ht : ∀ t, c.tenant (copied m) = some t → tenantState s.dev t ≠ 2)
    (hb : ∀ M, ∃ O, c.body (hostCtx s m) (copied m) { fresh s.dev with mbx := M } = .wait w { e with mbx := M, out := O }) :
    waits (mailbox c m s) s m w e := by
  refine mailbox_waits (byController_ready h) c w e ha (fun M => allowed_byController h c _ M (hadm M) hw) hm ?_
  intro M hM
  obtain ⟨L, hL, hr⟩ := runCmd_ran c (hostCtx s m) (copied m) { fresh s.dev with mbx := M } hM (hc M)
    (serves_byController h _ (cls_ne hcls _)) ht
  obtain ⟨O, hO⟩ := hb { M with locks := L }
  exact ⟨L, O, hL, hr.trans hO⟩

theorem butDoor_refl (d : Dev) (m : Msg) : butDoor d d m :=
  ⟨⟨d.mbx, d.stats, d.host.fns, d.out, rfl⟩, fun _ _ _ => rfl, fun _ _ => rfl, fun _ => rfl, fun _ hl => .inl hl⟩

/-- A controller's request that passes its checks and whose body answers OK: the effect, from the device as taken. -/
theorem ran_effects {s : State} {m : Msg} (h : byController s m = true) (c : Cmd) (pl : Dev → List Byte)
    (es : Dev → List ClampEntry) (f : Dev → Dev) (ha : opAbsent s.dev.variant c.op = false)
    (hadm : ∀ M, c.admits (hostCtx s m) (copied m) { fresh s.dev with mbx := M } true = true)
    (hw : (if c.isWrite (copied m) then c.writeBy else c.readBy).contains .c = true
      ∨ (if c.isWrite (copied m) then c.writeBy else c.readBy).contains .p = true)
    (hcls : c.readCls ≠ .prov ∧ c.writeCls ≠ .prov)
    (hc : ∀ M, c.check (hostCtx s m) (copied m) { fresh s.dev with mbx := M } = none)
    (ht : ∀ t, c.tenant (copied m) = some t → tenantState s.dev t ≠ 2)
    (hb : ∀ M, c.body (hostCtx s m) (copied m) { fresh s.dev with mbx := M }
      = .done .ok (pl { fresh s.dev with mbx := M }) (es { fresh s.dev with mbx := M }) (f { fresh s.dev with mbx := M })) :
    effects (mailbox c m s) s m (fun d => withReport (pl d) (es d)) f := by
  have hr := byController_ready h
  obtain ⟨M, po, hMl, hop, hmsg, hbt, -, hdoors, hmes⟩ := message_ready hr c.op (some c)
  obtain ⟨L, hL, hrun⟩ := runCmd_ran c (hostCtx s m) (copied m) { fresh s.dev with mbx := M } hMl (hc M)
    (serves_byController h _ (cls_ne hcls _)) ht
  have hrun := hrun.trans (hb { M with locks := L })
  have hon' : (fresh s.dev).pwr.aonUp = true := (ready_facts hr).1
  have hrw := show runWhole { fresh s.dev with mbx := M } c c.op m po (copied m)
      = respond (f { fresh s.dev with mbx := { M with locks := L } }) c.op m .ok
          (pl { fresh s.dev with mbx := { M with locks := L } }) (es { fresh s.dev with mbx := { M with locks := L } }) by
    simp only [runWhole, hbt, ctxOf_ready hr, hrun]
  have hall := serveNew_ready hr c { fresh s.dev with mbx := M } po hbt ha
    (allowed_byController h c _ M (hadm M) hw)
  refine ⟨{ M with locks := L }, { s with dev := runWhole { fresh s.dev with mbx := M } c c.op m po (copied m) },
    ⟨fun f k hk => hdoors f k hk, hL⟩, ?_, rfl, ?_, ?_⟩
  · unfold mailbox whenOn withDev
    simp only [hon', ite_true, hmes]
    rw [hall]
  · rw [hrw]
    have := respond_answer (f { fresh s.dev with mbx := { M with locks := L } }) c.op m .ok
      (pl { fresh s.dev with mbx := { M with locks := L } }) (es { fresh s.dev with mbx := { M with locks := L } }) s.pending
    refine this.trans ?_
    by_cases hes : es { fresh s.dev with mbx := { M with locks := L } } = [] <;> simp [withReport, hes]
  · rw [hrw]
    exact butDoor_respond (butDoor_refl _ m) _ _ _ _

/-- The same for a body that leaves the door in SERVING and keeps its door. -/
theorem ran_delays {s : State} {m : Msg} (h : byController s m = true) (c : Cmd) (w : Waiting) (f : Dev → Dev)
    (ha : opAbsent s.dev.variant c.op = false)
    (hadm : ∀ M, c.admits (hostCtx s m) (copied m) { fresh s.dev with mbx := M } true = true)
    (hw : (if c.isWrite (copied m) then c.writeBy else c.readBy).contains .c = true
      ∨ (if c.isWrite (copied m) then c.writeBy else c.readBy).contains .p = true)
    (hcls : c.readCls ≠ .prov ∧ c.writeCls ≠ .prov)
    (hc : ∀ M, c.check (hostCtx s m) (copied m) { fresh s.dev with mbx := M } = none)
    (ht : ∀ t, c.tenant (copied m) = some t → tenantState s.dev t ≠ 2)
    (hb : ∀ M, c.body (hostCtx s m) (copied m) { fresh s.dev with mbx := M } = .wait w (f { fresh s.dev with mbx := M })) :
    delays (mailbox c m s) s m w f := by
  have hr := byController_ready h
  obtain ⟨M, po, hMl, hop, hmsg, hbt, -, hdoors, hmes⟩ := message_ready hr c.op (some c)
  obtain ⟨L, hL, hrun⟩ := runCmd_ran c (hostCtx s m) (copied m) { fresh s.dev with mbx := M } hMl (hc M)
    (serves_byController h _ (cls_ne hcls _)) ht
  have hrun := hrun.trans (hb { M with locks := L })
  have hon' : (fresh s.dev).pwr.aonUp = true := (ready_facts hr).1
  have hrw := show runWhole { fresh s.dev with mbx := M } c c.op m po (copied m)
      = setDoor (f { fresh s.dev with mbx := { M with locks := L } }) m.fn m.door.val
          { getDoor (f { fresh s.dev with mbx := { M with locks := L } }) m.fn m.door.val with
            phase := .serving, posted := none, partial_ := none, serving := some (po, w) } by
    simp only [runWhole, hbt, ctxOf_ready hr, hrun]
  have hall := serveNew_ready hr c { fresh s.dev with mbx := M } po hbt ha
    (allowed_byController h c _ M (hadm M) hw)
  refine ⟨{ M with locks := L }, { s with dev := runWhole { fresh s.dev with mbx := M } c c.op m po (copied m) },
    ⟨fun f k hk => hdoors f k hk, hL⟩, ?_, rfl, ?_, ?_⟩
  · unfold mailbox whenOn withDev
    simp only [hon', ite_true, hmes]
    rw [hall]
  · simp only [servingFor, hrw, getDoor_setDoor, ite_true, Option.map_some]
  · rw [hrw]
    exact butDoor_setDoor (butDoor_refl _ m) _

end Sys2Proof.Machine
end

