-- ==== Sys2Proof/Laws/Slots.lean ====
section
/-! SUPPORT. What counting the engine cycles can do: it moves counters, the issue order and the slots taken, and nothing a
dispatch is decided by. -/

namespace Sys2Proof.Machine

open Sys2Proof

/-- A device that differs in the counters, the number drawn next, the nodes' own state and the slots taken, at the most. -/
def Counted (d e : Dev) : Prop :=
  ∃ o f n u, e = { d with obs := o, free := f, arr := { d.arr with nodes := n, slotUses := u } }

theorem Counted.refl (d : Dev) : Counted d d := ⟨d.obs, d.free, d.arr.nodes, d.arr.slotUses, rfl⟩

theorem Counted.trans {a b c : Dev} (h : Counted a b) (g : Counted b c) : Counted a c := by
  obtain ⟨_, _, _, _, rfl⟩ := h
  obtain ⟨o, f, n, u, rfl⟩ := g
  exact ⟨o, f, n, u, rfl⟩

theorem foldl_counted {α : Type} (l : List α) (f : Dev → α → Dev) (h : ∀ d x, Counted d (f d x)) (d : Dev) :
    Counted d (l.foldl f d) := by
  induction l generalizing d with
  | nil => exact .refl d
  | cons x l ih => exact (h d x).trans (ih _)

theorem draw_counted (d : Dev) : Counted d (draw d).2 := ⟨d.obs, d.free + 1, d.arr.nodes, d.arr.slotUses, rfl⟩

theorem bumpCtr_counted (d : Dev) (i n : Nat) : Counted d (bumpCtr d i n) := ⟨_, d.free, d.arr.nodes, d.arr.slotUses, rfl⟩

theorem setNode_counted (d : Dev) (c : Nat) (x : NodeDyn) : Counted d (setNode d c x) := ⟨d.obs, d.free, _, d.arr.slotUses, rfl⟩

theorem slotUses_counted (d : Dev) (u : List ShareUse) : Counted d { d with arr := { d.arr with slotUses := u } } :=
  ⟨d.obs, d.free, d.arr.nodes, u, rfl⟩

theorem obs_counted (d : Dev) (o : ObsState) : Counted d { d with obs := o } := ⟨o, d.free, d.arr.nodes, d.arr.slotUses, rfl⟩

theorem ite_counted {d a b : Dev} {c : Prop} [Decidable c] (ha : Counted d a) (hb : Counted d b) :
    Counted d (if c then a else b) := by
  split
  · exact ha
  · exact hb

theorem levelCount_counted (d : Dev) (i n : Nat) (h : Bool) : Counted d (levelCount d i n h) := by
  have hb : Counted d (if Tab.get 0 d.obs.asserted i = b2n h then d
      else { d with obs := { d.obs with asserted := Tab.set 0 d.obs.asserted i (b2n h) } }) :=
    ite_counted (.refl d) (obs_counted d _)
  unfold levelCount
  refine ite_counted (.refl d) (ite_counted hb ?_)
  exact ite_counted (hb.trans (bumpCtr_counted _ _ _)) (ite_counted (hb.trans (bumpCtr_counted _ _ _)) hb)

theorem busyCount_counted (d : Dev) (i n : Nat) : Counted d (busyCount d i n) := by
  exact ite_counted (bumpCtr_counted d i n) (.refl d)

theorem freeParts_counted (is : List Nat) (n : Nat) (d : Dev) : Counted d (freeParts is n d) :=
  foldl_counted is _ (fun d _ => (draw_counted d).trans (bumpCtr_counted _ _ _)) d

theorem issueSlot_counted (d : Dev) (e t : Nat) (x : Context) (cycle : Nat) (w : Bool) :
    Counted d (issueSlot d e t x cycle w) := by
  have h : Counted d (bumpCtr (setNode d e { getNode d e with lastIssue := t }) (engineCtr e (if w then 2 else 1))) :=
    (setNode_counted d e _).trans (bumpCtr_counted _ _ _)
  exact ((ite_counted h (h.trans (bumpCtr_counted _ _ _))).trans (bumpCtr_counted _ _ _)).trans (slotUses_counted _ _)

theorem engineCycle_counted (on : Bool) (e cycle : Nat) (d : Dev) : Counted d (engineCycle on e cycle d) := by
  unfold engineCycle
  refine (draw_counted d).trans ?_
  simp only
  split
  · exact issueSlot_counted _ _ _ _ _ _
  · exact bumpCtr_counted _ _ _

theorem engineCycles_counted (on : Bool) (e n cycle : Nat) (d : Dev) : Counted d (engineCycles on e n cycle d) := by
  induction n generalizing cycle d with
  | zero => exact .refl d
  | succ n ih => exact (engineCycle_counted on e cycle d).trans (ih _ _)

theorem settleEngine_counted (d : Dev) (e n p : Nat) : Counted d (settleEngine d e n p) := by
  unfold settleEngine
  have h1 : Counted d (bumpCtr d (engineCtr e 0) n) := bumpCtr_counted _ _ _
  have h2 (d : Dev) (b : Bool) : Counted d (if b = true then d else bumpCtr d (engineCtr e 47) n) := by
    split
    · exact .refl d
    · exact bumpCtr_counted _ _ _
  have h3 (d : Dev) (l : List (Nat × Context)) : Counted d (l.foldl (fun d h =>
      countTenant (busyCount d (engineCtr e (8 + h.1)) n) h.2.desc.tenant 23 n) d) :=
    foldl_counted l _ (fun d _ => (busyCount_counted d _ n).trans (bumpCtr_counted _ _ _)) d
  have h4 (d : Dev) (b : Bool) :
      Counted d (levelCount (levelCount d (engineCtr e 33) n (arbFull d e)) (engineCtr e 38) n b) :=
    (levelCount_counted _ _ _ _).trans (levelCount_counted _ _ _ _)
  have h := (h1.trans (h2 _ (decide (nodePower d e = 0)))).trans (h3 _ (threadsAfter d e 7))
  have g := h.trans (h4 _ ((threadsAfter d e 7).any fun h => h.2.oldImage))
  refine ite_counted (g.trans (bumpCtr_counted _ _ _)) (g.trans ?_)
  exact ((engineCycles_counted _ _ _ _ _).trans (slotUses_counted _ _)).trans (freeParts_counted _ _ _)

theorem settleNest_counted (d : Dev) (c n : Nat) : Counted d (settleNest d c n) := by
  have h (a b : Bool) : Counted d (levelCount (levelCount (bumpCtr d (nestCtr c 0) n) (nestCtr c 3) n a) (nestCtr c 4) n b) :=
    (bumpCtr_counted d _ _).trans ((levelCount_counted _ _ _ _).trans (levelCount_counted _ _ _ _))
  have g (d : Dev) (x y z : Bool) : Counted d (freeParts ([16, 17].map (nestCtr c)) n
      (levelCount (levelCount (levelCount d (nestCtr c 20) n x) (nestCtr c 21) n y) (nestCtr c 22) n z)) :=
    ((levelCount_counted _ _ _ _).trans ((levelCount_counted _ _ _ _).trans (levelCount_counted _ _ _ _))).trans
      (freeParts_counted _ _ _)
  let waits := d.arr.queue.any fun x => decide (x.1 = c)
  exact ite_counted ((h waits _).trans (g _ _ _ _)) (h waits _)

theorem settleAt_counted (d : Dev) (c p : Nat) : Counted d (settleAt d c p) := by
  unfold settleAt
  have h : Counted d { d with obs := { d.obs with settled := Tab.set 0 d.obs.settled c (d.bt * 512 + p) } } := obs_counted d _
  simp only
  split
  · exact h
  · split
    · exact h.trans (settleEngine_counted _ _ _ _)
    · exact h.trans (settleNest_counted _ _ _)

theorem cycleNow_counted (d : Dev) : Counted d (cycleNow d).2 := (draw_counted d).trans (obs_counted (draw d).2 _)

/-- Bringing the cycle counters of nodes up to date changes nothing else. -/
theorem settleSome_counted (d : Dev) (cs : List Nat) : Counted d (settleSome d cs) :=
  (cycleNow_counted d).trans (foldl_counted cs _ (fun d c => settleAt_counted d c _) _)

theorem settleAll_counted (d : Dev) : Counted d (settleAll d) := settleSome_counted d _

/-- What a dispatch chooses among is not what counting changes. -/
theorem candidates_counted {d e : Dev} (h : Counted d e) (n : Nat) : candidates e n = candidates d n := by
  obtain ⟨_, _, _, _, rfl⟩ := h
  rfl

theorem chooseShare_one {α : Type} (a : α) (s : Share) : chooseShare [(a, s)] = some a := by
  unfold chooseShare
  by_cases h : (s.used : Rat) < s.target <;> simp [leastBy, h]

/-- A lone candidate that is not too old is what an engine grants. -/
theorem grantAt_one (d : Dev) (e : Nat) (c : Nat × Desc × List Nat) (hc : candidates d e = [c]) (hx : tooOld d c.2.1 = false) :
    (grantAt d e).1 = some c := by
  have h := settleAll_counted d
  have hs : candidates (settleAll d) e = [c] := (candidates_counted h e).trans hc
  have ho : tooOld (settleAll d) c.2.1 = false := by
    obtain ⟨_, _, _, _, h⟩ := h
    rw [h]
    exact hx
  unfold grantAt
  simp only [hc, List.isEmpty_cons, Bool.false_eq_true, if_false, nextGrant, hs, List.map_cons, List.map_nil, chooseShare_one, ho]

end Sys2Proof.Machine
end

