-- ==== Sys2Proof/Laws/State.lean ====
section
/-! SUPPORT. What each update of the state leaves as it was, one lemma per field, and what the read of a part gives
after a write of it. -/

namespace Sys2Proof.Machine

open Sys2Proof

/-! #### setRec -/

section

variable (d : Dev) (k : RecKind) (i v : Nat)

@[simp] theorem setRec_variant : (setRec d k i v).variant = d.variant := rfl
@[simp] theorem setRec_bt : (setRec d k i v).bt = d.bt := rfl
@[simp] theorem setRec_free : (setRec d k i v).free = d.free := rfl
@[simp] theorem setRec_stats : (setRec d k i v).stats = d.stats := rfl
@[simp] theorem setRec_atEdge : (setRec d k i v).atEdge = d.atEdge := rfl
@[simp] theorem setRec_ts : (setRec d k i v).ts = d.ts := rfl
@[simp] theorem setRec_hist : (setRec d k i v).hist = d.hist := rfl
@[simp] theorem setRec_leap : (setRec d k i v).leap = d.leap := rfl
@[simp] theorem setRec_mbx : (setRec d k i v).mbx = d.mbx := rfl
@[simp] theorem setRec_host : (setRec d k i v).host = d.host := rfl
@[simp] theorem setRec_obs : (setRec d k i v).obs = d.obs := rfl
@[simp] theorem setRec_ports : (setRec d k i v).ports = d.ports := rfl
@[simp] theorem setRec_arr : (setRec d k i v).arr = d.arr := rfl
@[simp] theorem setRec_ct : (setRec d k i v).ct = d.ct := rfl
@[simp] theorem setRec_ptp : (setRec d k i v).ptp = d.ptp := rfl
@[simp] theorem setRec_nts : (setRec d k i v).nts = d.nts := rfl
@[simp] theorem setRec_disc : (setRec d k i v).disc = d.disc := rfl
@[simp] theorem setRec_gnss : (setRec d k i v).gnss = d.gnss := rfl
@[simp] theorem setRec_tiu : (setRec d k i v).tiu = d.tiu := rfl
@[simp] theorem setRec_flt : (setRec d k i v).flt = d.flt := rfl
@[simp] theorem setRec_key : (setRec d k i v).key = d.key := rfl
@[simp] theorem setRec_pwr : (setRec d k i v).pwr = d.pwr := rfl
@[simp] theorem setRec_out : (setRec d k i v).out = d.out := rfl

end

/-! #### setFld -/

section

variable (d : Dev) (k : RecKind) (i : Nat) (f : Fld) (v : Nat)

@[simp] theorem setFld_variant : (setFld d k i f v).variant = d.variant := rfl
@[simp] theorem setFld_bt : (setFld d k i f v).bt = d.bt := rfl
@[simp] theorem setFld_free : (setFld d k i f v).free = d.free := rfl
@[simp] theorem setFld_stats : (setFld d k i f v).stats = d.stats := rfl
@[simp] theorem setFld_atEdge : (setFld d k i f v).atEdge = d.atEdge := rfl
@[simp] theorem setFld_ts : (setFld d k i f v).ts = d.ts := rfl
@[simp] theorem setFld_hist : (setFld d k i f v).hist = d.hist := rfl
@[simp] theorem setFld_leap : (setFld d k i f v).leap = d.leap := rfl
@[simp] theorem setFld_mbx : (setFld d k i f v).mbx = d.mbx := rfl
@[simp] theorem setFld_host : (setFld d k i f v).host = d.host := rfl
@[simp] theorem setFld_obs : (setFld d k i f v).obs = d.obs := rfl
@[simp] theorem setFld_ports : (setFld d k i f v).ports = d.ports := rfl
@[simp] theorem setFld_arr : (setFld d k i f v).arr = d.arr := rfl
@[simp] theorem setFld_ct : (setFld d k i f v).ct = d.ct := rfl
@[simp] theorem setFld_ptp : (setFld d k i f v).ptp = d.ptp := rfl
@[simp] theorem setFld_nts : (setFld d k i f v).nts = d.nts := rfl
@[simp] theorem setFld_disc : (setFld d k i f v).disc = d.disc := rfl
@[simp] theorem setFld_gnss : (setFld d k i f v).gnss = d.gnss := rfl
@[simp] theorem setFld_tiu : (setFld d k i f v).tiu = d.tiu := rfl
@[simp] theorem setFld_flt : (setFld d k i f v).flt = d.flt := rfl
@[simp] theorem setFld_key : (setFld d k i f v).key = d.key := rfl
@[simp] theorem setFld_pwr : (setFld d k i f v).pwr = d.pwr := rfl
@[simp] theorem setFld_out : (setFld d k i f v).out = d.out := rfl

end

/-! #### bumpFld -/

section

variable (d : Dev) (k : RecKind) (i : Nat) (f : Fld) (n : Nat)

@[simp] theorem bumpFld_variant : (bumpFld d k i f n).variant = d.variant := rfl
@[simp] theorem bumpFld_bt : (bumpFld d k i f n).bt = d.bt := rfl
@[simp] theorem bumpFld_free : (bumpFld d k i f n).free = d.free := rfl
@[simp] theorem bumpFld_stats : (bumpFld d k i f n).stats = d.stats := rfl
@[simp] theorem bumpFld_atEdge : (bumpFld d k i f n).atEdge = d.atEdge := rfl
@[simp] theorem bumpFld_ts : (bumpFld d k i f n).ts = d.ts := rfl
@[simp] theorem bumpFld_hist : (bumpFld d k i f n).hist = d.hist := rfl
@[simp] theorem bumpFld_leap : (bumpFld d k i f n).leap = d.leap := rfl
@[simp] theorem bumpFld_mbx : (bumpFld d k i f n).mbx = d.mbx := rfl
@[simp] theorem bumpFld_host : (bumpFld d k i f n).host = d.host := rfl
@[simp] theorem bumpFld_obs : (bumpFld d k i f n).obs = d.obs := rfl
@[simp] theorem bumpFld_ports : (bumpFld d k i f n).ports = d.ports := rfl
@[simp] theorem bumpFld_arr : (bumpFld d k i f n).arr = d.arr := rfl
@[simp] theorem bumpFld_ct : (bumpFld d k i f n).ct = d.ct := rfl
@[simp] theorem bumpFld_ptp : (bumpFld d k i f n).ptp = d.ptp := rfl
@[simp] theorem bumpFld_nts : (bumpFld d k i f n).nts = d.nts := rfl
@[simp] theorem bumpFld_disc : (bumpFld d k i f n).disc = d.disc := rfl
@[simp] theorem bumpFld_gnss : (bumpFld d k i f n).gnss = d.gnss := rfl
@[simp] theorem bumpFld_tiu : (bumpFld d k i f n).tiu = d.tiu := rfl
@[simp] theorem bumpFld_flt : (bumpFld d k i f n).flt = d.flt := rfl
@[simp] theorem bumpFld_key : (bumpFld d k i f n).key = d.key := rfl
@[simp] theorem bumpFld_pwr : (bumpFld d k i f n).pwr = d.pwr := rfl
@[simp] theorem bumpFld_out : (bumpFld d k i f n).out = d.out := rfl

end

/-! #### setStat -/

section

variable (d : Dev) (k : StatKind) (i n v : Nat)

@[simp] theorem setStat_variant : (setStat d k i n v).variant = d.variant := rfl
@[simp] theorem setStat_bt : (setStat d k i n v).bt = d.bt := rfl
@[simp] theorem setStat_free : (setStat d k i n v).free = d.free := rfl
@[simp] theorem setStat_recs : (setStat d k i n v).recs = d.recs := rfl
@[simp] theorem setStat_atEdge : (setStat d k i n v).atEdge = d.atEdge := rfl
@[simp] theorem setStat_ts : (setStat d k i n v).ts = d.ts := rfl
@[simp] theorem setStat_hist : (setStat d k i n v).hist = d.hist := rfl
@[simp] theorem setStat_leap : (setStat d k i n v).leap = d.leap := rfl
@[simp] theorem setStat_mbx : (setStat d k i n v).mbx = d.mbx := rfl
@[simp] theorem setStat_host : (setStat d k i n v).host = d.host := rfl
@[simp] theorem setStat_obs : (setStat d k i n v).obs = d.obs := rfl
@[simp] theorem setStat_ports : (setStat d k i n v).ports = d.ports := rfl
@[simp] theorem setStat_arr : (setStat d k i n v).arr = d.arr := rfl
@[simp] theorem setStat_ct : (setStat d k i n v).ct = d.ct := rfl
@[simp] theorem setStat_ptp : (setStat d k i n v).ptp = d.ptp := rfl
@[simp] theorem setStat_nts : (setStat d k i n v).nts = d.nts := rfl
@[simp] theorem setStat_disc : (setStat d k i n v).disc = d.disc := rfl
@[simp] theorem setStat_gnss : (setStat d k i n v).gnss = d.gnss := rfl
@[simp] theorem setStat_tiu : (setStat d k i n v).tiu = d.tiu := rfl
@[simp] theorem setStat_flt : (setStat d k i n v).flt = d.flt := rfl
@[simp] theorem setStat_key : (setStat d k i n v).key = d.key := rfl
@[simp] theorem setStat_pwr : (setStat d k i n v).pwr = d.pwr := rfl
@[simp] theorem setStat_out : (setStat d k i n v).out = d.out := rfl

end

/-! #### bumpStat -/

section

variable (d : Dev) (k : StatKind) (i n w b : Nat)

@[simp] theorem bumpStat_variant : (bumpStat d k i n w b).variant = d.variant := rfl
@[simp] theorem bumpStat_bt : (bumpStat d k i n w b).bt = d.bt := rfl
@[simp] theorem bumpStat_free : (bumpStat d k i n w b).free = d.free := rfl
@[simp] theorem bumpStat_recs : (bumpStat d k i n w b).recs = d.recs := rfl
@[simp] theorem bumpStat_atEdge : (bumpStat d k i n w b).atEdge = d.atEdge := rfl
@[simp] theorem bumpStat_ts : (bumpStat d k i n w b).ts = d.ts := rfl
@[simp] theorem bumpStat_hist : (bumpStat d k i n w b).hist = d.hist := rfl
@[simp] theorem bumpStat_leap : (bumpStat d k i n w b).leap = d.leap := rfl
@[simp] theorem bumpStat_mbx : (bumpStat d k i n w b).mbx = d.mbx := rfl
@[simp] theorem bumpStat_host : (bumpStat d k i n w b).host = d.host := rfl
@[simp] theorem bumpStat_obs : (bumpStat d k i n w b).obs = d.obs := rfl
@[simp] theorem bumpStat_ports : (bumpStat d k i n w b).ports = d.ports := rfl
@[simp] theorem bumpStat_arr : (bumpStat d k i n w b).arr = d.arr := rfl
@[simp] theorem bumpStat_ct : (bumpStat d k i n w b).ct = d.ct := rfl
@[simp] theorem bumpStat_ptp : (bumpStat d k i n w b).ptp = d.ptp := rfl
@[simp] theorem bumpStat_nts : (bumpStat d k i n w b).nts = d.nts := rfl
@[simp] theorem bumpStat_disc : (bumpStat d k i n w b).disc = d.disc := rfl
@[simp] theorem bumpStat_gnss : (bumpStat d k i n w b).gnss = d.gnss := rfl
@[simp] theorem bumpStat_tiu : (bumpStat d k i n w b).tiu = d.tiu := rfl
@[simp] theorem bumpStat_flt : (bumpStat d k i n w b).flt = d.flt := rfl
@[simp] theorem bumpStat_key : (bumpStat d k i n w b).key = d.key := rfl
@[simp] theorem bumpStat_pwr : (bumpStat d k i n w b).pwr = d.pwr := rfl
@[simp] theorem bumpStat_out : (bumpStat d k i n w b).out = d.out := rfl

end

/-! #### setTs -/

section

variable (d : Dev) (i : Nat) (t : Timescale)

@[simp] theorem setTs_variant : (setTs d i t).variant = d.variant := rfl
@[simp] theorem setTs_bt : (setTs d i t).bt = d.bt := rfl
@[simp] theorem setTs_free : (setTs d i t).free = d.free := rfl
@[simp] theorem setTs_recs : (setTs d i t).recs = d.recs := rfl
@[simp] theorem setTs_stats : (setTs d i t).stats = d.stats := rfl
@[simp] theorem setTs_atEdge : (setTs d i t).atEdge = d.atEdge := rfl
@[simp] theorem setTs_hist : (setTs d i t).hist = d.hist := rfl
@[simp] theorem setTs_leap : (setTs d i t).leap = d.leap := rfl
@[simp] theorem setTs_mbx : (setTs d i t).mbx = d.mbx := rfl
@[simp] theorem setTs_host : (setTs d i t).host = d.host := rfl
@[simp] theorem setTs_obs : (setTs d i t).obs = d.obs := rfl
@[simp] theorem setTs_ports : (setTs d i t).ports = d.ports := rfl
@[simp] theorem setTs_arr : (setTs d i t).arr = d.arr := rfl
@[simp] theorem setTs_ct : (setTs d i t).ct = d.ct := rfl
@[simp] theorem setTs_ptp : (setTs d i t).ptp = d.ptp := rfl
@[simp] theorem setTs_nts : (setTs d i t).nts = d.nts := rfl
@[simp] theorem setTs_disc : (setTs d i t).disc = d.disc := rfl
@[simp] theorem setTs_gnss : (setTs d i t).gnss = d.gnss := rfl
@[simp] theorem setTs_tiu : (setTs d i t).tiu = d.tiu := rfl
@[simp] theorem setTs_flt : (setTs d i t).flt = d.flt := rfl
@[simp] theorem setTs_key : (setTs d i t).key = d.key := rfl
@[simp] theorem setTs_pwr : (setTs d i t).pwr = d.pwr := rfl
@[simp] theorem setTs_out : (setTs d i t).out = d.out := rfl

end

/-! #### setFol -/

section

variable (d : Dev) (i : Nat) (x : Follower)

@[simp] theorem setFol_variant : (setFol d i x).variant = d.variant := rfl
@[simp] theorem setFol_bt : (setFol d i x).bt = d.bt := rfl
@[simp] theorem setFol_free : (setFol d i x).free = d.free := rfl
@[simp] theorem setFol_recs : (setFol d i x).recs = d.recs := rfl
@[simp] theorem setFol_stats : (setFol d i x).stats = d.stats := rfl
@[simp] theorem setFol_atEdge : (setFol d i x).atEdge = d.atEdge := rfl
@[simp] theorem setFol_hist : (setFol d i x).hist = d.hist := rfl
@[simp] theorem setFol_leap : (setFol d i x).leap = d.leap := rfl
@[simp] theorem setFol_mbx : (setFol d i x).mbx = d.mbx := rfl
@[simp] theorem setFol_host : (setFol d i x).host = d.host := rfl
@[simp] theorem setFol_obs : (setFol d i x).obs = d.obs := rfl
@[simp] theorem setFol_ports : (setFol d i x).ports = d.ports := rfl
@[simp] theorem setFol_arr : (setFol d i x).arr = d.arr := rfl
@[simp] theorem setFol_ct : (setFol d i x).ct = d.ct := rfl
@[simp] theorem setFol_ptp : (setFol d i x).ptp = d.ptp := rfl
@[simp] theorem setFol_nts : (setFol d i x).nts = d.nts := rfl
@[simp] theorem setFol_disc : (setFol d i x).disc = d.disc := rfl
@[simp] theorem setFol_gnss : (setFol d i x).gnss = d.gnss := rfl
@[simp] theorem setFol_tiu : (setFol d i x).tiu = d.tiu := rfl
@[simp] theorem setFol_flt : (setFol d i x).flt = d.flt := rfl
@[simp] theorem setFol_key : (setFol d i x).key = d.key := rfl
@[simp] theorem setFol_pwr : (setFol d i x).pwr = d.pwr := rfl
@[simp] theorem setFol_out : (setFol d i x).out = d.out := rfl

end

/-! #### setFn -/

section

variable (d : Dev) (f : Fn) (x : FnState)

@[simp] theorem setFn_variant : (setFn d f x).variant = d.variant := rfl
@[simp] theorem setFn_bt : (setFn d f x).bt = d.bt := rfl
@[simp] theorem setFn_free : (setFn d f x).free = d.free := rfl
@[simp] theorem setFn_recs : (setFn d f x).recs = d.recs := rfl
@[simp] theorem setFn_stats : (setFn d f x).stats = d.stats := rfl
@[simp] theorem setFn_atEdge : (setFn d f x).atEdge = d.atEdge := rfl
@[simp] theorem setFn_ts : (setFn d f x).ts = d.ts := rfl
@[simp] theorem setFn_hist : (setFn d f x).hist = d.hist := rfl
@[simp] theorem setFn_leap : (setFn d f x).leap = d.leap := rfl
@[simp] theorem setFn_mbx : (setFn d f x).mbx = d.mbx := rfl
@[simp] theorem setFn_obs : (setFn d f x).obs = d.obs := rfl
@[simp] theorem setFn_ports : (setFn d f x).ports = d.ports := rfl
@[simp] theorem setFn_arr : (setFn d f x).arr = d.arr := rfl
@[simp] theorem setFn_ct : (setFn d f x).ct = d.ct := rfl
@[simp] theorem setFn_ptp : (setFn d f x).ptp = d.ptp := rfl
@[simp] theorem setFn_nts : (setFn d f x).nts = d.nts := rfl
@[simp] theorem setFn_disc : (setFn d f x).disc = d.disc := rfl
@[simp] theorem setFn_gnss : (setFn d f x).gnss = d.gnss := rfl
@[simp] theorem setFn_tiu : (setFn d f x).tiu = d.tiu := rfl
@[simp] theorem setFn_flt : (setFn d f x).flt = d.flt := rfl
@[simp] theorem setFn_key : (setFn d f x).key = d.key := rfl
@[simp] theorem setFn_pwr : (setFn d f x).pwr = d.pwr := rfl
@[simp] theorem setFn_out : (setFn d f x).out = d.out := rfl

end

/-! #### setEp -/

section

variable (d : Dev) (e : Nat) (x : EpState)

@[simp] theorem setEp_variant : (setEp d e x).variant = d.variant := rfl
@[simp] theorem setEp_bt : (setEp d e x).bt = d.bt := rfl
@[simp] theorem setEp_free : (setEp d e x).free = d.free := rfl
@[simp] theorem setEp_recs : (setEp d e x).recs = d.recs := rfl
@[simp] theorem setEp_stats : (setEp d e x).stats = d.stats := rfl
@[simp] theorem setEp_atEdge : (setEp d e x).atEdge = d.atEdge := rfl
@[simp] theorem setEp_ts : (setEp d e x).ts = d.ts := rfl
@[simp] theorem setEp_hist : (setEp d e x).hist = d.hist := rfl
@[simp] theorem setEp_leap : (setEp d e x).leap = d.leap := rfl
@[simp] theorem setEp_mbx : (setEp d e x).mbx = d.mbx := rfl
@[simp] theorem setEp_obs : (setEp d e x).obs = d.obs := rfl
@[simp] theorem setEp_ports : (setEp d e x).ports = d.ports := rfl
@[simp] theorem setEp_arr : (setEp d e x).arr = d.arr := rfl
@[simp] theorem setEp_ct : (setEp d e x).ct = d.ct := rfl
@[simp] theorem setEp_ptp : (setEp d e x).ptp = d.ptp := rfl
@[simp] theorem setEp_nts : (setEp d e x).nts = d.nts := rfl
@[simp] theorem setEp_disc : (setEp d e x).disc = d.disc := rfl
@[simp] theorem setEp_gnss : (setEp d e x).gnss = d.gnss := rfl
@[simp] theorem setEp_tiu : (setEp d e x).tiu = d.tiu := rfl
@[simp] theorem setEp_flt : (setEp d e x).flt = d.flt := rfl
@[simp] theorem setEp_key : (setEp d e x).key = d.key := rfl
@[simp] theorem setEp_pwr : (setEp d e x).pwr = d.pwr := rfl
@[simp] theorem setEp_out : (setEp d e x).out = d.out := rfl

end

/-! #### setRing -/

section

variable (d : Dev) (f : Fn) (tx : Bool) (r : Nat) (x : RingState)

@[simp] theorem setRing_variant : (setRing d f tx r x).variant = d.variant := rfl
@[simp] theorem setRing_bt : (setRing d f tx r x).bt = d.bt := rfl
@[simp] theorem setRing_free : (setRing d f tx r x).free = d.free := rfl
@[simp] theorem setRing_recs : (setRing d f tx r x).recs = d.recs := rfl
@[simp] theorem setRing_stats : (setRing d f tx r x).stats = d.stats := rfl
@[simp] theorem setRing_atEdge : (setRing d f tx r x).atEdge = d.atEdge := rfl
@[simp] theorem setRing_ts : (setRing d f tx r x).ts = d.ts := rfl
@[simp] theorem setRing_hist : (setRing d f tx r x).hist = d.hist := rfl
@[simp] theorem setRing_leap : (setRing d f tx r x).leap = d.leap := rfl
@[simp] theorem setRing_mbx : (setRing d f tx r x).mbx = d.mbx := rfl
@[simp] theorem setRing_obs : (setRing d f tx r x).obs = d.obs := rfl
@[simp] theorem setRing_ports : (setRing d f tx r x).ports = d.ports := rfl
@[simp] theorem setRing_arr : (setRing d f tx r x).arr = d.arr := rfl
@[simp] theorem setRing_ct : (setRing d f tx r x).ct = d.ct := rfl
@[simp] theorem setRing_ptp : (setRing d f tx r x).ptp = d.ptp := rfl
@[simp] theorem setRing_nts : (setRing d f tx r x).nts = d.nts := rfl
@[simp] theorem setRing_disc : (setRing d f tx r x).disc = d.disc := rfl
@[simp] theorem setRing_gnss : (setRing d f tx r x).gnss = d.gnss := rfl
@[simp] theorem setRing_tiu : (setRing d f tx r x).tiu = d.tiu := rfl
@[simp] theorem setRing_flt : (setRing d f tx r x).flt = d.flt := rfl
@[simp] theorem setRing_key : (setRing d f tx r x).key = d.key := rfl
@[simp] theorem setRing_pwr : (setRing d f tx r x).pwr = d.pwr := rfl
@[simp] theorem setRing_out : (setRing d f tx r x).out = d.out := rfl

end

/-! #### setDoor -/

section

variable (d : Dev) (f : Fn) (k : Nat) (x : Door)

@[simp] theorem setDoor_variant : (setDoor d f k x).variant = d.variant := rfl
@[simp] theorem setDoor_bt : (setDoor d f k x).bt = d.bt := rfl
@[simp] theorem setDoor_free : (setDoor d f k x).free = d.free := rfl
@[simp] theorem setDoor_recs : (setDoor d f k x).recs = d.recs := rfl
@[simp] theorem setDoor_stats : (setDoor d f k x).stats = d.stats := rfl
@[simp] theorem setDoor_atEdge : (setDoor d f k x).atEdge = d.atEdge := rfl
@[simp] theorem setDoor_ts : (setDoor d f k x).ts = d.ts := rfl
@[simp] theorem setDoor_hist : (setDoor d f k x).hist = d.hist := rfl
@[simp] theorem setDoor_leap : (setDoor d f k x).leap = d.leap := rfl
@[simp] theorem setDoor_host : (setDoor d f k x).host = d.host := rfl
@[simp] theorem setDoor_obs : (setDoor d f k x).obs = d.obs := rfl
@[simp] theorem setDoor_ports : (setDoor d f k x).ports = d.ports := rfl
@[simp] theorem setDoor_arr : (setDoor d f k x).arr = d.arr := rfl
@[simp] theorem setDoor_ct : (setDoor d f k x).ct = d.ct := rfl
@[simp] theorem setDoor_ptp : (setDoor d f k x).ptp = d.ptp := rfl
@[simp] theorem setDoor_nts : (setDoor d f k x).nts = d.nts := rfl
@[simp] theorem setDoor_disc : (setDoor d f k x).disc = d.disc := rfl
@[simp] theorem setDoor_gnss : (setDoor d f k x).gnss = d.gnss := rfl
@[simp] theorem setDoor_tiu : (setDoor d f k x).tiu = d.tiu := rfl
@[simp] theorem setDoor_flt : (setDoor d f k x).flt = d.flt := rfl
@[simp] theorem setDoor_key : (setDoor d f k x).key = d.key := rfl
@[simp] theorem setDoor_pwr : (setDoor d f k x).pwr = d.pwr := rfl
@[simp] theorem setDoor_out : (setDoor d f k x).out = d.out := rfl

end

/-! #### setPort -/

section

variable (d : Dev) (p : Nat) (x : PortSt)

@[simp] theorem setPort_variant : (setPort d p x).variant = d.variant := rfl
@[simp] theorem setPort_bt : (setPort d p x).bt = d.bt := rfl
@[simp] theorem setPort_free : (setPort d p x).free = d.free := rfl
@[simp] theorem setPort_recs : (setPort d p x).recs = d.recs := rfl
@[simp] theorem setPort_stats : (setPort d p x).stats = d.stats := rfl
@[simp] theorem setPort_atEdge : (setPort d p x).atEdge = d.atEdge := rfl
@[simp] theorem setPort_ts : (setPort d p x).ts = d.ts := rfl
@[simp] theorem setPort_hist : (setPort d p x).hist = d.hist := rfl
@[simp] theorem setPort_leap : (setPort d p x).leap = d.leap := rfl
@[simp] theorem setPort_mbx : (setPort d p x).mbx = d.mbx := rfl
@[simp] theorem setPort_host : (setPort d p x).host = d.host := rfl
@[simp] theorem setPort_obs : (setPort d p x).obs = d.obs := rfl
@[simp] theorem setPort_arr : (setPort d p x).arr = d.arr := rfl
@[simp] theorem setPort_ct : (setPort d p x).ct = d.ct := rfl
@[simp] theorem setPort_ptp : (setPort d p x).ptp = d.ptp := rfl
@[simp] theorem setPort_nts : (setPort d p x).nts = d.nts := rfl
@[simp] theorem setPort_disc : (setPort d p x).disc = d.disc := rfl
@[simp] theorem setPort_gnss : (setPort d p x).gnss = d.gnss := rfl
@[simp] theorem setPort_tiu : (setPort d p x).tiu = d.tiu := rfl
@[simp] theorem setPort_flt : (setPort d p x).flt = d.flt := rfl
@[simp] theorem setPort_key : (setPort d p x).key = d.key := rfl
@[simp] theorem setPort_pwr : (setPort d p x).pwr = d.pwr := rfl
@[simp] theorem setPort_out : (setPort d p x).out = d.out := rfl

end

/-! #### setNode -/

section

variable (d : Dev) (c : Nat) (x : NodeDyn)

@[simp] theorem setNode_variant : (setNode d c x).variant = d.variant := rfl
@[simp] theorem setNode_bt : (setNode d c x).bt = d.bt := rfl
@[simp] theorem setNode_free : (setNode d c x).free = d.free := rfl
@[simp] theorem setNode_recs : (setNode d c x).recs = d.recs := rfl
@[simp] theorem setNode_stats : (setNode d c x).stats = d.stats := rfl
@[simp] theorem setNode_atEdge : (setNode d c x).atEdge = d.atEdge := rfl
@[simp] theorem setNode_ts : (setNode d c x).ts = d.ts := rfl
@[simp] theorem setNode_hist : (setNode d c x).hist = d.hist := rfl
@[simp] theorem setNode_leap : (setNode d c x).leap = d.leap := rfl
@[simp] theorem setNode_mbx : (setNode d c x).mbx = d.mbx := rfl
@[simp] theorem setNode_host : (setNode d c x).host = d.host := rfl
@[simp] theorem setNode_obs : (setNode d c x).obs = d.obs := rfl
@[simp] theorem setNode_ports : (setNode d c x).ports = d.ports := rfl
@[simp] theorem setNode_ct : (setNode d c x).ct = d.ct := rfl
@[simp] theorem setNode_ptp : (setNode d c x).ptp = d.ptp := rfl
@[simp] theorem setNode_nts : (setNode d c x).nts = d.nts := rfl
@[simp] theorem setNode_disc : (setNode d c x).disc = d.disc := rfl
@[simp] theorem setNode_gnss : (setNode d c x).gnss = d.gnss := rfl
@[simp] theorem setNode_tiu : (setNode d c x).tiu = d.tiu := rfl
@[simp] theorem setNode_flt : (setNode d c x).flt = d.flt := rfl
@[simp] theorem setNode_key : (setNode d c x).key = d.key := rfl
@[simp] theorem setNode_pwr : (setNode d c x).pwr = d.pwr := rfl
@[simp] theorem setNode_out : (setNode d c x).out = d.out := rfl

end

/-! #### setCtx -/

section

variable (d : Dev) (e t : Nat) (x : Option Context)

@[simp] theorem setCtx_variant : (setCtx d e t x).variant = d.variant := rfl
@[simp] theorem setCtx_bt : (setCtx d e t x).bt = d.bt := rfl
@[simp] theorem setCtx_free : (setCtx d e t x).free = d.free := rfl
@[simp] theorem setCtx_recs : (setCtx d e t x).recs = d.recs := rfl
@[simp] theorem setCtx_stats : (setCtx d e t x).stats = d.stats := rfl
@[simp] theorem setCtx_atEdge : (setCtx d e t x).atEdge = d.atEdge := rfl
@[simp] theorem setCtx_ts : (setCtx d e t x).ts = d.ts := rfl
@[simp] theorem setCtx_hist : (setCtx d e t x).hist = d.hist := rfl
@[simp] theorem setCtx_leap : (setCtx d e t x).leap = d.leap := rfl
@[simp] theorem setCtx_mbx : (setCtx d e t x).mbx = d.mbx := rfl
@[simp] theorem setCtx_host : (setCtx d e t x).host = d.host := rfl
@[simp] theorem setCtx_obs : (setCtx d e t x).obs = d.obs := rfl
@[simp] theorem setCtx_ports : (setCtx d e t x).ports = d.ports := rfl
@[simp] theorem setCtx_ct : (setCtx d e t x).ct = d.ct := rfl
@[simp] theorem setCtx_ptp : (setCtx d e t x).ptp = d.ptp := rfl
@[simp] theorem setCtx_nts : (setCtx d e t x).nts = d.nts := rfl
@[simp] theorem setCtx_disc : (setCtx d e t x).disc = d.disc := rfl
@[simp] theorem setCtx_gnss : (setCtx d e t x).gnss = d.gnss := rfl
@[simp] theorem setCtx_tiu : (setCtx d e t x).tiu = d.tiu := rfl
@[simp] theorem setCtx_flt : (setCtx d e t x).flt = d.flt := rfl
@[simp] theorem setCtx_key : (setCtx d e t x).key = d.key := rfl
@[simp] theorem setCtx_pwr : (setCtx d e t x).pwr = d.pwr := rfl
@[simp] theorem setCtx_out : (setCtx d e t x).out = d.out := rfl

end

/-! #### setChan -/

section

variable (d : Dev) (i : Nat) (x : Channel)

@[simp] theorem setChan_variant : (setChan d i x).variant = d.variant := rfl
@[simp] theorem setChan_bt : (setChan d i x).bt = d.bt := rfl
@[simp] theorem setChan_free : (setChan d i x).free = d.free := rfl
@[simp] theorem setChan_recs : (setChan d i x).recs = d.recs := rfl
@[simp] theorem setChan_stats : (setChan d i x).stats = d.stats := rfl
@[simp] theorem setChan_atEdge : (setChan d i x).atEdge = d.atEdge := rfl
@[simp] theorem setChan_ts : (setChan d i x).ts = d.ts := rfl
@[simp] theorem setChan_hist : (setChan d i x).hist = d.hist := rfl
@[simp] theorem setChan_leap : (setChan d i x).leap = d.leap := rfl
@[simp] theorem setChan_mbx : (setChan d i x).mbx = d.mbx := rfl
@[simp] theorem setChan_host : (setChan d i x).host = d.host := rfl
@[simp] theorem setChan_obs : (setChan d i x).obs = d.obs := rfl
@[simp] theorem setChan_ports : (setChan d i x).ports = d.ports := rfl
@[simp] theorem setChan_arr : (setChan d i x).arr = d.arr := rfl
@[simp] theorem setChan_ct : (setChan d i x).ct = d.ct := rfl
@[simp] theorem setChan_ptp : (setChan d i x).ptp = d.ptp := rfl
@[simp] theorem setChan_nts : (setChan d i x).nts = d.nts := rfl
@[simp] theorem setChan_disc : (setChan d i x).disc = d.disc := rfl
@[simp] theorem setChan_tiu : (setChan d i x).tiu = d.tiu := rfl
@[simp] theorem setChan_flt : (setChan d i x).flt = d.flt := rfl
@[simp] theorem setChan_key : (setChan d i x).key = d.key := rfl
@[simp] theorem setChan_pwr : (setChan d i x).pwr = d.pwr := rfl
@[simp] theorem setChan_out : (setChan d i x).out = d.out := rfl

end

/-! #### setAnt -/

section

variable (d : Dev) (a : Nat) (x : Antenna)

@[simp] theorem setAnt_variant : (setAnt d a x).variant = d.variant := rfl
@[simp] theorem setAnt_bt : (setAnt d a x).bt = d.bt := rfl
@[simp] theorem setAnt_free : (setAnt d a x).free = d.free := rfl
@[simp] theorem setAnt_recs : (setAnt d a x).recs = d.recs := rfl
@[simp] theorem setAnt_stats : (setAnt d a x).stats = d.stats := rfl
@[simp] theorem setAnt_atEdge : (setAnt d a x).atEdge = d.atEdge := rfl
@[simp] theorem setAnt_ts : (setAnt d a x).ts = d.ts := rfl
@[simp] theorem setAnt_hist : (setAnt d a x).hist = d.hist := rfl
@[simp] theorem setAnt_leap : (setAnt d a x).leap = d.leap := rfl
@[simp] theorem setAnt_mbx : (setAnt d a x).mbx = d.mbx := rfl
@[simp] theorem setAnt_host : (setAnt d a x).host = d.host := rfl
@[simp] theorem setAnt_obs : (setAnt d a x).obs = d.obs := rfl
@[simp] theorem setAnt_ports : (setAnt d a x).ports = d.ports := rfl
@[simp] theorem setAnt_arr : (setAnt d a x).arr = d.arr := rfl
@[simp] theorem setAnt_ct : (setAnt d a x).ct = d.ct := rfl
@[simp] theorem setAnt_ptp : (setAnt d a x).ptp = d.ptp := rfl
@[simp] theorem setAnt_nts : (setAnt d a x).nts = d.nts := rfl
@[simp] theorem setAnt_disc : (setAnt d a x).disc = d.disc := rfl
@[simp] theorem setAnt_tiu : (setAnt d a x).tiu = d.tiu := rfl
@[simp] theorem setAnt_flt : (setAnt d a x).flt = d.flt := rfl
@[simp] theorem setAnt_key : (setAnt d a x).key = d.key := rfl
@[simp] theorem setAnt_pwr : (setAnt d a x).pwr = d.pwr := rfl
@[simp] theorem setAnt_out : (setAnt d a x).out = d.out := rfl

end

/-! #### setIn -/

section

variable (d : Dev) (i : Nat) (x : TiuInput)

@[simp] theorem setIn_variant : (setIn d i x).variant = d.variant := rfl
@[simp] theorem setIn_bt : (setIn d i x).bt = d.bt := rfl
@[simp] theorem setIn_free : (setIn d i x).free = d.free := rfl
@[simp] theorem setIn_recs : (setIn d i x).recs = d.recs := rfl
@[simp] theorem setIn_stats : (setIn d i x).stats = d.stats := rfl
@[simp] theorem setIn_atEdge : (setIn d i x).atEdge = d.atEdge := rfl
@[simp] theorem setIn_ts : (setIn d i x).ts = d.ts := rfl
@[simp] theorem setIn_hist : (setIn d i x).hist = d.hist := rfl
@[simp] theorem setIn_leap : (setIn d i x).leap = d.leap := rfl
@[simp] theorem setIn_mbx : (setIn d i x).mbx = d.mbx := rfl
@[simp] theorem setIn_host : (setIn d i x).host = d.host := rfl
@[simp] theorem setIn_obs : (setIn d i x).obs = d.obs := rfl
@[simp] theorem setIn_ports : (setIn d i x).ports = d.ports := rfl
@[simp] theorem setIn_arr : (setIn d i x).arr = d.arr := rfl
@[simp] theorem setIn_ct : (setIn d i x).ct = d.ct := rfl
@[simp] theorem setIn_ptp : (setIn d i x).ptp = d.ptp := rfl
@[simp] theorem setIn_nts : (setIn d i x).nts = d.nts := rfl
@[simp] theorem setIn_disc : (setIn d i x).disc = d.disc := rfl
@[simp] theorem setIn_gnss : (setIn d i x).gnss = d.gnss := rfl
@[simp] theorem setIn_flt : (setIn d i x).flt = d.flt := rfl
@[simp] theorem setIn_key : (setIn d i x).key = d.key := rfl
@[simp] theorem setIn_pwr : (setIn d i x).pwr = d.pwr := rfl
@[simp] theorem setIn_out : (setIn d i x).out = d.out := rfl

end

/-! #### setOut -/

section

variable (d : Dev) (i : Nat) (x : TiuOutput)

@[simp] theorem setOut_variant : (setOut d i x).variant = d.variant := rfl
@[simp] theorem setOut_bt : (setOut d i x).bt = d.bt := rfl
@[simp] theorem setOut_free : (setOut d i x).free = d.free := rfl
@[simp] theorem setOut_recs : (setOut d i x).recs = d.recs := rfl
@[simp] theorem setOut_stats : (setOut d i x).stats = d.stats := rfl
@[simp] theorem setOut_atEdge : (setOut d i x).atEdge = d.atEdge := rfl
@[simp] theorem setOut_ts : (setOut d i x).ts = d.ts := rfl
@[simp] theorem setOut_hist : (setOut d i x).hist = d.hist := rfl
@[simp] theorem setOut_leap : (setOut d i x).leap = d.leap := rfl
@[simp] theorem setOut_mbx : (setOut d i x).mbx = d.mbx := rfl
@[simp] theorem setOut_host : (setOut d i x).host = d.host := rfl
@[simp] theorem setOut_obs : (setOut d i x).obs = d.obs := rfl
@[simp] theorem setOut_ports : (setOut d i x).ports = d.ports := rfl
@[simp] theorem setOut_arr : (setOut d i x).arr = d.arr := rfl
@[simp] theorem setOut_ct : (setOut d i x).ct = d.ct := rfl
@[simp] theorem setOut_ptp : (setOut d i x).ptp = d.ptp := rfl
@[simp] theorem setOut_nts : (setOut d i x).nts = d.nts := rfl
@[simp] theorem setOut_disc : (setOut d i x).disc = d.disc := rfl
@[simp] theorem setOut_gnss : (setOut d i x).gnss = d.gnss := rfl
@[simp] theorem setOut_flt : (setOut d i x).flt = d.flt := rfl
@[simp] theorem setOut_key : (setOut d i x).key = d.key := rfl
@[simp] theorem setOut_pwr : (setOut d i x).pwr = d.pwr := rfl
@[simp] theorem setOut_out : (setOut d i x).out = d.out := rfl

end

/-! #### setServo -/

section

variable (d : Dev) (m : Nat) (x : ServoDyn)

@[simp] theorem setServo_variant : (setServo d m x).variant = d.variant := rfl
@[simp] theorem setServo_bt : (setServo d m x).bt = d.bt := rfl
@[simp] theorem setServo_free : (setServo d m x).free = d.free := rfl
@[simp] theorem setServo_recs : (setServo d m x).recs = d.recs := rfl
@[simp] theorem setServo_stats : (setServo d m x).stats = d.stats := rfl
@[simp] theorem setServo_atEdge : (setServo d m x).atEdge = d.atEdge := rfl
@[simp] theorem setServo_ts : (setServo d m x).ts = d.ts := rfl
@[simp] theorem setServo_hist : (setServo d m x).hist = d.hist := rfl
@[simp] theorem setServo_leap : (setServo d m x).leap = d.leap := rfl
@[simp] theorem setServo_mbx : (setServo d m x).mbx = d.mbx := rfl
@[simp] theorem setServo_host : (setServo d m x).host = d.host := rfl
@[simp] theorem setServo_obs : (setServo d m x).obs = d.obs := rfl
@[simp] theorem setServo_ports : (setServo d m x).ports = d.ports := rfl
@[simp] theorem setServo_arr : (setServo d m x).arr = d.arr := rfl
@[simp] theorem setServo_ct : (setServo d m x).ct = d.ct := rfl
@[simp] theorem setServo_ptp : (setServo d m x).ptp = d.ptp := rfl
@[simp] theorem setServo_nts : (setServo d m x).nts = d.nts := rfl
@[simp] theorem setServo_gnss : (setServo d m x).gnss = d.gnss := rfl
@[simp] theorem setServo_tiu : (setServo d m x).tiu = d.tiu := rfl
@[simp] theorem setServo_flt : (setServo d m x).flt = d.flt := rfl
@[simp] theorem setServo_key : (setServo d m x).key = d.key := rfl
@[simp] theorem setServo_pwr : (setServo d m x).pwr = d.pwr := rfl
@[simp] theorem setServo_out : (setServo d m x).out = d.out := rfl

end

/-! #### setRef -/

section

variable (d : Dev) (r : Nat) (x : RefDyn)

@[simp] theorem setRef_variant : (setRef d r x).variant = d.variant := rfl
@[simp] theorem setRef_bt : (setRef d r x).bt = d.bt := rfl
@[simp] theorem setRef_free : (setRef d r x).free = d.free := rfl
@[simp] theorem setRef_recs : (setRef d r x).recs = d.recs := rfl
@[simp] theorem setRef_stats : (setRef d r x).stats = d.stats := rfl
@[simp] theorem setRef_atEdge : (setRef d r x).atEdge = d.atEdge := rfl
@[simp] theorem setRef_ts : (setRef d r x).ts = d.ts := rfl
@[simp] theorem setRef_hist : (setRef d r x).hist = d.hist := rfl
@[simp] theorem setRef_leap : (setRef d r x).leap = d.leap := rfl
@[simp] theorem setRef_mbx : (setRef d r x).mbx = d.mbx := rfl
@[simp] theorem setRef_host : (setRef d r x).host = d.host := rfl
@[simp] theorem setRef_obs : (setRef d r x).obs = d.obs := rfl
@[simp] theorem setRef_ports : (setRef d r x).ports = d.ports := rfl
@[simp] theorem setRef_arr : (setRef d r x).arr = d.arr := rfl
@[simp] theorem setRef_ct : (setRef d r x).ct = d.ct := rfl
@[simp] theorem setRef_ptp : (setRef d r x).ptp = d.ptp := rfl
@[simp] theorem setRef_nts : (setRef d r x).nts = d.nts := rfl
@[simp] theorem setRef_gnss : (setRef d r x).gnss = d.gnss := rfl
@[simp] theorem setRef_tiu : (setRef d r x).tiu = d.tiu := rfl
@[simp] theorem setRef_flt : (setRef d r x).flt = d.flt := rfl
@[simp] theorem setRef_key : (setRef d r x).key = d.key := rfl
@[simp] theorem setRef_pwr : (setRef d r x).pwr = d.pwr := rfl
@[simp] theorem setRef_out : (setRef d r x).out = d.out := rfl

end

/-! #### setClient -/

section

variable (d : Dev) (m : Nat) (x : ClientInst)

@[simp] theorem setClient_variant : (setClient d m x).variant = d.variant := rfl
@[simp] theorem setClient_bt : (setClient d m x).bt = d.bt := rfl
@[simp] theorem setClient_free : (setClient d m x).free = d.free := rfl
@[simp] theorem setClient_recs : (setClient d m x).recs = d.recs := rfl
@[simp] theorem setClient_stats : (setClient d m x).stats = d.stats := rfl
@[simp] theorem setClient_atEdge : (setClient d m x).atEdge = d.atEdge := rfl
@[simp] theorem setClient_ts : (setClient d m x).ts = d.ts := rfl
@[simp] theorem setClient_hist : (setClient d m x).hist = d.hist := rfl
@[simp] theorem setClient_leap : (setClient d m x).leap = d.leap := rfl
@[simp] theorem setClient_mbx : (setClient d m x).mbx = d.mbx := rfl
@[simp] theorem setClient_host : (setClient d m x).host = d.host := rfl
@[simp] theorem setClient_obs : (setClient d m x).obs = d.obs := rfl
@[simp] theorem setClient_ports : (setClient d m x).ports = d.ports := rfl
@[simp] theorem setClient_arr : (setClient d m x).arr = d.arr := rfl
@[simp] theorem setClient_ct : (setClient d m x).ct = d.ct := rfl
@[simp] theorem setClient_nts : (setClient d m x).nts = d.nts := rfl
@[simp] theorem setClient_disc : (setClient d m x).disc = d.disc := rfl
@[simp] theorem setClient_gnss : (setClient d m x).gnss = d.gnss := rfl
@[simp] theorem setClient_tiu : (setClient d m x).tiu = d.tiu := rfl
@[simp] theorem setClient_flt : (setClient d m x).flt = d.flt := rfl
@[simp] theorem setClient_key : (setClient d m x).key = d.key := rfl
@[simp] theorem setClient_pwr : (setClient d m x).pwr = d.pwr := rfl
@[simp] theorem setClient_out : (setClient d m x).out = d.out := rfl

end

/-! #### setGrant -/

section

variable (d : Dev) (g : Nat) (x : Option GrantEntry)

@[simp] theorem setGrant_variant : (setGrant d g x).variant = d.variant := rfl
@[simp] theorem setGrant_bt : (setGrant d g x).bt = d.bt := rfl
@[simp] theorem setGrant_free : (setGrant d g x).free = d.free := rfl
@[simp] theorem setGrant_recs : (setGrant d g x).recs = d.recs := rfl
@[simp] theorem setGrant_stats : (setGrant d g x).stats = d.stats := rfl
@[simp] theorem setGrant_atEdge : (setGrant d g x).atEdge = d.atEdge := rfl
@[simp] theorem setGrant_ts : (setGrant d g x).ts = d.ts := rfl
@[simp] theorem setGrant_hist : (setGrant d g x).hist = d.hist := rfl
@[simp] theorem setGrant_leap : (setGrant d g x).leap = d.leap := rfl
@[simp] theorem setGrant_mbx : (setGrant d g x).mbx = d.mbx := rfl
@[simp] theorem setGrant_host : (setGrant d g x).host = d.host := rfl
@[simp] theorem setGrant_obs : (setGrant d g x).obs = d.obs := rfl
@[simp] theorem setGrant_ports : (setGrant d g x).ports = d.ports := rfl
@[simp] theorem setGrant_arr : (setGrant d g x).arr = d.arr := rfl
@[simp] theorem setGrant_ct : (setGrant d g x).ct = d.ct := rfl
@[simp] theorem setGrant_nts : (setGrant d g x).nts = d.nts := rfl
@[simp] theorem setGrant_disc : (setGrant d g x).disc = d.disc := rfl
@[simp] theorem setGrant_gnss : (setGrant d g x).gnss = d.gnss := rfl
@[simp] theorem setGrant_tiu : (setGrant d g x).tiu = d.tiu := rfl
@[simp] theorem setGrant_flt : (setGrant d g x).flt = d.flt := rfl
@[simp] theorem setGrant_key : (setGrant d g x).key = d.key := rfl
@[simp] theorem setGrant_pwr : (setGrant d g x).pwr = d.pwr := rfl
@[simp] theorem setGrant_out : (setGrant d g x).out = d.out := rfl

end

/-! #### setCtr -/

section

variable (d : Dev) (i v : Nat)

@[simp] theorem setCtr_variant : (setCtr d i v).variant = d.variant := rfl
@[simp] theorem setCtr_bt : (setCtr d i v).bt = d.bt := rfl
@[simp] theorem setCtr_free : (setCtr d i v).free = d.free := rfl
@[simp] theorem setCtr_recs : (setCtr d i v).recs = d.recs := rfl
@[simp] theorem setCtr_stats : (setCtr d i v).stats = d.stats := rfl
@[simp] theorem setCtr_atEdge : (setCtr d i v).atEdge = d.atEdge := rfl
@[simp] theorem setCtr_ts : (setCtr d i v).ts = d.ts := rfl
@[simp] theorem setCtr_hist : (setCtr d i v).hist = d.hist := rfl
@[simp] theorem setCtr_leap : (setCtr d i v).leap = d.leap := rfl
@[simp] theorem setCtr_mbx : (setCtr d i v).mbx = d.mbx := rfl
@[simp] theorem setCtr_host : (setCtr d i v).host = d.host := rfl
@[simp] theorem setCtr_ports : (setCtr d i v).ports = d.ports := rfl
@[simp] theorem setCtr_arr : (setCtr d i v).arr = d.arr := rfl
@[simp] theorem setCtr_ct : (setCtr d i v).ct = d.ct := rfl
@[simp] theorem setCtr_ptp : (setCtr d i v).ptp = d.ptp := rfl
@[simp] theorem setCtr_nts : (setCtr d i v).nts = d.nts := rfl
@[simp] theorem setCtr_disc : (setCtr d i v).disc = d.disc := rfl
@[simp] theorem setCtr_gnss : (setCtr d i v).gnss = d.gnss := rfl
@[simp] theorem setCtr_tiu : (setCtr d i v).tiu = d.tiu := rfl
@[simp] theorem setCtr_flt : (setCtr d i v).flt = d.flt := rfl
@[simp] theorem setCtr_key : (setCtr d i v).key = d.key := rfl
@[simp] theorem setCtr_pwr : (setCtr d i v).pwr = d.pwr := rfl
@[simp] theorem setCtr_out : (setCtr d i v).out = d.out := rfl

end

/-! #### setWaiting -/

section

variable (d : Dev) (k : Nat) (l : List LaneJob)

@[simp] theorem setWaiting_variant : (setWaiting d k l).variant = d.variant := rfl
@[simp] theorem setWaiting_bt : (setWaiting d k l).bt = d.bt := rfl
@[simp] theorem setWaiting_free : (setWaiting d k l).free = d.free := rfl
@[simp] theorem setWaiting_recs : (setWaiting d k l).recs = d.recs := rfl
@[simp] theorem setWaiting_stats : (setWaiting d k l).stats = d.stats := rfl
@[simp] theorem setWaiting_atEdge : (setWaiting d k l).atEdge = d.atEdge := rfl
@[simp] theorem setWaiting_ts : (setWaiting d k l).ts = d.ts := rfl
@[simp] theorem setWaiting_hist : (setWaiting d k l).hist = d.hist := rfl
@[simp] theorem setWaiting_leap : (setWaiting d k l).leap = d.leap := rfl
@[simp] theorem setWaiting_mbx : (setWaiting d k l).mbx = d.mbx := rfl
@[simp] theorem setWaiting_host : (setWaiting d k l).host = d.host := rfl
@[simp] theorem setWaiting_obs : (setWaiting d k l).obs = d.obs := rfl
@[simp] theorem setWaiting_ports : (setWaiting d k l).ports = d.ports := rfl
@[simp] theorem setWaiting_ct : (setWaiting d k l).ct = d.ct := rfl
@[simp] theorem setWaiting_ptp : (setWaiting d k l).ptp = d.ptp := rfl
@[simp] theorem setWaiting_nts : (setWaiting d k l).nts = d.nts := rfl
@[simp] theorem setWaiting_disc : (setWaiting d k l).disc = d.disc := rfl
@[simp] theorem setWaiting_gnss : (setWaiting d k l).gnss = d.gnss := rfl
@[simp] theorem setWaiting_tiu : (setWaiting d k l).tiu = d.tiu := rfl
@[simp] theorem setWaiting_flt : (setWaiting d k l).flt = d.flt := rfl
@[simp] theorem setWaiting_key : (setWaiting d k l).key = d.key := rfl
@[simp] theorem setWaiting_pwr : (setWaiting d k l).pwr = d.pwr := rfl
@[simp] theorem setWaiting_out : (setWaiting d k l).out = d.out := rfl

end

/-! #### setFull -/

section

variable (d : Dev) (k : Nat) (l : List LaneJob)

@[simp] theorem setFull_variant : (setFull d k l).variant = d.variant := rfl
@[simp] theorem setFull_bt : (setFull d k l).bt = d.bt := rfl
@[simp] theorem setFull_free : (setFull d k l).free = d.free := rfl
@[simp] theorem setFull_recs : (setFull d k l).recs = d.recs := rfl
@[simp] theorem setFull_stats : (setFull d k l).stats = d.stats := rfl
@[simp] theorem setFull_atEdge : (setFull d k l).atEdge = d.atEdge := rfl
@[simp] theorem setFull_ts : (setFull d k l).ts = d.ts := rfl
@[simp] theorem setFull_hist : (setFull d k l).hist = d.hist := rfl
@[simp] theorem setFull_leap : (setFull d k l).leap = d.leap := rfl
@[simp] theorem setFull_mbx : (setFull d k l).mbx = d.mbx := rfl
@[simp] theorem setFull_host : (setFull d k l).host = d.host := rfl
@[simp] theorem setFull_obs : (setFull d k l).obs = d.obs := rfl
@[simp] theorem setFull_ports : (setFull d k l).ports = d.ports := rfl
@[simp] theorem setFull_ct : (setFull d k l).ct = d.ct := rfl
@[simp] theorem setFull_ptp : (setFull d k l).ptp = d.ptp := rfl
@[simp] theorem setFull_nts : (setFull d k l).nts = d.nts := rfl
@[simp] theorem setFull_disc : (setFull d k l).disc = d.disc := rfl
@[simp] theorem setFull_gnss : (setFull d k l).gnss = d.gnss := rfl
@[simp] theorem setFull_tiu : (setFull d k l).tiu = d.tiu := rfl
@[simp] theorem setFull_flt : (setFull d k l).flt = d.flt := rfl
@[simp] theorem setFull_key : (setFull d k l).key = d.key := rfl
@[simp] theorem setFull_pwr : (setFull d k l).pwr = d.pwr := rfl
@[simp] theorem setFull_out : (setFull d k l).out = d.out := rfl

end

/-! #### setLane -/

section

variable (d : Dev) (l : Nat) (r : Option LaneRun)

@[simp] theorem setLane_variant : (setLane d l r).variant = d.variant := rfl
@[simp] theorem setLane_bt : (setLane d l r).bt = d.bt := rfl
@[simp] theorem setLane_free : (setLane d l r).free = d.free := rfl
@[simp] theorem setLane_recs : (setLane d l r).recs = d.recs := rfl
@[simp] theorem setLane_stats : (setLane d l r).stats = d.stats := rfl
@[simp] theorem setLane_atEdge : (setLane d l r).atEdge = d.atEdge := rfl
@[simp] theorem setLane_ts : (setLane d l r).ts = d.ts := rfl
@[simp] theorem setLane_hist : (setLane d l r).hist = d.hist := rfl
@[simp] theorem setLane_leap : (setLane d l r).leap = d.leap := rfl
@[simp] theorem setLane_mbx : (setLane d l r).mbx = d.mbx := rfl
@[simp] theorem setLane_host : (setLane d l r).host = d.host := rfl
@[simp] theorem setLane_obs : (setLane d l r).obs = d.obs := rfl
@[simp] theorem setLane_ports : (setLane d l r).ports = d.ports := rfl
@[simp] theorem setLane_ct : (setLane d l r).ct = d.ct := rfl
@[simp] theorem setLane_ptp : (setLane d l r).ptp = d.ptp := rfl
@[simp] theorem setLane_nts : (setLane d l r).nts = d.nts := rfl
@[simp] theorem setLane_disc : (setLane d l r).disc = d.disc := rfl
@[simp] theorem setLane_gnss : (setLane d l r).gnss = d.gnss := rfl
@[simp] theorem setLane_tiu : (setLane d l r).tiu = d.tiu := rfl
@[simp] theorem setLane_flt : (setLane d l r).flt = d.flt := rfl
@[simp] theorem setLane_key : (setLane d l r).key = d.key := rfl
@[simp] theorem setLane_pwr : (setLane d l r).pwr = d.pwr := rfl
@[simp] theorem setLane_out : (setLane d l r).out = d.out := rfl

end

/-! #### setEntry -/

section

variable (d : Dev) (i v : Nat)

@[simp] theorem setEntry_variant : (setEntry d i v).variant = d.variant := rfl
@[simp] theorem setEntry_bt : (setEntry d i v).bt = d.bt := rfl
@[simp] theorem setEntry_free : (setEntry d i v).free = d.free := rfl
@[simp] theorem setEntry_recs : (setEntry d i v).recs = d.recs := rfl
@[simp] theorem setEntry_stats : (setEntry d i v).stats = d.stats := rfl
@[simp] theorem setEntry_atEdge : (setEntry d i v).atEdge = d.atEdge := rfl
@[simp] theorem setEntry_ts : (setEntry d i v).ts = d.ts := rfl
@[simp] theorem setEntry_hist : (setEntry d i v).hist = d.hist := rfl
@[simp] theorem setEntry_leap : (setEntry d i v).leap = d.leap := rfl
@[simp] theorem setEntry_mbx : (setEntry d i v).mbx = d.mbx := rfl
@[simp] theorem setEntry_host : (setEntry d i v).host = d.host := rfl
@[simp] theorem setEntry_obs : (setEntry d i v).obs = d.obs := rfl
@[simp] theorem setEntry_ports : (setEntry d i v).ports = d.ports := rfl
@[simp] theorem setEntry_arr : (setEntry d i v).arr = d.arr := rfl
@[simp] theorem setEntry_ptp : (setEntry d i v).ptp = d.ptp := rfl
@[simp] theorem setEntry_nts : (setEntry d i v).nts = d.nts := rfl
@[simp] theorem setEntry_disc : (setEntry d i v).disc = d.disc := rfl
@[simp] theorem setEntry_gnss : (setEntry d i v).gnss = d.gnss := rfl
@[simp] theorem setEntry_tiu : (setEntry d i v).tiu = d.tiu := rfl
@[simp] theorem setEntry_flt : (setEntry d i v).flt = d.flt := rfl
@[simp] theorem setEntry_key : (setEntry d i v).key = d.key := rfl
@[simp] theorem setEntry_pwr : (setEntry d i v).pwr = d.pwr := rfl
@[simp] theorem setEntry_out : (setEntry d i v).out = d.out := rfl

end

/-! #### setBucket -/

section

variable (d : Dev) (t : Nat) (b : Bucket)

@[simp] theorem setBucket_variant : (setBucket d t b).variant = d.variant := rfl
@[simp] theorem setBucket_bt : (setBucket d t b).bt = d.bt := rfl
@[simp] theorem setBucket_free : (setBucket d t b).free = d.free := rfl
@[simp] theorem setBucket_recs : (setBucket d t b).recs = d.recs := rfl
@[simp] theorem setBucket_stats : (setBucket d t b).stats = d.stats := rfl
@[simp] theorem setBucket_atEdge : (setBucket d t b).atEdge = d.atEdge := rfl
@[simp] theorem setBucket_ts : (setBucket d t b).ts = d.ts := rfl
@[simp] theorem setBucket_hist : (setBucket d t b).hist = d.hist := rfl
@[simp] theorem setBucket_leap : (setBucket d t b).leap = d.leap := rfl
@[simp] theorem setBucket_mbx : (setBucket d t b).mbx = d.mbx := rfl
@[simp] theorem setBucket_obs : (setBucket d t b).obs = d.obs := rfl
@[simp] theorem setBucket_ports : (setBucket d t b).ports = d.ports := rfl
@[simp] theorem setBucket_arr : (setBucket d t b).arr = d.arr := rfl
@[simp] theorem setBucket_ct : (setBucket d t b).ct = d.ct := rfl
@[simp] theorem setBucket_ptp : (setBucket d t b).ptp = d.ptp := rfl
@[simp] theorem setBucket_nts : (setBucket d t b).nts = d.nts := rfl
@[simp] theorem setBucket_disc : (setBucket d t b).disc = d.disc := rfl
@[simp] theorem setBucket_gnss : (setBucket d t b).gnss = d.gnss := rfl
@[simp] theorem setBucket_tiu : (setBucket d t b).tiu = d.tiu := rfl
@[simp] theorem setBucket_flt : (setBucket d t b).flt = d.flt := rfl
@[simp] theorem setBucket_key : (setBucket d t b).key = d.key := rfl
@[simp] theorem setBucket_pwr : (setBucket d t b).pwr = d.pwr := rfl
@[simp] theorem setBucket_out : (setBucket d t b).out = d.out := rfl

end

/-! #### setOtp -/

section

variable (d : Dev) (o : Otp)

@[simp] theorem setOtp_variant : (setOtp d o).variant = d.variant := rfl
@[simp] theorem setOtp_bt : (setOtp d o).bt = d.bt := rfl
@[simp] theorem setOtp_free : (setOtp d o).free = d.free := rfl
@[simp] theorem setOtp_recs : (setOtp d o).recs = d.recs := rfl
@[simp] theorem setOtp_stats : (setOtp d o).stats = d.stats := rfl
@[simp] theorem setOtp_atEdge : (setOtp d o).atEdge = d.atEdge := rfl
@[simp] theorem setOtp_ts : (setOtp d o).ts = d.ts := rfl
@[simp] theorem setOtp_hist : (setOtp d o).hist = d.hist := rfl
@[simp] theorem setOtp_leap : (setOtp d o).leap = d.leap := rfl
@[simp] theorem setOtp_mbx : (setOtp d o).mbx = d.mbx := rfl
@[simp] theorem setOtp_host : (setOtp d o).host = d.host := rfl
@[simp] theorem setOtp_obs : (setOtp d o).obs = d.obs := rfl
@[simp] theorem setOtp_ports : (setOtp d o).ports = d.ports := rfl
@[simp] theorem setOtp_arr : (setOtp d o).arr = d.arr := rfl
@[simp] theorem setOtp_ct : (setOtp d o).ct = d.ct := rfl
@[simp] theorem setOtp_ptp : (setOtp d o).ptp = d.ptp := rfl
@[simp] theorem setOtp_nts : (setOtp d o).nts = d.nts := rfl
@[simp] theorem setOtp_disc : (setOtp d o).disc = d.disc := rfl
@[simp] theorem setOtp_gnss : (setOtp d o).gnss = d.gnss := rfl
@[simp] theorem setOtp_tiu : (setOtp d o).tiu = d.tiu := rfl
@[simp] theorem setOtp_flt : (setOtp d o).flt = d.flt := rfl
@[simp] theorem setOtp_pwr : (setOtp d o).pwr = d.pwr := rfl
@[simp] theorem setOtp_out : (setOtp d o).out = d.out := rfl

end

/-! #### setFlash -/

section

variable (d : Dev) (s : Nat) (x : FlashSlot)

@[simp] theorem setFlash_variant : (setFlash d s x).variant = d.variant := rfl
@[simp] theorem setFlash_bt : (setFlash d s x).bt = d.bt := rfl
@[simp] theorem setFlash_free : (setFlash d s x).free = d.free := rfl
@[simp] theorem setFlash_recs : (setFlash d s x).recs = d.recs := rfl
@[simp] theorem setFlash_stats : (setFlash d s x).stats = d.stats := rfl
@[simp] theorem setFlash_atEdge : (setFlash d s x).atEdge = d.atEdge := rfl
@[simp] theorem setFlash_ts : (setFlash d s x).ts = d.ts := rfl
@[simp] theorem setFlash_hist : (setFlash d s x).hist = d.hist := rfl
@[simp] theorem setFlash_leap : (setFlash d s x).leap = d.leap := rfl
@[simp] theorem setFlash_mbx : (setFlash d s x).mbx = d.mbx := rfl
@[simp] theorem setFlash_host : (setFlash d s x).host = d.host := rfl
@[simp] theorem setFlash_obs : (setFlash d s x).obs = d.obs := rfl
@[simp] theorem setFlash_ports : (setFlash d s x).ports = d.ports := rfl
@[simp] theorem setFlash_arr : (setFlash d s x).arr = d.arr := rfl
@[simp] theorem setFlash_ct : (setFlash d s x).ct = d.ct := rfl
@[simp] theorem setFlash_ptp : (setFlash d s x).ptp = d.ptp := rfl
@[simp] theorem setFlash_nts : (setFlash d s x).nts = d.nts := rfl
@[simp] theorem setFlash_disc : (setFlash d s x).disc = d.disc := rfl
@[simp] theorem setFlash_gnss : (setFlash d s x).gnss = d.gnss := rfl
@[simp] theorem setFlash_tiu : (setFlash d s x).tiu = d.tiu := rfl
@[simp] theorem setFlash_flt : (setFlash d s x).flt = d.flt := rfl
@[simp] theorem setFlash_pwr : (setFlash d s x).pwr = d.pwr := rfl
@[simp] theorem setFlash_out : (setFlash d s x).out = d.out := rfl

end

/-! #### setRunning -/

section

variable (d : Dev) (b : Nat) (x : Option (BenchReq × Nat))

@[simp] theorem setRunning_variant : (setRunning d b x).variant = d.variant := rfl
@[simp] theorem setRunning_bt : (setRunning d b x).bt = d.bt := rfl
@[simp] theorem setRunning_free : (setRunning d b x).free = d.free := rfl
@[simp] theorem setRunning_recs : (setRunning d b x).recs = d.recs := rfl
@[simp] theorem setRunning_stats : (setRunning d b x).stats = d.stats := rfl
@[simp] theorem setRunning_atEdge : (setRunning d b x).atEdge = d.atEdge := rfl
@[simp] theorem setRunning_ts : (setRunning d b x).ts = d.ts := rfl
@[simp] theorem setRunning_hist : (setRunning d b x).hist = d.hist := rfl
@[simp] theorem setRunning_leap : (setRunning d b x).leap = d.leap := rfl
@[simp] theorem setRunning_mbx : (setRunning d b x).mbx = d.mbx := rfl
@[simp] theorem setRunning_host : (setRunning d b x).host = d.host := rfl
@[simp] theorem setRunning_obs : (setRunning d b x).obs = d.obs := rfl
@[simp] theorem setRunning_ports : (setRunning d b x).ports = d.ports := rfl
@[simp] theorem setRunning_arr : (setRunning d b x).arr = d.arr := rfl
@[simp] theorem setRunning_ct : (setRunning d b x).ct = d.ct := rfl
@[simp] theorem setRunning_ptp : (setRunning d b x).ptp = d.ptp := rfl
@[simp] theorem setRunning_nts : (setRunning d b x).nts = d.nts := rfl
@[simp] theorem setRunning_disc : (setRunning d b x).disc = d.disc := rfl
@[simp] theorem setRunning_gnss : (setRunning d b x).gnss = d.gnss := rfl
@[simp] theorem setRunning_tiu : (setRunning d b x).tiu = d.tiu := rfl
@[simp] theorem setRunning_flt : (setRunning d b x).flt = d.flt := rfl
@[simp] theorem setRunning_pwr : (setRunning d b x).pwr = d.pwr := rfl
@[simp] theorem setRunning_out : (setRunning d b x).out = d.out := rfl

end

/-! #### setMaster -/

section

variable (d : Dev) (i v w : Nat)

@[simp] theorem setMaster_variant : (setMaster d i v w).variant = d.variant := rfl
@[simp] theorem setMaster_bt : (setMaster d i v w).bt = d.bt := rfl
@[simp] theorem setMaster_free : (setMaster d i v w).free = d.free := rfl
@[simp] theorem setMaster_recs : (setMaster d i v w).recs = d.recs := rfl
@[simp] theorem setMaster_stats : (setMaster d i v w).stats = d.stats := rfl
@[simp] theorem setMaster_atEdge : (setMaster d i v w).atEdge = d.atEdge := rfl
@[simp] theorem setMaster_ts : (setMaster d i v w).ts = d.ts := rfl
@[simp] theorem setMaster_hist : (setMaster d i v w).hist = d.hist := rfl
@[simp] theorem setMaster_leap : (setMaster d i v w).leap = d.leap := rfl
@[simp] theorem setMaster_mbx : (setMaster d i v w).mbx = d.mbx := rfl
@[simp] theorem setMaster_host : (setMaster d i v w).host = d.host := rfl
@[simp] theorem setMaster_obs : (setMaster d i v w).obs = d.obs := rfl
@[simp] theorem setMaster_ports : (setMaster d i v w).ports = d.ports := rfl
@[simp] theorem setMaster_arr : (setMaster d i v w).arr = d.arr := rfl
@[simp] theorem setMaster_ct : (setMaster d i v w).ct = d.ct := rfl
@[simp] theorem setMaster_ptp : (setMaster d i v w).ptp = d.ptp := rfl
@[simp] theorem setMaster_nts : (setMaster d i v w).nts = d.nts := rfl
@[simp] theorem setMaster_disc : (setMaster d i v w).disc = d.disc := rfl
@[simp] theorem setMaster_gnss : (setMaster d i v w).gnss = d.gnss := rfl
@[simp] theorem setMaster_tiu : (setMaster d i v w).tiu = d.tiu := rfl
@[simp] theorem setMaster_flt : (setMaster d i v w).flt = d.flt := rfl
@[simp] theorem setMaster_pwr : (setMaster d i v w).pwr = d.pwr := rfl
@[simp] theorem setMaster_out : (setMaster d i v w).out = d.out := rfl

end

/-! #### setPendingKey -/

section

variable (d : Dev) (i : Nat) (p : Option PendingKey)

@[simp] theorem setPendingKey_variant : (setPendingKey d i p).variant = d.variant := rfl
@[simp] theorem setPendingKey_bt : (setPendingKey d i p).bt = d.bt := rfl
@[simp] theorem setPendingKey_free : (setPendingKey d i p).free = d.free := rfl
@[simp] theorem setPendingKey_recs : (setPendingKey d i p).recs = d.recs := rfl
@[simp] theorem setPendingKey_stats : (setPendingKey d i p).stats = d.stats := rfl
@[simp] theorem setPendingKey_atEdge : (setPendingKey d i p).atEdge = d.atEdge := rfl
@[simp] theorem setPendingKey_ts : (setPendingKey d i p).ts = d.ts := rfl
@[simp] theorem setPendingKey_hist : (setPendingKey d i p).hist = d.hist := rfl
@[simp] theorem setPendingKey_leap : (setPendingKey d i p).leap = d.leap := rfl
@[simp] theorem setPendingKey_mbx : (setPendingKey d i p).mbx = d.mbx := rfl
@[simp] theorem setPendingKey_host : (setPendingKey d i p).host = d.host := rfl
@[simp] theorem setPendingKey_obs : (setPendingKey d i p).obs = d.obs := rfl
@[simp] theorem setPendingKey_ports : (setPendingKey d i p).ports = d.ports := rfl
@[simp] theorem setPendingKey_arr : (setPendingKey d i p).arr = d.arr := rfl
@[simp] theorem setPendingKey_ct : (setPendingKey d i p).ct = d.ct := rfl
@[simp] theorem setPendingKey_ptp : (setPendingKey d i p).ptp = d.ptp := rfl
@[simp] theorem setPendingKey_disc : (setPendingKey d i p).disc = d.disc := rfl
@[simp] theorem setPendingKey_gnss : (setPendingKey d i p).gnss = d.gnss := rfl
@[simp] theorem setPendingKey_tiu : (setPendingKey d i p).tiu = d.tiu := rfl
@[simp] theorem setPendingKey_flt : (setPendingKey d i p).flt = d.flt := rfl
@[simp] theorem setPendingKey_key : (setPendingKey d i p).key = d.key := rfl
@[simp] theorem setPendingKey_pwr : (setPendingKey d i p).pwr = d.pwr := rfl
@[simp] theorem setPendingKey_out : (setPendingKey d i p).out = d.out := rfl

end

/-! #### setSmear -/

section

variable (d : Dev) (v : Nat) (w : List SmearWin)

@[simp] theorem setSmear_variant : (setSmear d v w).variant = d.variant := rfl
@[simp] theorem setSmear_bt : (setSmear d v w).bt = d.bt := rfl
@[simp] theorem setSmear_free : (setSmear d v w).free = d.free := rfl
@[simp] theorem setSmear_recs : (setSmear d v w).recs = d.recs := rfl
@[simp] theorem setSmear_stats : (setSmear d v w).stats = d.stats := rfl
@[simp] theorem setSmear_atEdge : (setSmear d v w).atEdge = d.atEdge := rfl
@[simp] theorem setSmear_ts : (setSmear d v w).ts = d.ts := rfl
@[simp] theorem setSmear_hist : (setSmear d v w).hist = d.hist := rfl
@[simp] theorem setSmear_mbx : (setSmear d v w).mbx = d.mbx := rfl
@[simp] theorem setSmear_host : (setSmear d v w).host = d.host := rfl
@[simp] theorem setSmear_obs : (setSmear d v w).obs = d.obs := rfl
@[simp] theorem setSmear_ports : (setSmear d v w).ports = d.ports := rfl
@[simp] theorem setSmear_arr : (setSmear d v w).arr = d.arr := rfl
@[simp] theorem setSmear_ct : (setSmear d v w).ct = d.ct := rfl
@[simp] theorem setSmear_ptp : (setSmear d v w).ptp = d.ptp := rfl
@[simp] theorem setSmear_nts : (setSmear d v w).nts = d.nts := rfl
@[simp] theorem setSmear_disc : (setSmear d v w).disc = d.disc := rfl
@[simp] theorem setSmear_gnss : (setSmear d v w).gnss = d.gnss := rfl
@[simp] theorem setSmear_tiu : (setSmear d v w).tiu = d.tiu := rfl
@[simp] theorem setSmear_flt : (setSmear d v w).flt = d.flt := rfl
@[simp] theorem setSmear_key : (setSmear d v w).key = d.key := rfl
@[simp] theorem setSmear_pwr : (setSmear d v w).pwr = d.pwr := rfl
@[simp] theorem setSmear_out : (setSmear d v w).out = d.out := rfl

end

/-! #### setParts -/

section

variable (d : Dev) (p : Nat) (x : NavParts)

@[simp] theorem setParts_variant : (setParts d p x).variant = d.variant := rfl
@[simp] theorem setParts_bt : (setParts d p x).bt = d.bt := rfl
@[simp] theorem setParts_free : (setParts d p x).free = d.free := rfl
@[simp] theorem setParts_recs : (setParts d p x).recs = d.recs := rfl
@[simp] theorem setParts_stats : (setParts d p x).stats = d.stats := rfl
@[simp] theorem setParts_atEdge : (setParts d p x).atEdge = d.atEdge := rfl
@[simp] theorem setParts_ts : (setParts d p x).ts = d.ts := rfl
@[simp] theorem setParts_hist : (setParts d p x).hist = d.hist := rfl
@[simp] theorem setParts_leap : (setParts d p x).leap = d.leap := rfl
@[simp] theorem setParts_mbx : (setParts d p x).mbx = d.mbx := rfl
@[simp] theorem setParts_host : (setParts d p x).host = d.host := rfl
@[simp] theorem setParts_obs : (setParts d p x).obs = d.obs := rfl
@[simp] theorem setParts_ports : (setParts d p x).ports = d.ports := rfl
@[simp] theorem setParts_arr : (setParts d p x).arr = d.arr := rfl
@[simp] theorem setParts_ct : (setParts d p x).ct = d.ct := rfl
@[simp] theorem setParts_ptp : (setParts d p x).ptp = d.ptp := rfl
@[simp] theorem setParts_nts : (setParts d p x).nts = d.nts := rfl
@[simp] theorem setParts_disc : (setParts d p x).disc = d.disc := rfl
@[simp] theorem setParts_tiu : (setParts d p x).tiu = d.tiu := rfl
@[simp] theorem setParts_flt : (setParts d p x).flt = d.flt := rfl
@[simp] theorem setParts_key : (setParts d p x).key = d.key := rfl
@[simp] theorem setParts_pwr : (setParts d p x).pwr = d.pwr := rfl
@[simp] theorem setParts_out : (setParts d p x).out = d.out := rfl

end

/-! #### setPll -/

section

variable (d : Dev) (i : Nat) (b : Bool)

@[simp] theorem setPll_variant : (setPll d i b).variant = d.variant := rfl
@[simp] theorem setPll_bt : (setPll d i b).bt = d.bt := rfl
@[simp] theorem setPll_free : (setPll d i b).free = d.free := rfl
@[simp] theorem setPll_recs : (setPll d i b).recs = d.recs := rfl
@[simp] theorem setPll_stats : (setPll d i b).stats = d.stats := rfl
@[simp] theorem setPll_atEdge : (setPll d i b).atEdge = d.atEdge := rfl
@[simp] theorem setPll_ts : (setPll d i b).ts = d.ts := rfl
@[simp] theorem setPll_hist : (setPll d i b).hist = d.hist := rfl
@[simp] theorem setPll_leap : (setPll d i b).leap = d.leap := rfl
@[simp] theorem setPll_mbx : (setPll d i b).mbx = d.mbx := rfl
@[simp] theorem setPll_host : (setPll d i b).host = d.host := rfl
@[simp] theorem setPll_obs : (setPll d i b).obs = d.obs := rfl
@[simp] theorem setPll_ports : (setPll d i b).ports = d.ports := rfl
@[simp] theorem setPll_arr : (setPll d i b).arr = d.arr := rfl
@[simp] theorem setPll_ct : (setPll d i b).ct = d.ct := rfl
@[simp] theorem setPll_ptp : (setPll d i b).ptp = d.ptp := rfl
@[simp] theorem setPll_nts : (setPll d i b).nts = d.nts := rfl
@[simp] theorem setPll_disc : (setPll d i b).disc = d.disc := rfl
@[simp] theorem setPll_gnss : (setPll d i b).gnss = d.gnss := rfl
@[simp] theorem setPll_tiu : (setPll d i b).tiu = d.tiu := rfl
@[simp] theorem setPll_flt : (setPll d i b).flt = d.flt := rfl
@[simp] theorem setPll_key : (setPll d i b).key = d.key := rfl
@[simp] theorem setPll_out : (setPll d i b).out = d.out := rfl

end

/-! #### emit -/

section

variable (d : Dev) (e : Emission)

@[simp] theorem emit_variant : (emit d e).variant = d.variant := rfl
@[simp] theorem emit_bt : (emit d e).bt = d.bt := rfl
@[simp] theorem emit_free : (emit d e).free = d.free := rfl
@[simp] theorem emit_recs : (emit d e).recs = d.recs := rfl
@[simp] theorem emit_stats : (emit d e).stats = d.stats := rfl
@[simp] theorem emit_atEdge : (emit d e).atEdge = d.atEdge := rfl
@[simp] theorem emit_ts : (emit d e).ts = d.ts := rfl
@[simp] theorem emit_hist : (emit d e).hist = d.hist := rfl
@[simp] theorem emit_leap : (emit d e).leap = d.leap := rfl
@[simp] theorem emit_mbx : (emit d e).mbx = d.mbx := rfl
@[simp] theorem emit_host : (emit d e).host = d.host := rfl
@[simp] theorem emit_obs : (emit d e).obs = d.obs := rfl
@[simp] theorem emit_ports : (emit d e).ports = d.ports := rfl
@[simp] theorem emit_arr : (emit d e).arr = d.arr := rfl
@[simp] theorem emit_ct : (emit d e).ct = d.ct := rfl
@[simp] theorem emit_ptp : (emit d e).ptp = d.ptp := rfl
@[simp] theorem emit_nts : (emit d e).nts = d.nts := rfl
@[simp] theorem emit_disc : (emit d e).disc = d.disc := rfl
@[simp] theorem emit_gnss : (emit d e).gnss = d.gnss := rfl
@[simp] theorem emit_tiu : (emit d e).tiu = d.tiu := rfl
@[simp] theorem emit_flt : (emit d e).flt = d.flt := rfl
@[simp] theorem emit_key : (emit d e).key = d.key := rfl
@[simp] theorem emit_pwr : (emit d e).pwr = d.pwr := rfl

end

/-! #### fresh -/

section

variable (d : Dev)

@[simp] theorem fresh_variant : (fresh d).variant = d.variant := rfl
@[simp] theorem fresh_bt : (fresh d).bt = d.bt := rfl
@[simp] theorem fresh_free : (fresh d).free = d.free := rfl
@[simp] theorem fresh_recs : (fresh d).recs = d.recs := rfl
@[simp] theorem fresh_stats : (fresh d).stats = d.stats := rfl
@[simp] theorem fresh_atEdge : (fresh d).atEdge = d.atEdge := rfl
@[simp] theorem fresh_ts : (fresh d).ts = d.ts := rfl
@[simp] theorem fresh_hist : (fresh d).hist = d.hist := rfl
@[simp] theorem fresh_leap : (fresh d).leap = d.leap := rfl
@[simp] theorem fresh_mbx : (fresh d).mbx = d.mbx := rfl
@[simp] theorem fresh_host : (fresh d).host = d.host := rfl
@[simp] theorem fresh_obs : (fresh d).obs = d.obs := rfl
@[simp] theorem fresh_ports : (fresh d).ports = d.ports := rfl
@[simp] theorem fresh_arr : (fresh d).arr = d.arr := rfl
@[simp] theorem fresh_ct : (fresh d).ct = d.ct := rfl
@[simp] theorem fresh_ptp : (fresh d).ptp = d.ptp := rfl
@[simp] theorem fresh_nts : (fresh d).nts = d.nts := rfl
@[simp] theorem fresh_disc : (fresh d).disc = d.disc := rfl
@[simp] theorem fresh_gnss : (fresh d).gnss = d.gnss := rfl
@[simp] theorem fresh_tiu : (fresh d).tiu = d.tiu := rfl
@[simp] theorem fresh_flt : (fresh d).flt = d.flt := rfl
@[simp] theorem fresh_key : (fresh d).key = d.key := rfl
@[simp] theorem fresh_pwr : (fresh d).pwr = d.pwr := rfl

end

/-! ### Reads after writes -/

section

variable (d : Dev)

@[simp] theorem getRec_setRec_same (k : RecKind) (i v : Nat) : getRec (setRec d k i v) k i = v := Tab.get_set_same _ _ _ _

theorem getRec_setRec_other (k l : RecKind) (i j v : Nat) (h : l.key j ≠ k.key i) : getRec (setRec d k i v) l j = getRec d l j :=
  Tab.get_set_other _ _ _ _ _ _ h

@[simp] theorem getRec_setFld_same (k : RecKind) (i : Nat) (f : Fld) (v : Nat) :
    getRec (setFld d k i f v) k i = setF (getRec d k i) f v := Tab.get_set_same _ _ _ _

theorem getRec_setFld_other (k l : RecKind) (i j : Nat) (f : Fld) (v : Nat) (h : l.key j ≠ k.key i) :
    getRec (setFld d k i f v) l j = getRec d l j := Tab.get_set_other _ _ _ _ _ _ h

theorem getStat_setStat_same (k : StatKind) (i n v : Nat) : getStat (setStat d k i n v) k i n = v := Tab.get_set_same _ _ _ _

theorem getStat_setStat_other (k l : StatKind) (i j n m v : Nat) (h : statKey l j m ≠ statKey k i n) :
    getStat (setStat d k i n v) l j m = getStat d l j m := Tab.get_set_other _ _ _ _ _ _ h

@[simp] theorem getPort_setPort_same (p : Nat) (x : PortSt) : getPort (setPort d p x) p = x := Tab.get_set_same _ _ _ _

theorem getPort_setPort_other (p j : Nat) (x : PortSt) (h : j ≠ p) : getPort (setPort d p x) j = getPort d j :=
  Tab.get_set_other _ _ _ _ _ _ h

@[simp] theorem getNode_setNode_same (c : Nat) (x : NodeDyn) : getNode (setNode d c x) c = x := Tab.get_set_same _ _ _ _

theorem getNode_setNode_other (c j : Nat) (x : NodeDyn) (h : j ≠ c) : getNode (setNode d c x) j = getNode d j :=
  Tab.get_set_other _ _ _ _ _ _ h

@[simp] theorem getChan_setChan_same (i : Nat) (x : Channel) : getChan (setChan d i x) i = x := Tab.get_set_same _ _ _ _

theorem getChan_setChan_other (i j : Nat) (x : Channel) (h : j ≠ i) : getChan (setChan d i x) j = getChan d j :=
  Tab.get_set_other _ _ _ _ _ _ h

@[simp] theorem getAnt_setAnt_same (a : Nat) (x : Antenna) : getAnt (setAnt d a x) a = x := Tab.get_set_same _ _ _ _

theorem getAnt_setAnt_other (a j : Nat) (x : Antenna) (h : j ≠ a) : getAnt (setAnt d a x) j = getAnt d j :=
  Tab.get_set_other _ _ _ _ _ _ h

@[simp] theorem getIn_setIn_same (i : Nat) (x : TiuInput) : getIn (setIn d i x) i = x := Tab.get_set_same _ _ _ _

theorem getIn_setIn_other (i j : Nat) (x : TiuInput) (h : j ≠ i) : getIn (setIn d i x) j = getIn d j :=
  Tab.get_set_other _ _ _ _ _ _ h

@[simp] theorem getOut_setOut_same (i : Nat) (x : TiuOutput) : getOut (setOut d i x) i = x := Tab.get_set_same _ _ _ _

theorem getOut_setOut_other (i j : Nat) (x : TiuOutput) (h : j ≠ i) : getOut (setOut d i x) j = getOut d j :=
  Tab.get_set_other _ _ _ _ _ _ h

@[simp] theorem getServo_setServo_same (m : Nat) (x : ServoDyn) : getServo (setServo d m x) m = x := Tab.get_set_same _ _ _ _

theorem getServo_setServo_other (m j : Nat) (x : ServoDyn) (h : j ≠ m) : getServo (setServo d m x) j = getServo d j :=
  Tab.get_set_other _ _ _ _ _ _ h

@[simp] theorem getRef_setRef_same (r : Nat) (x : RefDyn) : getRef (setRef d r x) r = x := Tab.get_set_same _ _ _ _

theorem getRef_setRef_other (r j : Nat) (x : RefDyn) (h : j ≠ r) : getRef (setRef d r x) j = getRef d j :=
  Tab.get_set_other _ _ _ _ _ _ h

@[simp] theorem getClient_setClient_same (m : Nat) (x : ClientInst) : getClient (setClient d m x) m = x := Tab.get_set_same _ _ _ _

theorem getClient_setClient_other (m j : Nat) (x : ClientInst) (h : j ≠ m) : getClient (setClient d m x) j = getClient d j :=
  Tab.get_set_other _ _ _ _ _ _ h

@[simp] theorem grantEntry_setGrant_same (g : Nat) (x : Option GrantEntry) : grantEntry (setGrant d g x) g = x := Tab.get_set_same _ _ _ _

theorem grantEntry_setGrant_other (g j : Nat) (x : Option GrantEntry) (h : j ≠ g) : grantEntry (setGrant d g x) j = grantEntry d j :=
  Tab.get_set_other _ _ _ _ _ _ h

@[simp] theorem getEp_setEp_same (e : Nat) (x : EpState) : getEp (setEp d e x) e = x := Tab.get_set_same _ _ _ _

theorem getEp_setEp_other (e j : Nat) (x : EpState) (h : j ≠ e) : getEp (setEp d e x) j = getEp d j :=
  Tab.get_set_other _ _ _ _ _ _ h

@[simp] theorem getFol_setFol_same (i : Nat) (x : Follower) : getFol (setFol d i x) i = x := Tab.get_set_same _ _ _ _

theorem getFol_setFol_other (i j : Nat) (x : Follower) (h : j ≠ i) : getFol (setFol d i x) j = getFol d j :=
  Tab.get_set_other _ _ _ _ _ _ h

@[simp] theorem ctrValue_setCtr_same (i : Nat) (x : Nat) : ctrValue (setCtr d i x) i = x := Tab.get_set_same _ _ _ _

theorem ctrValue_setCtr_other (i j : Nat) (x : Nat) (h : j ≠ i) : ctrValue (setCtr d i x) j = ctrValue d j :=
  Tab.get_set_other _ _ _ _ _ _ h

@[simp] theorem waitingJobs_setWaiting_same (k : Nat) (x : List LaneJob) : waitingJobs (setWaiting d k x) k = x := Tab.get_set_same _ _ _ _

theorem waitingJobs_setWaiting_other (k j : Nat) (x : List LaneJob) (h : j ≠ k) : waitingJobs (setWaiting d k x) j = waitingJobs d j :=
  Tab.get_set_other _ _ _ _ _ _ h

@[simp] theorem laneRun_setLane_same (l : Nat) (x : Option LaneRun) : laneRun (setLane d l x) l = x := Tab.get_set_same _ _ _ _

theorem laneRun_setLane_other (l j : Nat) (x : Option LaneRun) (h : j ≠ l) : laneRun (setLane d l x) j = laneRun d j :=
  Tab.get_set_other _ _ _ _ _ _ h

@[simp] theorem runningOn_setRunning_same (b : Nat) (x : Option (BenchReq × Nat)) : runningOn (setRunning d b x) b = x := Tab.get_set_same _ _ _ _

theorem runningOn_setRunning_other (b j : Nat) (x : Option (BenchReq × Nat)) (h : j ≠ b) : runningOn (setRunning d b x) j = runningOn d j :=
  Tab.get_set_other _ _ _ _ _ _ h

theorem getRing_setRing_same (f : Fn) (tx : Bool) (r : Nat) (x : RingState) : getRing (setRing d f tx r x) f tx r = x :=
  Tab.get_set_same _ _ _ _

theorem getRing_setRing_other (f g : Fn) (tx ty : Bool) (r j : Nat) (x : RingState) (h : ringIdx g ty j ≠ ringIdx f tx r) :
    getRing (setRing d f tx r x) g ty j = getRing d g ty j := Tab.get_set_other _ _ _ _ _ _ h

theorem ctxAt_setCtx_same (e t : Nat) (x : Option Context) : ctxAt (setCtx d e t x) e t = x := Tab.get_set_same _ _ _ _

theorem getTs_setTs_same (i : Nat) (t : Timescale) (h : i < 3) : getTs (setTs d i t) i = t := by
  have : i = 0 ∨ i = 1 ∨ i = 2 := by omega
  rcases this with rfl | rfl | rfl <;> rfl

theorem getTs_setTs_other (i j : Nat) (t : Timescale) (h : i < 3) (hj : j < 3) (hn : j ≠ i) : getTs (setTs d i t) j = getTs d j := by
  have : i = 0 ∨ i = 1 ∨ i = 2 := by omega
  have : j = 0 ∨ j = 1 ∨ j = 2 := by omega
  rcases ‹i = 0 ∨ i = 1 ∨ i = 2› with rfl | rfl | rfl <;> rcases ‹j = 0 ∨ j = 1 ∨ j = 2› with rfl | rfl | rfl <;>
    first | rfl | exact absurd rfl hn

end

/-! ### What a command can do -/

/-- With AON up, an event has its effect on the device from which nothing has left. -/
theorem whenOn_up {s : State} (h : s.dev.pwr.aonUp = true) (f : Dev → Dev) :
    whenOn s f = .next { s with dev := f (fresh s.dev) } := by
  have : (fresh s.dev).pwr.aonUp = true := h
  simp only [whenOn, withDev, this, ite_true]

/-- With AON down, an event leaves the device as it was. -/
theorem whenOn_down {s : State} (h : s.dev.pwr.aonUp = false) (f : Dev → Dev) :
    whenOn s f = .next { s with dev := fresh s.dev } := by
  have : (fresh s.dev).pwr.aonUp = false := h
  simp only [whenOn, withDev, this, Bool.false_eq_true, ite_false]

/-- A step of the packet path that works has its effect. -/
theorem onPath_open {s : State} (h : s.dev.pwr.aonUp = true) (hr : s.dev.pwr.railFailed = false) (hp : pathRuns s.dev = true)
    (f : Dev → Dev) : onPath s f = .next { s with dev := f (fresh s.dev) } := by
  have hp' : pathRuns (fresh s.dev) = true := hp
  unfold onPath
  rw [hr]
  simp only [Bool.false_eq_true, ite_false]
  rw [whenOn_up h, hp']
  rfl

end Sys2Proof.Machine
end

