-- ==== Sys2Proof/Tests/Slice0.lean ====
section
/-! SUPPORT. Ill-formed commands that the checks refuse; single steps with results worked out from the spec; and for each
statement of the obligations states and operands that meet its hypotheses. -/

namespace Sys2Proof.Tests

set_option Elab.async false

open Sys2Proof Sys2Proof.Machine

/-! ### States -/

/-- The device after reset brought up: the boot is over, the PLLs are locked, endpoints 0 and 1 are trained, and the
life cycle is DEPLOYED. -/
def upDev : Dev :=
  let d := State.reset.dev
  let ep : EpState := { EpState.reset with perst := false, linkUp := true }
  { d with bt := 100000000
           pwr := { d.pwr with phase := .ready, plls := 31 }
           key := { d.key with lifeCycle := 2, otp := { d.key.otp with standbyValid := true, standbyEp := 1 } }
           host := { d.host with eps := [(0, ep), (1, ep)] } }

def up : State := { dev := upDev, pending := [] }

def with_ (f : Dev → Dev) : State := { dev := f upDev, pending := [] }

/-- A request of PF door 0 of an endpoint. -/
def msgOf (e : Fin 4) (p : List Byte) : Msg :=
  { fn := ⟨e, none⟩, door := 0, flags := 0, sequence := 7, length := BitVec.ofNat 32 p.length, fragIndex := 0, fragTotal := 1,
    acting := BitVec.ofNat 32 (2 ^ 32 - 1), payload := p }

def msg (p : List Byte) : Msg := msgOf 0 p

def fill (n : Nat) : List Byte := List.replicate n 0

/-- A door's state set. -/
def atDoor (x : Door) (d : Dev) : Dev := setDoor d (pfOf 0) 0 x

def port0 (d : Dev) : Dev := setFld d .octet 0 Oct.mode 6

def link0 (d : Dev) : Dev := setFld (port0 d) .portStatus 0 PrtSt.linkState 3

/-! ### Ill-formed commands -/

theorem test_vf_has_one_door : Instr.wellFormed (.doorbell (vfOf 0 3) 1) = false := by decide
theorem test_vf_has_four_rings : Instr.wellFormed (.ringEnableWrite (vfOf 0 3) true 4 0) = false := by decide
theorem test_vf_bar_is_64k : Instr.wellFormed (.readClearRegisterRead (vfOf 0 3) 0x10000#18) = false := by decide
theorem test_access_sizes : Instr.wellFormed (.barRegisterWrite (pfOf 0) 0#18 3 0#64) = false := by decide
theorem test_message_of_vf_door : Instr.wellFormed (.keepalive { msg [] with fn := vfOf 0 3, door := 2 }) = false := by decide
theorem test_message_too_long (p : List Byte) (h : 4064 < p.length) : Instr.wellFormed (.keepalive (msg p)) = false := by
  have h1 : ¬ p.length ≤ 4064 := by omega
  simp [Instr.wellFormed, msgFits, msg, msgOf, h1]
theorem test_too_many_descriptors (l : List (BitVec 256)) (h : 32768 < l.length) :
    Instr.wellFormed (.ringProducerWrite (pfOf 0) false 0 0 l) = false := by
  have h1 : ¬ l.length ≤ 32768 := by omega
  simp [Instr.wellFormed, h1]
theorem test_follower_errors : Instr.wellFormed (.baseTickEdge (List.replicate 19 0)) = false := by decide
theorem test_transmit_frame_too_long (p : List Byte) (h : 16383 < p.length) :
    Instr.wellFormed (.hostTxDescriptorFetch (pfOf 0) 0 p) = false := by
  have h1 : ¬ p.length ≤ 16383 := by omega
  simp [Instr.wellFormed, h1]
theorem test_bit_sync_counts : Instr.wellFormed (.bitSyncWindow 0 [1]) = false := by decide

/-! ### Single steps -/

/-- R83: the example of the UTC view, its wire bytes EB F9 60 00 1F 9A DD 39. -/
theorem test_ntp_stamp : ntpStamp (1750000000123456789 * 2 ^ 32 + 2 ^ 31) = 0xEBF960001F9ADD39 := by decide +kernel

/-- R84: the example of the PTP timestamp. -/
theorem test_ptp_stamp : ptpStamp (1750000037123456789 * 2 ^ 32 + 2 ^ 31) = (0x684EE1A5, 0x75BCD15, 0x8000) := by decide +kernel

/-- An empty queue idles. -/
theorem test_idle : step up = .next up := rfl

/-- R350: KEEPALIVE answers 16 bytes. -/
theorem test_keepalive_length :
    (match exec (.keepalive (msg [])) (with_ fun d => setFld d .controller 0 Ctl.lapsed 1) with
     | .next t => (answer t (msg [])).map fun a => (decide (a.1 = Status.ok), a.2.length) | _ => none) = some (true, 16) := by
  decide +kernel

/-- R41: TS_RATE of TSH takes effect at the next edge. -/
theorem test_ts_rate_defers :
    (match exec (.tsRate (msg (2 :: fill 3 ++ leBytes 12 (100 * 2 ^ 40 + 5)))) up with
     | .next t => (match t.dev.atEdge with
        | [(n, .rate i v)] => decide (n = 100000001 ∧ i = 2 ∧ v = 100 * 2 ^ 40 + 5) | _ => false)
     | _ => false) = true := by decide +kernel

/-- R38: an advance carries into SECONDS. -/
theorem test_advance_carries :
    (Timescale.advance { sec := 4, ns := 999999950, frac40 := 7, inc := 100 * 2 ^ 40 + 3, set := true, stepSource := 1 })
      = { sec := 5, ns := 50, frac40 := 10, inc := 100 * 2 ^ 40 + 3, set := true, stepSource := 1 } := by decide +kernel

/-- R345: an opcode outside the map. -/
theorem test_unknown_opcode :
    (match exec (.unknownOpcode 0xFFFF (msg [])) up with | .next t => (answer t (msg [])).map (·.1) | _ => none)
      = some Status.unknownOp := by decide +kernel

/-- R46: an APPLY_BT one base tick ahead is too near. -/
theorem test_ts_set_too_near :
    (match exec (.tsSet (msg (fill 16 ++ leBytes 8 100000001))) up with
     | .next t => (answer t (msg [])).map (·.1) | _ => none) = some Status.state := by decide +kernel


/-! ### The ciphers and hashes of the standards the spec names, on the standards' own examples -/

/-- FIPS 180-4, "abc". -/
theorem test_sha256 : ofBe (sha256 [0x61, 0x62, 0x63])
    = 0xba7816bf8f01cfea414140de5dae2223b00361a396177a9cb410ff61f20015ad := by decide +kernel

/-- FIPS 197, C.1. -/
theorem test_aes128 : aes (beBytes 16 0x000102030405060708090a0b0c0d0e0f) 0x00112233445566778899aabbccddeeff
    = 0x69c4e0d86a7b0430d8cdb78070b4c55a := by decide +kernel

/-- The example of the SipHash-2-4 paper. -/
theorem test_siphash : sipHash 0x0f0e0d0c0b0a09080706050403020100 (beBytes 15 0x000102030405060708090a0b0c0d0e)
    = 0xa129ca6149be45e5 := by decide +kernel

/-- RFC 5297, A.1. -/
theorem test_aes_siv :
    ofBe (sivSealFrom (beBytes 32 0xfffefdfcfbfaf9f8f7f6f5f4f3f2f1f0f0f1f2f3f4f5f6f7f8f9fafbfcfdfeff)
      (sivStart (beBytes 32 0xfffefdfcfbfaf9f8f7f6f5f4f3f2f1f0f0f1f2f3f4f5f6f7f8f9fafbfcfdfeff))
      [beBytes 24 0x101112131415161718191a1b1c1d1e1f2021222324252627] (beBytes 14 0x112233445566778899aabbccddee))
      = 0x85632d07c6e8f37f950acd320a2ecc9340c02b9690c4dc04daef7f6afe5c := by decide +kernel

/-- RFC 8452, C.1. -/
theorem test_aes_gcm_siv :
    ofBe (gcmSivSeal (beBytes 16 0x01000000000000000000000000000000) (beBytes 12 0x030000000000000000000000) []
      (beBytes 8 0x0100000000000000)) = 0xb5d839330ac7b786578782fff6013b815b287c22493a364c := by decide +kernel

/-! ### Witnesses: states and operands that meet the hypotheses of the statements, clause by clause -/

/-- The controller host asks, with a payload, and its door takes it. -/
def asks (s : State) (p : List Byte) : Bool := byController s (msg p) && decide (copied (msg p) = p)

/-- The same of a message whose byte names the row it stands in. -/
def asksAs (off v : Nat) (s : State) (p : List Byte) : Bool := asks s p && decide (withByte off v (msg p) = msg p)

/-- A tenant in a state. -/
def tenantIn (t v : Nat) : State := with_ fun d => setFld d .tenant t Ten.state v

def steered : State := with_ fun d => setFld d .steer 0 Steer.select 1

theorem witness_DeviceRecordReads : asks up [] = true ∧ deviceRecords ≠ [] := by decide +kernel

theorem witness_UnitRecordReads :
    (asks up [17, 0, 0, 0] = true ∧ folPresent up.dev 17 = true) ∧ (asks up [255, 0, 0, 0] = true ∧ 18 ≤ rdLe ([255, 0, 0, 0] : List Byte) 0 1)
      ∧ (asks up [15, 0, 0, 0] = true ∧ portStarts up.dev 15 = false) := by decide +kernel

theorem witness_TenantRecordReads :
    (asks up [255, 15, 0, 0] = true ∧ tenantState up.dev 4095 ≠ 2 ∧ up.dev.variant ≠ .e) ∧ asks up [0, 16, 0, 0] = true
      ∧ (asks (tenantIn 5 2) [5, 0, 0, 0] = true ∧ tenantState (tenantIn 5 2).dev 5 = 2) := by decide +kernel

theorem witness_IndexedRecordReads :
    (asks (with_ port0) [0, 15, 0, 0] = true ∧ portStarts (with_ port0).dev 0 = true)
      ∧ (asks up [255, 15, 15, 0] = true ∧ tenantState up.dev 4095 ≠ 2)
      ∧ (asks up [0, 0, 0, 0] = true ∧ ctrPresent up.dev.variant 0 = true) ∧ asks up [] = true := by decide +kernel

theorem witness_PlainRecordWrites :
    asks up (fill RecKind.array.bytes) = true
      ∧ (asks up ([255, 15] ++ fill (2 + RecKind.tenant.bytes)) = true ∧ tenantState up.dev 4095 ≠ 2) := by decide +kernel

theorem witness_StatusReports :
    (asks up [2, 0, 0, 0] = true ∧ refPresent up.dev 0 = true ∧ antPresent up.dev 1 = true) ∧ (asks up [255, 0, 0, 0] = true ∧ tagCurrent up.dev = none)
      ∧ (asks (with_ port0) [0, 0, 0, 0] = true ∧ portStarts (with_ port0).dev 0 = true)
      ∧ (asks up [0, 127, 0, 0] = true ∧ nodeInSet [0, 127, 0, 0] = true ∧ nodeArgPresent up.dev [0, 127, 0, 0] = true) := by
  decide +kernel

def ptpClientOf0 : State := with_ fun d => setFld (port0 d) .ptpPort 0 PPort.role 2

theorem witness_ClearingReports :
    asks up [] = true ∧ (asks up [1, 0, 0, 0] = true ∧ antPresent up.dev 1 = true) ∧ asks up [255, 0, 0, 0] = true
      ∧ (asks ptpClientOf0 [0, 0, 0, 0] = true ∧ clientPort ptpClientOf0.dev 0 = some 0) ∧ asks up [255, 1, 0, 0] = true
      ∧ (asks up [255, 15, 0, 0] = true ∧ tenantState up.dev 4095 ≠ 2 ∧ up.dev.variant ≠ .e) := by decide +kernel

theorem witness_BenchStatus : asks up [] = true := by decide +kernel

theorem witness_StatisticsReadAndClear :
    (asks (with_ port0) [0, 0, 0, 0] = true ∧ namesPort (with_ port0).dev [0, 0, 0, 0] = true)
      ∧ (asks up [255, 15, 0, 0] = true ∧ namesTenant up.dev [255, 15, 0, 0] = true) := by decide +kernel

theorem witness_TimeWords :
    ({ sec := 4, ns := 999999950, frac40 := 2 ^ 40 - 1, inc := 0, set := true, stepSource := 1 } : Timescale).frac40 < 2 ^ 40
      ∧ 2 ^ 96 - 1 < 2 ^ 96 ∧ (5 * 2 ^ 48 + 999999999 * 2 ^ 16 + 7) / 2 ^ 16 % 2 ^ 32 < 10 ^ 9
      ∧ viewBase up.dev 0 ((5 * 2 ^ 32 + 7 : Nat) : Int) = ((5 * 2 ^ 32 + 7 : Nat) : Int) := by
  decide +kernel

theorem witness_TimescaleRateAndClear :
    (asks up (2 :: fill 15) = true ∧ rateRefused up.dev 2 = false) ∧ (asks steered (2 :: fill 15) = true ∧ rateRefused steered.dev 2 = true)
      ∧ (asks up [2, 0, 0, 0] = true ∧ clearRefused up.dev 2 = false)
      ∧ (asks steered [2, 0, 0, 0] = true ∧ clearRefused steered.dev 2 = true) := by decide +kernel

def alreadySet : State := with_ fun d => { d with ts := { d.ts with tsa := { d.ts.tsa with set := true } } }

theorem witness_EdgeWaits :
    (asks up (fill 24) = true ∧ (getTs up.dev 0).set = false)
      ∧ (asks up (fill 16 ++ leBytes 8 100000002) = true ∧ asks up (fill 16 ++ leBytes 8 200000000) = true)
      ∧ (asks up (fill 16 ++ leBytes 8 100000001) = true ∧ asks up (fill 16 ++ leBytes 8 200000001) = true)
      ∧ (asks alreadySet (fill 24) = true ∧ (getTs alreadySet.dev 0).set = true) ∧ asks up (fill 48) = true
      ∧ (asks up (fill 12 ++ [1] ++ fill 19) = true ∧ rdLe (fill 12 ++ [1] ++ fill 19) 12 2 = 1) := by decide +kernel

def view5 : State := with_ fun d => setFld d .view 5 View.created 1

def smearing : State :=
  with_ fun d => setSmear (setFld d .view 5 View.created 1) 5 [{ w0 := 0, w1 := 2 ^ 60, leap := { m := 100, dOld := 37, dNew := 38 } }]

def binding5 : State := with_ fun d => { d with atEdge := [(100000001, .bind 9 0 63 5)] }

def creating5 : State := with_ fun d => { d with atEdge := [(100000001, .viewCreate 5 0)] }

theorem witness_ViewCommands :
    (asks up ([255, 0] ++ fill 50) = true ∧ flag up.dev .view 255 View.created = false ∧ createDue up.dev 255 = false)
      ∧ (asks creating5 ([5, 0] ++ fill 50) = true ∧ createDue creating5.dev 5 = true)
      ∧ (asks binding5 [5, 0, 0, 0] = true ∧ bindDue binding5.dev 5 = true ∧ fld binding5.dev .view 5 View.tenantsBound = 0)
      ∧ (asks view5 ([5, 0] ++ fill 50) = true ∧ flag view5.dev .view 5 View.created = true)
      ∧ (asks smearing ([5, 0] ++ fill 10) = true ∧ smearProtected smearing.dev 5 = true)
      ∧ (asks view5 ([5, 0, 0, 0] ++ leBytes 4 172800 ++ leBytes 4 172800) = true ∧ smearProtected view5.dev 5 = false)
      ∧ (asks (with_ fun d => setFld d .view 5 View.tenantsBound 3) [5, 0, 0, 0] = true)
      ∧ (asks up [255, 0, 0, 0] = true ∧ fld up.dev .view 255 View.tenantsBound = 0 ∧ bindDue up.dev 255 = false)
      ∧ asks up [3, 0, 255, 0] = true := by decide +kernel

def seedable : State := with_ fun d =>
  setFld { d with disc := { d.disc with servos := [(1, { ServoDyn.reset with state := 2 })] } } .servoStatus 1 SrvSt.activeRef 0

theorem witness_ReferenceCommands :
    (asksAs 1 1 up [9, 1, 0, 0] = true ∧ refPresent up.dev 9 = true) ∧ asksAs 1 0 up [0, 0, 0, 0] = true
      ∧ (asks seedable [0, 0, 0, 0] = true ∧ seedMay seedable.dev 0 true = true)
      ∧ (asks up [1, 0, 0, 0] = true ∧ seedMay up.dev 1 true = false) := by decide +kernel

def measured : State := with_ fun d => { d with gnss := { d.gnss with ring := [(9, [1, 2, 3])] } }

theorem witness_GnssCommands :
    (asks measured [255, 255, 255, 255] = true ∧ measured.dev.gnss.ring.getLast? = some (9, [1, 2, 3]))
      ∧ (asks up [0, 0, 0, 0] = true ∧ up.dev.gnss.ring = [] ∧ antPresent up.dev 0 = true ∧ up.dev.variant = .f)
      ∧ (asks up ([1, 1] ++ fill (2 + RecKind.gnssPos.bytes)) = true ∧ antPresent up.dev 1 = true)
      ∧ asks up (1 :: fill (3 + RecKind.gnssBase.bytes)) = true
      ∧ (asks up [47, 0, 0, 0] = true ∧ antPresent up.dev (47 / 24) = true) ∧ asksAs 1 2 up [1, 2, 0, 0] = true
      ∧ asksAs 0 2 up [2, 0, 0, 0] = true := by decide +kernel

def ringed : State := with_ fun d => setFld d .tiuDev 0 TDev.ringEn 1

theorem witness_TimeIntervalCommands :
    (asks ringed [1, 0, 0, 0] = true ∧ flag ringed.dev .tiuDev 0 TDev.ringEn = true)
      ∧ (asks up [0, 4, 0, 0] = true ∧ flag up.dev .tiuDev 0 TDev.ringEn = false) ∧ asks up [5, 0, 0, 0] = true
      ∧ asks up (3 :: fill 19) = true := by decide +kernel

def links : State := with_ fun d => setFld (setFld (link0 d) .octet 1 Oct.mode 6) .portStatus 8 PrtSt.linkState 3

theorem witness_PortCommands :
    (asks links [0, 8, 0, 0] = true ∧ portStarts links.dev 0 = true ∧ (getPort links.dev 0).anyPausedFrom = none
        ∧ 0 < laneCount links.dev.variant ∧ octMode links.dev 0 ≠ 0 ∧ linkUp links.dev 0 = true)
      ∧ (asks up [0, 0, 0, 0] = true ∧ octMode up.dev 0 = 0)
      ∧ (asks (with_ port0) [0, 0, 0, 0] = true ∧ portStarts (with_ port0).dev 0 = true ∧ linkUp (with_ port0).dev 0 = false) := by
  decide +kernel

def lapsedState : State := with_ fun d => setFld d .controller 0 Ctl.lapsed 1

theorem witness_ControlCommands :
    asks up [] = true
      ∧ (ready lapsedState (msgOf 1 []) = true ∧ (1 : Nat) ≠ controllerEp lapsedState.dev ∧ nominated lapsedState.dev 1 = true
        ∧ lapsed lapsedState.dev = true)
      ∧ (ready up (msgOf 1 []) = true ∧ nominated up.dev 1 = true ∧ lapsed up.dev = false) ∧ asks up [1, 0, 0, 0] = true
      ∧ (asks up [3, 0, 0, 0] = true ∧ nominated up.dev 3 = false) := by decide +kernel

def bindable : State := with_ fun d => setFld (setFld d .view 5 View.created 1) .endpoint 0 Ep.totalVfsActive 64

def bound5 : State := with_ fun d => setFld (setFld d .view 5 View.created 1) .tenant 5 Ten.state 1

theorem witness_TenantCommands :
    (asks bindable [255, 15, 0, 0, 63, 0, 5, 0] = true ∧ tenantState bindable.dev 4095 = 0
        ∧ 63 < fld bindable.dev .endpoint 0 Ep.totalVfsActive ∧ vfTenant bindable.dev 0 63 = none
        ∧ flag bindable.dev .view 5 View.created = true ∧ bindPending bindable.dev 4095 0 63 5 = false)
      ∧ (asks bound5 [5, 0, 0, 0, 63, 0, 5, 0] = true ∧ tenantState bound5.dev 5 = 1)
      ∧ (asks bound5 ([5, 0, 5, 0] ++ leBytes 8 0) = true ∧ flag bound5.dev .view 5 View.created = true)
      ∧ (asks bound5 ([5, 0, 5, 0] ++ leBytes 8 100000002) = true ∧ asks bound5 ([5, 0, 5, 0] ++ leBytes 8 200000000) = true) := by
  decide +kernel

def addrVal (t : Nat) : Nat :=
  setF (setF (setF (setF (setF 0 Addr.family 1) Addr.tenant t) Addr.portMask 1) Addr.address 0xC0000201) Addr.useStationMac 1

def entry77 : State := with_ fun d => setRec (setFld (port0 d) .tenant 5 Ten.state 1) .addrEntry 77 (addrVal 5)

/-- What a write of an address entry leaves of it. -/
def addrApplied (s : State) (p : List Byte) : Nat :=
  (clampRecord addrFields (addrDep s.dev (carried 4 .addrEntry p)) 0 (getRec s.dev .addrEntry (rdLe p 0 4)) (carried 4 .addrEntry p)).1

def addrWrite (i t : Nat) : List Byte := leBytes 4 i ++ leBytes RecKind.addrEntry.bytes (addrVal t)

theorem witness_TableCommands :
    asks up [3, 0, 255, 255] = true ∧ asks up [255, 255, 1, 0] = true
      ∧ (asks entry77 (addrWrite 77 5) = true ∧ tenantBound entry77.dev (getF (addrApplied entry77 (addrWrite 77 5)) Addr.tenant) = true
        ∧ conflictOf entry77.dev 77 (addrApplied entry77 (addrWrite 77 5)) = none)
      ∧ (asks entry77 (addrWrite 9 5) = true ∧ getF (addrApplied entry77 (addrWrite 9 5)) Addr.family ≠ 0
        ∧ conflictOf entry77.dev 9 (addrApplied entry77 (addrWrite 9 5)) = some 77)
      ∧ (asks entry77 (addrWrite 9 6) = true ∧ getF (addrApplied entry77 (addrWrite 9 6)) Addr.family ≠ 0
        ∧ tenantBound entry77.dev (getF (addrApplied entry77 (addrWrite 9 6)) Addr.tenant) = false)
      ∧ asks up [] = true ∧ (asks up [255, 15, 0, 0] = true ∧ tenantState up.dev 4095 ≠ 2) := by decide +kernel

def ring5 : State := with_ fun d => setFld (setFld d .keyRing (ringSlot 5 0) KeyR.keyId 9) .keyRing (ringSlot 5 0) KeyR.role 3

def wrapped : State :=
  { ring5 with dev := { ring5.dev with key := { ring5.dev.key with otp := { ring5.dev.key.otp with wrapState := 1, wrapKey := 5 } } } }

/-- Engines 0 and 127 and every node above the engines are ON. -/
def nodesUp (d : Dev) : Dev := ([0, 127] ++ (List.range 21).map (128 + ·)).foldl (fun d c => setFld d .nodeStatus c NodeSt.power 0) d

def minting (w : Bool) : State :=
  let d : Dev := { ring5.dev with key := { ring5.dev.key with rngWithheld := w } }
  { ring5 with dev := nodesUp d }

theorem witness_NtsKeyCommands :
    (up.dev.variant ≠ .e ∧ asksAs 2 0 up ([5, 0, 0, 0] ++ leBytes 8 0) = true ∧ asksAs 2 0 up ([5, 0, 0, 0] ++ leBytes 8 200000000) = true
        ∧ up.dev.key.rngWithheld = false ∧ ringPending up.dev 5 = false)
      ∧ (asksAs 2 1 up ([5, 0, 1, 0] ++ leBytes 8 0 ++ fill 80) = true
        ∧ (match importCheck up.dev 5 (fill 80) with | .inl _ => true | .inr _ => false) = true)
      ∧ (asks ring5 ([5, 0, 0, 0] ++ leBytes 4 9 ++ leBytes 8 0) = true ∧ (ringIds ring5.dev 5).contains 9 = true)
      ∧ (asks wrapped ([5, 0, 0, 0] ++ leBytes 4 9) = true ∧ wrapKey wrapped.dev = some 5
        ∧ sampleFind (ringSample wrapped.dev 5) 9 = some 0)
      ∧ (asks up ([5, 0, 0, 0] ++ leBytes 4 9) = true ∧ wrapKey up.dev = none)
      ∧ (asks up ([5, 0, 99, 0] ++ fill 4) = true ∧ algKey 99 = none) := by decide +kernel

theorem witness_NtsKeyCommands_mint (w : Bool) :
    asks (minting w) ([5, 0, 15, 0, 3, 0, 0, 0] ++ fill 64) = true ∧ algKey 15 = some 32
      ∧ bit (fld (minting w).dev .nts 5 Nts.algMask) (algBit 15) = true ∧ sampleMint (ringSample (minting w).dev 5) = some 0
      ∧ mintNest (minting w).dev 5 = some 128 ∧ nodePower (minting w).dev 128 = 0 ∧ power (minting w).dev ≠ 1
      ∧ (minting w).dev.key.rngWithheld = w := by
  revert w; decide +kernel

/-- A blob that the wrap key 5 opens to the master key 77 with KEY_ID 9, and a device that may import it. -/
def blob9 : List Byte :=
  let head : List Byte := [0x41, 0x58, 0x4E, 0x4B] ++ beBytes 2 1 ++ beBytes 2 0 ++ beBytes 4 9 ++ beBytes 4 0
  head ++ fill 16 ++ sealed 15 (beBytes 32 5) head (fill 16) (beBytes 32 77)

def importing : State := with_ fun d => { d with key := { d.key with otp := { d.key.otp with wrapState := 1, wrapKey := 5 } } }

theorem witness_NtsKeyCommands_import :
    asksAs 2 1 importing ([5, 0, 1, 0] ++ leBytes 8 0 ++ blob9) = true ∧ importCheck importing.dev 5 blob9 = .inr (77, 9) := by
  decide +kernel

def pendingKey : State := with_ fun d => setFld d .keyRing (ringSlot 5 1) KeyR.role 1

theorem witness_NtsKeyCommands_state :
    asksAs 2 0 up ([5, 0, 0, 0] ++ leBytes 8 100000001) = true
      ∧ (asksAs 2 0 pendingKey ([5, 0, 0, 0] ++ leBytes 8 0) = true ∧ ringPending pendingKey.dev 5 = true)
      ∧ asksAs 2 1 up ([5, 0, 1, 0] ++ leBytes 8 200000001 ++ fill 80) = true
      ∧ (asks up ([5, 0, 0, 0] ++ fill 4 ++ leBytes 8 0) = true)
      ∧ (asks (minting true) ([5, 0, 0, 0] ++ leBytes 8 0) = true ∧ (minting true).dev.key.rngWithheld = true)
      ∧ (let s := with_ fun d => setFld d .nts 5 Nts.algMask 2;
          asks s ([5, 0, 15, 0, 3, 0, 0, 0] ++ fill 64) = true ∧ bit (fld s.dev .nts 5 Nts.algMask) (algBit 15) = false)
      ∧ (asks up ([5, 0, 15, 0, 3, 0, 0, 0] ++ fill 64) = true ∧ bit (fld up.dev .nts 5 Nts.algMask) (algBit 15) = true
        ∧ sampleMint (ringSample up.dev 5) = none) := by decide +kernel

def arrayUp : State := with_ nodesUp

def stagedUp : State := { arrayUp with dev := { arrayUp.dev with arr := { arrayUp.dev.arr with staged := some (carriedJig upDev.pwr.running) } } }

/-- Node 148, above every other, is IN_RESET. -/
def topReset : State := { arrayUp with dev := setFld arrayUp.dev .nodeStatus 148 NodeSt.reset 1 }

theorem witness_ArrayCommands :
    (asksAs 2 0 arrayUp [0, 127, 0, 0] = true ∧ nodeInSet [0, 127, 0, 0] = true ∧ nodeArgPresent arrayUp.dev [0, 127, 0, 0] = true
        ∧ ((properAncestors (nodeArg [0, 127, 0, 0])).all fun a =>
            decide (nodeReset arrayUp.dev a ≠ 1) && decide (nodePower arrayUp.dev a ≠ 2)) = true)
      ∧ (asksAs 2 1 arrayUp [0, 127, 1, 0] = true ∧ flag arrayUp.dev .nodeFlags (nodeArg [0, 127, 1, 0]) NodeFl.cmdGated = false)
      ∧ (asksAs 2 0 up [0, 127, 0, 0] = true ∧ asksAs 2 1 up [0, 127, 1, 0] = true
        ∧ ((properAncestors (nodeArg [0, 127, 1, 0])).all fun a => decide (nodePower up.dev a = 2) && decide (nodeReset up.dev a ≠ 1)) = true)
      ∧ (asksAs 2 0 topReset [0, 127, 0, 0] = true ∧ asksAs 2 1 topReset [0, 127, 1, 0] = true
        ∧ nodeArgPresent topReset.dev [0, 127, 1, 0] = true
        ∧ (properAncestors (nodeArg [0, 127, 0, 0])).find? (fun a => decide (nodeReset topReset.dev a = 1)) = some 148
        ∧ ((properAncestors (nodeArg [0, 127, 1, 0])).all fun a => decide (nodePower topReset.dev a ≠ 2)) = true)
      ∧ (asks up (fill 8) = true ∧ fld up.dev .jigStatus 0 Jig.oldContexts = 0 ∧ up.dev.arr.staged = none)
      ∧ (asks (with_ fun d => setFld d .jigStatus 0 Jig.oldContexts 3) [] = true)
      ∧ (asks stagedUp (fill 8) = true ∧ stagedUp.dev.arr.staged.isSome = true ∧ nestsOn stagedUp.dev = true) := by decide +kernel

def slot5 (a : Nat) : State := with_ fun d =>
  setFld (setFld (setFld d .asymSlot 5 Slot.kind 1) .asymSlot 5 Slot.assigned a) .tenant 7 Ten.state 1

theorem witness_KeySlotCommands :
    (asks up ([255, 1, 6, 1] ++ fill 36) = true ∧ slotKind up.dev 511 = 0 ∧ flag up.dev .asymSlot 511 Slot.generating = false
        ∧ flag up.dev .asymSlot 511 Slot.assigned = false)
      ∧ (asks (slot5 0) ([5, 0, 1, 0] ++ fill 36) = true ∧ slotKind (slot5 0).dev 5 ≠ 0)
      ∧ (asks (slot5 0) [5, 0, 7, 0] = true ∧ tenantBound (slot5 0).dev 7 = true) ∧ asks (slot5 0) [5, 0, 255, 255] = true
      ∧ (asks (slot5 1) [5, 0, 0, 0] = true ∧ flag (slot5 1).dev .asymSlot 5 Slot.assigned = true)
      ∧ (asks (slot5 0) ([5, 0, 3, 4, 0, 0, 0, 0, 4, 0, 0, 0] ++ fill 8) = true ∧ flag (slot5 0).dev .asymSlot 5 Slot.generating = false)
      ∧ asks up ([5, 0, 3, 4, 0, 0, 0, 0, 4, 0, 0, 0] ++ fill 8) = true
      ∧ (asks up [5, 0, 8, 0] = true ∧ slotKind up.dev 5 = 0 ∧ tenantBound up.dev 8 = false)
      ∧ (asks (with_ fun d => setFld d .asymSlot 5 Slot.generating 1) ([5, 0, 1, 0] ++ fill 36) = true)
      ∧ asks (slot5 0) [5, 0, 0, 0] = true := by decide +kernel

def provisioned : State := with_ fun d =>
  { d with key := { d.key with lifeCycle := 1, otp := { d.key.otp with stateWord := 0xFF, standbyValid := false } } }

/-- The controller host asks in any life-cycle state. -/
def asksIn (s : State) (p : List Byte) : Bool :=
  ready s (msg p) && decide ((0 : Nat) = controllerEp s.dev) && decide (copied (msg p) = p)

def lcPayload (k : Nat) (n : Nat) : List Byte := [BitVec.ofNat 8 k, 0, 0, 0] ++ lcConfirm k ++ fill n

def manufactured (w : Bool) : State := with_ fun d =>
  { d with key := { d.key with lifeCycle := 0, rngWithheld := w, otp := { d.key.otp with stateWord := 0, standbyValid := false } } }

theorem witness_LifeCycleCommands :
    (asksIn provisioned (lcPayload 2 8) = true ∧ provisioned.dev.key.otpBusy = false ∧ lcLength 2 = 16
        ∧ otpState provisioned.dev.key.otp = 1 ∧ slice (lcPayload 2 8) 4 4 = lcConfirm 2
        ∧ intentFree provisioned.dev.key.otp 2 = some false)
      ∧ (∀ w, asksIn (manufactured w) (lcPayload 1 (lcLength 1 - 8)) = true ∧ (manufactured w).dev.key.otpBusy = false
        ∧ otpState (manufactured w).dev.key.otp = 0 ∧ (manufactured w).dev.key.rngWithheld = w
        ∧ intentFree (manufactured w).dev.key.otp 1 = some false ∧ rdLe (lcPayload 1 (lcLength 1 - 8)) 10 1 = 0)
      ∧ (asksIn provisioned ([2, 0, 0, 0, 0x44, 0x45, 0x50, 0x4D] ++ fill 8) = true
        ∧ slice ([2, 0, 0, 0, 0x44, 0x45, 0x50, 0x4D] ++ fill 8) 4 4 ≠ lcConfirm 2)
      ∧ (asksIn up (lcPayload 2 8) = true ∧ otpState up.dev.key.otp + 1 ≠ 2)
      ∧ (asksIn up [0, 0, 0, 0] = true ∧ up.dev.key.otpBusy = false) ∧ asksIn up [65, 0, 0, 0] = true
      ∧ (asksIn provisioned ([254, 255, 0, 0] ++ fill 32) = true ∧ provisioned.dev.key.otp.wrapState = 0
        ∧ wrapInstalling provisioned.dev = false)
      ∧ (asksIn provisioned ([1, 0, 1, 0] ++ fill 32) = true ∧ provisioned.dev.key.rngWithheld = false)
      ∧ (let s : State := { provisioned with dev := { provisioned.dev with key := { provisioned.dev.key with rngWithheld := true } } };
          asksIn s ([1, 0, 1, 0] ++ fill 32) = true ∧ s.dev.key.rngWithheld = true)
      ∧ (asksIn provisioned (fill 36) = true ∧ asksIn provisioned ([255, 255, 0, 0] ++ fill 32) = true)
      ∧ (let s : State := { provisioned with dev := { provisioned.dev with
            key := { provisioned.dev.key with otp := { provisioned.dev.key.otp with wrapState := 1 } } } };
          asksIn s ([1, 0, 0, 0] ++ fill 32) = true ∧ s.dev.key.otp.wrapState ≠ 0) := by decide +kernel

def slots (a b : Nat) (d : Dev) : Dev := setFld (setFld d .fwStatus 0 (Fw.sSlotState 0) a) .fwStatus 0 (Fw.sSlotState 1) b

def tagsFull : State := with_ fun d => { d with key := { d.key with otp := { d.key.otp with tags := [(15, [1])] } } }

def chosen1 : State := with_ fun d => setFld (slots 3 3 d) .fwStatus 0 Fw.nextSlot 3

theorem witness_FlashCommands :
    (asks up ([240, 0, 0, 0] ++ fill 240) = true ∧ (tagNext up.dev).isSome = true)
      ∧ (asks tagsFull [0, 0, 0, 0] = true ∧ tagNext tagsFull.dev = none)
      ∧ (asks (with_ (slots 3 0)) [1, 0, 0, 0] = true ∧ preferredSlot (with_ (slots 3 0)).dev ≠ 1
        ∧ runningSlot (with_ (slots 3 0)).dev ≠ 1 ∧ nextNames (with_ (slots 3 0)).dev 1 = false)
      ∧ (asks chosen1 [1, 0, 0, 0] = true ∧ nextNames chosen1.dev 1 = true ∧ slotState chosen1.dev 1 ≠ 0 ∧ slotState chosen1.dev 1 ≠ 2)
      ∧ (asks (with_ (slots 3 0)) ([1] ++ fill 11) = true ∧ slotState (with_ (slots 3 0)).dev 1 ≤ 1
        ∧ 0 = fld (with_ (slots 3 0)).dev .fwStatus 0 (Fw.sWrittenBytes 1))
      ∧ asks up ([1, 0, 0, 0] ++ leBytes 4 8384508 ++ fill 4) = true := by decide +kernel

def onTrial : State := with_ fun d => setFld (setFld (slots 3 3 d) .fwStatus 0 Fw.trialActive 1) .fwStatus 0 Fw.runningSlot 1

theorem witness_FirmwareChoice :
    (asksAs 1 0 (with_ (slots 3 3)) [1, 0, 0, 0] = true ∧ slotValid (with_ (slots 3 3)).dev 1 = true
        ∧ runningSlot (with_ (slots 3 3)).dev ≠ 1)
      ∧ (asksAs 1 0 (with_ (slots 3 0)) [1, 0, 0, 0] = true ∧ slotValid (with_ (slots 3 0)).dev 1 = false)
      ∧ (asksAs 1 1 (with_ (slots 3 3)) [1, 1, 0, 0] = true ∧ trialActive (with_ (slots 3 3)).dev = false
        ∧ (preferWrite (with_ (slots 3 3)).dev 1).isSome = true)
      ∧ asksAs 1 1 (with_ (slots 3 0)) [1, 1, 0, 0] = true ∧ asksAs 1 2 up [1, 2, 0, 0] = true
      ∧ (asks onTrial [] = true ∧ trialActive onTrial.dev = true ∧ slotValid onTrial.dev (runningSlot onTrial.dev) = true
        ∧ (preferWrite onTrial.dev 1).isSome = true)
      ∧ (asks up [] = true ∧ trialActive up.dev = false ∧ nextSlot up.dev = none) := by decide +kernel

def injected : State := with_ fun d => setFld d .faultSrc (checkerOf (srcId 2 1)) FSrc.injectRemain 4

theorem witness_FaultCommands :
    (asks up [4, 0, 0, 0, 1, 0, 0, 0] = true ∧ faultInSet [4, 0, 0, 0, 1, 0, 0, 0] = true ∧ withBit 4 1 (msg [4, 0, 0, 0, 1, 0, 0, 0]) = msg [4, 0, 0, 0, 1, 0, 0, 0])
      ∧ (asks up [1, 2, 0, 0] = true ∧ srcExists up.dev 0x0201 = true) ∧ asks up ([1, 2, 0, 0] ++ fill 16) = true
      ∧ (asks up [1, 2, 1, 255] = true ∧ (srcInfo 0x0201).checker = true ∧ srcClass up.dev 0x0201 ≠ 5 ∧ injectRemain up.dev 0x0201 = 0)
      ∧ (asks injected [1, 2, 0, 5] = true ∧ injectRemain injected.dev 0x0201 ≠ 0) ∧ asks up [0, 0, 0, 0, 255, 255, 255, 255] = true := by
  decide +kernel

def listening : State := with_ fun d => setFld d .power 0 Pow.power 1

theorem witness_PowerCommands :
    asksAs 0 0xFF up [255, 0, 0, 0] = true ∧ (asksAs 0 0 up [0, 0, 0, 0] = true ∧ pendingState up.dev = 0 ∧ power up.dev = 0)
      ∧ (asksAs 0 0 listening [0, 0, 0, 0] = true ∧ pendingState listening.dev = 0 ∧ power listening.dev = 1)
      ∧ asksAs 0 1 up [1, 0, 0, 0] = true ∧ (asksAs 0 2 up [2, 0, 0, 0] = true ∧ trialActive up.dev = false)
      ∧ (asksAs 0 2 onTrial [2, 0, 0, 0] = true ∧ pendingState onTrial.dev = 0 ∧ power onTrial.dev ≠ 2)
      ∧ (asksAs 0 2 (with_ fun d => setFld d .power 0 Pow.pending 3) [2, 0, 0, 0] = true) ∧ asks up [] = true
      ∧ asks up [255, 255, 0, 0] = true := by decide +kernel

def gauging : State := with_ fun d =>
  { d with obs := { d.obs with gauge := some { strobeBt := 100000000, fn := pfOf 0, door := 3, captured := none } } }

def scribing (v : Nat) : State := with_ fun d => setFld d .scribeHdr 0 ScrSt.scribeState v

def segment15 : State := with_ fun d => setFld d .scribeSeg 15 ScrSt.eSegState 3

theorem witness_ObserveCommands :
    (asks up [] = true ∧ up.dev.obs.gauge = none) ∧ (asks gauging [] = true ∧ gauging.dev.obs.gauge.isSome = true)
      ∧ (asks up (fill 4 ++ leBytes 4 (ctrCount - 1) ++ [1, 0, 0, 0] ++ fill 4) = true)
      ∧ (asks up ([7] ++ fill 7 ++ [1] ++ fill 7) = true ∧ up.dev.obs.snaps = [])
      ∧ (asks (scribing 1) [] = true ∧ scribeState (scribing 1).dev = 1) ∧ (asks (scribing 2) [] = true ∧ scribeState (scribing 2).dev = 2)
      ∧ (asks (scribing 3) [] = true ∧ scribeState (scribing 3).dev = 3)
      ∧ (asks segment15 ([15] ++ fill 7 ++ leBytes 4 32767) = true ∧ 1 < fld segment15.dev .scribeSeg 15 ScrSt.eSegState)
      ∧ (asks up ([15] ++ fill 7 ++ [1, 0, 0, 0]) = true ∧ fld up.dev .scribeSeg 15 ScrSt.eSegState ≤ 1) := by decide +kernel

theorem witness_FirmwareChoice_more :
    (asksAs 1 1 onTrial [1, 1, 0, 0] = true ∧ trialActive onTrial.dev = true)
      ∧ (asks chosen1 [] = true ∧ nextSlot chosen1.dev = some 1 ∧ slotAbiFits chosen1.dev 1 = false)
      ∧ (asksAs 1 0 onTrial [1, 0, 0, 0] = true ∧ runningSlot onTrial.dev = 1) := by decide +kernel

theorem witness_FaultCommands_more :
    asks up [0, 0, 0, 0] = true ∧ asks up (fill 20) = true
      ∧ (asks up [1, 2, 1, 255] = true ∧ asks up [0x31, 0x00, 0, 1] = true) := by decide +kernel

theorem witness_PlainRecordWrites_more :
    asks up (fill RecKind.device.bytes) = true
      ∧ (asks up ([17, 0, 0, 0] ++ fill RecKind.follower.bytes) = true ∧ folPresent up.dev 17 = true)
      ∧ (asks up ([255, 15, 0, 0] ++ fill RecKind.tenantArray.bytes) = true ∧ namesTenant up.dev [255, 15, 0, 0] = true) := by
  decide +kernel

/-- VF 63 of endpoint 0 is there. -/
def vfUp : State := with_ fun d => setFld d .endpoint 0 Ep.totalVfsActive 64

theorem witness_HostRegisterWrites :
    (up.dev.pwr.aonUp = true ∧ barUp up.dev (pfOf 0) = true ∧ (getFn up.dev (pfOf 0)).deviceEvents = 0)
      ∧ barUp vfUp.dev (vfOf 0 63) = true ∧ (0x20002#18).toNat % 4 ≠ 0 := by decide +kernel

theorem witness_HostRegisterReads :
    barUp up.dev (pfOf 0) = true ∧ (barUp vfUp.dev (vfOf 0 63) = true ∧ (vfOf 0 63).vf = some 63) ∧ (0xFFFE#18).toNat < 0x10000
      ∧ (safe up.dev = false ∧ 63 < ringCount (pfOf 0)) ∧ barUp up.dev (pfOf 2) = false := by
  decide +kernel

def ringOn : State := with_ fun d =>
  setFld (setFld d .ring (ringIdx (pfOf 0) true 63) Rng.enable 1) .ring (ringIdx (pfOf 0) true 63) Rng.producer 65535

def ringWith (owed : Bool) : State := with_ fun d =>
  setRing d (pfOf 0) true 0 { getRing d (pfOf 0) true 0 with holdoff := true, irqOwed := owed }

def summaryWith (owed : Bool) : State := with_ fun d => setEp d 0 { getEp d 0 with holdoff := true, summaryOwed := owed }

theorem witness_RingEvents :
    (barUp ringOn.dev (pfOf 0) = true ∧ 63 < ringCount (pfOf 0) ∧ ringEnabled ringOn.dev (pfOf 0) true 63 = true
        ∧ [1#256, 2#256].length = ((1#16).toNat + 65536 - ringFld ringOn.dev (pfOf 0) true 63 Rng.producer) % 65536)
      ∧ barUp up.dev (pfOf 2) = false ∧ ringEnabled up.dev (pfOf 0) true 63 = false
      ∧ (getRing up.dev (pfOf 0) true 0).holdoff = false
      ∧ ((getRing (ringWith false).dev (pfOf 0) true 0).holdoff = true ∧ (getRing (ringWith false).dev (pfOf 0) true 0).irqOwed = false)
      ∧ ((getRing (ringWith true).dev (pfOf 0) true 0).holdoff = true ∧ (getRing (ringWith true).dev (pfOf 0) true 0).irqOwed = true)
      ∧ (getEp (summaryWith false).dev 0).summaryOwed = false
      ∧ ((getEp (summaryWith true).dev 0).holdoff = true ∧ (getEp (summaryWith true).dev 0).summaryOwed = true) := by decide +kernel

def resetting : State := with_ fun d => setFn d (pfOf 0) { getFn d (pfOf 0) with inFlr := true }

theorem witness_EndpointEvents :
    (barUp vfUp.dev (vfOf 0 63) = true ∧ (vfOf 0 63).vf.isSome = true) ∧ barUp up.dev (pfOf 0) = true
      ∧ (getFn resetting.dev (pfOf 0)).inFlr = true
      ∧ ((getEp up.dev 0).perst = false ∧ mainPowered up.dev = true ∧ fastRuns up.dev = true
        ∧ up.dev.pwr.railsBt + msToBt up.dev 1 ≤ up.dev.bt)
      ∧ ((getEp up.dev 2).perst = true ∧ power up.dev = 0 ∧ up.dev.pwr.ktFrom = none) := by decide +kernel

def asleep : State := with_ fun d => setFld { d with pwr := { d.pwr with phase := .mainOff, mainEnAt := none } } .power 0 Pow.power 2

def owing : State := { vfUp with dev := setFn vfUp.dev (vfOf 0 63) { getFn vfUp.dev (vfOf 0 63) with eventOwed := true } }

theorem witness_EndpointEvents_more :
    ((getEp asleep.dev 2).perst = true ∧ safe asleep.dev = false ∧ resetHeld asleep.dev = false ∧ asleep.dev.pwr.ktFrom = none
        ∧ power asleep.dev = 2 ∧ pendingState asleep.dev = 0 ∧ asleep.dev.pwr.mainEnAt = none)
      ∧ ((getEp asleep.dev 0).perst = false ∧ mainPowered asleep.dev = false)
      ∧ (barUp owing.dev (vfOf 0 63) = true ∧ (getFn owing.dev (vfOf 0 63)).msixEnable = false
        ∧ (getFn owing.dev (vfOf 0 63)).eventOwed = true) := by decide +kernel

def lapsing : State := with_ fun d => { d with host := { d.host with lapseRuns := true, lapseFrom := 0 } }

def retiring : State :=
  { tenantIn 4095 2 with dev := { (tenantIn 4095 2).dev with host := { (tenantIn 4095 2).dev.host with retireEnd := [(4095, 100000001)] } } }

theorem witness_LapseAndRetirement :
    (lapsing.dev.host.lapseRuns = true ∧ lapseBt lapsing.dev ≤ lapsing.dev.bt + 1 - lapsing.dev.host.lapseFrom)
      ∧ up.dev.host.lapseRuns = false
      ∧ (tenantState retiring.dev 4095 = 2 ∧ Tab.get 0 retiring.dev.host.retireEnd 4095 ≠ 0
        ∧ Tab.get 0 retiring.dev.host.retireEnd 4095 ≤ retiring.dev.bt + 1)
      ∧ tenantState up.dev 4095 ≠ 2 := by decide +kernel

/-- The device with its power state changed. -/
def inPower (f : PwrState → PwrState) : State := with_ fun d => { d with pwr := f d.pwr }

theorem witness_SupplyEvents :
    (inPower fun p => { p with aonUp := false }).dev.pwr.aonUp = false
      ∧ ((inPower fun p => { p with phase := .railsWait }).dev.pwr.phase = .railsWait
        ∧ (inPower fun p => { p with phase := .railsWait }).dev.pwr.mainEnBt + msToBt up.dev 20 ≤ up.dev.bt + 1
        ∧ up.dev.bt + 1 < (inPower fun p => { p with phase := .railsWait, mainEnBt := 100000000 }).dev.pwr.mainEnBt + msToBt up.dev 20)
      ∧ ((List.range 16).any fun r => railWatched up.dev r && pathRail r) = true
      ∧ ((List.range 16).any fun r => railWatched up.dev r && !pathRail r) = true
      ∧ (bit (inPower fun p => { p with railsOut := 0xFFFF }).dev.pwr.railsOut 15 = true
        ∧ bit (inPower fun p => { p with phase := .railsWait, railsOut := 0x8000 }).dev.pwr.railsOut 15 = true ∧ up.dev.pwr.phase ≠ .railsWait)
      ∧ sensorRuns up.dev 7 = true ∧ (fastRuns up.dev = true ∧ bit up.dev.pwr.plls 4 = true ∧ bit up.dev.pwr.plls 3 = true) := by
  decide +kernel

def pinLow : State := inPower fun p => { p with resetN := some 0 }

def resetDue : State := inPower fun p => { p with resetDue := some (100000001, 3) }

def trialOver : State := { onTrial with dev := { onTrial.dev with pwr := { onTrial.dev.pwr with confirmS := 0, confirmFrom := 0 } } }

theorem witness_ResetEvents :
    (up.dev.pwr.resetN = none ∧ safe up.dev = false)
      ∧ (pinLow.dev.pwr.resetN = some 0 ∧ 0 + twoSeconds pinLow.dev ≤ 4 * pinLow.dev.bt)
      ∧ (resetDue.dev.pwr.resetDue = some (100000001, 3) ∧ 100000001 ≤ resetDue.dev.bt + 1 ∧ safe resetDue.dev = false
        ∧ resetHeld resetDue.dev = false)
      ∧ (up.dev.pwr.phase = .ready ∧ fastRuns up.dev = true ∧ up.dev.pwr.halted = false)
      ∧ (fwRuns trialOver.dev = true ∧ trialActive trialOver.dev = true ∧ confirmRemain trialOver.dev = 0
        ∧ trialOver.dev.pwr.reloadDue = none ∧ trialOver.dev.pwr.resetDue = none) := by decide +kernel

def pinLongDue : State := { pinLow with dev := { pinLow.dev with bt := twoSeconds pinLow.dev } }

theorem witness_ResetEvents_long :
    pinLongDue.dev.pwr.resetN = some 0 ∧ 0 + twoSeconds pinLongDue.dev ≤ pinLongDue.dev.bt
      ∧ fld pinLongDue.dev .resetCause 0 RCause.lastResetBt < 0 + twoSeconds pinLongDue.dev := by decide +kernel

def booting (k : Nat) : State := inPower fun p => { p with phase := .bootRom, bootKind := k }

def starting : State := inPower fun p => { p with phase := .fwStart, bootKind := 3 }

def keepDue : State := inPower fun p => { p with ktFrom := some 1000 }

def drainDue : State := { listening with dev := { listening.dev with pwr := { listening.dev.pwr with sharedGated := true } } }

theorem witness_PowerEvents :
    (starting.dev.pwr.phase = .fwStart ∧ fastRuns starting.dev = true ∧ safe starting.dev = false ∧ starting.dev.pwr.bootKind = 3)
      ∧ (safe listening.dev = false ∧ resetHeld listening.dev = false ∧ listening.dev.pwr.ktFrom = none ∧ power listening.dev = 1
        ∧ pendingState listening.dev = 0)
      ∧ (keepDue.dev.pwr.ktFrom = some 1000 ∧ 1000 + msToBt keepDue.dev 4 ≤ keepDue.dev.bt + 1 ∧ resetHeld keepDue.dev = false)
      ∧ (power drainDue.dev = 1 ∧ drainDue.dev.pwr.sharedGated = true
        ∧ fld drainDue.dev .power 0 Pow.entryBt + msToBt drainDue.dev 1 ≤ drainDue.dev.bt + 1)
      ∧ (power up.dev ≠ 1 ∧ mainPowered up.dev = true) := by decide +kernel

/-- A full boot from the shipped image finds its slot. -/
theorem witness_PowerEvents_boot :
    ((booting 1).dev.pwr.phase = .bootRom ∧ resetHeld (booting 1).dev = false ∧ safe (booting 1).dev = false
        ∧ (rollForward (lockPlls (fresh (booting 1).dev))).2 = true
        ∧ (bootSlot (rollForward (lockPlls (fresh (booting 1).dev))).1 false).1 = some 0)
      ∧ ((rollForward (fresh (booting 4).dev)).2 = true
        ∧ (bootSlot (rollForward (fresh (booting 4).dev)).1 true).1.isSome = true) := by decide +kernel

def leap100 : LeapEv := { m := 100, dOld := 37, dNew := 38 }

def tshAt (n : Nat) (d : Dev) : Dev := { d with ts := { d.ts with tsh := { d.ts.tsh.withTotal n with set := true } } }

def leapPending (n : Nat) : State := with_ fun d =>
  { tshAt (n * 10 ^ 9 * 2 ^ 40) d with leap := { d.leap with pending := some leap100, gps := some { dtLs := 18, dtLsf := 18, m := 5 } } }

def tableOver : State := with_ fun d => setFld (tshAt (200 * 10 ^ 9 * 2 ^ 40) d) .leap 0 Leap.hostExpiresS 100

theorem witness_LeapEvents :
    ((tshNs96 (leapPending 200).dev : Int) ≥ leap100.switch * sec32 ∧ (leapPending 200).dev.leap.gps.isSome = true)
      ∧ (tshNs96 (leapPending 0).dev : Int) < leap100.switch * sec32 ∧ up.dev.leap.pending = none
      ∧ (fld tableOver.dev .leap 0 Leap.hostExpiresS ≠ 0
        ∧ (fld tableOver.dev .leap 0 Leap.hostExpiresS : Int) ≤ (tshSec tableOver.dev : Int) - dNow tableOver.dev) := by decide +kernel

theorem witness_EdgeOrder :
    ∀ i < 3, (getTs up.dev i).sec < 2 ^ 48 ∧ (getTs up.dev i).ns < 10 ^ 9 ∧ (getTs up.dev i).frac40 < 2 ^ 40
      ∧ (getTs up.dev i).inc < 10 ^ 9 * 2 ^ 40 := by decide +kernel

def verifying : State := with_ fun d =>
  setFld (setFld (setFld d .servoStatus 1 SrvSt.seedState 1) .servoStatus 1 SrvSt.seedOk 1) .servo 1 Srv.seedVerifyS 1

def heldOver : State := with_ fun d =>
  setFld { d with disc := { d.disc with servos := [(1, { ServoDyn.reset with state := 3 })] } } .servo 1 Srv.holdoverMaxS 1

theorem witness_DisciplineEvents :
    fwRuns up.dev = true ∧ fwRuns (inPower fun p => { p with halted := true }).dev = false
      ∧ (seedState verifying.dev 1 = 1 ∧ flag verifying.dev .servoStatus 1 SrvSt.seedOk = true
        ∧ elapsed verifying.dev (getServo verifying.dev 1).seedBt (fld verifying.dev .servo 1 Srv.seedVerifyS) = true)
      ∧ seedState up.dev 1 ≠ 1
      ∧ ((getServo heldOver.dev 1).state = 3 ∧ fld heldOver.dev .servo 1 Srv.holdoverMaxS ≠ 0
        ∧ elapsed heldOver.dev (getServo heldOver.dev 1).stateBt (fld heldOver.dev .servo 1 Srv.holdoverMaxS) = true) := by
  decide +kernel

/-- Antenna 0 works. -/
def antenna (f : Dev → Dev) : State := with_ fun d => f (setFld (setFld d .gnssAnt 0 GAnt.enable 1) .gnssAnt 0 GAnt.notchEn 1)

def channel (x : Channel → Channel) : State := antenna fun d => setChan d 0 (x (getChan d 0))

def pullingIn (n : Nat) : State := channel fun x => { x with state := 1, since := n, prn := 3 }

def lockedOn (l : Option Nat) (b : Bool) : State :=
  channel fun x => { x with state := 2, prn := 3, lockBt := l, bitSync := b, frameSync := b, lowBt := some 0, windowBt := 0 }

def notched : State := antenna fun d =>
  let d := (List.range 4).foldl (fun d n => setNotch d 0 n true 5) d
  setAnt d 0 { getAnt d 0 with below := [(3, some 0)] }

def acquiring : State := antenna fun d =>
  { d with gnss := { d.gnss with acq := some { ant := 0, fromBt := 0, nc := 1, prns := [(3, 5, 9)] } } }

def surveying (b : Bool) : State := with_ fun d =>
  setFld (setFld { d with gnss := { d.gnss with blSecond := b } } .gnssBase 0 GBl.blState 1) .gnssBase 0 GBl.blSurveyS 1

def tracked : State := with_ fun d => setFld (setFld (tshAt 0 d) .follower 16 Fol.fstate 2) .follower 17 Fol.fstate 2

theorem witness_GnssEvents :
    (gnssRuns up.dev = true ∧ notchOn notched.dev 0 3 = true ∧ Tab.get none (getAnt notched.dev 0).below 3 = some 0
        ∧ 10 ^ 9 ≤ (notched.dev.bt - 0) * btNs notched.dev ∧ (List.range 4).all (notchOn notched.dev 0) = true
        ∧ antRuns notched.dev 0 = true ∧ flag notched.dev .gnssAnt 0 GAnt.notchEn = true)
      ∧ antRuns up.dev 0 = false ∧ up.dev.gnss.acq = none
      ∧ (∃ r, acquiring.dev.gnss.acq = some r ∧ r.ant = 0 ∧ fwRuns acquiring.dev = true ∧ antRuns acquiring.dev 0 = true
        ∧ r.duration ≤ (acquiring.dev.bt - r.fromBt) * btNs acquiring.dev)
      ∧ (let s := pullingIn 0; chanRuns s.dev 0 = true ∧ (getChan s.dev 0).state = 1 ∧ 500 * 10 ^ 6 ≤ (s.dev.bt - (getChan s.dev 0).since) * btNs s.dev)
      ∧ (let s := pullingIn 99999999; chanRuns s.dev 0 = true ∧ (s.dev.bt - (getChan s.dev 0).since) * btNs s.dev ≤ 500 * 10 ^ 6)
      ∧ (let s := lockedOn none false; chanRuns s.dev 0 = true ∧ (getChan s.dev 0).state = 2 ∧ (getChan s.dev 0).lockBt = none
          ∧ (getChan s.dev 0).lowBt = some 0
          ∧ fld s.dev .gnssAnt 0 GAnt.cn0LossMs * 10 ^ 6 ≤ (s.dev.bt - 0) * btNs s.dev)
      ∧ (let s := lockedOn (some 5) true; chanRuns s.dev 0 = true ∧ (getChan s.dev 0).bitSync = true)
      ∧ (let s := lockedOn (some 5) false; chanRuns s.dev 0 = true ∧ (getChan s.dev 0).lockBt.isSome = true ∧ (getChan s.dev 0).bitSync = false
          ∧ 2 * 10 ^ 9 ≤ (s.dev.bt - (getChan s.dev 0).windowBt) * btNs s.dev)
      ∧ (bitPosition (17 :: List.replicate 19 0)).isSome = true ∧ bitPosition (List.replicate 20 3) = none
      ∧ (List.replicate 1024 5).length = 1024 := by
  refine ⟨by decide +kernel, by decide +kernel, by decide +kernel, ⟨_, rfl, by decide +kernel⟩, ?_⟩
  decide +kernel

theorem witness_GnssEvents_fix :
    folTracks up.dev 17 = false ∧ (folTracks tracked.dev 17 = true ∧ (epochInstant tracked.dev).isSome = true ∧ tracked.dev.gnss.epochBt = none)
      ∧ (∀ b, fld (surveying b).dev .gnssBase 0 GBl.blState = 1 ∧ (surveying b).dev.gnss.blSecond = b
        ∧ fld (surveying b).dev .gnssBase 0 GBl.blSurveyS * 10 ^ 9 ≤ ((surveying b).dev.bt - (surveying b).dev.gnss.blFrom) * btNs (surveying b).dev)
      ∧ (fitGood ⟨(1, 2, 3), 100, (1, 1, 1)⟩ = true ∧ (none : Option BaselineFit).filter fitGood = none) := by
  decide +kernel

def inputMode (n : Nat) (f : TiuInput → TiuInput) : State := with_ fun d =>
  let d := setFld (setFld (setFld (tshAt 0 d) .tiuIn 0 TIn.mode n) .follower 16 Fol.fstate 2) .tiuInStatus 0 TInSt.dllLock 1
  setIn d 0 (f (getIn d 0))

def edge0 (held : Nat) : TiuEdge := { input := 0, level := true, at_ := { bt := 100000000, pos := 0 }, bin := 7, heldNs := held }

def gate0 : Gate := { start := -1, first := none, last := 0, count := 0, uncal := false, untracked := false, gap := false }

def start0 : Capture := { tick := 0, stamp := 5, z := 0, fine := 0, reason := 0, step := false }

def waitingStop : State :=
  let s := inputMode 1 fun x => { x with waiting := some start0 }
  { s with dev := setFol s.dev 16 { getFol s.dev 16 with ticks := 2 ^ 33 } }

theorem witness_TiuEvents_overflow :
    tiuRuns waitingStop.dev = true ∧ (getIn waitingStop.dev 0).waiting = some start0 ∧ start0.tick + 2 ^ 32 ≤ coarseAhead waitingStop.dev := by
  have h : (getFol waitingStop.dev 16).ticks = 2 ^ 33 := by decide +kernel
  refine ⟨by decide +kernel, by decide +kernel, ?_⟩
  show 0 + 2 ^ 32 ≤ _
  unfold coarseAhead
  omega

/-- What the edge captures with a table of equal bins, and a device whose last accepted edge of the input was there. -/
def stamp0 : Int :=
  (capture (inputMode 1 fun x => { x with hits := List.replicate 400 1 }).dev (edge0 99999) (binCentre (List.replicate 400 1) 7)).stamp

def holdingOff : State :=
  let s := inputMode 1 fun x => { x with lastStamp := some stamp0, hits := List.replicate 400 1 }
  { s with dev := setFld s.dev .tiuIn 0 TIn.holdoffNs 1000 }

theorem witness_TiuEvents_early :
    let d := setIn (fresh holdingOff.dev) 0 { getIn (fresh holdingOff.dev) 0 with level := true };
    (tiuRuns holdingOff.dev = true ∧ capturing holdingOff.dev 0 = true ∧ edgeChosen holdingOff.dev 0 true = true
        ∧ fld holdingOff.dev .tiuIn 0 TIn.minPulseNs ≤ (edge0 99999).heldNs)
      ∧ fineOf d (edge0 99999) = (binCentre (List.replicate 400 1) 7, d) ∧ (getIn holdingOff.dev 0).lastStamp = some stamp0
      ∧ (capture d (edge0 99999) (binCentre (List.replicate 400 1) 7)).stamp - stamp0
          < (fld holdingOff.dev .tiuIn 0 TIn.holdoffNs : Int) * 2 ^ 32 := by
  refine ⟨by decide +kernel, rfl, rfl, ?_⟩
  have h : (capture (setIn (fresh holdingOff.dev) 0 { getIn (fresh holdingOff.dev) 0 with level := true }) (edge0 99999)
      (binCentre (List.replicate 400 1) 7)).stamp = stamp0 := rfl
  rw [h, Int.sub_self]
  decide +kernel

theorem witness_TiuEvents :
    (tiuRuns (inputMode 1 id).dev = true ∧ capturing (inputMode 1 id).dev 0 = true ∧ (getIn (inputMode 1 id).dev 0).lastStamp = none
        ∧ edgeChosen (inputMode 1 id).dev 0 true = true)
      ∧ (let s : State := { inputMode 1 id with dev := setFld (inputMode 1 id).dev .tiuIn 0 TIn.minPulseNs 50 };
          capturing s.dev 0 = true ∧ (edge0 49).heldNs < fld s.dev .tiuIn 0 TIn.minPulseNs)
      ∧ capturing up.dev 7 = false ∧ (getIn up.dev 7).waiting = none
      ∧ (inMode (inputMode 3 id).dev 0 = 3 ∧ (getIn (inputMode 3 id).dev 0).gate = none
        ∧ (dueIn (inputMode 3 id).dev 0 (gateLength (inputMode 3 id).dev 0 * 2 ^ 8)).isSome = true)
      ∧ (let s := inputMode 3 fun x => { x with gate := some gate0 };
          (getIn s.dev 0).gate = some gate0 ∧ (dueIn s.dev 0 (gateLength s.dev 0 * 2 ^ 8)).map (fun t => decide (gate0.start < (t / 2 ^ 8).floor)) = some true)
      ∧ flag up.dev .tiuInStatus 7 TInSt.dllLock = false
      ∧ (flag (inputMode 1 id).dev .tiuInStatus 0 TInSt.dllLock = true ∧ (2 ^ 20 :: List.replicate 399 0).length = 400
        ∧ (2 ^ 20 :: List.replicate 399 0).sum = 2 ^ 20) := by decide +kernel

def outputs : State := with_ fun d =>
  setFld (setFld (setFld (tshAt 0 d) .follower 16 Fol.fstate 2) .ppsOut 0 Pps.enable 1) .fout 0 Pps.enable 1

def outputEnds : State := with_ fun d =>
  setOut (setOut d 3 { getOut d 3 with active := true, endAt := 0 }) 5 { getOut d 5 with active := true, endAt := 0 }

def settingsDue : State := with_ fun d => setOut (tshAt 0 d) 5 { getOut d 5 with pending := [(0, 0)] }

theorem witness_TiuEvents_outputs :
    (endDue outputEnds.dev 3 = true ∧ endDue outputEnds.dev 5 = true) ∧ (mayBegin up.dev 3 = false ∧ mayBegin up.dev 5 = false)
      ∧ (mayBegin outputs.dev 0 = true ∧ mayBegin outputs.dev 4 = true)
      ∧ ((dueOrLoad outputs.dev 4 0 ((getF (getRec outputs.dev .fout 0) Fout.freqDen : Rat) * 10 ^ 9 * 2 ^ 40
        / getF (getRec outputs.dev .fout 0) Fout.freqNum) false).isSome = true ∧ (getOut outputs.dev 4).active = false
        ∧ (getOut outputs.dev 4).cycleEnd = 0)
      ∧ (fastRuns settingsDue.dev = true ∧ (getOut settingsDue.dev 5).pending = [(0, 0)]
        ∧ 1000000 ≤ (settingsDue.dev.bt - 0) * btNs settingsDue.dev ∧ (dueIn settingsDue.dev 0 (10 ^ 9 * 2 ^ 40)).isSome = true) := by
  decide +kernel

def request (op : BenchOp) : BenchReq := { requester := 0, fn := pfOf 0, door := 0, op := op, kind := 1, secret := some 5, live := true }

def bench3 (op : BenchOp) : State := with_ fun d => { d with key := { d.key with running := [(3, some (request op, 5))] } }

def snapshot1 : Snapshot := { id := 1, strobeBt := 100000000, values := [(3, 77)] }

def strobed : State := with_ fun d => { d with obs := { d.obs with
  gauge := some { strobeBt := 100000000, fn := pfOf 0, door := 0, captured := some snapshot1 } } }

def postFull : State := { scribing 2 with dev := { (scribing 2).dev with obs := { (scribing 2).dev.obs with post := 131072 } } }

def rearming (a : Nat) : State := with_ fun d =>
  setFld (setFld (setFld d .scribeHdr 0 ScrSt.scribeState 3) .scribe 0 Scr.autoRearm a) .scribe 0 Scr.segments 4

theorem witness_KeyAndObserveEvents :
    (fastRuns up.dev = true ∧ runningOn up.dev 3 = none)
      ∧ (runningOn (bench3 (.sign 3 1 1 (fill 32))).dev 3 = some (request (.sign 3 1 1 (fill 32)), 5)
        ∧ benchUs (request (.sign 3 1 1 (fill 32))) * 1000 ≤ (100000000 - 5) * btNs up.dev
        ∧ runningOn (bench3 (.generate 3 1 true (fill 32))).dev 3 = some (request (.generate 3 1 true (fill 32)), 5)
        ∧ benchUs (request (.generate 3 1 true (fill 32))) * 1000 ≤ (100000000 - 5) * btNs up.dev)
      ∧ (gauging.dev.obs.gauge = some { strobeBt := 100000000, fn := pfOf 0, door := 3, captured := none }
        ∧ 100000000 ≤ gauging.dev.bt ∧ fastRuns gauging.dev = true)
      ∧ strobed.dev.obs.gauge = some { strobeBt := 100000000, fn := pfOf 0, door := 0, captured := some snapshot1 }
      ∧ (scribeState postFull.dev = 2 ∧ segRecords postFull.dev - fld postFull.dev .scribe 0 Scr.preTrigger ≤ postFull.dev.obs.post)
      ∧ (∀ a < 2, scribeState (rearming a).dev = 3 ∧ (rearming a).dev.obs.rearmBt + 2 ≤ (rearming a).dev.bt
        ∧ flag (rearming a).dev .scribe 0 Scr.autoRearm = decide (a = 1)
        ∧ curSegment (rearming a).dev + 1 < fld (rearming a).dev .scribe 0 Scr.segments) := by decide +kernel

def raiseIn (id : Nat) : RaiseIn := { source := BitVec.ofNat 16 id, detail := 5, thread := 1, fn := pfOf 0, ring := 0 }

def echoed (n : Nat) : State := with_ fun d => { d with flt := { d.flt with echoes := [(⟨srcId 0x31 3, 0, false⟩, 2, n)] } }

def graceTo (n : Nat) : State := with_ fun d => { d with flt := { d.flt with graceEnd := some n } }

def raised : State := with_ fun d => { d with flt := { d.flt with queue := [⟨0x0201, 5, false⟩] } }

theorem witness_FaultEvents :
    srcExists up.dev (raiseIn 0xFFFF).source.toNat = false
      ∧ (srcExists up.dev (raiseIn 0x0201).source.toNat = true ∧ srcRuns up.dev 0x0201 = true ∧ up.dev.flt.queue = []
        ∧ srcCode (raiseIn 0x0201).source.toNat < 0x10 ∧ injectRemain up.dev (raiseIn 0x0201).source.toNat = 0)
      ∧ (0 < injectRemain injected.dev 0x0201 ∧ modeFits injected.dev 0x0201 = true)
      ∧ raised.dev.flt.queue.find? (fun q => decide (q.source = 0x0201) && decide (q.detail = 5)) = some ⟨0x0201, 5, false⟩
      ∧ (srcExists up.dev (srcId 0x11 3) = true ∧ srcRuns up.dev (srcId 0x11 3) = true ∧ srcCode (srcId 0x11 3) = 0x11
        ∧ srcId 0x11 3 ∉ up.dev.flt.episodes)
      ∧ (∀ e ∈ (echoed 99999991).dev.flt.echoes, (echoed 99999991).dev.bt < e.2.2 + 10)
      ∧ (∀ e ∈ (echoed 99999990).dev.flt.echoes, e.2.2 + 10 ≤ (echoed 99999990).dev.bt)
      ∧ (graceTo 100000001).dev.bt < 100000001 ∧ (100000000 ≤ (graceTo 100000000).dev.bt ∧ safe (graceTo 100000000).dev = false)
      ∧ srcExists up.dev (srcId 0x01 291) = true := by decide +kernel

def usable (n : Nat) : State := with_ fun d =>
  setFld (setFld { d with nts := { d.nts with pendingKeys := [(ringSlot 4095 2, some { key := 9, promote := false })] } }
    .keyRing (ringSlot 4095 2) KeyR.role 1) .keyRing (ringSlot 4095 2) KeyR.usableBt n

theorem witness_KeyRingEvents :
    Tab.get none up.dev.nts.pendingKeys (ringSlot 4095 2) = none
      ∧ (Tab.get none (usable 5).dev.nts.pendingKeys (ringSlot 4095 2) = some { key := 9, promote := false }
        ∧ fld (usable 5).dev .keyRing (ringSlot 4095 2) KeyR.role = 1
        ∧ fld (usable 5).dev .keyRing (ringSlot 4095 2) KeyR.usableBt ≤ (usable 5).dev.bt)
      ∧ ¬ fld (usable 100000001).dev .keyRing (ringSlot 4095 2) KeyR.usableBt ≤ (usable 100000001).dev.bt := by decide +kernel

theorem pathOpen_iff (s : State) : pathOpen s ↔
    (s.dev.pwr.aonUp && !s.dev.pwr.railFailed && pathRuns s.dev) = true := by
  simp [pathOpen, and_assoc]

theorem witness_pathOpen : pathOpen up := (pathOpen_iff up).2 (by decide +kernel)

/-- Port 0 up, beside its records as given. -/
def onPort (f : PortSt → PortSt) : State := with_ fun d => setPort (link0 d) 0 (f (getPort (link0 d) 0))

def pausedPort (n h : Nat) : State :=
  let f (x : PortSt) : PortSt := { x with paused := [(7, some { since := n, endPs := 5, mask := 8 })], anyPausedFrom := some n }
  { onPort f with dev := setFld (onPort f).dev .port 0 Prt.pauseHoldoffMs h }

theorem witness_LinkAndPauseEvents :
    portStarts up.dev 0 = false
      ∧ (portStarts (with_ link0).dev 0 = true ∧ (1#8).toNat &&& laneBits (with_ link0).dev 0 ≠ 0 ∧ linkUp (with_ link0).dev 0 = true
        ∧ serdesUp (with_ link0).dev 0 = true ∧ faultSpan (with_ link0).dev 0 = none)
      ∧ (portStarts (with_ port0).dev 0 = true ∧ serdesUp (with_ port0).dev 0 = true ∧ linkUp (with_ port0).dev 0 = false)
      ∧ (let s := onPort fun x => { x with lossFrom := some 5 };
          faultSpan s.dev 0 = some 99999995 ∧ linkUp s.dev 0 = true
            ∧ fld s.dev .port 0 Prt.linkDownDelayUs * 1000 ≤ (99999995 + 1) * btNs s.dev)
      ∧ (let s := onPort fun x => { x with remoteFrom := some 99999999 };
          faultSpan s.dev 0 = some 1 ∧ 1 * btNs s.dev ≤ fld s.dev .port 0 Prt.linkDownDelayUs * 1000 + btNs s.dev
            ∧ ¬ fld s.dev .port 0 Prt.linkDownDelayUs * 1000 ≤ (1 + 1) * btNs s.dev)
      ∧ (let s : State := { with_ link0 with dev := setFld (with_ link0).dev .portStatus 0 PrtSt.alignLock 1 };
          fld s.dev .portStatus 0 PrtSt.alignLock ≠ 0 ∧ (getPort s.dev 0).lossFrom = none ∧ (getPort s.dev 0).skew ≠ [7])
      ∧ pauseOf up.dev 15 7 = none
      ∧ (let s := pausedPort 99999999 100;
          (pauseOf s.dev 0 7).isSome = true ∧ 5 ≤ (s.dev.bt + 1) * btNs s.dev * 1000
            ∧ ¬ fld s.dev .port 0 Prt.pauseWdMs * 1000000 ≤ (s.dev.bt - 99999999 + 1) * btNs s.dev)
      ∧ (let s := pausedPort 5 0;
          fld s.dev .port 0 Prt.pauseWdMs * 1000000 ≤ (s.dev.bt - 5 + 1) * btNs s.dev ∧ fld s.dev .port 0 Prt.pauseHoldoffMs = 0)
      ∧ Tab.get 0 (getPort up.dev 0).holdoffEnd 7 ≤ up.dev.bt + 1
      ∧ (let s := onPort fun x => { x with holdoffEnd := [(7, 100000002)] };
          ¬ Tab.get 0 (getPort s.dev 0).holdoffEnd 7 ≤ s.dev.bt + 1) := by
  decide +kernel


def txFrame (l : Option Launch) (w : TxWho) : TxFrame :=
  { bytes := fill 64, insert := .none, insertOff := 0, view := 0, csumIp4 := false, csumL4 := 0, l3 := 14, l4 := 34, launch := l
    admitBt := 100000000, area := .shared, who := w, kerfHeld := false }

def queueing (q : Nat) (f : TxFrame) : State := onPort fun x => { x with queues := [(q, [f])] }

def sending : State := onPort fun x =>
  { x with cur := some { frame := txFrame none .beacon, queue := 4, stamp := some 77, step := false, aborted := false } }

/-- The head of Q7 has its launch at nanosecond 5 under a policy, and TSH has long passed it. -/
def launching (policy : Nat) : State :=
  { queueing 7 (txFrame (some ⟨5, 0, 1000, policy, 10⟩) .beacon) with
    dev := tshAt (10 ^ 12 * 2 ^ 40) (queueing 7 (txFrame (some ⟨5, 0, 1000, policy, 10⟩) .beacon)).dev }

theorem launchEdge_le (d : Dev) (p e l : Nat) : (launchEdge d p e l).2 ≤ l + ps32 (8 * bytePs d p) := by
  have hb : 0 < ps32 (8 * bytePs d p) := by
    unfold ps32 bytePs
    split <;> norm_num
  unfold launchEdge
  have h := mul_lt_mul_of_pos_right (Rat.ceil_lt (x := ((l : ℚ) - e) / ps32 (8 * bytePs d p) - 1 / 2)) hb
  have h2 : (((l : ℚ) - e) / ps32 (8 * bytePs d p) - 1 / 2 + 1) * ps32 (8 * bytePs d p)
      = ((l : ℚ) - e) + ps32 (8 * bytePs d p) / 2 := by
    field_simp
    ring
  rw [h2] at h
  show (e : ℚ) + _ ≤ _
  linarith

theorem launching_due (policy e : Nat) :
    let x : Launch := ⟨5, 0, 1000, policy, 10⟩;
    reached (launching 0).dev (x.deadline (launchEdge (launching 0).dev 0 e x.l).2).floor.toNat = true := by
  intro x
  have hp : bytePs (launching 0).dev 0 = 800 := by decide +kernel
  have h := launchEdge_le (launching 0).dev 0 e 5
  rw [hp] at h
  have hd : x.deadline (launchEdge (launching 0).dev 0 e x.l).2 ≤ 2 ^ 40 := by
    unfold Launch.deadline ps32 at *
    rw [max_le_iff]
    constructor
    · refine le_trans h ?_
      norm_num
    · norm_num [x]
  have hf : (x.deadline (launchEdge (launching 0).dev 0 e x.l).2).floor ≤ 2 ^ 40 := by
    have := Rat.floor_le (a := x.deadline (launchEdge (launching 0).dev 0 e x.l).2)
    have h3 := le_trans this hd
    exact_mod_cast h3
  have hr : reached (launching 0).dev (2 ^ 40) = true := by decide +kernel
  unfold reached at *
  simp only [decide_eq_true_eq] at *
  omega

def txDesc (n : Nat) : BitVec 256 :=
  BitVec.ofNat 256 (setF (setF (setF (setF 0 TxDesc.bufLen n) TxDesc.queue 3) TxDesc.l3Offset 14) TxDesc.l4Offset 34)

def fetching (n : Nat) : State := with_ fun d =>
  setFld (setRing (setFn (link0 (setFld d .ring (ringIdx (pfOf 0) true 0) Rng.enable 1)) (pfOf 0)
    { getFn d (pfOf 0) with busMaster := true }) (pfOf 0) true 0 { getRing d (pfOf 0) true 0 with posted := [txDesc n] })
    .view 0 View.created 1

def beaconing : State := with_ fun d =>
  setFld (setFld (link0 d) .beacon 0 Bcn.beaconPeriodMs 5) .port 0 Prt.stationMac 0x020202020202

def startAt0 : TxStart := { port := 0, ins := { bt := 100000000, pos := 3 }, lane := 0, serDiffPs := 0 }

theorem pickQueue_start (d : Dev) (p start : Nat) (tracks : Bool)
    (h : portQueue ([6, 5, 4].foldl (fun d q => dropAged (portQueue d p q).length d p q) d) p 7 = []) :
    pickQueue d p start tracks = pickQueue d p 0 false := by
  have hq (n : Nat) (b : Bool) :
      q7Edge ([6, 5, 4].foldl (fun d q => dropAged (portQueue d p q).length d p q) d) p n b = none := by
    unfold q7Edge
    rw [h]
  unfold pickQueue
  simp only [hq]

def pausedQ4 : State :=
  { queueing 4 (txFrame none .beacon) with dev := setFld (queueing 4 (txFrame none .beacon)).dev .portStatus 0 PrtSt.paused 16 }

/-- At any start instant a frame of Q4 starts, and with the queue paused none does. -/
theorem witness_TransmitEvents_start (start : Nat) (tracks : Bool) :
    let d := fresh (queueing 4 (txFrame none .beacon)).dev;
    (pickQueue d 0 start tracks).1 = some 4
      ∧ portQueue (endKerfIdle (pickQueue d 0 start tracks).2.2 0 5) 0 4 = [txFrame none .beacon]
      ∧ (pickQueue (fresh pausedQ4.dev) 0 start tracks).1 = none ∧ (pickQueue (fresh pausedQ4.dev) 0 start tracks).2.1 = false := by
  intro d
  rw [pickQueue_start d 0 start tracks (by decide +kernel), pickQueue_start (fresh pausedQ4.dev) 0 start tracks (by decide +kernel)]
  decide +kernel

theorem witness_TransmitEvents :
    linkUp up.dev 0 = false
      ∧ (let s := queueing 4 (txFrame none .beacon);
          linkUp s.dev 0 = true ∧ serdesUp s.dev 0 = true ∧ (getPort s.dev 0).lossFrom = none ∧ (getPort s.dev 0).remoteFrom = none
            ∧ (getPort s.dev 0).cur = none ∧ scanHeld s.dev = false ∧ (getPort s.dev 0).kerfIdle = none
            ∧ latchTracks s.dev 0 startAt0.ins = false)
      ∧ (getPort sending.dev 0).cur.isSome = true ∧ (getPort up.dev 0).cur = none
      ∧ (∀ p < 2, (takeQ7 (fresh (launching p).dev) 0 0).map (fun x => x.2.1) = some ⟨5, 0, 1000, p, 10⟩
        ∧ reached (launching p).dev (Launch.expiry ⟨5, 0, 1000, p, 10⟩) = true)
      ∧ takeQ7 (fresh (launching 0).dev) 0 1 = none
      ∧ (getRing up.dev (pfOf 0) true 0).posted = []
      ∧ (∀ n ∈ [64, 20000], (getRing (fetching n).dev (pfOf 0) true 0).posted = [txDesc n]
        ∧ ringEnabled (fetching n).dev (pfOf 0) true 0 = true ∧ live (fetching n).dev (pfOf 0) = true
        ∧ fnExists (fetching n).dev (pfOf 0) = true
        ∧ occupancy (fetching n).dev 0 3 + maxFrame (fetching n).dev 0 ≤ getF (fld (fetching n).dev .port 0 Prt.qLimitKib) ⟨63, 48⟩ * kib
        ∧ descOk (fetching n).dev (pfOf 0) 0 (txDesc n).toNat = decide (n = 64))
      ∧ beaconRuns up.dev 0 = false
      ∧ (beaconRuns beaconing.dev 0 = true ∧ fld beaconing.dev .beacon 0 Bcn.beaconPeriodMs * 1000000
          ≤ (beaconing.dev.bt + 1 - (getPort beaconing.dev 0).beaconBt) * btNs beaconing.dev) := by decide +kernel

/-- A broadcast frame of 64 bytes on port 0. -/
def rxFrame (h : List Byte) : RxFrame :=
  { port := 0, bytes := List.replicate 6 0xFF ++ [2, 2, 2, 2, 2, 2] ++ h ++ fill (52 - h.length), fcsOk := true, fecBad := false
    fragment := false, cwCorrected := 3, cwBad := 1, symErr := 7, lane := 0, word := { bt := 100000000, pos := 3 }, symbol := 3
    tagLost := false }

def parsed (f : RxFrame) : Parsed := parseFrame (fld (with_ link0).dev .port 0 Prt.outerTpid) f.bytes

/-- An IPv4 header with a wrong checksum. -/
def badIp : RxFrame := rxFrame [8, 0, 0x45, 0, 0, 40, 0, 0, 0, 0, 64, 17, 1, 1]

/-- Every pattern of port 0 is off and a frame that none matches is dropped in LISTEN. -/
def listenDrops : State := { listening with dev := setFld (link0 listening.dev) .port 0 Prt.nomatchAction 1 }

def noSpace : State := with_ fun d => setPort (link0 d) 0 { getPort d 0 with rxCur := some ⟨none, true⟩ }

def withFec : State := with_ fun d => setFld (setFld d .octet 0 Oct.mode 4) .portStatus 0 PrtSt.linkState 3

theorem witness_FrameReceipt :
    receives up.dev 0 = false ∧ receives (with_ link0).dev 0 = true ∧ usesFec (with_ link0).dev 0 = false
      ∧ (receives withFec.dev 0 = true ∧ usesFec withFec.dev 0 = true)
      ∧ (64 ≤ (rxFrame []).bytes.length + 4 ∧ (parsed (rxFrame [])).etherType ≠ 0x8808 ∧ daPasses (with_ link0).dev 0 (parsed (rxFrame [])).dst = true
        ∧ (rxAdmit (with_ link0).dev 0).isSome = true ∧ (wakeTest (with_ link0).dev 0 (rxFrame []).bytes).1 = false
        ∧ (parsed (rxFrame [])).l3Status ≠ 1 ∧ (parsed (rxFrame [])).l4Status ≠ 1)
      ∧ (parsed (rxFrame [0x88, 0x08])).etherType = 0x8808
      ∧ daPasses (with_ link0).dev 0 (parseFrame 0x88A8 (List.replicate 64 4)).dst = false
      ∧ ((parsed badIp).l3Status = 1 ∧ fld (with_ link0).dev .port 0 Prt.badCsumAction ≠ 1)
      ∧ (receives listenDrops.dev 0 = true ∧ (wakeTest listenDrops.dev 0 (rxFrame []).bytes).1 = true)
      ∧ (receives noSpace.dev 0 = true ∧ (getPort noSpace.dev 0).rxCur = some ⟨none, true⟩) := by decide +kernel

def kerfPort (start : Nat) : PortSt :=
  { getPort (link0 upDev) 0 with
    queues := [(4, [{ txFrame none .beacon with kerfHeld := true }]), (7, [txFrame (some ⟨start + 32 * 2 ^ 32, 0, 1000, 0, 10⟩) .beacon])] }

/-- Q4's frame waits for the launch of Q7's head 32 ns after the start. -/
def kerfed (start : Nat) : State := with_ fun d => setPort (link0 d) 0 (kerfPort start)

theorem txStamp_setPort (d : Dev) (p k : Nat) (x : PortSt) (a : LocalAt) (l : Nat) :
    txStamp (setPort d k x) p a l = txStamp d p a l := rfl

theorem fld_setPort (d : Dev) (k i : Nat) (x : PortSt) (r : RecKind) (f : Fld) :
    fld (fresh (setPort d k x)) r i f = fld (fresh d) r i f := rfl

theorem kerfed_bytePs (start : Nat) : bytePs (fresh (kerfed start).dev) 0 = 800 := by
  show bytePs (fresh (setPort (link0 upDev) 0 (kerfPort start))) 0 = 800
  unfold bytePs octMode
  rw [fld_setPort]
  decide +kernel

theorem kerfed_queue (start q : Nat) :
    portQueue (fresh (kerfed start).dev) 0 q = Tab.get [] (kerfPort start).queues q := by
  have h : getPort (fresh (kerfed start).dev) 0 = kerfPort start := rfl
  unfold portQueue
  rw [h]

theorem kerfed_edge (start : Nat) :
    launchEdge (fresh (kerfed start).dev) 0 start (start + 32 * 2 ^ 32) = (5, (start : Rat) + 5 * ps32 6400) := by
  have hb := kerfed_bytePs start
  unfold launchEdge
  simp only [hb]
  have h : ((((start + 32 * 2 ^ 32 : Nat) : ℚ) - start) / ps32 (8 * (800 : Nat)) - 1 / 2) = 9 / 2 := by
    unfold ps32
    push_cast
    ring
  rw [h]
  have hc : (9 / 2 : ℚ).ceil = 5 := by decide +kernel
  rw [hc]
  norm_num

theorem kerfed_fits (start : Nat) (f : TxFrame) (hf : TxFrame.len f = 68) :
    kerfFits (fresh (kerfed start).dev) 0 f start ((start : Rat) + 5 * ps32 6400) = false := by
  have hb := kerfed_bytePs start
  unfold kerfFits
  rw [hb, hf]
  unfold ps32
  simp only [decide_eq_false_iff_not, not_le]
  norm_num
  linarith

theorem witness_TransmitEvents_kerf (start : Nat) :
    (pickQueue (fresh (kerfed start).dev) 0 start true).1 = none
      ∧ (pickQueue (fresh (kerfed start).dev) 0 start true).2.1 = true := by
  have h6 : portQueue (fresh (kerfed start).dev) 0 6 = [] := rfl
  have h5 : portQueue (fresh (kerfed start).dev) 0 5 = [] := rfl
  have h4 : portQueue (fresh (kerfed start).dev) 0 4 = [{ txFrame none .beacon with kerfHeld := true }] := rfl
  have ha : [6, 5, 4].foldl (fun d q => dropAged (portQueue d 0 q).length d 0 q) (fresh (kerfed start).dev)
      = fresh (kerfed start).dev := by
    have hl : fld (fresh (kerfed start).dev) .port 0 Prt.ageLimitUs = fld (fresh (link0 upDev)) .port 0 Prt.ageLimitUs := rfl
    have hc : ¬ fld (fresh (link0 upDev)) .port 0 Prt.ageLimitUs * 1000
        < ((fresh (kerfed start).dev).bt - (txFrame none .beacon).admitBt) * btNs (fresh (kerfed start).dev) := by
      show ¬ fld (fresh (link0 upDev)) .port 0 Prt.ageLimitUs * 1000 < (100000000 - 100000000) * btNs (fresh (link0 upDev))
      omega
    simp only [List.foldl, h6, h5, h4, List.length_nil, List.length_singleton, dropAged]
    rw [hl, if_neg hc]
  have he : q7Edge (fresh (kerfed start).dev) 0 start true = some (5, (start : Rat) + 5 * ps32 6400) := by
    rw [← kerfed_edge start]; rfl
  have hk : kerfFits (fresh (kerfed start).dev) 0 { txFrame none .beacon with kerfHeld := true } start ((start : Rat) + 5 * ps32 6400) = false :=
    kerfed_fits start _ (by decide +kernel)
  have hp : fld (fresh (kerfed start).dev) .portStatus 0 PrtSt.paused = 0 :=
    (fld_setPort (link0 upDev) 0 0 (kerfPort start) .portStatus PrtSt.paused).trans (by decide +kernel)
  have h3 : portQueue (fresh (kerfed start).dev) 0 3 = [] := rfl
  have h2 : portQueue (fresh (kerfed start).dev) 0 2 = [] := rfl
  have h1 : portQueue (fresh (kerfed start).dev) 0 1 = [] := rfl
  have h0 : portQueue (fresh (kerfed start).dev) 0 0 = [] := rfl
  have hb : bit 0 0 = false ∧ bit 0 1 = false ∧ bit 0 2 = false ∧ bit 0 3 = false ∧ bit 0 4 = false ∧ bit 0 5 = false
      ∧ bit 0 6 = false := by decide
  unfold pickQueue
  rw [ha]
  simp only [he, hp, hk, h6, h5, h4, h3, h2, h1, h0, hb, List.foldl, Bool.false_eq_true, if_false, reduceIte, decide_false,
    Bool.false_and, show ¬ (5 : Int) ≤ 0 by decide, and_self]

/-- The device serves tenant 0 on port 0. -/
def serving (st : Nat) (d : Dev) : Dev :=
  let d := tshAt (1000 * 10 ^ 9 * 2 ^ 40 + 5) (link0 d)
  let d := setFld (setFld d .steer 0 Steer.select 1) .servoStatus 0 SrvSt.servoState st
  let d := setFld (setFld (setFld d .tenant 0 Ten.state 1) .view 0 View.created 1) .ntp 0 Ntp.maxDispMs 60000
  let d := setRec d .addrEntry 0 (addrVal 0)
  let d := setFld (setFld (setFld (setFld d .bcast 0 Bc.bcastEn 1) .bcast 0 Bc.portMask 1) .bcast 0 Bc.bcastFamily 1) .bcast 0 Bc.bcastPoll 4
  setFld (setFld (setFld d .ptp 0 Ptp.ptpEn 1) .ptp 0 Ptp.unicastEn 1) .port 0 Prt.stationMac 0x020202020202

def served (f : Dev → Dev) : State := with_ fun d => f (serving 3 d)

def ipFrame : List Byte :=
  [2, 2, 2, 2, 2, 2, 3, 3, 3, 3, 3, 3, 8, 0, 0x45, 0, 0, 76, 0, 0, 0, 0, 64, 17, 0, 0, 10, 0, 0, 9, 10, 0, 0, 1, 0, 123, 0, 123, 0, 56, 0, 0, 0x23]
    ++ fill 47

def descIn (d : Dev) (s : Service) : Desc :=
  { pkt := { bytes := ipFrame, status := 0, stamp := 77 * 2 ^ 70, port := 0, svc := svcNow d }, area := .shared, tenant := 0, service := s
    entry := 0, storedBt := 100000000, order := 3, multicast := false, ageUs := 100, holdMs := 10 }

/-- A descriptor of tenant 0 waits at engine 0. -/
def queued1 : State := served fun d => { nodesUp d with arr := { d.arr with queue := [(0, descIn d .ntp)] } }

def ntsWork : NtsWork :=
  { sample := [(5, 2)], ratePending := false, alg := 15, c2s := fill 32, s2c := fill 32, kod := none, toMint := 1, minted := []
    l := 104, head := fill 48 }

/-- Thread 7 of engine 127 holds a context. -/
def context (ph : CtxPhase) (w : Option NtsWork) (us : Nat) : State := served fun d =>
  { d with arr := { d.arr with ctx := [(1023, some { desc := descIn d .ntp, node := 127, allocBt := 99999990, timeoutUs := us, view := 0
                                                     oldImage := false, packet := 3, phase := ph, nts := w, recs := [], scratch := []
                                                     regs := [] })] } }

def laneRun0 (n : Nat) : LaneRun :=
  { job := { owner := .thread 1023 3, kind := .auth, tenant := 0, node := 127, blocks := 20, order := 1 }, from_ := n, key := fill 32 }

def onLane (n : Nat) : State :=
  { context .auth (some ntsWork) 500 with
    dev := { (context .auth (some ntsWork) 500).dev with arr := { (context .auth (some ntsWork) 500).dev.arr with lanes := [(31, some (laneRun0 n))] } } }

theorem witness_ServiceEvents_grant :
    (grantAt (retentionExit (fresh queued1.dev)) 0).1 = some (0, descIn (serving 3 upDev) .ntp, [0]) :=
  grantAt_one _ 0 (0, descIn (serving 3 upDev) .ntp, [0]) (by decide +kernel) (by decide +kernel)

theorem witness_ServiceEvents :
    (freeThreads queued1.dev 0 ≠ [] ∧ (grantAt (retentionExit (fresh queued1.dev)) 127).1 = none)
      ∧ (let full := (List.range 8).map fun t => (t, ctxAt (context .grant none 500).dev 127 7);
          freeThreads { queued1.dev with arr := { queued1.dev.arr with ctx := full } } 0 = [])
      ∧ ctxAt up.dev 127 7 = none ∧ laneOf up.dev 127 7 = none
      ∧ ((ctxAt (context .client none 500).dev 127 7).map fun x => (x.phase, x.nts.isNone)) = some (.client, true)
      ∧ ((ctxAt (context .client (some ntsWork) 500).dev 127 7).map fun x => (x.phase, x.nts.isSome)) = some (.client, true)
      ∧ ((ctxAt (context .grant none 500).dev 127 7).map (·.phase)) = some .grant
      ∧ ((ctxAt (context .ring (some ntsWork) 500).dev 127 7).map fun x => (x.phase, x.nts)) = some (.ring, some ntsWork)
      ∧ ((ctxAt (context (.credit (.queue 0 4 (txFrame none .beacon) 3)) none 500).dev 127 7).map (·.phase))
          = some (.credit (.queue 0 4 (txFrame none .beacon) 3))
      ∧ ((ctxAt (context .grant none 0).dev 127 7).map fun x => decide (x.timeoutUs * 1000 ≤ (100000000 - x.allocBt + 1) * btNs up.dev)) = some true
      ∧ ((ctxAt (context .grant none 500).dev 127 7).map fun x => decide ((100000000 - x.allocBt + 1) * btNs up.dev < x.timeoutUs * 1000)) = some true
      ∧ (laneOf (onLane 5).dev 127 7 = some (31, laneRun0 5)
        ∧ (laneRun0 5).from_ + (laneRun0 5).job.blocks ≤ ((onLane 5).dev.bt + 1) * cyclesPerBt (onLane 5).dev)
      ∧ (let n := 100000001 * cyclesPerBt up.dev - 19;
          laneOf (onLane n).dev 127 7 = some (31, laneRun0 n)
            ∧ ¬ (laneRun0 n).from_ + (laneRun0 n).job.blocks ≤ ((onLane n).dev.bt + 1) * cyclesPerBt (onLane n).dev)
      ∧ flag up.dev .bcast 4095 Bc.bcastEn = false := by decide +kernel

theorem witness_ServiceEvents_broadcast (st : Fin 4) :
    let s := with_ (serving st.val);
    s.dev.pwr.tablesLost = false ∧ tenantBound s.dev 0 = true ∧ flag s.dev .bcast 0 Bc.bcastEn = true
      ∧ bit (fld s.dev .bcast 0 Bc.portMask) 0 = true
      ∧ portStarts s.dev 0 = true ∧ bcastGrid s.dev 0 (960 * 10 ^ 9) = true ∧ reached s.dev ((960 * 10 ^ 9 - 20000) * 2 ^ 32) = true
      ∧ isAlarm (servedState s.dev 0 (svcNow s.dev)) = decide (st.val < 2)
      ∧ (sourceEntry s.dev 0 0 (fld s.dev .bcast 0 Bc.bcastFamily)).isSome = true
      ∧ (sourceEntry (setRec s.dev .addrEntry 0 0) 0 0 (fld s.dev .bcast 0 Bc.bcastFamily)).isSome = false := by
  revert st; decide +kernel

def halted : State := inPower fun p => { p with halted := true }

def grantee : GrantEntry :=
  { tenant := 0, family := 1, addr := 0x0A000009, portId := 5, announce := none, sync := some ⟨0, 300000000⟩, delay := some ⟨0, 5⟩
    bucket := 0, bucketBt := 0, seqAnnounce := 1, seqSync := 2, seqSignaling := 3, mac := 0x030303030303, tags := [], port := 0, entry := 0
    idleBt := 5 }

def granting (x : GrantEntry) (fs : List FollowUp) (st : Nat) : State := with_ fun d =>
  { serving st d with ptp := { (serving st d).ptp with grants := [(0, some x)], followUps := fs } }

def follow (g : Option GrantEntry) : FollowUp := ⟨0, 0, 7, 0, 0, g, 99 * 2 ^ 32⟩

/-- Port 0 is a multicast instance of tenant 0. -/
def multicasting (transport : Nat) : State := served fun d =>
  setFld (setFld (setFld d .ptpPort 0 PPort.role 1) .ptpPort 0 PPort.tenant 0) .ptpPort 0 PPort.transport transport

/-- Its last message still waits in a queue. -/
def busySched : State :=
  let s := granting grantee [] 3
  { s with dev := setPort s.dev 0 { getPort s.dev 0 with queues := [(4, [txFrame none (.ptp 0 1 (some (schedKey false 0 false)) none)])] } }

theorem witness_PtpMasterEvents :
    schedule up.dev (schedKey true 65535 true) = none
      ∧ (let s := granting grantee [follow (some grantee)] 3;
          schedule s.dev (schedKey false 0 false) = some (0, 0, 0) ∧ dueGrid 0 0 (10 ^ 9 * 2 ^ 32) = true
            ∧ reached s.dev (10 ^ 9 * 2 ^ 32) = true ∧ reached s.dev (2 ^ 80) = false ∧ servedState s.dev 0 (svcNow s.dev) ≠ 0
            ∧ schedPort 0 = none ∧ schedBusy s.dev 0 = false
            ∧ s.dev.ptp.followUps = [follow (some grantee)]
            ∧ ((grantEntry s.dev 0).bind fun x => x.sync.map fun y => decide (s.dev.bt < y.expiryBt)) = some true
            ∧ ((grantEntry s.dev 0).bind fun x => x.delay.map fun y => decide (y.expiryBt ≤ s.dev.bt)) = some true
            ∧ ((grantEntry s.dev 0).map fun x => x.announce) = some none
            ∧ grantee.holdsNone = false)
      ∧ (schedule busySched.dev 0 = some (0, 0, 0) ∧ servedState busySched.dev 0 (svcNow busySched.dev) ≠ 0 ∧ schedBusy busySched.dev 0 = true)
      ∧ (let d := (granting grantee [follow none] 3).dev; let u := { d with ts := { d.ts with tsh := { d.ts.tsh with set := false } } };
          servedState u 0 (svcNow u) = 0 ∧ (schedule u 0).isSome = true ∧ u.ptp.followUps = [follow none])
      ∧ (let s := multicasting 1; let k := schedKey true 0 false;
          (schedule s.dev k).map (fun x => (x.1, x.2.1)) = some (0, 0) ∧ schedPort k = some 0 ∧ fld s.dev .ptpPort 0 PPort.transport ≠ 0
            ∧ (groupSource s.dev 0 0 1).isSome = true
            ∧ groupSource (setRec s.dev .addrEntry 0 0) 0 0 1 = none)
      ∧ up.dev.ptp.followUps = [] ∧ grantEntry up.dev 65535 = none ∧ { grantee with sync := none, delay := none }.holdsNone = true
      ∧ 10 ^ 9 ≤ (up.dev.bt - grantee.idleBt) * btNs up.dev := by decide +kernel

def client (neg : Nat) (f : Dev → Dev) : State := served fun d =>
  f (setFld (setFld (setFld d .ptpPort 0 PPort.role 2) .ptpPort 0 PPort.negotiate neg) .ptpClient 0 PCli.masterPortId 77)

def exchangeFrom (b : Nat) : Exchange :=
  { master := 77, seq := 3, t1 := none, cSync := 0, t2 := 5, startBt := b, bad := false, reqSeq := none, t3 := none, resp := none }

def clientWith (x : ClientInst) : State := client 0 fun d => { setFld d .ptpPort 0 PPort.logAnnounce 0 with
  bt := 1000000000, ptp := { d.ptp with clients := [(0, x)] } }

/-- A PTP message over Ethernet: its type, its length, and the port identity 77 for its source. -/
def ptpFrame (type n : Nat) : List Byte :=
  List.replicate 6 1 ++ List.replicate 6 3 ++ [0x88, 0xF7] ++ beBytes 1 type ++ [2] ++ beBytes 2 n ++ fill 16 ++ beBytes 10 77
    ++ fill (n - 30)

def inboxDesc (type n : Nat) : Desc :=
  { descIn (serving 3 upDev) .ptp with pkt := { (descIn (serving 3 upDev) .ptp).pkt with bytes := ptpFrame type n } }

def inbox (type n : Nat) : State := client 0 fun d => { d with ptp := { d.ptp with inbox := [(0, inboxDesc type n)] } }

/-- What the client instance reads of the frame that waits: its type, its source and whether it is in the domain. -/
def hears (type n : Nat) : Bool :=
  let s := inbox type n
  let b := (ptpMessage { fresh s.dev with ptp := { s.dev.ptp with inbox := [] } } (inboxDesc type n).pkt).1
  decide (clientPort s.dev 0 = some 0) && decide (s.dev.ptp.inbox.find? (fun e => e.1 = 0) = some (0, inboxDesc type n))
    && decide (negotiates s.dev 0 = false) && decide (msgMalformed b = false) && decide (rdBe b 4 1 = fld s.dev .ptpPort 0 PPort.domain)
    && decide (msgType b = type) && decide (msgLen b = n) && decide (msgSource b = fld s.dev .ptpClient 0 PCli.masterPortId)

theorem witness_PtpClientEvents_frame :
    hears ptpAnnounce 64 = true ∧ hears ptpSignaling 44 = true ∧ hears ptpSync 44 = true ∧ hears ptpFollowUp 44 = true
      ∧ hears ptpDelayResp 54 = true ∧ hears ptpDelayResp 44 = true ∧ hears 1 44 = true := by decide +kernel

/-- The grant of Delay_Resp is held, of 300 s from now. -/
def clientGranted : State := client 1 fun d => { setFld d .ptpPort 0 PPort.logDelay 0 with
  ptp := { d.ptp with clients := [(0, { ClientInst.reset with granted := [(ptpDelayResp, 300 * 2 ^ 64 + 100000000)] })] } }

theorem witness_PtpClientEvents :
    fwRuns (client 0 id).dev = true ∧ fwRuns halted.dev = false ∧ clientPort up.dev 0 = none
      ∧ up.dev.ptp.inbox.find? (fun e => e.1 = 1) = none
      ∧ (let s : State := { inbox ptpSync 44 with dev := setFld (inbox ptpSync 44).dev .ptpPort 0 PPort.role 0 }; clientPort s.dev 0 = none)
      ∧ (fld (client 0 id).dev .ptpClient 0 PCli.masterPortId ≠ 0 ∧ negotiates (client 0 id).dev 0 = false
        ∧ delayReqDue (client 0 id).dev (getClient (client 0 id).dev 0) 0 = true
        ∧ (getClient (client 0 id).dev 0).exchange = none)
      ∧ (negotiates clientGranted.dev 0 = true ∧ clientHolds clientGranted.dev (getClient clientGranted.dev 0) ptpDelayResp = true
        ∧ delayReqDue clientGranted.dev (getClient clientGranted.dev 0) 0 = true)
      ∧ (negotiates (client 1 id).dev 0 = true ∧ grantWanted (client 1 id).dev (getClient (client 1 id).dev 0) ptpSync = true)
      ∧ (let s := clientWith { ClientInst.reset with masters := [(77, 5, 3, true)], exchange := some (exchangeFrom 5) };
          (getClient s.dev 0).masters = [(77, 5, 3, true)] ∧ 77 = fld s.dev .ptpClient 0 PCli.masterPortId
            ∧ 3 * (2 : Rat) ^ (sfld s.dev .ptpPort 0 PPort.logAnnounce) * 10 ^ 9 ≤ (((s.dev.bt - 3) * btNs s.dev : Nat) : Rat)
            ∧ (getClient s.dev 0).exchange = some (exchangeFrom 5) ∧ 4 * 10 ^ 9 ≤ (s.dev.bt - 5) * btNs s.dev)
      ∧ (let s := clientWith { ClientInst.reset with exchange := some (exchangeFrom 999999999) };
          (s.dev.bt - 999999999) * btNs s.dev < 4 * 10 ^ 9) := by decide +kernel

def node (c p : Nat) (f : NodeDyn → NodeDyn) : State := with_ fun d =>
  setNode (setFld (nodesUp d) .nodeStatus c NodeSt.power p) c (f (getNode d c))

def retained (n b : Nat) : State := with_ fun d => { nodesUp d with bt := b, ct := { d.ct with retainedFrom := some n } }

/-- LISTEN, with the nodes on, at a BT_COUNT. -/
def listeningNode (b : Nat) (f : NodeDyn → NodeDyn) : State := with_ fun d =>
  setNode { setFld (nodesUp d) .power 0 Pow.power 1 with bt := b } 148 (f (getNode d 148))

def oldContext : State := with_ fun d =>
  { d with arr := { d.arr with ctx := ((context .client none 500).dev.arr.ctx.map fun e => (e.1, e.2.map fun x => { x with oldImage := true })) } }

/-- The coarse tick of the state's BT_COUNT has had its sweep, or not. -/
def swept (n : Nat) : State := with_ fun d => { d with ct := { d.ct with retainedFrom := none, sweep := 2 ^ 20 - 1, sweepAt := n } }

theorem witness_ArrayEvents :
    (let s := node 148 1 fun x => { x with gateBt := some 5 };
      (getNode s.dev 148).gateBt = some 5 ∧ nodePower s.dev 148 = 1 ∧ contextsBusy s.dev 148 = 0)
      ∧ (getNode up.dev 148).gateBt = none ∧ (getNode up.dev 148).resetEnd = none
      ∧ (let s := node 148 0 fun x => { x with resetEnd := some 100000001 };
          (getNode s.dev 148).resetEnd = some 100000001 ∧ s.dev.bt < 100000001)
      ∧ (let s := node 148 0 fun x => { x with resetEnd := some 100000000, reload := true };
          (getNode s.dev 148).resetEnd = some 100000000 ∧ 100000000 ≤ s.dev.bt ∧ fwRuns s.dev = true
            ∧ ((subtree s.dev 148).any fun n => (getNode s.dev n).reload) = true)
      ∧ (allGated up.dev = true ∧ (retained 5 100000000).dev.ct.retainedFrom = some 5)
      ∧ (allGated (retained 5 100000000).dev = false ∧ (100000000 - 5) / 16384 < 2 ^ 20)
      ∧ (allGated (retained 5 (2 ^ 35)).dev = false ∧ 2 ^ 20 ≤ (2 ^ 35 - 5) / 16384)
      ∧ power up.dev = 0
      ∧ (let s := listeningNode 1000000000 fun x => { x with idleMs := 5 };
          power s.dev = 1 ∧ nodePower s.dev 148 = 0 ∧ (getNode s.dev 148).logicOnly = false ∧ (getNode s.dev 148).idleMs ≠ 0
            ∧ (getNode s.dev 148).idleMs * 1000000 ≤ (s.dev.bt - (getNode s.dev 148).lastGrantBt + 1) * btNs s.dev)
      ∧ (let d := setNode (setFld upDev .power 0 Pow.power 1) 148 { getNode upDev 148 with logicOnly := true };
          let s : State := { dev := setFld d .nodeStatus 148 NodeSt.power 0, pending := [] };
          power s.dev = 1 ∧ nodePower s.dev 148 = 0 ∧ (getNode s.dev 148).logicOnly = true
            ∧ ((descendants s.dev.variant 148).all fun n => decide (parentOf n ≠ some 148) || decide (nodePower s.dev n = 2)) = true)
      ∧ (let s := node 148 3 fun x => { x with wakeBt := some 5, wakeUs := 20 };
          nodePower s.dev 148 = 3 ∧ (getNode s.dev 148).wakeBt = some 5
            ∧ (getNode s.dev 148).wakeUs * 1000 ≤ (s.dev.bt - 5 + 1) * btNs s.dev)
      ∧ (let s := node 148 3 fun x => { x with wakeBt := some 100000000, wakeUs := 20 };
          ¬ (getNode s.dev 148).wakeUs * 1000 ≤ (s.dev.bt - 100000000 + 1) * btNs s.dev)
      ∧ (getNode up.dev 148).wakeBt = none ∧ (up.dev.arr.ctx.any fun e => match e.2 with | some x => x.oldImage | none => false) = false
      ∧ (oldContext.dev.arr.ctx.any fun e => match e.2 with | some x => x.oldImage | none => false) = true
      ∧ (retained 5 100000000).dev.ct.retainedFrom.isSome = true
      ∧ ((swept 6102).dev.ct.retainedFrom = none ∧ (swept 6102).dev.ct.sweepAt < (swept 6102).dev.bt / 16384)
      ∧ ¬ (swept 6103).dev.ct.sweepAt < (swept 6103).dev.bt / 16384 := by
  decide +kernel

/-- Door 0 of PF 0 in a state. -/
def doorIs (x : Door) : State := with_ (atDoor x)

def posted1 : Posted := ⟨0x0110, msg [], 0, 5⟩

def waitingFor (w : Waiting) : State := doorIs { Door.idle with phase := .serving, serving := some (posted1, w) }

theorem witness_DoorsAndDoorbells :
    (barUp up.dev (pfOf 0) = true ∧ (getDoor up.dev (pfOf 0) 7).phase = .idle ∧ (getDoor up.dev (pfOf 0) 7).more = none)
      ∧ (getDoor (doorIs { Door.idle with phase := .posted, posted := some posted1 }).dev (pfOf 0) 0).phase = .posted
      ∧ (barUp resetting.dev (pfOf 0) = false) ∧ (ready up (msg []) = true ∧ cmdOf 0xFFFF = none)
      ∧ (doorsServed halted.dev = false ∧ barUp halted.dev (pfOf 0) = true ∧ (getDoor halted.dev (pfOf 0) 0).phase = .idle
        ∧ (getDoor halted.dev (pfOf 0) 0).posted = none ∧ (getDoor halted.dev (pfOf 0) 0).more = none)
      ∧ waitingAt up.dev (pfOf 0) 0 = none
      ∧ (([.jigUpload [1], .tagWrite 1 [1], .fwErase 1, .fwWrite 1 0 [1, 2, 3, 4], .fwVerify 1, .lcAdvance 2 (fill 8) false, .svnRaise 1 1,
            .wrapInstall 3 0 77, .shimLoop 0 1 5] : List Waiting).all fun w =>
          decide (waitingAt (waitingFor w).dev (pfOf 0) 0 = some w) && doorsServed (waitingFor w).dev) = true := by decide +kernel

def part (n : Nat) : Partial := { op := 0x0310, sequence := 7, total := 3, acting := BitVec.ofNat 32 (2 ^ 32 - 1), next := n, bytes := [1] }

def head310 : Response :=
  { op := 0x0310, flags := 0, sequence := 7, fragIndex := 0, fragTotal := 3, acting := 2 ^ 32 - 1, status := .ok, payload := [] }

def partAt (b : Nat) : State := doorIs { Door.idle with phase := .done, partial_ := some (part 1), lastServedBt := b }

def moreAt (b : Nat) : State :=
  doorIs { Door.idle with phase := .done, more := some { head := head310, whole := [1, 2, 3], next := 2 }, lastServedBt := b }

/-- A fragment of a request of three, of the length every fragment but the last has. -/
def fragment (n : Nat) (p : List Byte) : Msg := { msg p with fragIndex := BitVec.ofNat 16 n, fragTotal := 3 }

theorem witness_FragmentedMessages :
    (doorsServed (partAt 0).dev = true ∧ barUp (partAt 0).dev (pfOf 0) = true ∧ ((partAt 0).dev.mbx.doors.all fun e => e.2.posted.isNone) = true
        ∧ (getDoor (partAt 0).dev (pfOf 0) 0).partial_ = some (part 1) ∧ (getDoor (partAt 0).dev (pfOf 0) 0).more = none)
      ∧ (continues (part 1) 0x0310 (fragment 1 (fill 4064)) = true ∧ (part 1).next + 1 < (part 1).total
        ∧ bit (fragment 1 []).flags.toNat 1 = false)
      ∧ continues (part 1) 0x0310 (fragment 2 []) = false
      ∧ ((getDoor up.dev (pfOf 0) 0).partial_ = none ∧ up.dev.mbx.locks = [] ∧ (0 : Nat) = controllerEp up.dev
        ∧ headerOk (fragment 0 (fill 4064)) = true ∧ 2 ≤ (fragment 0 []).fragTotal.toNat)
      ∧ ((getDoor (moreAt 0).dev (pfOf 0) 0).more = some { head := head310, whole := [1, 2, 3], next := 2 }
        ∧ (getDoor (moreAt 0).dev (pfOf 0) 0).partial_ = none
        ∧ (fragment 2 []).sequence = head310.sequence ∧ (fragment 2 []).acting.toNat = head310.acting ∧ (fragment 2 []).fragIndex.toNat = 2
        ∧ (fragment 2 []).length.toNat = 0)
      ∧ (let s := doorIs { Door.idle with phase := .done, partial_ := some (part 1), lastServedBt := 0 };
          let d := { s.dev with bt := msToBt s.dev 2000 }
          (getDoor d (pfOf 0) 0).phase = .done ∧ 0 + msToBt d 2000 ≤ d.bt + 1 ∧ doorsServed d = true)
      ∧ (partAt 100000000).dev.bt + 1 < 100000000 + msToBt (partAt 100000000).dev 2000 := by decide +kernel

theorem witness_EveryRequestIsTaken : ready up (msg []) = true ∧ ready up (msg (fill 24)) = true := by decide +kernel

theorem witness_StepTakesFront : up.pending = [] := rfl

def railGone : State := inPower fun p => { p with railFailed := true }

theorem witness_OnlyRailFailureStops :
    (pathRow .ctSweep = true ∧ railGone.dev.pwr.railFailed = true) ∧ pathRow .rngRecovery = false ∧ up.dev.pwr.railFailed = false
      ∧ (let s := inPower fun p => { p with aonUp := false }; s.dev.pwr.railFailed = false ∧ s.dev.pwr.aonUp = false)
      ∧ (asleep.dev.pwr.railFailed = false ∧ asleep.dev.pwr.aonUp = true ∧ pathRuns asleep.dev = false) := by
  decide +kernel

/-- OFF with a command that waits: it is taken, and nothing changes. -/
def offState : State := { inPower (fun p => { p with aonUp := false }) with pending := [.rngRecovery] }

theorem witness_OffRunsNothing :
    off offState = true ∧ (match step offState with | .next t => t.pending.isEmpty | _ => false) = true := by decide +kernel

theorem witness_OffIsEntered :
    (up.dev.pwr.aonUp = true ∧ ∀ c ∈ up.pending, c ≠ .aonPowerOn)
      ∧ (offState.pending.all Instr.wellFormed = true ∧ (match step offState with | .next _ => true | _ => false) = true) := by
  decide +kernel

end Sys2Proof.Tests
end

/-! R37 and R84: how a time word splits into seconds, nanoseconds and fraction. Each word is a mixed-radix number, so
each split is a quotient and a remainder by the radix of its fraction, and then by 10^9. -/

namespace Sys2Proof.Machine

open Sys2Proof

/-! ### A timescale's value -/

theorem Timescale.total_div_frac {t : Timescale} (h : t.frac40 < 2 ^ 40) : t.total / 2 ^ 40 = t.sec * 10 ^ 9 + t.ns := by
  unfold Timescale.total
  omega

theorem Timescale.total_mod_frac {t : Timescale} (h : t.frac40 < 2 ^ 40) : t.total % 2 ^ 40 = t.frac40 := by
  unfold Timescale.total
  rw [Nat.mul_add_mod', Nat.mod_eq_of_lt h]

/-! ### NS96 -/

theorem Timescale.ns96_div (t : Timescale) : t.ns96 / 2 ^ 32 = t.total / 2 ^ 40 := by
  rw [Timescale.ns96, Nat.div_div_eq_div_mul, ← pow_add]

theorem Timescale.ns96_mod (t : Timescale) : t.ns96 % 2 ^ 32 = t.total % 2 ^ 40 / 2 ^ 8 :=
  (Nat.mod_mul_right_div_self t.total (2 ^ 8) (2 ^ 32)).symm

/-- NS96 of R37: NANOSECONDS above bit 32, and bits [39:8] of the accumulated fraction below it. -/
theorem Timescale.ns96_words {t : Timescale} (h : t.frac40 < 2 ^ 40) :
    t.ns96 / 2 ^ 32 = t.sec * 10 ^ 9 + t.ns ∧ t.ns96 % 2 ^ 32 = t.frac40 / 2 ^ 8 :=
  ⟨t.ns96_div.trans (total_div_frac h), by rw [ns96_mod, total_mod_frac h]⟩

/-! ### A TW96 value that becomes a timescale's value -/

/-- Loading the value that `u` holds gives back `u`'s seconds, nanoseconds and fraction: nothing wraps. -/
theorem Timescale.withTotal_total (t : Timescale) {u : Timescale} (hs : u.sec < 2 ^ 48) (hn : u.ns < 10 ^ 9)
    (hf : u.frac40 < 2 ^ 40) :
    t.withTotal u.total = { t with sec := u.sec, ns := u.ns, frac40 := u.frac40 } := by
  have hsec : u.total / 2 ^ 40 / 10 ^ 9 % 2 ^ 48 = u.sec := by
    rw [total_div_frac hf]
    omega
  have hns : u.total / 2 ^ 40 % 10 ^ 9 = u.ns := by
    rw [total_div_frac hf]
    omega
  rw [withTotal, hsec, hns, total_mod_frac hf]

/-- The timescale `t` with the fields of a TW96 value (R11), its fraction widened to 40 bits as R37 says. -/
def Timescale.ofTw96 (t : Timescale) (tw : Nat) : Timescale :=
  { t with sec := tw / 2 ^ 48, ns := tw / 2 ^ 16 % 2 ^ 32, frac40 := tw % 2 ^ 16 * 2 ^ 24 }

theorem Timescale.total_ofTw96 (t : Timescale) (tw : Nat) : (t.ofTw96 tw).total = twTotal tw := rfl

theorem Timescale.withTotal_twTotal (t : Timescale) {tw : Nat} (htw : tw < 2 ^ 96) (hns : tw / 2 ^ 16 % 2 ^ 32 < 10 ^ 9) :
    t.withTotal (twTotal tw) = t.ofTw96 tw := by
  have hsec : tw / 2 ^ 48 < 2 ^ 48 := by omega
  have hfrac : tw % 2 ^ 16 * 2 ^ 24 < 2 ^ 40 := by omega
  rw [← t.total_ofTw96 tw]
  exact t.withTotal_total hsec hns hfrac

/-! ### PTP timestamps -/

theorem seconds_lt_of_nanoseconds_lt {nano : Nat} (h : nano < 2 ^ 64) : nano / 10 ^ 9 < 2 ^ 48 := by omega

theorem ptpStamp_words {nano f : Nat} (hnano : nano < 2 ^ 64) (hf : f < 2 ^ 32) :
    ptpStamp (nano * 2 ^ 32 + f) = (nano / 10 ^ 9, nano % 10 ^ 9, f / 2 ^ 16) := by
  have hdiv : (nano * 2 ^ 32 + f) / 2 ^ 32 = nano := by omega
  have hmod : (nano * 2 ^ 32 + f) % 2 ^ 32 = f := by rw [Nat.mul_add_mod', Nat.mod_eq_of_lt hf]
  simp only [ptpStamp, hdiv, hmod, Nat.mod_eq_of_lt (seconds_lt_of_nanoseconds_lt hnano)]

/-- An instant whose base value B(s) is a non-negative NS96 is converted from B(s) itself. -/
theorem ptpTime_of_viewBase {d : Dev} {v b : Nat} {s : Int} (hb : viewBase d v s = (b : Int)) (hlt : b < 2 ^ 96) :
    ptpTime d v s = ptpStamp b := by
  rw [ptpTime, hb, Int.toNat_natCast, Nat.mod_eq_of_lt hlt]

/-- Settles O11: each of the three words is split by the lemma about its own layout. -/
theorem timeWords : Obligations.TimeWords := by
  refine ⟨fun t h => Timescale.ns96_words h, fun t tw htw hns => ?_, fun d v nano f s hb hnano hf => ?_⟩
  · rw [t.withTotal_twTotal htw hns]
    exact ⟨rfl, rfl, rfl, Nat.mul_mod_left _ _⟩
  · have hlt : nano * 2 ^ 32 + f < 2 ^ 96 := by omega
    exact ⟨(ptpTime_of_viewBase hb hlt).trans (ptpStamp_words hnano hf), seconds_lt_of_nanoseconds_lt hnano⟩

end Sys2Proof.Machine

/-! R397: PKE_STATUS reads the status records of the four benches and clears their count of operations. A record is read
from the record table, the benches' state and the clock, none of which the taking of a request changes. -/

namespace Sys2Proof.Machine

open Sys2Proof

/-! ### The benches' status records -/

/-- Neither the mailbox nor what has left the device is part of a bench's status record. -/
theorem benchImage_mbx_out (d : Dev) (M : MbxState) (O : List Emission) (b : Nat) :
    benchImage { d with mbx := M, out := O } b = benchImage d b := rfl

/-- The RC fields of a record are cleared alike whatever the mailbox holds and whatever has left the device. -/
theorem readClear_mbx_out (d : Dev) (M : MbxState) (O : List Emission) (k : RecKind) (i : Nat) :
    readClear { d with mbx := M, out := O } k i = { readClear d k i with mbx := M, out := O } := rfl

/-- The records of the benches, in bench order. -/
theorem flatMap_benches (f : Nat → List Byte) : (List.range 4).flatMap f = f 0 ++ f 1 ++ f 2 ++ f 3 := by
  simp [List.range_succ]

/-- The benches taken in bench order. -/
theorem foldl_benches (f : Dev → Nat → Dev) (d : Dev) : (List.range 4).foldl f d = f (f (f (f d 0) 1) 2) 3 := rfl

/-- What PKE_STATUS answers and clears on a device whose request has just been taken. -/
theorem pkeStatus_body (x : Ctx) (p : List Byte) (d : Dev) (M : MbxState) :
    pkeStatusCmd.body x p { fresh d with mbx := M } =
      .done .ok (recBytes .bench (benchImage d 0) ++ recBytes .bench (benchImage d 1) ++ recBytes .bench (benchImage d 2)
          ++ recBytes .bench (benchImage d 3)) []
        { readClear (readClear (readClear (readClear d .bench 0) .bench 1) .bench 2) .bench 3 with mbx := M, out := [] } := by
  simp only [pkeStatusCmd, fresh, flatMap_benches, foldl_benches, benchImage_mbx_out, readClear_mbx_out]

/-- PKE_STATUS has one form, whose payload is empty. -/
theorem pkeStatus_check {p : List Byte} (hp : p = []) (x : Ctx) (d : Dev) : pkeStatusCmd.check x p d = none := by
  subst hp
  rfl

/-- Settles O8: the empty request passes its check, and its body reads the four records and clears their RC fields. -/
theorem benchStatus : Obligations.BenchStatus := by
  intro s m hby hcopied
  exact ran_ok hby pkeStatusCmd _ [] _ (opAbsent_other _ _ (by decide)) (fun _ => rfl) (.inl rfl) rfl (by decide)
    (fun _ => pkeStatus_check hcopied _ _) (noTenant s.dev rfl) (fun M => ⟨[], pkeStatus_body _ _ s.dev M⟩)

end Sys2Proof.Machine

/-! What a step of the block is: the command in front has its effect, and every command but AON_POWER_ON is an event of
the device under power, on the packet path or off it. -/

namespace Sys2Proof.Machine

open Sys2Proof

/-! ### The shape of a command -/

/-- A row of the packet path acts through `onPath`. -/
theorem exec_onPath {c : Instr} (h : pathRow c = true) : ∃ f, ∀ s, exec c s = onPath s f := by
  cases c <;> cases h <;> exact ⟨_, fun s => by delta exec; rfl⟩

/-- Every other row but AON_POWER_ON acts through `whenOn`. -/
theorem exec_whenOn {c : Instr} (h : pathRow c = false) (hc : c ≠ .aonPowerOn) : ∃ f, ∀ s, exec c s = whenOn s f := by
  cases c
  case aonPowerOn => exact absurd rfl hc
  case servoEvaluation | seedVerifyEnd | holdoverMaxExpiry =>
    exact ⟨_, fun s => Eq.trans (b := onFirmware s _) (by delta exec; rfl) rfl⟩
  case gnssEpoch | baselineSurveyEnd | spectrumMonitor | notchRelease | agcSecondReport | acquisitionComplete | pullInTimeout
      | carrierLockCheck | cn0Loss | bitSyncWindow | subframeReceived =>
    exact ⟨_, fun s => Eq.trans (b := onGnss s _) (by delta exec; rfl) rfl⟩
  all_goals cases h <;> exact ⟨_, fun s => by delta exec; rfl⟩

/-- A step off the packet path answers a next state with the state's queue. -/
theorem whenOn_next (s : State) (f : Dev → Dev) : ∃ t, whenOn s f = .next t ∧ t.pending = s.pending := ⟨_, rfl, rfl⟩

/-- While no rail of the packet path has failed, its steps are events of the device. -/
theorem onPath_whenOn {s : State} (h : s.dev.pwr.railFailed = false) (f : Dev → Dev) :
    onPath s f = whenOn s fun d => if pathRuns d then f d else d := by
  simp only [onPath, h, Bool.false_eq_true, ite_false]

/-- A step of the packet path once a rail that supplies it has failed. -/
theorem onPath_fault {s : State} (h : s.dev.pwr.railFailed = true) (f : Dev → Dev) :
    onPath s f = .fault .serviceUndefined := by
  simp only [onPath, h, ite_true]

/-- A step of a packet path that has no supply or does not run changes nothing. -/
theorem onPath_rests {s : State} (h : s.dev.pwr.railFailed = false) (hoff : s.dev.pwr.aonUp = false ∨ pathRuns s.dev = false)
    (f : Dev → Dev) : rests (onPath s f) s := by
  rw [onPath_whenOn h]
  cases haon : s.dev.pwr.aonUp with
  | false => exact whenOn_down haon _
  | true =>
    have hp : pathRuns (fresh s.dev) = false := hoff.resolve_left (by simp [haon])
    rw [rests, becomes, whenOn_up haon, hp]
    rfl

/-- No command changes the queue. -/
theorem exec_pending {c : Instr} {s t : State} (h : exec c s = .next t) : t.pending = s.pending := by
  by_cases hc : c = .aonPowerOn
  · subst hc
    cases h
    rfl
  · cases hp : pathRow c with
    | false =>
      obtain ⟨f, hf⟩ := exec_whenOn hp hc
      cases (hf s).symm.trans h
      rfl
    | true =>
      obtain ⟨f, hf⟩ := exec_onPath hp
      rw [hf s] at h
      cases hr : s.dev.pwr.railFailed with
      | false => rw [onPath_whenOn hr] at h; cases h; rfl
      | true => rw [onPath_fault hr] at h; cases h

/-- With the AON supply down every command but AON_POWER_ON leaves the device as it was. -/
theorem exec_off {c : Instr} {s t : State} (hc : c ≠ .aonPowerOn) (hoff : s.dev.pwr.aonUp = false) (h : exec c s = .next t) :
    t.dev = fresh s.dev := by
  cases hp : pathRow c with
  | false =>
    obtain ⟨f, hf⟩ := exec_whenOn hp hc
    rw [hf s, whenOn_down hoff] at h
    cases h
    rfl
  | true =>
    obtain ⟨f, hf⟩ := exec_onPath hp
    rw [hf s] at h
    cases hr : s.dev.pwr.railFailed with
    | false => rw [onPath_whenOn hr, whenOn_down hoff] at h; cases h; rfl
    | true => rw [onPath_fault hr] at h; cases h

/-! ### The step -/

/-- What a step that answers a next state has done: nothing on an empty queue, or the command in front. -/
theorem step_cases {s t : State} (h : step s = .next t) :
    (s.pending = [] ∧ t = s) ∨ ∃ c cs, s.pending = c :: cs ∧ exec c { s with pending := cs } = .next t := by
  unfold step at h
  split at h
  · next hp => cases h; exact .inl ⟨hp, rfl⟩
  · next c cs hp => exact .inr ⟨c, cs, hp, h⟩

/-- Settles O56: by the definition of the step, and because no row of the opcode table has bits. -/
theorem stepTakesFront : Obligations.StepTakesFront :=
  ⟨fun _ _ => rfl, fun s h => by simp only [step, h], fun _ _ => rfl, fun _ _ _ => rfl⟩

/-- Settles O57: by the shape of the command, `onPath` on the packet path and `whenOn` off it. -/
theorem onlyRailFailureStops : Obligations.OnlyRailFailureStops := by
  intro c s
  refine ⟨fun hp hr => ?_, fun h => ?_, fun hp hr hoff => ?_⟩
  · obtain ⟨f, hf⟩ := exec_onPath hp
    rw [hf s, onPath_fault hr]
  · by_cases hc : c = .aonPowerOn
    · subst hc
      exact ⟨_, rfl, rfl⟩
    · cases hp : pathRow c with
      | false =>
        obtain ⟨f, hf⟩ := exec_whenOn hp hc
        exact hf s ▸ whenOn_next s f
      | true =>
        obtain ⟨f, hf⟩ := exec_onPath hp
        have hr : s.dev.pwr.railFailed = false := h.resolve_left (by simp [hp])
        rw [hf s, onPath_whenOn hr]
        exact whenOn_next s _
  · obtain ⟨f, hf⟩ := exec_onPath hp
    exact hf s ▸ onPath_rests hr hoff f

/-- What `off` says, one fact a part. -/
theorem off_iff (s : State) : off s = true ↔ s.dev.pwr.aonUp = false ∧ ∀ c ∈ s.pending, c ≠ .aonPowerOn := by
  simp [off, List.all_eq_true]

/-- Settles O58: a step in OFF takes a command that does not raise the supply, and such a command changes nothing. -/
theorem offRunsNothing : Obligations.OffRunsNothing := by
  intro s t hoff h
  rcases step_cases h with ⟨-, rfl⟩ | ⟨c, cs, hp, he⟩
  · exact ⟨hoff, rfl⟩
  · obtain ⟨ha, hq⟩ := (off_iff s).1 hoff
    rw [hp] at hq
    have hd : t.dev = fresh s.dev := exec_off (s := { s with pending := cs }) (hq c List.mem_cons_self) ha he
    refine ⟨(off_iff t).2 ⟨by rw [hd]; exact ha, ?_⟩, by rw [hd]; rfl⟩
    rw [exec_pending he]
    exact fun x hx => hq x (List.mem_cons_of_mem c hx)

/-- Settles O59: the loss of the supply clears `aonUp` last, and a step takes one command off the queue and adds none. -/
theorem offIsEntered : Obligations.OffIsEntered := by
  refine ⟨fun s hon hq => ⟨_, whenOn_up hon supplyLoss, (off_iff _).2 ⟨rfl, hq⟩⟩, by decide, rfl, fun s t hwf h => ?_⟩
  rcases step_cases h with ⟨-, rfl⟩ | ⟨c, cs, hp, he⟩
  · exact hwf
  · rw [exec_pending he]
    rw [hp, List.all_cons, Bool.and_eq_true] at hwf
    exact hwf.2

end Sys2Proof.Machine

/-! R335, R336, R345, R353: every opcode has its command, and a request that is ready is taken at once: its door is
answered or left in SERVING, whatever the command does to the rest of the device. -/

namespace Sys2Proof.Machine

open Sys2Proof

/-! ### What a served message leaves in its door -/

/-- A door that has been served: DONE with an answer or SERVING, and with no request left POSTED in it. -/
def Served (d : Dev) (m : Msg) : Prop :=
  let x := getDoor d m.fn m.door.val
  x.posted = none ∧ ((x.phase = .done ∧ x.resp.isSome = true) ∨ (x.phase = .serving ∧ x.serving.isSome = true))

theorem served_respond (d : Dev) (op : Nat) (m : Msg) (st : Status) (pl : List Byte) (es : List ClampEntry) :
    Served (respond d op m st pl es) m := by
  simp only [Served, respond, writeResponse_door]
  exact ⟨trivial, .inl ⟨trivial, rfl⟩⟩

theorem served_runWhole (d : Dev) (c : Cmd) (op : Nat) (m : Msg) (po : Posted) (p : List Byte) :
    Served (runWhole d c op m po p) m := by
  unfold runWhole
  dsimp only
  split
  · exact served_respond _ _ _ _ _ _
  · simp only [Served, getDoor_setDoor]
    exact ⟨trivial, .inr ⟨trivial, rfl⟩⟩

/-- A new request of one fragment is served, whether it passes the early checks or not. -/
theorem served_serveNew (d : Dev) (c : Option Cmd) (op : Nat) {m : Msg} (po : Posted) (ht : m.fragTotal.toNat = 1) :
    Served (serveNew d c op m po) m := by
  unfold serveNew
  split
  · exact served_respond _ _ _ _ _ _
  · exact served_respond _ _ _ _ _ _
  · rw [if_pos ht]
    exact served_runWhole _ _ _ _ _ _

/-- A ready request of any opcode is served in the step that brings it. -/
theorem served_message {s : State} {m : Msg} (h : ready s m = true) (op : Nat) (c : Option Cmd) :
    Served (message op c m (fresh s.dev)) m := by
  obtain ⟨M, po, -, -, -, -, -, -, hmes⟩ := message_ready h op c
  obtain ⟨-, -, -, -, -, -, -, -, -, -, ht, -, -, -, -⟩ := ready_facts h
  rw [hmes]
  exact served_serveNew _ c op po ht

/-! ### The opcode map -/

theorem exec_unknownOpcode (op : BitVec 16) (m : Msg) (s : State) :
    exec (.unknownOpcode op m) s = whenOn s (message op.toNat (cmdOf op.toNat) m) := rfl

/-- The command an opcode names is that opcode's. -/
theorem cmdOf_op {op : Nat} {c : Cmd} (h : cmdOf op = some c) : c.op = op := by
  simpa using List.find?_some h

/-- The row of an opcode's command is the message of that opcode. -/
theorem exec_opcode {i : Instr} {m : Msg} {s : State} (op : BitVec 16) {c : Cmd} (hi : exec i s = mailbox c m s)
    (hc : cmdOf op.toNat = some c) : exec i s = exec (.unknownOpcode op m) s := by
  rw [hi, exec_unknownOpcode, hc, mailbox, cmdOf_op hc]

/-- Every row of the opcode map is the message of its opcode. -/
theorem exec_opcodeRows : ∀ r ∈ opcodeRows, ∀ (s : State) (m : Msg),
    exec (r.1 m) s = exec (.unknownOpcode (BitVec.ofNat 16 r.2) m) s := by
  simp only [opcodeRows, List.forall_mem_append]
  refine ⟨⟨⟨?_, ?_⟩, ?_⟩, ?_⟩
  all_goals
    simp only [opcodeRows1, opcodeRows2, opcodeRows3, opcodeRows4, List.forall_mem_cons, List.not_mem_nil, false_imp_iff,
      implies_true, and_true]
    repeat' apply And.intro
    all_goals
      intro s m
      apply exec_opcode
      case hc => rfl
      case hi => rfl

/-- Settles O55: the map is checked row by row; a request of any opcode, in the map or not, ends served. -/
theorem everyRequestIsTaken : Obligations.EveryRequestIsTaken := by
  refine ⟨exec_opcodeRows, fun s m op h => ⟨_, whenOn_up (ready_facts h).1 (anyMessage op m), ?_⟩⟩
  obtain ⟨hp, hd | hs⟩ := served_message h op.toNat (cmdOf op.toNat)
  · refine ⟨hp, .inl ⟨hd.1, ?_⟩⟩
    simp only [answer, anyMessage, hd.1, ite_true, Option.isSome_map, hd.2]
  · refine ⟨hp, .inr ⟨hs.1, ?_⟩⟩
    simp only [servingFor, anyMessage, hs.1, ite_true, Option.isSome_map, hs.2]

end Sys2Proof.Machine

/-! What a controller's request is answered, by what its command's checks and body give: the rules that the commands of
every family are settled by. -/

namespace Sys2Proof.Machine

open Sys2Proof

/-! ### The device a request runs on -/

/-- A device whose mailbox has taken a request, at the start of its command. -/
def inService (d : Dev) (M : MbxState) : Dev := { fresh d with mbx := M }

section

variable (d : Dev) (M : MbxState)

@[simp] theorem inService_variant : (inService d M).variant = d.variant := rfl
@[simp] theorem inService_bt : (inService d M).bt = d.bt := rfl
@[simp] theorem inService_free : (inService d M).free = d.free := rfl
@[simp] theorem inService_recs : (inService d M).recs = d.recs := rfl
@[simp] theorem inService_stats : (inService d M).stats = d.stats := rfl
@[simp] theorem inService_atEdge : (inService d M).atEdge = d.atEdge := rfl
@[simp] theorem inService_ts : (inService d M).ts = d.ts := rfl
@[simp] theorem inService_hist : (inService d M).hist = d.hist := rfl
@[simp] theorem inService_leap : (inService d M).leap = d.leap := rfl
@[simp] theorem inService_host : (inService d M).host = d.host := rfl
@[simp] theorem inService_obs : (inService d M).obs = d.obs := rfl
@[simp] theorem inService_ports : (inService d M).ports = d.ports := rfl
@[simp] theorem inService_arr : (inService d M).arr = d.arr := rfl
@[simp] theorem inService_ct : (inService d M).ct = d.ct := rfl
@[simp] theorem inService_ptp : (inService d M).ptp = d.ptp := rfl
@[simp] theorem inService_nts : (inService d M).nts = d.nts := rfl
@[simp] theorem inService_disc : (inService d M).disc = d.disc := rfl
@[simp] theorem inService_gnss : (inService d M).gnss = d.gnss := rfl
@[simp] theorem inService_tiu : (inService d M).tiu = d.tiu := rfl
@[simp] theorem inService_flt : (inService d M).flt = d.flt := rfl
@[simp] theorem inService_key : (inService d M).key = d.key := rfl
@[simp] theorem inService_pwr : (inService d M).pwr = d.pwr := rfl
@[simp] theorem inService_mbx : (inService d M).mbx = M := rfl
@[simp] theorem inService_out : (inService d M).out = [] := rfl
@[simp] theorem getRec_inService (k : RecKind) (i : Nat) : getRec (inService d M) k i = getRec d k i := rfl
@[simp] theorem fld_inService (k : RecKind) (i : Nat) (f : Fld) : fld (inService d M) k i f = fld d k i f := rfl
@[simp] theorem flag_inService (k : RecKind) (i : Nat) (f : Fld) : flag (inService d M) k i f = flag d k i f := rfl
@[simp] theorem getTs_inService (i : Nat) : getTs (inService d M) i = getTs d i := rfl
@[simp] theorem tenantState_inService (t : Nat) : tenantState (inService d M) t = tenantState d t := rfl
@[simp] theorem portStarts_inService (p : Nat) : portStarts (inService d M) p = portStarts d p := rfl
@[simp] theorem nextEdge_inService : nextEdge (inService d M) = d.bt + 1 := rfl

end

/-! ### Requests that reach their command's checks -/

/-- The controller's request passes checks 2 to 4 of R345: its opcode is on the device, and the controller host may send
it. -/
structure Admitted (c : Cmd) (s : State) (m : Msg) : Prop where
  present : opAbsent s.dev.variant c.op = false
  admits : ∀ M, c.admits (hostCtx s m) (copied m) (inService s.dev M) true = true
  rights : (if c.isWrite (copied m) then c.writeBy else c.readBy).contains .c = true
    ∨ (if c.isWrite (copied m) then c.writeBy else c.readBy).contains .p = true
  classes : c.readCls ≠ .prov ∧ c.writeCls ≠ .prov

/-- The controller may send a command outside NTS whose form is one of its columns. -/
theorem admitted_of {c : Cmd} {s : State} {m : Msg} (hop : c.op / 256 ≠ 0x32)
    (hadm : ∀ M, c.admits (hostCtx s m) (copied m) (inService s.dev M) true = true)
    (hw : (if c.isWrite (copied m) then c.writeBy else c.readBy).contains .c = true)
    (hcls : c.readCls ≠ .prov ∧ c.writeCls ≠ .prov) : Admitted c s m :=
  ⟨opAbsent_other _ _ hop, hadm, .inl hw, hcls⟩

/-- The NTS commands are on every variant but the AX8800-E. -/
theorem opAbsent_variant {v : Variant} (h : v ≠ .e) (op : Nat) : opAbsent v op = false := by simp [opAbsent, h]

section

variable {s : State} {m : Msg} {c : Cmd}

/-- A request that fails check 5 or 6 is answered so, and nothing changes but its door. -/
theorem answers_refused (h : byController s m = true) (a : Admitted c s m) {st : Status} (hok : st ≠ .ok) (hcl : st ≠ .clamped)
    (hc : ∀ M, c.check (hostCtx s m) (copied m) (inService s.dev M) = some st) :
    answers (mailbox c m s) s m (plain st []) s.dev := by
  have := mailbox_done (byController_ready h) c st [] [] s.dev a.present
    (fun M => allowed_byController h c _ M (a.admits M) a.rights) rfl fun M hM =>
      ⟨[], [], by simp, (runCmd_check c _ _ _ st (hc M)).trans (by rw [← hM]; rfl)⟩
  simpa [hok, hcl] using this

/-- Check 8 of a request that names a RETIRING tenant (R329). -/
theorem runCmd_names_retiring {x : Ctx} {p : List Byte} {d : Dev} {t : Nat} (hl : d.mbx.locks = []) (hc : c.check x p d = none)
    (ht : c.tenant p = some t) (h2 : tenantState d t = 2) : runCmd c x p d = .done .state [] [] d := by
  simp only [runCmd, hc, busyLock_none d x _ hl, ht, h2, decide_true, ite_true, ite_self]

/-- A request that names a RETIRING tenant completes with STATE. -/
theorem answers_retiring (h : byController s m = true) (a : Admitted c s m) {t : Nat}
    (hc : ∀ M, c.check (hostCtx s m) (copied m) (inService s.dev M) = none)
    (ht : c.tenant (copied m) = some t) (h2 : tenantState s.dev t = 2) :
    answers (mailbox c m s) s m (plain .state []) s.dev := by
  have := mailbox_done (byController_ready h) c .state [] [] s.dev a.present
    (fun M => allowed_byController h c _ M (a.admits M) a.rights) rfl fun M hM =>
      ⟨[], [], by simp, (runCmd_names_retiring hM (hc M) ht h2).trans (by rw [← hM]; rfl)⟩
  simpa using this

/-- A body that answers a status with no clamp entries and leaves the device as it was. -/
theorem answers_same (h : byController s m = true) (a : Admitted c s m) {st : Status} {pl : List Byte} (hcl : st ≠ .clamped)
    (hc : ∀ M, c.check (hostCtx s m) (copied m) (inService s.dev M) = none)
    (ht : ∀ t, c.tenant (copied m) = some t → tenantState s.dev t ≠ 2)
    (hb : ∀ M, c.body (hostCtx s m) (copied m) (inService s.dev M) = .done st pl [] (inService s.dev M)) :
    answers (mailbox c m s) s m (plain st pl) s.dev := by
  have := ran_done h c st pl [] s.dev a.present a.admits a.rights rfl a.classes hc ht fun M => ⟨[], hb M⟩
  simpa [hcl] using this

/-- A body that answers OK with its clamp report and has its effect. -/
theorem answers_report (h : byController s m = true) (a : Admitted c s m) {pl : List Byte} {es : List ClampEntry} {e : Dev}
    (hm : e.mbx = s.dev.mbx)
    (hc : ∀ M, c.check (hostCtx s m) (copied m) (inService s.dev M) = none)
    (ht : ∀ t, c.tenant (copied m) = some t → tenantState s.dev t ≠ 2)
    (hb : ∀ M, ∃ O, c.body (hostCtx s m) (copied m) (inService s.dev M) = .done .ok pl es { e with mbx := M, out := O }) :
    answers (mailbox c m s) s m (withReport pl es) e :=
  ran_ok h c pl es e a.present a.admits a.rights hm a.classes hc ht hb

/-- A body that answers OK and has its effect. -/
theorem answers_ok (h : byController s m = true) (a : Admitted c s m) {pl : List Byte} {e : Dev} (hm : e.mbx = s.dev.mbx)
    (hc : ∀ M, c.check (hostCtx s m) (copied m) (inService s.dev M) = none)
    (ht : ∀ t, c.tenant (copied m) = some t → tenantState s.dev t ≠ 2)
    (hb : ∀ M, ∃ O, c.body (hostCtx s m) (copied m) (inService s.dev M) = .done .ok pl [] { e with mbx := M, out := O }) :
    answers (mailbox c m s) s m (plain .ok pl) e :=
  answers_report h a hm hc ht hb

/-- A body that leaves its door in SERVING. -/
theorem waits_for (h : byController s m = true) (a : Admitted c s m) {w : Waiting} {e : Dev} (hm : e.mbx = s.dev.mbx)
    (hc : ∀ M, c.check (hostCtx s m) (copied m) (inService s.dev M) = none)
    (ht : ∀ t, c.tenant (copied m) = some t → tenantState s.dev t ≠ 2)
    (hb : ∀ M, ∃ O, c.body (hostCtx s m) (copied m) (inService s.dev M) = .wait w { e with mbx := M, out := O }) :
    waits (mailbox c m s) s m w e :=
  ran_waits h c w e a.present a.admits a.rights hm a.classes hc ht hb

/-- A body that answers OK with its clamp report: its effect, from the device as the request was taken. -/
theorem effects_report (h : byController s m = true) (a : Admitted c s m) {pl : Dev → List Byte} {es : Dev → List ClampEntry}
    {f : Dev → Dev} (hc : ∀ M, c.check (hostCtx s m) (copied m) (inService s.dev M) = none)
    (ht : ∀ t, c.tenant (copied m) = some t → tenantState s.dev t ≠ 2)
    (hb : ∀ M, let d := inService s.dev M
      c.body (hostCtx s m) (copied m) d = .done .ok (pl d) (es d) (f d)) :
    effects (mailbox c m s) s m (fun d => withReport (pl d) (es d)) f :=
  ran_effects h c pl es f a.present a.admits a.rights a.classes hc ht hb

/-- A body that answers OK: its effect, from the device as the request was taken. -/
theorem effects_ok (h : byController s m = true) (a : Admitted c s m) {pl : Dev → List Byte} {f : Dev → Dev}
    (hc : ∀ M, c.check (hostCtx s m) (copied m) (inService s.dev M) = none)
    (ht : ∀ t, c.tenant (copied m) = some t → tenantState s.dev t ≠ 2)
    (hb : ∀ M, let d := inService s.dev M
      c.body (hostCtx s m) (copied m) d = .done .ok (pl d) [] (f d)) :
    effects (mailbox c m s) s m (fun d => plain .ok (pl d)) f :=
  effects_report (es := fun _ => []) h a hc ht hb

/-- A body that leaves its door in SERVING: its effect, from the device as the request was taken. -/
theorem delays_for (h : byController s m = true) (a : Admitted c s m) {w : Waiting} {f : Dev → Dev}
    (hc : ∀ M, c.check (hostCtx s m) (copied m) (inService s.dev M) = none)
    (ht : ∀ t, c.tenant (copied m) = some t → tenantState s.dev t ≠ 2)
    (hb : ∀ M, let d := inService s.dev M
      c.body (hostCtx s m) (copied m) d = .wait w (f d)) :
    delays (mailbox c m s) s m w f :=
  ran_delays h c w f a.present a.admits a.rights a.classes hc ht hb

end

/-! ### Record commands -/

/-- The command of a record, whose forms the controller may both send. -/
structure RecordCmd (c : Cmd) (r : RecSpec) : Prop where
  check : c.check = r.check
  body : c.body = r.body
  isWrite : c.isWrite = recordIsWrite r.ib
  admits : c.admits = fun _ _ _ b => b
  reads : c.readBy.contains .c = true
  writes : c.writeBy.contains .c = true
  classes : c.readCls ≠ .prov ∧ c.writeCls ≠ .prov

theorem recordCmd {r : RecSpec} {op : Nat} {rb wb : List Who} {cls : LcClass} {tn : List Byte → Option Nat}
    (hr : rb.contains .c = true := by rfl) (hw : wb.contains .c = true := by rfl) (hcls : cls ≠ .prov := by decide) :
    RecordCmd (r.cmd op rb wb cls tn) r :=
  ⟨rfl, rfl, rfl, rfl, hr, hw, by simp [RecSpec.cmd], hcls⟩

section

variable {s : State} {m : Msg} {c : Cmd} {r : RecSpec}

theorem RecordCmd.admitted (hr : RecordCmd c r) (hop : opAbsent s.dev.variant c.op = false) : Admitted c s m where
  present := hop
  admits M := by rw [hr.admits]
  rights := by
    split
    · exact .inl hr.writes
    · exact .inl hr.reads
  classes := hr.classes

/-- Checks 5 and 6 of a record command on a payload of one of its lengths. -/
theorem RecordCmd.check_of_length (hr : RecordCmd c r) {p : List Byte}
    (hlen : p.length = idxLen r.ib ∨ p.length = idxLen r.ib + r.kind.bytes) (x : Ctx) (d : Dev) :
    c.check x p d = if r.inSet p = false then some .badLength else if r.present d (r.index p) = false then some .notPresent
      else none := by
  have h : recordLenOk r.ib r.kind p = true := by simpa [recordLenOk] using hlen
  simp [hr.check, RecSpec.check, h]

/-- A record command that reads. -/
theorem RecordCmd.body_read (hr : RecordCmd c r) {p : List Byte} (hlen : p.length = idxLen r.ib) (x : Ctx) (d : Dev) :
    c.body x p d = .done .ok (recBytes r.kind (r.image d (r.index p))) [] (readClear d r.kind (r.index p)) := by
  simp [hr.body, RecSpec.body, recordIsWrite, hlen, readReply]

/-- The read form of a record: the record as it reads is answered, its RC fields are cleared. -/
theorem RecordCmd.read (hr : RecordCmd c r) (h : byController s m = true) (hop : opAbsent s.dev.variant c.op = false)
    (hlen : (copied m).length = idxLen r.ib) (hset : r.inSet (copied m) = true)
    (hpres : ∀ M, r.present (inService s.dev M) (r.index (copied m)) = true)
    (ht : ∀ t, c.tenant (copied m) = some t → tenantState s.dev t ≠ 2)
    (him : ∀ M, r.image (inService s.dev M) (r.index (copied m)) = r.image s.dev (r.index (copied m))) :
    answers (mailbox c m s) s m (plain .ok (recBytes r.kind (r.image s.dev (r.index (copied m)))))
      (readClear s.dev r.kind (r.index (copied m))) := by
  refine answers_ok h (hr.admitted hop) rfl (fun M => ?_) ht fun M => ⟨[], ?_⟩
  · simp [hr.check_of_length (.inl hlen), hset, hpres M]
  · rw [hr.body_read hlen, him M]
    rfl

end

end Sys2Proof.Machine

/-! R9, R329, R345, R348, R479: the record commands that read, by the shape of their index. -/

namespace Sys2Proof.Machine

open Sys2Proof

/-! ### Reads by shape -/

section

variable {s : State} {m : Msg} {r : RecSpec}

/-- The read form of a record of which the device has one. -/
theorem readDevice (c : Cmd) (hr : RecordCmd c r) (hop : c.op / 256 ≠ 0x32 := by decide) (hib : r.ib = 0 := by rfl)
    (hi : r.index [] = 0 := by rfl) (hset : r.inSet [] = true := by rfl) (hpres : ∀ d, r.present d 0 = true := by exact fun _ => rfl)
    (hn : c.tenant [] = none := by rfl) (him : ∀ d M, r.image (inService d M) 0 = r.image d 0 := by exact fun _ _ => rfl)
    (h : byController s m = true) (hp : copied m = []) :
    answers (mailbox c m s) s m (plain .ok (recBytes r.kind (r.image s.dev 0))) (readClear s.dev r.kind 0) := by
  have := hr.read h (opAbsent_other _ _ hop) (by rw [hp, hib]; rfl) (by rw [hp]; exact hset)
    (by rw [hp, hi]; exact fun M => hpres _) (by rw [hp]; exact noTenant s.dev hn) (by rw [hp, hi]; exact him s.dev)
  rwa [hp, hi] at this

/-- The read form of a numbered unit's record, with its index in range and its unit there or not. -/
theorem readUnit (c : Cmd) (n : Nat) (hr : RecordCmd c r) (hop : c.op / 256 ≠ 0x32 := by decide) (hib : r.ib = 1 := by rfl)
    (hi : ∀ p, r.index p = rdLe p 0 1 := by exact fun _ => rfl)
    (hset : ∀ p, r.inSet p = decide (rdLe p 0 1 < n) := by exact fun _ => rfl)
    (hpres : ∀ d M i, r.present (inService d M) i = r.present d i := by exact fun _ _ _ => rfl)
    (hn : ∀ p, c.tenant p = none := by exact fun _ => rfl)
    (him : ∀ d M i, r.image (inService d M) i = r.image d i := by exact fun _ _ _ => rfl)
    (h : byController s m = true) (hlen : (copied m).length = 4) :
    answers (mailbox c m s) s m
      (if n ≤ rdLe (copied m) 0 1 then plain .badLength []
        else if r.present s.dev (rdLe (copied m) 0 1) = false then plain .notPresent []
        else plain .ok (recBytes r.kind (r.image s.dev (rdLe (copied m) 0 1))))
      (if n ≤ rdLe (copied m) 0 1 ∨ r.present s.dev (rdLe (copied m) 0 1) = false then s.dev
        else readClear s.dev r.kind (rdLe (copied m) 0 1)) := by
  have hl : (copied m).length = idxLen r.ib := by rw [hib, hlen]; rfl
  have hop' := opAbsent_other s.dev.variant c.op hop
  have hc := fun M => hr.check_of_length (.inl hl) (hostCtx s m) (inService s.dev M)
  simp only [hset, hi, hpres] at hc
  by_cases hb : n ≤ rdLe (copied m) 0 1
  · simp only [hb, if_true, true_or]
    exact answers_refused h (hr.admitted hop') (by decide) (by decide) fun M => by
      simp only [hc M, not_lt.2 hb, decide_false, if_true]
  · cases hq : r.present s.dev (rdLe (copied m) 0 1) with
    | false =>
      simp only [hb, if_false, if_true, or_true]
      exact answers_refused h (hr.admitted hop') (by decide) (by decide) fun M => by
        simp only [hc M, lt_of_not_ge hb, decide_true, Bool.true_eq_false, if_false, hq, if_true]
    | true =>
      simp only [hb, if_false, Bool.true_eq_false, or_self]
      have := hr.read h hop' hl (by simp only [hset, lt_of_not_ge hb, decide_true]) (fun M => by rw [hpres, hi, hq])
        (noTenant s.dev (hn _)) (fun M => him s.dev M _)
      rwa [hi] at this

/-- The read form of a tenant's record, with its tenant in range and RETIRING or not. -/
theorem readTenant (c : Cmd) (hr : RecordCmd c r) (h : byController s m = true)
    (hop : opAbsent s.dev.variant c.op = false) (hlen : (copied m).length = 4) (hib : r.ib = 2 := by rfl)
    (hi : ∀ p, r.index p = rdLe p 0 2 := by exact fun _ => rfl)
    (hset : ∀ p, r.inSet p = tenantIdx p := by exact fun _ => rfl)
    (hpres : ∀ d i, r.present d i = true := by exact fun _ _ => rfl)
    (hn : c.tenant = tenantAt 0 := by rfl)
    (him : ∀ d M i, r.image (inService d M) i = r.image d i := by exact fun _ _ _ => rfl) :
    answers (mailbox c m s) s m
      (if 4096 ≤ rdLe (copied m) 0 2 then plain .badLength []
        else if tenantState s.dev (rdLe (copied m) 0 2) = 2 then plain .state []
        else plain .ok (recBytes r.kind (r.image s.dev (rdLe (copied m) 0 2))))
      (if 4096 ≤ rdLe (copied m) 0 2 ∨ tenantState s.dev (rdLe (copied m) 0 2) = 2 then s.dev
        else readClear s.dev r.kind (rdLe (copied m) 0 2)) := by
  have hl : (copied m).length = idxLen r.ib := by rw [hib, hlen]; rfl
  have htn : c.tenant (copied m) = some (rdLe (copied m) 0 2) := by rw [hn]; simp [tenantAt, hlen]
  have hc := fun M => hr.check_of_length (.inl hl) (hostCtx s m) (inService s.dev M)
  simp only [hset, hi, hpres, tenantIdx] at hc
  by_cases hb : 4096 ≤ rdLe (copied m) 0 2
  · simp only [hb, if_true, true_or]
    exact answers_refused h (hr.admitted hop) (by decide) (by decide) fun M => by
      simp only [hc M, not_lt.2 hb, decide_false, if_true]
  · have hlt := lt_of_not_ge hb
    by_cases h2 : tenantState s.dev (rdLe (copied m) 0 2) = 2
    · simp only [hb, if_false, h2, if_true, or_true]
      exact answers_retiring h (hr.admitted hop) (fun M => by
        simp only [hc M, hlt, decide_true, Bool.true_eq_false, if_false]) htn h2
    · simp only [hb, if_false, h2, or_self]
      have := hr.read h hop hl (by simp only [hset, tenantIdx, hlt, decide_true]) (fun M => hpres _ _)
        (by rw [htn]; rintro t ⟨⟩; exact h2) (fun M => him s.dev M _)
      rwa [hi] at this

end

/-! ### The read forms -/

/-- Settles O1: each record is the device's one of its kind. -/
theorem deviceRecordReads : Obligations.DeviceRecordReads := by
  unfold Obligations.DeviceRecordReads deviceRecords
  simp only [List.forall_mem_cons, List.not_mem_nil, false_imp_iff, implies_true, and_true]
  refine ⟨?_, ?_, ?_, ?_, ?_, ?_, ?_, ?_, ?_, ?_⟩ <;> intro s m
  · exact readDevice arrayConfigCmd recordCmd
  · exact readDevice controlCmd recordCmd
  · exact readDevice deviceConfigCmd recordCmd
  · exact readDevice selectConfigCmd recordCmd
  · exact readDevice gnssConfigCmd recordCmd
  · exact readDevice tiuDeviceCmd recordCmd
  · exact readDevice clsConfigCmd recordCmd
  · exact readDevice fwStatusCmd recordCmd
  · exact readDevice scribeConfigCmd recordCmd
  · exact readDevice obsConfigCmd recordCmd

/-- Settles O2: each record is named by one byte below its bound. -/
theorem unitRecordReads : Obligations.UnitRecordReads := by
  unfold Obligations.UnitRecordReads unitRecords
  simp only [List.forall_mem_cons, List.not_mem_nil, false_imp_iff, implies_true, and_true]
  refine ⟨?_, ?_, ?_, ?_, ?_, ?_, ?_, ?_, ?_, ?_, ?_⟩ <;> intro s m
  · exact readUnit followerCmd 18 recordCmd
  · exact readUnit refConfigCmd 10 recordCmd
  · exact readUnit servoConfigCmd 2 recordCmd
  · exact readUnit gnssAntennaCmd 2 recordCmd
  · exact readUnit tiuInputCmd 8 recordCmd
  · exact readUnit portOctetCmd 2 recordCmd
  · exact readUnit portConfigCmd 16 recordCmd
  · exact readUnit beaconCmd 16 recordCmd
  · exact readUnit shimCmd 16 recordCmd
  · exact readUnit ptpPortCmd 16 recordCmd
  · exact readUnit endpointCmd 4 recordCmd

/-- The NTS record's read form has a life-cycle class of its own. -/
theorem ntsConfig_recordCmd : RecordCmd ntsConfigCmd { kind := .nts, ib := 2, inSet := tenantIdx, image := plainImage .nts
                                                       dep := fun d _ _ => ntsDep d, apply := atNextEdge .nts } :=
  ⟨rfl, rfl, rfl, rfl, rfl, rfl, by decide⟩

/-- Settles O3: each record is named by its tenant. -/
theorem tenantRecordReads : Obligations.TenantRecordReads := by
  unfold Obligations.TenantRecordReads tenantRecords
  simp only [List.forall_mem_cons, List.not_mem_nil, false_imp_iff, implies_true, and_true]
  refine ⟨?_, ?_, ?_, ?_, ?_, ?_, ?_⟩ <;> intro s m h hlen hv
  · exact readTenant launchCmd recordCmd h (opAbsent_other _ _ (by decide)) hlen
  · exact readTenant tenantConfigCmd recordCmd h (opAbsent_other _ _ (by decide)) hlen
  · exact readTenant tenantArrayCmd recordCmd h (opAbsent_other _ _ (by decide)) hlen
  · exact readTenant ntpConfigCmd recordCmd h (opAbsent_other _ _ (by decide)) hlen
  · exact readTenant ntpBcastCmd recordCmd h (opAbsent_other _ _ (by decide)) hlen
  · exact readTenant ntsConfigCmd ntsConfig_recordCmd h (opAbsent_variant (hv trivial) _) hlen
  · exact readTenant ptpConfigCmd recordCmd h (opAbsent_other _ _ (by decide)) hlen

/-- Settles O4: the two-index and wide-index records are record commands too; the steering record has no RC field. -/
theorem indexedRecordReads : Obligations.IndexedRecordReads := by
  intro s m h
  refine ⟨fun hlen h1 h2 hp => ?_, fun hlen h1 h2 ht => ?_, fun hlen hp => ?_, fun hp => ?_⟩
  · have hr : RecordCmd wakePatternCmd _ := recordCmd
    have hdiv : (rdLe (copied m) 0 1 * 16 + rdLe (copied m) 1 1) / 16 = rdLe (copied m) 0 1 := by omega
    exact hr.read h (opAbsent_other _ _ (by decide)) hlen (by simp [portIdx, idxBelow, h1, h2])
      (fun M => by simpa [hdiv] using hp) (noTenant s.dev rfl) fun _ => rfl
  · have hr : RecordCmd ntpAccessCmd _ := recordCmd
    have htn : ntpAccessCmd.tenant (copied m) = some (rdLe (copied m) 0 2) := by
      simp [ntpAccessCmd, RecSpec.cmd, tenantAt, hlen]
    exact hr.read h (opAbsent_other _ _ (by decide)) hlen (by simp [tenantIdx, h1, h2]) (fun _ => rfl)
      (by rw [htn]; rintro t ⟨⟩; exact ht) fun _ => rfl
  · have hr : RecordCmd ctrConfigCmd _ := recordCmd
    exact hr.read h (opAbsent_other _ _ (by decide)) hlen rfl (fun _ => hp) (noTenant s.dev rfl) fun _ => rfl
  · have hf : recordIsWrite 0 (copied m) = false := by rw [hp]; rfl
    refine answers_ok (c := tshSteerCmd) h (admitted_of (by decide) (fun _ => rfl) ?_ (by decide)) rfl (fun _ => ?_)
      (noTenant s.dev rfl) fun _ => ⟨[], ?_⟩
    · simp [tshSteerCmd, hf]
    · simp [tshSteerCmd, hp, recordLenOk, idxLen]
    · simp only [tshSteerCmd, hf, Bool.false_eq_true, if_false, readReply, getRec_inService]
      rfl

end Sys2Proof.Machine

/-! R345, R347, R348, R349: the record commands that write. The record is clamped as it is on the device, which taking
the request does not change, and the effect is that of the clamped record. -/

namespace Sys2Proof.Machine

open Sys2Proof

theorem RecKind.bytes_pos (k : RecKind) : 0 < k.bytes := by cases k <;> decide

theorem rdLe_zero (p : List Byte) (off : Nat) : rdLe p off 0 = 0 := by simp [rdLe, slice, ofLe]

/-! ### Writes by shape -/

section

variable {s : State} {m : Msg} {c : Cmd} {r : RecSpec}

/-- A record command that writes. -/
theorem RecordCmd.body_write (hr : RecordCmd c r) {p : List Byte} (hlen : p.length = idxLen r.ib + r.kind.bytes) (x : Ctx) (d : Dev)
    (href : r.refuse d (r.index p) (carried r.ib r.kind p) = none) :
    c.body x p d =
      let i := r.index p
      let req := carried r.ib r.kind p
      let v := clampRecord r.kind.fields (r.dep d i req) 0 (getRec d r.kind i) req
      .done .ok (recBytes r.kind (r.answer d i (mergeRw r.kind.fields (r.image d i) v.1))) v.2
        (bif r.takes d req then r.apply d i v.1 else d) := by
  have hw : recordIsWrite r.ib p = true := by
    have := r.kind.bytes_pos
    simp only [recordIsWrite, hlen, decide_eq_true_eq]
    omega
  simp only [hr.body, RecSpec.body, hw, if_true, href]

/-- The write form of a record, whose limits, answer and effect do not look at the mailbox. -/
theorem RecordCmd.write (hr : RecordCmd c r) (e : Nat → Dev) (h : byController s m = true)
    (hop : opAbsent s.dev.variant c.op = false) (hlen : (copied m).length = idxLen r.ib + r.kind.bytes)
    (hset : r.inSet (copied m) = true) (hpres : ∀ M, r.present (inService s.dev M) (r.index (copied m)) = true)
    (ht : ∀ t, c.tenant (copied m) = some t → tenantState s.dev t ≠ 2)
    (href : ∀ M, r.refuse (inService s.dev M) (r.index (copied m)) (carried r.ib r.kind (copied m)) = none)
    (he : ∀ v, (e v).mbx = s.dev.mbx)
    (hdep : ∀ M i q, r.dep (inService s.dev M) i q = r.dep s.dev i q)
    (him : ∀ M i, r.image (inService s.dev M) i = r.image s.dev i)
    (hans : ∀ M i v, r.answer (inService s.dev M) i v = r.answer s.dev i v)
    (happ : ∀ M v, (bif r.takes (inService s.dev M) (carried r.ib r.kind (copied m))
      then r.apply (inService s.dev M) (r.index (copied m)) v else inService s.dev M) = { e v with mbx := M, out := [] }) :
    let i := r.index (copied m)
    let req := carried r.ib r.kind (copied m)
    let v := clampRecord r.kind.fields (r.dep s.dev i req) 0 (getRec s.dev r.kind i) req
    answers (mailbox c m s) s m
      (withReport (recBytes r.kind (r.answer s.dev i (mergeRw r.kind.fields (r.image s.dev i) v.1))) v.2) (e v.1) := by
  intro i req v
  refine answers_report h (hr.admitted hop) (he _) (fun M => ?_) ht fun M => ⟨[], ?_⟩
  · simp [hr.check_of_length (.inr hlen), hset, hpres M]
  · rw [hr.body_write hlen _ _ (href M)]
    simp only [hdep, him, hans, happ, getRec_inService]
    rfl

/-- The write form of a record that takes effect at the next base-tick edge. -/
theorem RecordCmd.writeAtEdge (hr : RecordCmd c r) (h : byController s m = true)
    (hop : opAbsent s.dev.variant c.op = false) (hlen : (copied m).length = idxLen r.ib + r.kind.bytes)
    (hset : r.inSet (copied m) = true) (hpres : ∀ M, r.present (inService s.dev M) (r.index (copied m)) = true)
    (ht : ∀ t, c.tenant (copied m) = some t → tenantState s.dev t ≠ 2)
    (href : ∀ M, r.refuse (inService s.dev M) (r.index (copied m)) (carried r.ib r.kind (copied m)) = none := by exact fun _ => rfl)
    (hdep : ∀ M i q, r.dep (inService s.dev M) i q = r.dep s.dev i q := by exact fun _ _ _ => rfl)
    (him : ∀ M i, r.image (inService s.dev M) i = r.image s.dev i := by exact fun _ _ => rfl)
    (hans : ∀ M i v, r.answer (inService s.dev M) i v = r.answer s.dev i v := by exact fun _ _ _ => rfl)
    (htakes : r.takes = fun _ _ => true := by rfl) (happ : r.apply = atNextEdge r.kind := by rfl) :
    let i := r.index (copied m)
    let req := carried r.ib r.kind (copied m)
    let v := clampRecord r.kind.fields (r.dep s.dev i req) 0 (getRec s.dev r.kind i) req
    answers (mailbox c m s) s m
      (withReport (recBytes r.kind (r.answer s.dev i (mergeRw r.kind.fields (r.image s.dev i) v.1))) v.2)
      (atNextEdge r.kind s.dev i v.1) :=
  hr.write (fun v => atNextEdge r.kind s.dev (r.index (copied m)) v) h hop hlen hset hpres ht href (fun _ => rfl) hdep him hans
    fun M v => by rw [htakes, happ]; rfl

/-- The write of a numbered unit's record that takes effect at the next base-tick edge. -/
theorem writeUnit (n : Nat) (present : Dev → Nat → Bool) (hr : RecordCmd c r) (h : byController s m = true)
    (hlen : (copied m).length = idxLen r.ib + r.kind.bytes) (hn : namesUnit n present s.dev (copied m) = true)
    (hop : c.op / 256 ≠ 0x32 := by decide)
    (hi : ∀ p, r.index p = rdLe p 0 1 := by exact fun _ => rfl)
    (hset : ∀ p, r.inSet p = decide (rdLe p 0 1 < n) := by exact fun _ => rfl)
    (hpres : ∀ M i, r.present (inService s.dev M) i = present s.dev i := by exact fun _ _ => rfl)
    (hnt : ∀ p, c.tenant p = none := by exact fun _ => rfl)
    (href : ∀ M, r.refuse (inService s.dev M) (r.index (copied m)) (carried r.ib r.kind (copied m)) = none := by exact fun _ => rfl)
    (hdep : ∀ M i q, r.dep (inService s.dev M) i q = r.dep s.dev i q := by exact fun _ _ _ => rfl)
    (him : ∀ M i, r.image (inService s.dev M) i = r.image s.dev i := by exact fun _ _ => rfl)
    (hans : ∀ M i v, r.answer (inService s.dev M) i v = r.answer s.dev i v := by exact fun _ _ _ => rfl)
    (htakes : r.takes = fun _ _ => true := by rfl) (e : Nat → Dev)
    (he : ∀ v, (e v).mbx = s.dev.mbx := by exact fun _ => rfl)
    (happ : ∀ M v, r.apply (inService s.dev M) (r.index (copied m)) v = { e v with mbx := M, out := [] } := by exact fun _ _ => rfl) :
    let i := r.index (copied m)
    let req := carried r.ib r.kind (copied m)
    let v := clampRecord r.kind.fields (r.dep s.dev i req) 0 (getRec s.dev r.kind i) req
    answers (mailbox c m s) s m
      (withReport (recBytes r.kind (r.answer s.dev i (mergeRw r.kind.fields (r.image s.dev i) v.1))) v.2) (e v.1) := by
  simp only [namesUnit, Bool.and_eq_true, decide_eq_true_eq] at hn
  exact hr.write e h (opAbsent_other _ _ hop) hlen (by simp [hset, hn.1]) (fun M => by rw [hpres, hi, hn.2])
    (noTenant s.dev (hnt _)) href he hdep him hans fun M v => by rw [htakes]; exact happ M v

/-- The write of a tenant's record that takes effect at the next base-tick edge. -/
theorem writeTenant (hr : RecordCmd c r) (h : byController s m = true)
    (hlen : (copied m).length = idxLen r.ib + r.kind.bytes) (hn : namesTenant s.dev (copied m) = true)
    (hop : opAbsent s.dev.variant c.op = false) (hset : r.inSet (copied m) = true)
    (hpres : ∀ M, r.present (inService s.dev M) (r.index (copied m)) = true := by exact fun _ => rfl)
    (hnt : c.tenant = tenantAt 0 := by rfl)
    (href : ∀ M, r.refuse (inService s.dev M) (r.index (copied m)) (carried r.ib r.kind (copied m)) = none := by exact fun _ => rfl)
    (hdep : ∀ M i q, r.dep (inService s.dev M) i q = r.dep s.dev i q := by exact fun _ _ _ => rfl)
    (him : ∀ M i, r.image (inService s.dev M) i = r.image s.dev i := by exact fun _ _ => rfl)
    (hans : ∀ M i v, r.answer (inService s.dev M) i v = r.answer s.dev i v := by exact fun _ _ _ => rfl)
    (htakes : r.takes = fun _ _ => true := by rfl) (happ : r.apply = atNextEdge r.kind := by rfl) :
    let i := r.index (copied m)
    let req := carried r.ib r.kind (copied m)
    let v := clampRecord r.kind.fields (r.dep s.dev i req) 0 (getRec s.dev r.kind i) req
    answers (mailbox c m s) s m
      (withReport (recBytes r.kind (r.answer s.dev i (mergeRw r.kind.fields (r.image s.dev i) v.1))) v.2)
      (atNextEdge r.kind s.dev i v.1) := by
  simp only [namesTenant, Bool.and_eq_true, decide_eq_true_eq] at hn
  refine hr.writeAtEdge h hop hlen hset hpres (fun t ht => ?_) href hdep him hans htakes happ
  rw [hnt] at ht
  have : t = rdLe (copied m) 0 2 := by
    unfold tenantAt at ht
    split at ht <;> simp_all
  exact this ▸ hn.2

end

/-! ### The write forms -/

theorem plainRecordWrites_plain : ∀ r ∈ plainWrites, ∀ (s : State) (m : Msg), byController s m = true →
    (copied m).length = idxLen r.2.1 + r.1.kind.bytes → rdLe (copied m) 0 r.2.1 < r.2.2 →
    (r.2.1 = 2 → tenantState s.dev (rdLe (copied m) 0 2) ≠ 2) →
    let i := rdLe (copied m) 0 r.2.1
    let old := getRec s.dev r.1.kind i
    let v := clampRecord r.1.kind.fields noDep 0 old (carried r.2.1 r.1.kind (copied m))
    answers (exec (r.1.row m) s) s m (withReport (recBytes r.1.kind (mergeRw r.1.kind.fields old v.1)) v.2)
      { s.dev with atEdge := s.dev.atEdge ++ [(s.dev.bt + 1, .write r.1.kind i v.1)] } := by
  unfold plainWrites
  simp only [List.forall_mem_cons, List.not_mem_nil, false_imp_iff, implies_true, and_true]
  refine ⟨?_, ?_, ?_, ?_, ?_, ?_⟩ <;> intro s m h hlen hb ht
  · have hr : RecordCmd arrayConfigCmd _ := recordCmd
    exact hr.writeAtEdge h (opAbsent_other _ _ (by decide)) hlen rfl (fun _ => rfl) (noTenant s.dev rfl)
  · have hr : RecordCmd clsConfigCmd _ := recordCmd
    exact hr.writeAtEdge h (opAbsent_other _ _ (by decide)) hlen rfl (fun _ => rfl) (noTenant s.dev rfl)
  · have hr : RecordCmd obsConfigCmd _ := recordCmd
    exact hr.writeAtEdge h (opAbsent_other _ _ (by decide)) hlen rfl (fun _ => rfl) (noTenant s.dev rfl)
  all_goals
    have hn : namesTenant s.dev (copied m) = true := by simp [namesTenant, hb, ht]
    have hset : tenantIdx (copied m) = true := decide_eq_true hb
  · have hr : RecordCmd launchCmd _ := recordCmd
    have hw := writeTenant hr h hlen hn (opAbsent_other _ _ (by decide)) hset
    exact hw
  · have hr : RecordCmd tenantConfigCmd _ := recordCmd
    have hw := writeTenant hr h hlen hn (opAbsent_other _ _ (by decide)) hset
    exact hw
  · have hr : RecordCmd ntpConfigCmd _ := recordCmd
    have hw := writeTenant hr h hlen hn (opAbsent_other _ _ (by decide)) hset
    exact hw

/-- What a write row claims of the record it names. -/
def WriteRow.Holds (r : WriteRow) : Prop :=
  ∀ (s : State) (m : Msg), byController s m = true →
    (copied m).length = idxLen r.ib + r.kind.bytes → r.named s.dev (copied m) = true →
    let i := r.index (copied m)
    let req := carried r.ib r.kind (copied m)
    let v := clampRecord r.kind.fields (r.dep s.dev i req) 0 (getRec s.dev r.kind i) req
    answers (exec (r.row m) s) s m
      (withReport (recBytes r.kind (r.answer s.dev i (mergeRw r.kind.fields (r.image s.dev i) v.1))) v.2)
      (r.effect s.dev i req v.1)

/-- The effect of a DEVICE_CONFIG write, from the device on which the request runs. -/
theorem deviceConfig_effect (d : Dev) (M : MbxState) (req v : Nat) :
    (bif !(anySet (inService d M) && decide (getF req DRec.oscFreq ≠ fld (inService d M) .device 0 DRec.oscFreq))
      then defer (inService d M) (.osc (getF v DRec.oscFreq)) else inService d M)
    = { (if anySet d = true ∧ getF req DRec.oscFreq ≠ fld d .device 0 DRec.oscFreq then d
          else defer d (.osc (getF v DRec.oscFreq))) with mbx := M, out := [] } := by
  have hset : anySet (inService d M) = anySet d := rfl
  rw [hset, fld_inService]
  by_cases h : anySet d = true ∧ getF req DRec.oscFreq ≠ fld d .device 0 DRec.oscFreq
  · rw [if_pos h, h.1, decide_eq_true h.2]
    rfl
  · have hb : (anySet d && decide (getF req DRec.oscFreq ≠ fld d .device 0 DRec.oscFreq)) = false := by
      rw [Bool.and_eq_false_iff, decide_eq_false_iff_not, ← Bool.not_eq_true]
      exact not_and_or.1 h
    rw [if_neg h, hb]
    rfl

/-- A scribe with no segment armed, triggered or rearming takes its configuration. -/
theorem scribe_free {d : Dev} (h : (!scribeBusy d) = true) (M : MbxState) :
    (if scribeBusy (inService d M) then some Status.state else none) = none :=
  if_neg (by rw [show scribeBusy (inService d M) = scribeBusy d from rfl]; simpa using h)

theorem deviceWrites_hold : ∀ r ∈ deviceWrites, r.Holds := by
  unfold deviceWrites WriteRow.Holds
  simp only [List.forall_mem_cons, List.not_mem_nil, false_imp_iff, implies_true, and_true]
  refine ⟨?_, ?_, ?_, ?_, ?_, ?_, ?_⟩ <;> intro s m h hlen hn <;> simp only [rdLe_zero]
  · have hr : RecordCmd controlCmd _ := recordCmd
    have hw := hr.writeAtEdge h (opAbsent_other _ _ (by decide)) hlen rfl (fun _ => rfl) (noTenant s.dev rfl)
    exact hw
  · have hr : RecordCmd deviceConfigCmd _ := recordCmd
    have hw := hr.write (fun v => if anySet s.dev = true ∧ getF (carried 0 .device (copied m)) DRec.oscFreq
        ≠ fld s.dev .device 0 DRec.oscFreq then s.dev else defer s.dev (.osc (getF v DRec.oscFreq))) h
      (opAbsent_other _ _ (by decide)) hlen rfl (fun _ => rfl) (noTenant s.dev rfl) (fun _ => rfl) (fun v => by split <;> rfl)
      (fun _ _ _ => rfl) (fun _ _ => rfl) (fun _ _ _ => rfl) fun M v => deviceConfig_effect s.dev M _ v
    simp only [rdLe_zero] at hw
    exact hw
  · have hr : RecordCmd selectConfigCmd _ := recordCmd
    have hw := hr.write (atEvaluation .select s.dev 0) h (opAbsent_other _ _ (by decide)) hlen rfl (fun _ => rfl)
      (noTenant s.dev rfl) (fun _ => rfl) (fun _ => rfl) (fun _ _ _ => rfl) (fun _ _ => rfl) (fun _ _ _ => rfl) fun _ _ => rfl
    exact hw
  · have hr : RecordCmd gnssConfigCmd _ := recordCmd
    have hw := hr.write (atSecond .gnssDev s.dev 0) h (opAbsent_other _ _ (by decide)) hlen rfl (fun _ => rfl)
      (noTenant s.dev rfl) (fun _ => rfl) (fun _ => rfl) (fun _ _ _ => rfl) (fun _ _ => rfl) (fun _ _ _ => rfl) fun _ _ => rfl
    exact hw
  · have hr : RecordCmd tiuDeviceCmd _ := recordCmd
    have hw := hr.writeAtEdge h (opAbsent_other _ _ (by decide)) hlen rfl (fun _ => rfl) (noTenant s.dev rfl)
    exact hw
  · have hr : RecordCmd fwStatusCmd _ := recordCmd
    have hw := hr.writeAtEdge h (opAbsent_other _ _ (by decide)) hlen rfl (fun _ => rfl) (noTenant s.dev rfl)
    simp only [rdLe_zero] at hw
    exact hw
  · have hr : RecordCmd scribeConfigCmd _ := recordCmd
    have hw := hr.writeAtEdge h (opAbsent_other _ _ (by decide)) hlen rfl (fun _ => rfl) (noTenant s.dev rfl)
      fun M => scribe_free hn M
    simp only [rdLe_zero] at hw
    exact hw

theorem unitWrites_hold : ∀ r ∈ unitWrites, r.Holds := by
  unfold unitWrites WriteRow.Holds
  simp only [List.forall_mem_cons, List.not_mem_nil, false_imp_iff, implies_true, and_true]
  refine ⟨?_, ?_, ?_, ?_, ?_, ?_, ?_, ?_, ?_, ?_, ?_, ?_, ?_⟩ <;> intro s m h hlen hn
  · have hr : RecordCmd followerCmd _ := recordCmd
    have hw := writeUnit 18 folPresent hr h hlen hn (e := atNextEdge .follower s.dev _)
    exact hw
  · have hr : RecordCmd refConfigCmd _ := recordCmd
    have hw := writeUnit 10 refPresent hr h hlen hn (e := atEvaluation .ref s.dev _)
    exact hw
  · have hr : RecordCmd servoConfigCmd _ := recordCmd
    have hw := writeUnit 2 _ hr h hlen hn (e := atEvaluation .servo s.dev _)
    exact hw
  · have hr : RecordCmd gnssAntennaCmd _ := recordCmd
    have hw := writeUnit 2 antPresent hr h hlen hn (e := atSecond .gnssAnt s.dev _)
    exact hw
  · have hr : RecordCmd tiuInputCmd _ := recordCmd
    have hw := writeUnit 8 _ hr h hlen hn (e := atNextEdge .tiuIn s.dev _)
    exact hw
  · have hr : RecordCmd portOctetCmd _ := recordCmd
    have hw := writeUnit 2 octetPresent hr h hlen hn (e := atNextEdge .octet s.dev _)
    exact hw
  · have hr : RecordCmd portConfigCmd _ := recordCmd
    have hw := writeUnit 16 portStarts hr h hlen hn (e := atNextEdge .port s.dev _)
    exact hw
  · have hr : RecordCmd beaconCmd _ := recordCmd
    have hw := writeUnit 16 portStarts hr h hlen hn (e := atNextEdge .beacon s.dev _)
    exact hw
  · have hr : RecordCmd shimCmd _ := recordCmd
    have hw := writeUnit 16 portStarts hr h hlen hn (e := atNextEdge .shim s.dev _)
    exact hw
  · have hr : RecordCmd ptpPortCmd _ := recordCmd
    have hw := writeUnit 16 portStarts hr h hlen hn (e := atNextEdge .ptpPort s.dev _)
    exact hw
  · have hr : RecordCmd endpointCmd _ := recordCmd
    have hw := writeUnit 4 _ hr h hlen hn (e := atNextEdge .endpoint s.dev _)
    exact hw
  · have hr : RecordCmd ctrConfigCmd _ := recordCmd
    have hw := hr.writeAtEdge h (opAbsent_other _ _ (by decide)) hlen rfl (fun _ => hn) (noTenant s.dev rfl)
    exact hw
  · simp only [Bool.and_eq_true, decide_eq_true_eq] at hn
    obtain ⟨⟨hp, hk⟩, hstarts⟩ := hn
    have hr : RecordCmd wakePatternCmd _ := recordCmd
    have hdiv : (rdLe (copied m) 0 1 * 16 + rdLe (copied m) 1 1) / 16 = rdLe (copied m) 0 1 := by omega
    have hw := hr.writeAtEdge h (opAbsent_other _ _ (by decide)) hlen (by simp [portIdx, idxBelow, hp, hk])
      (fun M => by simpa [hdiv] using hstarts) (noTenant s.dev rfl)
    exact hw

/-- A payload that names a tenant names it in range. -/
theorem tenantIdx_of_names {d : Dev} {p : List Byte} (h : namesTenant d p = true) : tenantIdx p = true := by
  rw [namesTenant, Bool.and_eq_true] at h
  exact h.1

theorem tenantWrites_hold : ∀ r ∈ tenantWrites, r.Holds := by
  unfold tenantWrites WriteRow.Holds
  simp only [List.forall_mem_cons, List.not_mem_nil, false_imp_iff, implies_true, and_true]
  refine ⟨?_, ?_, ?_, ?_, ?_⟩ <;> intro s m h hlen hn
  · have hr : RecordCmd tenantArrayCmd _ := recordCmd
    have hw := writeTenant hr h hlen hn (opAbsent_other _ _ (by decide)) (tenantIdx_of_names hn)
    exact hw
  · have hr : RecordCmd ntpBcastCmd _ := recordCmd
    have hw := writeTenant hr h hlen hn (opAbsent_other _ _ (by decide)) (tenantIdx_of_names hn)
    exact hw
  · simp only [Bool.and_eq_true, decide_eq_true_eq] at hn
    have hw := writeTenant ntsConfig_recordCmd h hlen hn.1 (opAbsent_variant hn.2 _) (tenantIdx_of_names hn.1)
    exact hw
  · have hr : RecordCmd ptpConfigCmd _ := recordCmd
    have hw := writeTenant hr h hlen hn (opAbsent_other _ _ (by decide)) (tenantIdx_of_names hn)
    exact hw
  · simp only [Bool.and_eq_true, decide_eq_true_eq] at hn
    have hr : RecordCmd ntpAccessCmd _ := recordCmd
    have hw := writeTenant hr h hlen hn.1 (opAbsent_other _ _ (by decide)) (by simp [tenantIdx_of_names hn.1, hn.2])
    exact hw

/-- Settles O5: the plain records, then those of the device, of numbered units and of tenants. -/
theorem plainRecordWrites : Obligations.PlainRecordWrites := by
  refine ⟨plainRecordWrites_plain, fun r hr => ?_⟩
  rcases List.mem_append.1 hr with hr | hr
  · rcases List.mem_append.1 hr with hr | hr
    · exact deviceWrites_hold r hr
    · exact unitWrites_hold r hr
  · exact tenantWrites_hold r hr

end Sys2Proof.Machine

/-! R9, R66, R345: the commands that report: those of the whole device, those of the units a payload names, and the
statistics, which a read clears. -/

namespace Sys2Proof.Machine

open Sys2Proof

/-! ### Reports by shape -/

/-- A command that only reads, open to every PF. -/
structure ReportCmd (c : Cmd) : Prop where
  reads : c.isWrite = fun _ => false
  open_ : c.readBy.contains .c = true
  admits : ∀ x p d, c.admits x p d true = true
  classes : c.readCls ≠ .prov ∧ c.writeCls ≠ .prov

theorem reportCmd {c : Cmd} (hw : c.isWrite = fun _ => false := by rfl) (ho : c.readBy.contains .c = true := by rfl)
    (ha : ∀ x p d, c.admits x p d true = true := by exact fun _ _ _ => rfl)
    (hcls : c.readCls ≠ .prov ∧ c.writeCls ≠ .prov := by decide) : ReportCmd c := ⟨hw, ho, ha, hcls⟩

section

variable {s : State} {m : Msg} {c : Cmd}

theorem ReportCmd.admitted (hc : ReportCmd c) (hop : opAbsent s.dev.variant c.op = false) : Admitted c s m where
  present := hop
  admits _ := hc.admits _ _ _
  rights := by rw [hc.reads]; exact .inl hc.open_
  classes := hc.classes

/-- A report with an empty payload. -/
theorem ReportCmd.report (hc : ReportCmd c) {pl : List Byte} {e : Dev} (h : byController s m = true) (hp : copied m = [])
    (hbody : ∀ M, ∃ O, c.body (hostCtx s m) [] (inService s.dev M) = .done .ok pl [] { e with mbx := M, out := O })
    (hm : e.mbx = s.dev.mbx := by rfl) (hop : c.op / 256 ≠ 0x32 := by decide) (hcheck : c.check = lens [0] := by rfl)
    (hn : c.tenant [] = none := by rfl) : answers (mailbox c m s) s m (plain .ok pl) e := by
  rw [← hp] at hn hbody
  refine answers_ok h (hc.admitted (opAbsent_other _ _ hop)) hm (fun _ => ?_) (noTenant s.dev hn) hbody
  rw [hcheck, hp]
  rfl

/-- A report with an empty payload that changes nothing but the door. -/
theorem ReportCmd.status (hc : ReportCmd c) {pl : List Byte} (h : byController s m = true) (hp : copied m = [])
    (hbody : ∀ M, c.body (hostCtx s m) [] (inService s.dev M) = .done .ok pl [] (inService s.dev M))
    (hop : c.op / 256 ≠ 0x32 := by decide) (hcheck : c.check = lens [0] := by rfl) (hn : c.tenant [] = none := by rfl) :
    answers (mailbox c m s) s m (plain .ok pl) s.dev :=
  hc.report h hp (fun M => ⟨[], hbody M⟩) rfl hop hcheck hn

/-- What changes a device alike while a request is served does so over a list. -/
theorem foldl_inService {α : Type} {clear : Dev → α → Dev} (hclear : ∀ d M i, clear (inService d M) i = inService (clear d i) M)
    (us : List α) (d : Dev) (M : MbxState) : us.foldl clear (inService d M) = inService (us.foldl clear d) M := by
  induction us generalizing d with
  | nil => rfl
  | cons u us ih => simp only [List.foldl_cons, hclear, ih]

theorem foldl_mbx {clear : Dev → Nat → Dev} (hclear : ∀ d i, (clear d i).mbx = d.mbx) (us : List Nat) (d : Dev) :
    (us.foldl clear d).mbx = d.mbx := by
  induction us generalizing d with
  | nil => rfl
  | cons u us ih => rw [List.foldl_cons, ih, hclear]

/-- A command that answers the records of the units its payload names, and clears what the report clears. -/
structure UnitReport (c : Cmd) (r : ReportRow) : Prop where
  cmd : ReportCmd c
  reads : ∀ x d p us, p.length = 4 → r.named d p = some us → c.check x p d = none
    ∧ c.body x p d = .done .ok (us.flatMap (r.bytes d)) [] (us.foldl r.clear d)
  named : ∀ d M p, r.named (inService d M) p = r.named d p
  bytes : ∀ d M, r.bytes (inService d M) = r.bytes d
  clear : ∀ d M i, r.clear (inService d M) i = inService (r.clear d i) M
  mbx : ∀ d i, (r.clear d i).mbx = d.mbx

theorem UnitReport.report {r : ReportRow} (hr : UnitReport c r) (h : byController s m = true) (hlen : (copied m).length = 4)
    {us : List Nat} (hus : r.named s.dev (copied m) = some us) (hop : opAbsent s.dev.variant c.op = false)
    (ht : ∀ t, c.tenant (copied m) = some t → tenantState s.dev t ≠ 2) :
    answers (mailbox c m s) s m (plain .ok (us.flatMap (r.bytes s.dev))) (us.foldl r.clear s.dev) := by
  have hread := fun M => hr.reads (hostCtx s m) (inService s.dev M) (copied m) us hlen ((hr.named _ M _).trans hus)
  refine answers_ok h (hr.cmd.admitted hop) (foldl_mbx hr.mbx us s.dev) (fun M => (hread M).1) ht fun M => ⟨[], ?_⟩
  rw [(hread M).2, hr.bytes, foldl_inService hr.clear]
  rfl

/-- A row of the reports: a request that names units is on the device and names no RETIRING tenant. -/
theorem UnitReport.row {r : ReportRow} (hr : UnitReport c r)
    (hok : ∀ d p us, p.length = 4 → r.named d p = some us → opAbsent d.variant c.op = false
      ∧ ∀ t, c.tenant p = some t → tenantState d t ≠ 2)
    (hrow : ∀ m s, exec (r.row m) s = mailbox c m s := by exact fun _ _ => rfl) (s : State) (m : Msg)
    (h : byController s m = true) (hlen : (copied m).length = 4) (us : List Nat) (hus : r.named s.dev (copied m) = some us) :
    answers (exec (r.row m) s) s m (plain .ok (us.flatMap (r.bytes s.dev))) (us.foldl r.clear s.dev) := by
  obtain ⟨hop, ht⟩ := hok _ _ _ hlen hus
  rw [hrow]
  exact hr.report h hlen hus hop ht

/-- A row of the reports outside NTS whose command names no tenant. -/
theorem UnitReport.units {r : ReportRow} (hr : UnitReport c r)
    (hrow : ∀ m s, exec (r.row m) s = mailbox c m s := by exact fun _ _ => rfl) (hop : c.op / 256 ≠ 0x32 := by decide)
    (hn : ∀ p, c.tenant p = none := by exact fun _ => rfl) (s : State) (m : Msg) (h : byController s m = true)
    (hlen : (copied m).length = 4) (us : List Nat) (hus : r.named s.dev (copied m) = some us) :
    answers (exec (r.row m) s) s m (plain .ok (us.flatMap (r.bytes s.dev))) (us.foldl r.clear s.dev) :=
  hr.row (fun d p _ _ _ => ⟨opAbsent_other _ _ hop, noTenant d (hn p)⟩) hrow s m h hlen us hus

/-- A row of the reports that change nothing but the door. -/
theorem UnitReport.unitsStatus {r : ReportRow} (hr : UnitReport c r)
    (hclear : ∀ d i, r.clear d i = d := by exact fun _ _ => rfl)
    (hrow : ∀ m s, exec (r.row m) s = mailbox c m s := by exact fun _ _ => rfl) (hop : c.op / 256 ≠ 0x32 := by decide)
    (hn : ∀ p, c.tenant p = none := by exact fun _ => rfl) (s : State) (m : Msg) (h : byController s m = true)
    (hlen : (copied m).length = 4) (us : List Nat) (hus : r.named s.dev (copied m) = some us) :
    answers (exec (r.row m) s) s m (plain .ok (us.flatMap (r.bytes s.dev))) s.dev := by
  have hf : us.foldl r.clear s.dev = s.dev := by
    rw [funext₂ hclear]
    exact List.foldl_fixed (a := s.dev) us
  simpa only [hf] using hr.units hrow hop hn s m h hlen us hus

end

/-! ### The units a payload names -/

/-- A payload names one unit that is there, or all of them. -/
theorem namesUnits_cases {ib bound all : Nat} {present : Dev → Nat → Bool} {units : Dev → List Nat} {d : Dev} {p : List Byte}
    {us : List Nat} (h : namesUnits ib bound present all units d p = some us) :
    (rdLe p 0 ib < bound ∧ present d (rdLe p 0 ib) = true ∧ us = [rdLe p 0 ib]) ∨ (rdLe p 0 ib = all ∧ us = units d) := by
  unfold namesUnits at h
  dsimp only at h
  split at h
  · next hlt =>
    split at h
    · next hp => exact .inl ⟨hlt, hp, by simpa using h.symm⟩
    · cases h
  · split at h
    · next ha => exact .inr ⟨ha, by simpa using h.symm⟩
    · cases h

theorem namesOne_some {ib bound : Nat} {present : Dev → Nat → Bool} {d : Dev} {p : List Byte} {us : List Nat}
    (h : namesOne ib bound present d p = some us) :
    rdLe p 0 ib < bound ∧ present d (rdLe p 0 ib) = true ∧ us = [rdLe p 0 ib] := by
  unfold namesOne at h
  split at h
  · next hp => exact ⟨hp.1, hp.2, by simpa using h.symm⟩
  · cases h

/-! ### Reports that change nothing -/

theorem emptyReports_status : ∀ r ∈ statusReports, ∀ (s : State) (m : Msg), byController s m = true → copied m = [] →
    answers (exec (r.1 m) s) s m (plain .ok (r.2 s.dev)) s.dev := by
  unfold statusReports
  simp only [List.forall_mem_cons, List.not_mem_nil, false_imp_iff, implies_true, and_true]
  refine ⟨?_, ?_, ?_, ?_, ?_, ?_, ?_⟩ <;> intro s m h hp
  · have hc : ReportCmd jigStatusCmd := reportCmd
    exact hc.status h hp fun _ => rfl
  · have hc : ReportCmd deviceInfoCmd := reportCmd
    exact hc.status h hp fun _ => rfl
  · have hc : ReportCmd tagStatusCmd := reportCmd
    exact hc.status h hp fun _ => rfl
  · have hc : ReportCmd lcStatusCmd := reportCmd
    exact hc.status h hp fun _ => rfl
  · have hc : ReportCmd wrapStatusCmd := reportCmd
    exact hc.status h hp fun _ => rfl
  · have hf : resetCauseCmd.isWrite (copied m) = false := by rw [hp]; rfl
    refine answers_same (c := resetCauseCmd) h (admitted_of (by decide) (fun _ => rfl) ?_ (by decide)) (by decide)
      (fun M => ?_) (noTenant s.dev rfl) fun M => ?_
    · rw [hf]
      rfl
    · rw [hp]
      rfl
    · rw [hp]
      rfl
  · have hc : ReportCmd faultStatusCmd := reportCmd
    exact hc.status h hp fun _ => rfl

/-- A report of units from its command, whose fields are read off its definitions. -/
theorem unitReport {c : Cmd} {r : ReportRow} (hc : ReportCmd c)
    (hread : ∀ x d p us, p.length = 4 → r.named d p = some us → c.check x p d = none
      ∧ c.body x p d = .done .ok (us.flatMap (r.bytes d)) [] (us.foldl r.clear d))
    (hnamed : ∀ d M p, r.named (inService d M) p = r.named d p := by exact fun _ _ _ => rfl)
    (hbytes : ∀ d M, r.bytes (inService d M) = r.bytes d := by exact fun _ _ => rfl)
    (hclear : ∀ d M i, r.clear (inService d M) i = inService (r.clear d i) M := by exact fun _ _ _ => rfl)
    (hmbx : ∀ d i, (r.clear d i).mbx = d.mbx := by exact fun _ _ => rfl) : UnitReport c r :=
  ⟨hc, hread, hnamed, hbytes, hclear, hmbx⟩

/-- A node report names a node that is there, or all of them. -/
theorem nodeNamed_inSet {p : List Byte} {d : Dev} {x us : List Nat} {y : Option (List Nat)}
    (h : (if nodeInSet p = true then (if nodeArgPresent d p = true then some x else none) else y) = some us) :
    (nodeInSet p = true ∧ nodeArgPresent d p = true ∧ us = x) ∨ (nodeInSet p = false ∧ y = some us) := by
  split at h
  · next hs =>
    split at h
    · next hp => exact .inl ⟨hs, hp, by simpa using h.symm⟩
    · cases h
  · next hs => exact .inr ⟨by simpa using hs, h⟩

theorem nodeInSet_level {p : List Byte} (h : nodeInSet p = true) : rdLe p 0 1 < 4 := by
  unfold nodeInSet at h
  dsimp only at h
  split at h
  · omega
  · omega
  · omega
  · omega
  · cases h

theorem unitReports_status : ∀ r ∈ unitReports, ∀ (s : State) (m : Msg), byController s m = true → (copied m).length = 4 →
    ∀ us, r.named s.dev (copied m) = some us →
      answers (exec (r.row m) s) s m (plain .ok (us.flatMap (r.bytes s.dev))) s.dev := by
  unfold unitReports
  refine List.forall_mem_cons.2 ⟨UnitReport.unitsStatus (c := tsReadCmd) (unitReport reportCmd ?_),
    List.forall_mem_cons.2 ⟨UnitReport.unitsStatus (c := refStatusCmd) (unitReport reportCmd ?_),
    List.forall_mem_cons.2 ⟨UnitReport.unitsStatus (c := gnssStatusCmd) (unitReport reportCmd ?_),
    List.forall_mem_cons.2 ⟨UnitReport.unitsStatus (c := gnssSolutionCmd) (unitReport reportCmd ?_),
    List.forall_mem_cons.2 ⟨UnitReport.unitsStatus (c := portStatusCmd) (unitReport reportCmd ?_),
    List.forall_mem_cons.2 ⟨UnitReport.unitsStatus (c := tagReadCmd) (unitReport reportCmd ?_),
    List.forall_mem_cons.2 ⟨UnitReport.unitsStatus (c := nodeStatusCmd) (unitReport reportCmd ?_),
    List.forall_mem_cons.2 ⟨UnitReport.unitsStatus (c := faultRecordsCmd) (unitReport reportCmd ?_), by simp⟩⟩⟩⟩⟩⟩⟩⟩
    <;> intro x d p us hp hu <;> dsimp only at hu ⊢
  · obtain ⟨hlt, -, rfl⟩ | ⟨hall, rfl⟩ := namesUnits_cases hu
    · have hne : rdLe p 0 1 ≠ 0xFF := by omega
      simp [tsReadCmd, hp, hne]
      omega
    · simp [tsReadCmd, hp, hall]
  · obtain ⟨hlt, hpres, rfl⟩ | ⟨hall, rfl⟩ := namesUnits_cases hu
    · have hne : rdLe p 0 1 ≠ 0xFF := by omega
      simp [refStatusCmd, hp, hne, hpres, hlt]
    · simp [refStatusCmd, hp, hall]
  · obtain ⟨hlt, hpres, rfl⟩ | ⟨hall, rfl⟩ := namesUnits_cases hu
    · have hne : rdLe p 0 1 ≠ 0xFF := by omega
      simp [gnssStatusCmd, oneAntenna, hp, hne, hpres, hlt]
    · simp [gnssStatusCmd, oneAntenna, hp, hall]
  · obtain ⟨hlt, hpres, rfl⟩ := namesOne_some hu
    simp [gnssSolutionCmd, oneAntenna, hp, hpres, hlt]
  · obtain ⟨hlt, hpres, rfl⟩ | ⟨hall, rfl⟩ := namesUnits_cases hu
    · have hne : rdLe p 0 1 ≠ 0xFF := by omega
      simp [portStatusCmd, portIdx, idxBelow, hp, hne, hpres, hlt]
    · simp [portStatusCmd, portIdx, idxBelow, hp, hall]
  · split at hu
    · next hlt =>
      cases hu
      simp [tagReadCmd, hp, hlt, -List.reduceReplicate]
    · next hge =>
      split at hu
      · next hall =>
        obtain ⟨k, hk, rfl⟩ := Option.map_eq_some_iff.1 hu
        simp [tagReadCmd, hp, hall, hk, -List.reduceReplicate]
      · cases hu
  · obtain ⟨hset, hpres, rfl⟩ | ⟨hset, hu⟩ := nodeNamed_inSet hu
    · have hne : rdLe p 0 1 ≠ 0xFF := by have := nodeInSet_level hset; omega
      simp [nodeStatusCmd, hp, hset, hpres, hne]
    · split at hu
      · next hall =>
        cases hu
        simp [nodeStatusCmd, hp, hset, hall]
      · cases hu
  · obtain ⟨hset, hpres, rfl⟩ | ⟨hset, hu⟩ := nodeNamed_inSet hu
    · have hlt := nodeInSet_level hset
      have hne : rdLe p 0 1 ≠ 0xFF := by omega
      have hne4 : rdLe p 0 1 ≠ 4 := by omega
      simp [faultRecordsCmd, faultInSet, faultRecords, hp, hset, hpres, hne, hne4, nodeArg]
    · split at hu
      · next htop =>
        cases hu
        simp [faultRecordsCmd, faultInSet, faultRecords, hp, hset, htop]
      · split at hu
        · next hall =>
          cases hu
          simp [faultRecordsCmd, faultInSet, faultRecords, hp, hset, hall]
        · cases hu

/-- Settles O6: every report is read off the device, and none of them touches it. -/
theorem statusReports_hold : Obligations.StatusReports := by
  refine ⟨emptyReports_status, unitReports_status, fun s m h hlen hall hnone => ?_⟩
  have hc : ReportCmd tagReadCmd := reportCmd
  refine answers_same h (hc.admitted (opAbsent_other _ _ (by decide))) (by decide) (fun M => ?_) (noTenant s.dev rfl) fun M => ?_
  · simp [tagReadCmd, hlen, hall, -List.reduceReplicate]
  · have hn : tagCurrent (inService s.dev M) = none := hnone
    simp [tagReadCmd, hall, hn, -List.reduceReplicate]

/-! ### Reports that clear -/

theorem tenantAt_some {off t : Nat} {p : List Byte} (h : tenantAt off p = some t) : t = rdLe p off 2 := by
  unfold tenantAt at h
  split at h
  · simpa using h.symm
  · cases h

/-- What a key ring report names: one tenant, not on the AX8800-E. -/
theorem ringNamed_some {v : Variant} {x : Option (List Nat)} {us : List Nat} (h : (if v = .e then none else x) = some us) :
    v ≠ .e ∧ x = some us := by
  split at h
  · cases h
  · next hv => exact ⟨hv, h⟩

theorem clearingReports_clear : ∀ r ∈ clearingReports, ∀ (s : State) (m : Msg), byController s m = true →
    (copied m).length = 4 → ∀ us, r.named s.dev (copied m) = some us →
      answers (exec (r.row m) s) s m (plain .ok (us.flatMap (r.bytes s.dev))) (us.foldl r.clear s.dev) := by
  unfold clearingReports
  refine List.forall_mem_cons.2 ⟨UnitReport.units (c := servoStatusCmd) (unitReport reportCmd ?_),
    List.forall_mem_cons.2 ⟨UnitReport.units (c := tiuStatusCmd) (unitReport reportCmd ?_),
    List.forall_mem_cons.2 ⟨UnitReport.units (c := ptpClientCmd) (unitReport reportCmd ?_),
    List.forall_mem_cons.2 ⟨UnitReport.units (c := gnssChannelsCmd) (unitReport reportCmd ?_),
    List.forall_mem_cons.2 ⟨UnitReport.units (c := viewReadCmd) (unitReport reportCmd ?_),
    List.forall_mem_cons.2 ⟨UnitReport.units (c := keySlotsCmd) (unitReport reportCmd ?_),
    List.forall_mem_cons.2 ⟨UnitReport.row (c := ntsKeyRingCmd) (unitReport reportCmd ?_ (hclear := fun d M i => ?_)
      (hmbx := fun d i => ?_)) fun d p us hp hu => ?_, by simp⟩⟩⟩⟩⟩⟩⟩
  case refine_8 => exact foldl_inService (fun _ _ _ => rfl) _ _ _
  case refine_9 => exact foldl_mbx (clear := fun d s => readClear d .keyRing (ringSlot i s)) (fun _ _ => rfl) _ d
  case refine_10 =>
    obtain ⟨hv, hu⟩ := ringNamed_some hu
    obtain ⟨-, hret, -⟩ := namesOne_some hu
    exact ⟨opAbsent_variant hv _, fun t ht => by simpa [tenantAt_some ht] using hret⟩
  all_goals intro x d p us hp hu; dsimp only at hu ⊢
  · obtain ⟨hlt, -, rfl⟩ | ⟨hall, rfl⟩ := namesUnits_cases hu
    · have hne : rdLe p 0 1 ≠ 0xFF := by omega
      simp [servoStatusCmd, hp, hne]
      omega
    · simp [servoStatusCmd, hp, hall]
  · obtain ⟨hlt, -, rfl⟩ | ⟨hall, rfl⟩ := namesUnits_cases hu
    · have hne : rdLe p 0 1 ≠ 0xFF := by omega
      simp [tiuStatusCmd, hp, hne, hlt]
    · simp [tiuStatusCmd, hp, hall]
  · obtain ⟨hlt, hpres, rfl⟩ := namesOne_some hu
    have hport : clientPort d (rdLe p 0 1) ≠ none := Option.isSome_iff_ne_none.1 hpres
    simp [ptpClientCmd, readReply, hp, hport, hlt]
  · obtain ⟨as, has, rfl⟩ := Option.map_eq_some_iff.1 hu
    obtain ⟨hlt, hpres, rfl⟩ := namesOne_some has
    simp [gnssChannelsCmd, oneAntenna, hp, hpres, hlt]
  · obtain ⟨hlt, -, rfl⟩ | ⟨hall, rfl⟩ := namesUnits_cases hu
    · have hne : rdLe p 0 2 ≠ 0xFFFF := by omega
      simp [viewReadCmd, hp, hne]
      omega
    · simp [viewReadCmd, hp, hall]
  · obtain ⟨hlt, -, rfl⟩ | ⟨hall, hus⟩ := namesUnits_cases hu
    · have hne : rdLe p 0 2 ≠ 0xFFFF := by omega
      simp [keySlotsCmd, slotIdx, hp, hne, hlt]
    · simp [keySlotsCmd, slotIdx, hp, hall, hus]
  · obtain ⟨hv, hu⟩ := ringNamed_some hu
    obtain ⟨hlt, -, rfl⟩ := namesOne_some hu
    simp [ntsKeyRingCmd, tenantLen, tenantIdx, hp, hlt]

/-- Settles O7: the rows, and the three reports of the device's own records. -/
theorem clearingReports_hold : Obligations.ClearingReports := by
  refine ⟨clearingReports_clear, fun s m h hp => ⟨?_, ?_, ?_⟩⟩
  · have hc : ReportCmd ctStatusCmd := reportCmd
    exact hc.report h hp fun _ => ⟨[], rfl⟩
  · have hc : ReportCmd leapReadCmd := reportCmd
    exact hc.report h hp fun _ => ⟨[], rfl⟩
  · have hc : ReportCmd scribeStatusCmd := reportCmd
    exact hc.report h hp fun _ => ⟨[], rfl⟩

/-! ### Statistics -/

/-- A command that reads and clears one statistics block. -/
structure StatReport (c : Cmd) (r : StatRow) : Prop where
  cmd : ReportCmd c
  row : ∀ m s, exec (r.row m) s = mailbox c m s
  reads : ∀ x d p, p.length = 4 → r.named d p = true → c.check x p d = none
    ∧ c.body x p d = .done .ok (statBlock d r.kind (rdLe p 0 r.ib) r.count).1 [] (clearStats d r.kind (rdLe p 0 r.ib))
  named : ∀ d M p, r.named (inService d M) p = r.named d p

/-- A table from which the keys that fail a test are taken out. -/
theorem Tab.get_filter {α : Type} (q : Nat → Bool) (a : α) (t : Tab α) (k : Nat) :
    Tab.get a (t.filter fun e => q e.1) k = if q k = true then Tab.get a t k else a := by
  induction t with
  | nil => simp
  | cons e t ih =>
    obtain ⟨j, v⟩ := e
    by_cases hq : q j = true
    · by_cases hk : k = j
      · subst hk
        simp [hq, Tab.get]
      · simpa [hq, Tab.get, hk] using ih
    · by_cases hk : k = j
      · subst hk
        simpa [hq] using ih
      · simpa [hq, Tab.get, hk] using ih

theorem getStat_clearStats (d : Dev) (k : StatKind) (i j : Nat) (hj : j < 64) : getStat (clearStats d k i) k i j = 0 := by
  have hb : statKey k i j / 64 = statKey k i 0 / 64 := by
    unfold statKey
    omega
  exact (Tab.get_filter (fun x => decide (x / 64 ≠ statKey k i 0 / 64)) 0 d.stats _).trans (by simp [hb])

/-- What a row of the statistics commands is to do. -/
def StatRow.Holds (r : StatRow) : Prop :=
  ∀ (s : State) (m : Msg), byController s m = true → (copied m).length = 4 → (r.kind = .nts → s.dev.variant ≠ .e) →
    r.named s.dev (copied m) = true →
    let i := rdLe (copied m) 0 r.ib
    answers (exec (r.row m) s) s m
        (plain .ok ((List.range r.count).flatMap fun j => leBytes 8 (getStat s.dev r.kind i j))) (clearStats s.dev r.kind i)
      ∧ ∀ j < 64, getStat (clearStats s.dev r.kind i) r.kind i j = 0

theorem StatReport.holds {c : Cmd} {r : StatRow} (hr : StatReport c r)
    (hok : ∀ d p, p.length = 4 → (r.kind = .nts → d.variant ≠ .e) → r.named d p = true → opAbsent d.variant c.op = false
      ∧ ∀ t, c.tenant p = some t → tenantState d t ≠ 2) : r.Holds := by
  intro s m h hlen hv hn
  obtain ⟨hop, ht⟩ := hok _ _ hlen hv hn
  have hread := fun M => hr.reads (hostCtx s m) (inService s.dev M) (copied m) hlen ((hr.named _ M _).trans hn)
  refine ⟨?_, fun j => getStat_clearStats _ _ _ j⟩
  rw [hr.row]
  exact answers_ok h (hr.cmd.admitted hop) rfl (fun M => (hread M).1) ht fun M => ⟨[], (hread M).2⟩

/-- A row of statistics of a port. -/
theorem portStat (c : Cmd) {row : Msg → Instr} {k : StatKind} {n : Nat} (hc : ReportCmd c)
    (hrow : ∀ m s, exec (row m) s = mailbox c m s := by exact fun _ _ => rfl) (hcheck : c.check = onePort := by rfl)
    (hbody : ∀ x d p, c.body x p d = .done .ok (statBlock d k (rdLe p 0 1) n).1 [] (clearStats d k (rdLe p 0 1)) := by
      exact fun _ _ _ => rfl)
    (hop : c.op / 256 ≠ 0x32 := by decide) (hn : ∀ p, c.tenant p = none := by exact fun _ => rfl) :
    StatRow.Holds ⟨row, k, n, 1, namesPort⟩ := by
  have hr : StatReport c ⟨row, k, n, 1, namesPort⟩ := by
    refine ⟨hc, hrow, fun x d p hl hq => ⟨?_, hbody x d p⟩, fun _ _ _ => rfl⟩
    simp only [namesPort, Bool.and_eq_true, decide_eq_true_eq] at hq
    simp [hcheck, onePort, portIdx, idxBelow, hl, hq]
  exact hr.holds fun d p _ _ _ => ⟨opAbsent_other _ _ hop, noTenant d (hn p)⟩

/-- A row of statistics of a tenant. -/
theorem tenantStat (c : Cmd) {row : Msg → Instr} {k : StatKind} {n : Nat} (hc : ReportCmd c)
    (hop : ∀ v, (k = .nts → v ≠ Variant.e) → opAbsent v c.op = false)
    (hrow : ∀ m s, exec (row m) s = mailbox c m s := by exact fun _ _ => rfl) (hcheck : c.check = oneTenant := by rfl)
    (hbody : ∀ x d p, c.body x p d = .done .ok (statBlock d k (rdLe p 0 2) n).1 [] (clearStats d k (rdLe p 0 2)) := by
      exact fun _ _ _ => rfl)
    (hn : c.tenant = tenantAt 0 := by rfl) : StatRow.Holds ⟨row, k, n, 2, namesTenant⟩ := by
  have hr : StatReport c ⟨row, k, n, 2, namesTenant⟩ := by
    refine ⟨hc, hrow, fun x d p hl hq => ⟨?_, hbody x d p⟩, fun _ _ _ => rfl⟩
    simp only [namesTenant, Bool.and_eq_true, decide_eq_true_eq] at hq
    simp [hcheck, oneTenant, tenantIdx, hl, hq]
  refine hr.holds fun d p _ hv hq => ⟨hop _ hv, fun t ht => ?_⟩
  simp only [namesTenant, Bool.and_eq_true, decide_eq_true_eq] at hq
  rw [hn] at ht
  rw [tenantAt_some ht]
  exact hq.2

/-- Settles O9: two blocks of a port and three of a tenant. -/
theorem statisticsReadAndClear : Obligations.StatisticsReadAndClear := by
  show ∀ r ∈ statBlocks, r.Holds
  unfold statBlocks
  simp only [List.forall_mem_cons, List.not_mem_nil, false_imp_iff, implies_true, and_true]
  exact ⟨portStat launchStatsCmd reportCmd, portStat clsStatsCmd reportCmd,
    tenantStat ntpStatsCmd reportCmd fun _ _ => opAbsent_other _ _ (by decide),
    tenantStat ntsStatsCmd reportCmd fun _ hv => opAbsent_variant (hv rfl) _,
    tenantStat ptpStatsCmd reportCmd fun _ _ => opAbsent_other _ _ (by decide)⟩

end Sys2Proof.Machine

/-! R7, R43: the timescales at AON power-on and their advance from there. -/

namespace Sys2Proof.Machine

open Sys2Proof

/-! ### Advances at the nominal increment -/

theorem getTs_advanceAll (d : Dev) (i : Nat) : getTs (advanceAll d) i = (getTs d i).advance := by
  unfold getTs advanceAll
  split
  · rfl
  · split <;> rfl

theorem getTs_repeat_advanceAll (d : Dev) (i n : Nat) :
    getTs (Nat.repeat advanceAll n d) i = Nat.repeat Timescale.advance n (getTs d i) := by
  induction n with
  | zero => rfl
  | succ n ih => rw [Nat.repeat, getTs_advanceAll, ih, Nat.repeat]

/-- A timescale that has advanced n times from zero at INC_NOM for 10 MHz. -/
def AtTick (n : Nat) (t : Timescale) : Prop :=
  t.sec * 10 ^ 9 + t.ns = n * 100 ∧ t.ns < 10 ^ 9 ∧ t.frac40 = 0 ∧ t.inc = 100 * 2 ^ 40

theorem AtTick.advance {n : Nat} {t : Timescale} (hn : n + 1 < 2 ^ 48) (h : AtTick n t) : AtTick (n + 1) t.advance := by
  obtain ⟨hval, hns, hfrac, hinc⟩ := h
  have hstep : t.ns + t.inc / 2 ^ 40 + (t.frac40 + t.inc % 2 ^ 40) / 2 ^ 40 = t.ns + 100 := by
    rw [hinc, hfrac]
    norm_num
  have hrest : (t.frac40 + t.inc % 2 ^ 40) % 2 ^ 40 = 0 := by
    rw [hinc, hfrac]
    norm_num
  simp only [Timescale.advance, hstep, hrest]
  unfold AtTick
  split
  · dsimp only
    omega
  · dsimp only
    omega

theorem AtTick.repeat {t : Timescale} (h : AtTick 0 t) {n : Nat} (hn : n < 2 ^ 48) :
    AtTick n (Nat.repeat Timescale.advance n t) := by
  induction n with
  | zero => exact h
  | succ n ih => exact (ih (by omega)).advance hn

theorem AtTick.total {n : Nat} {t : Timescale} (h : AtTick n t) : t.total = n * 100 * 2 ^ 40 := by
  obtain ⟨hval, -, hfrac, -⟩ := h
  rw [Timescale.total, hval, hfrac, Nat.add_zero]

/-! ### The state of R43 -/

/-- What the state of R43 rests on: the timescales at their reset values, no steering record and no device record
written. -/
structure Unset (d : Dev) : Prop where
  ts : ∀ i, getTs d i = Timescale.reset
  steer : getRec d .steer 0 = resetRec d.variant .steer 0
  device : getRec d .device 0 = resetRec d.variant .device 0

theorem resetRec_steer (v : Variant) : getF (resetRec v .steer 0) Steer.select = 0 := by
  show getF (resetOf RecKind.steer.fields) Steer.select = 0
  decide +kernel

theorem resetRec_device (v : Variant) : getF (resetRec v .device 0) DRec.oscFreq = 1 := by cases v <;> decide

theorem Unset.incNom {d : Dev} (h : Unset d) : incNom d = 100 * 2 ^ 40 := by
  rw [Machine.incNom, btNs, fld, h.device, resetRec_device]
  rfl

/-- A record other than the steering record and the device record may be written. -/
theorem Unset.setFld {d : Dev} (h : Unset d) (k : RecKind) (i : Nat) (f : Fld) (v : Nat)
    (hs : RecKind.steer.key 0 ≠ k.key i) (hd : RecKind.device.key 0 ≠ k.key i) : Unset (setFld d k i f v) where
  ts := h.ts
  steer := (getRec_setFld_other d k .steer i 0 f v hs).trans h.steer
  device := (getRec_setFld_other d k .device i 0 f v hd).trans h.device

theorem Unset.fwStatus {d : Dev} (h : Unset d) (f : Fld) (v : Nat) : Unset (Machine.setFld d .fwStatus 0 f v) :=
  h.setFld _ _ _ _ (by decide) (by decide)

theorem Unset.refreshPreferred {d : Dev} (h : Unset d) : Unset (refreshPreferred d) := by
  unfold Machine.refreshPreferred
  split
  · have h' : Unset (drawUpTo d 1).2 := ⟨h.ts, h.steer, h.device⟩
    exact h'.fwStatus _ _
  · exact h.fwStatus _ _

theorem Unset.setSlotState {d : Dev} (h : Unset d) (s state reason : Nat) : Unset (setSlotState d s state reason) :=
  ((((((h.fwStatus _ _).fwStatus _ _).fwStatus _ _).fwStatus _ _).fwStatus _ _)).refreshPreferred

theorem Unset.deriveSlot {d : Dev} (h : Unset d) (s : Nat) : Unset (deriveSlot d s) := by
  unfold Machine.deriveSlot
  dsimp only
  split
  · exact (h.setSlotState s 0 0).fwStatus _ _
  · split
    · exact (h.setSlotState s 3 0).fwStatus _ _
    · exact (h.setSlotState s 4 _).fwStatus _ _

theorem unset_of_reset {d : Dev} (hts : d.ts = TsState.reset) (hrecs : d.recs = []) : Unset d where
  ts i := by
    rw [getTs, hts]
    split
    · rfl
    · split <;> rfl
  steer := by rw [getRec, hrecs]; rfl
  device := by rw [getRec, hrecs]; rfl

/-- AON power-on is a device at its reset values on which the controller and the slots are written. -/
theorem aonPowerOn_eq (d : Dev) : ∃ e v, e.ts = TsState.reset ∧ e.recs = []
    ∧ aonPowerOn d = deriveSlots (setFld e .controller 0 Ctl.controller v) := by
  unfold aonPowerOn
  exact ⟨_, _, rfl, rfl, rfl⟩

theorem unset_aonPowerOn (d : Dev) : Unset (aonPowerOn d) := by
  obtain ⟨e, v, hts, hrecs, heq⟩ := aonPowerOn_eq d
  rw [heq]
  have h : Unset (setFld e .controller 0 Ctl.controller v) :=
    (unset_of_reset hts hrecs).setFld _ _ _ _ (by decide) (by decide)
  exact (h.deriveSlot 0).deriveSlot 1

/-- The state of R43, and n advances from it. -/
theorem Unset.fromPowerOn {d : Dev} (h : Unset d) :
    (∀ i < 3, (getTs d i).sec = 0 ∧ (getTs d i).ns = 0 ∧ (getTs d i).frac40 = 0
      ∧ (getTs d i).inc = Machine.incNom d ∧ (getTs d i).inc = 100 * 2 ^ 40 ∧ (getTs d i).set = false
      ∧ (getTs d i).stepSource = 0)
    ∧ fld d .steer 0 Steer.select = 0
    ∧ ∀ i < 3, ∀ n < 2 ^ 48, (getTs (Nat.repeat advanceAll n d) i).total = n * 100 * 2 ^ 40 := by
  have hzero : AtTick 0 Timescale.reset := by
    unfold AtTick
    decide
  refine ⟨fun i _ => ?_, ?_, fun i _ n hn => ?_⟩
  · simp only [h.ts i, h.incNom, Timescale.reset, and_self]
  · rw [fld, h.steer, resetRec_steer]
  · rw [getTs_repeat_advanceAll, h.ts i]
    exact (hzero.repeat hn).total

/-- Settles O10: the state of R43 stands after any AON power-on, and each advance adds 100 ns to it. -/
theorem timescalesAtPowerOn : Obligations.TimescalesAtPowerOn :=
  ⟨(unset_of_reset rfl rfl).fromPowerOn, fun s => ⟨_, rfl, (unset_aonPowerOn (fresh s.dev)).fromPowerOn⟩⟩

end Sys2Proof.Machine

/-! R40–R47, R56, R74: the commands of the timescales that write. -/

namespace Sys2Proof.Machine

open Sys2Proof

/-! ### Requests that reach their command's body -/

/-- A command that only writes, for the controller host. -/
structure WriteCmd (c : Cmd) : Prop where
  writes : c.isWrite = fun _ => true
  open_ : c.writeBy.contains .c = true
  admits : ∀ x p d, c.admits x p d true = true
  classes : c.readCls ≠ .prov ∧ c.writeCls ≠ .prov

theorem writeCmd {c : Cmd} (hw : c.isWrite = fun _ => true := by rfl) (ho : c.writeBy.contains .c = true := by rfl)
    (ha : ∀ x p d, c.admits x p d true = true := by exact fun _ _ _ => rfl)
    (hcls : c.readCls ≠ .prov ∧ c.writeCls ≠ .prov := by decide) : WriteCmd c := ⟨hw, ho, ha, hcls⟩

/-- The controller's request passes the checks of its command: its body runs. -/
structure Accepted (c : Cmd) (s : State) (m : Msg) : Prop where
  byController : byController s m = true
  admitted : Admitted c s m
  check : ∀ M, c.check (hostCtx s m) (copied m) (inService s.dev M) = none
  tenant : ∀ t, c.tenant (copied m) = some t → tenantState s.dev t ≠ 2

section

variable {s : State} {m : Msg} {c : Cmd}

theorem WriteCmd.admitted (hc : WriteCmd c) (hop : opAbsent s.dev.variant c.op = false) : Admitted c s m where
  present := hop
  admits _ := hc.admits _ _ _
  rights := by rw [hc.writes]; exact .inl hc.open_
  classes := hc.classes

/-- A write outside NTS whose command names no tenant. -/
theorem WriteCmd.accepted (hc : WriteCmd c) (h : Machine.byController s m = true)
    (hcheck : ∀ M, c.check (hostCtx s m) (copied m) (inService s.dev M) = none) (hop : c.op / 256 ≠ 0x32 := by decide)
    (hn : ∀ p, c.tenant p = none := by exact fun _ => rfl) : Accepted c s m :=
  ⟨h, hc.admitted (opAbsent_other _ _ hop), hcheck, noTenant s.dev (hn _)⟩

/-- A read outside NTS whose command names no tenant. -/
theorem ReportCmd.accepted (hc : ReportCmd c) (h : Machine.byController s m = true)
    (hcheck : ∀ M, c.check (hostCtx s m) (copied m) (inService s.dev M) = none) (hop : c.op / 256 ≠ 0x32 := by decide)
    (hn : ∀ p, c.tenant p = none := by exact fun _ => rfl) : Accepted c s m :=
  ⟨h, hc.admitted (opAbsent_other _ _ hop), hcheck, noTenant s.dev (hn _)⟩

namespace Accepted

variable (a : Accepted c s m)
include a

/-- A body that answers a status alone and leaves the device as it was. -/
theorem status {st : Status} {pl : List Byte}
    (hb : ∀ M, c.body (hostCtx s m) (copied m) (inService s.dev M) = .done st pl [] (inService s.dev M))
    (hst : st ≠ .clamped := by decide) : answers (mailbox c m s) s m (plain st pl) s.dev :=
  answers_same a.byController a.admitted hst a.check a.tenant hb

theorem report {pl : List Byte} {es : List ClampEntry} {e : Dev}
    (hb : ∀ M, ∃ O, c.body (hostCtx s m) (copied m) (inService s.dev M) = .done .ok pl es { e with mbx := M, out := O })
    (hm : e.mbx = s.dev.mbx := by rfl) : answers (mailbox c m s) s m (withReport pl es) e :=
  answers_report a.byController a.admitted hm a.check a.tenant hb

theorem ok {pl : List Byte} {e : Dev}
    (hb : ∀ M, ∃ O, c.body (hostCtx s m) (copied m) (inService s.dev M) = .done .ok pl [] { e with mbx := M, out := O })
    (hm : e.mbx = s.dev.mbx := by rfl) : answers (mailbox c m s) s m (plain .ok pl) e :=
  answers_ok a.byController a.admitted hm a.check a.tenant hb

theorem waits {w : Waiting} {e : Dev}
    (hb : ∀ M, ∃ O, c.body (hostCtx s m) (copied m) (inService s.dev M) = .wait w { e with mbx := M, out := O })
    (hm : e.mbx = s.dev.mbx := by rfl) : Machine.waits (mailbox c m s) s m w e :=
  waits_for a.byController a.admitted hm a.check a.tenant hb

/-- The effect of a body on the device in service. -/
theorem reportAt {pl : List Byte} {es : List ClampEntry} {e : Dev}
    (hb : ∀ M, c.body (hostCtx s m) (copied m) (inService s.dev M) = .done .ok pl es (inService e M))
    (hm : e.mbx = s.dev.mbx := by rfl) : answers (mailbox c m s) s m (withReport pl es) e :=
  a.report (fun M => ⟨[], hb M⟩) hm

theorem okAt {pl : List Byte} {e : Dev}
    (hb : ∀ M, c.body (hostCtx s m) (copied m) (inService s.dev M) = .done .ok pl [] (inService e M))
    (hm : e.mbx = s.dev.mbx := by rfl) : answers (mailbox c m s) s m (plain .ok pl) e :=
  a.ok (fun M => ⟨[], hb M⟩) hm

theorem waitsAt {w : Waiting} {e : Dev}
    (hb : ∀ M, c.body (hostCtx s m) (copied m) (inService s.dev M) = .wait w (inService e M))
    (hm : e.mbx = s.dev.mbx := by rfl) : Machine.waits (mailbox c m s) s m w e :=
  a.waits (fun M => ⟨[], hb M⟩) hm

theorem effectsReport {pl : Dev → List Byte} {es : Dev → List ClampEntry} {f : Dev → Dev}
    (hb : ∀ M, let d := inService s.dev M
      c.body (hostCtx s m) (copied m) d = .done .ok (pl d) (es d) (f d)) :
    effects (mailbox c m s) s m (fun d => withReport (pl d) (es d)) f :=
  effects_report a.byController a.admitted a.check a.tenant hb

theorem effectsOk {pl : Dev → List Byte} {f : Dev → Dev}
    (hb : ∀ M, let d := inService s.dev M
      c.body (hostCtx s m) (copied m) d = .done .ok (pl d) [] (f d)) :
    effects (mailbox c m s) s m (fun d => plain .ok (pl d)) f :=
  effects_ok a.byController a.admitted a.check a.tenant hb

theorem delays {w : Waiting} {f : Dev → Dev}
    (hb : ∀ M, let d := inService s.dev M
      c.body (hostCtx s m) (copied m) d = .wait w (f d)) :
    Machine.delays (mailbox c m s) s m w f :=
  delays_for a.byController a.admitted a.check a.tenant hb

end Accepted

end

/-! ### TS_RATE and TS_CLEAR -/

/-- Settles O12: each command is refused, or its change is due at the next edge. -/
theorem timescaleRateAndClear : Obligations.TimescaleRateAndClear := by
  intro s m h hi
  refine ⟨fun hlen => ?_, fun hlen => ?_⟩
  · have hc : WriteCmd tsRateCmd := writeCmd
    have ha := hc.accepted h fun _ => if_pos ⟨hlen, hi⟩
    exact ⟨fun hr => ha.status fun _ => if_pos hr,
      fun hr => ha.report fun _ => ⟨[], if_neg (ne_true_of_eq_false hr)⟩⟩
  · have hc : WriteCmd tsClearCmd := writeCmd
    have ha := hc.accepted h fun _ => if_pos ⟨hlen, hi⟩
    exact ⟨fun hr => ha.status fun _ => if_pos hr,
      fun hr => ha.ok fun _ => ⟨[], if_neg (ne_true_of_eq_false hr)⟩⟩

/-! ### The edge an APPLY_BT names -/

theorem applyEdge_named (d : Dev) {n : Nat} (h : n = 0 ∨ (d.bt + 2 ≤ n ∧ n ≤ d.bt + 100000000)) :
    applyEdge d n = some (if n = 0 then d.bt + 1 else n) := by
  unfold applyEdge
  obtain rfl | ⟨h1, h2⟩ := h
  · rfl
  · have hn : n ≠ 0 := by omega
    simp [hn, h1, h2]

theorem applyEdge_none (d : Dev) {n : Nat} (h : n ≠ 0 ∧ (n < d.bt + 2 ∨ d.bt + 100000000 < n)) : applyEdge d n = none := by
  obtain ⟨hn, h⟩ := h
  unfold applyEdge
  rw [if_neg hn, if_neg (by omega)]

/-! ### TS_SET, TS_STEP and the steering record -/

section

variable {x : Ctx} {p : List Byte} {d : Dev}

/-- What TS_SET asks for at its edge. -/
def setOp (x : Ctx) (p : List Byte) : EdgeOp :=
  .set (rdLe p 0 1) (twTotal (setF (rdLe p 4 12) ⟨47, 16⟩ (min (rdLe p 4 12 / 2 ^ 16 % 2 ^ 32) 999999999)))
    (rdLe p 4 12 / 2 ^ 16 % 2 ^ 32) x.fn x.door

/-- What TS_STEP asks for at its edge. -/
def stepOp (x : Ctx) (p : List Byte) : EdgeOp :=
  .step (rdLe p 0 1) (toInt 64 (rdLe p 4 8) * (2 ^ 40 : Nat) + (rdLe p 12 2 * 2 ^ 24 : Nat)) x.fn x.door

theorem tsSet_waits {n : Nat} (hn : applyEdge d (rdLe p 16 8) = some n) (hs : (getTs d (rdLe p 0 1)).set = false) :
    tsSetCmd.body x p d = .wait .edge (deferAt d n (setOp x p)) := by
  simp only [tsSetCmd, hn, hs, Bool.false_eq_true, if_false, setOp]

theorem tsStep_waits {n : Nat} (hn : applyEdge d (rdLe p 16 8) = some n) (hs : (getTs d (rdLe p 0 1)).set = false) :
    tsStepCmd.body x p d = .wait .edge (deferAt d n (stepOp x p)) := by
  simp only [tsStepCmd, hn, hs, Bool.false_eq_true, if_false, stepOp]

/-- An initial set of a set timescale, or for an edge that APPLY_BT may not name (R44–R46). -/
theorem initialSet_state (h : (getTs d (rdLe p 0 1)).set = true ∨ applyEdge d (rdLe p 16 8) = none) :
    tsSetCmd.body x p d = .done .state [] [] d ∧ tsStepCmd.body x p d = .done .state [] [] d := by
  obtain hs | hn := h
  · simp only [tsSetCmd, tsStepCmd, hs, if_true]
    exact ⟨by split <;> rfl, by split <;> rfl⟩
  · simp only [tsSetCmd, tsStepCmd, hn, and_self]

end

/-- Settles O13: a command that names an edge waits for it; one that may not is answered at once. -/
theorem edgeWaits : Obligations.EdgeWaits := by
  have hset : WriteCmd tsSetCmd := writeCmd
  have hstep : WriteCmd tsStepCmd := writeCmd
  have hleap : WriteCmd leapTableCmd := writeCmd
  refine ⟨fun s m h hlen hi => ?_, fun s m h => ⟨fun hlen => ?_, fun h1 h2 h3 => ?_⟩⟩
  · have ha := hset.accepted h fun _ => if_pos ⟨hlen, hi⟩
    have hb := hstep.accepted h fun _ => if_pos ⟨hlen, hi⟩
    refine ⟨fun hn hs => ?_, fun hr => ?_⟩
    · have hn := applyEdge_named s.dev hn
      exact ⟨ha.waits fun M => ⟨[], tsSet_waits (d := inService s.dev M) hn hs⟩,
        hb.waits fun M => ⟨[], tsStep_waits (d := inService s.dev M) hn hs⟩⟩
    · have hr := hr.imp_right (applyEdge_none s.dev)
      have hbody := fun M => initialSet_state (x := hostCtx s m) (d := inService s.dev M) hr
      exact ⟨ha.status fun M => (hbody M).1, hb.status fun M => (hbody M).2⟩
  · have hw : recordIsWrite 0 (copied m) = true := by simp [recordIsWrite, idxLen, hlen]
    have hop : Admitted tshSteerCmd s m := admitted_of (by decide) (fun _ => rfl)
      (by simp only [tshSteerCmd, hw, if_true]; rfl) (by decide)
    have ha : Accepted tshSteerCmd s m := ⟨h, hop, fun _ => if_pos (by simp [recordLenOk, idxLen, hlen]; rfl), noTenant s.dev rfl⟩
    exact ha.waits fun _ => ⟨[], if_pos hw⟩
  · exact (hleap.accepted h fun _ => if_pos ⟨h1, h2, h3⟩).waits fun _ => ⟨[], rfl⟩

/-! ### Views and the leap policy -/

/-- A value confined from above. -/
theorem clampTo_eq_min (a b : Nat) : (if a > b then b else a) = min a b := by
  split <;> omega

theorem viewCreate_creates {x : Ctx} {p : List Byte} {d : Dev}
    (h : ¬ (flag d .view (rdLe p 0 2) View.created = true ∨ createDue d (rdLe p 0 2) = true)) :
    let r := clampRecord viewFields (viewDep (rdLe p 4 48)) 0 (getRec d .view (rdLe p 0 2)) (rdLe p 4 48)
    viewCreateCmd.body x p d = .done .ok (recBytes .view (viewImage (applyViewCreate d (rdLe p 0 2) r.1) (rdLe p 0 2))) r.2
      (defer d (.viewCreate (rdLe p 0 2) r.1)) := by
  simp only [viewCreateCmd, if_neg h]

/-- Settles O14: each command is refused, or its change is due at the next edge. -/
theorem viewCommands : Obligations.ViewCommands := by
  have hcreate : WriteCmd viewCreateCmd := writeCmd
  have hsmear : WriteCmd viewSmearCmd := writeCmd
  have hclear : WriteCmd viewClearCmd := writeCmd
  have hpolicy : WriteCmd leapPolicyCmd := writeCmd
  intro s m h
  refine ⟨fun hlen hv => ?_, fun hlen hv => ?_, fun hlen hv => ?_, fun hlen => ?_⟩
  · have ha := hcreate.accepted h fun _ => if_pos ⟨hlen, hv⟩
    refine ⟨fun hc hd => ?_, fun hr => ha.status fun _ => if_pos hr⟩
    have hn : ¬ (flag s.dev .view (rdLe (copied m) 0 2) View.created = true ∨ createDue s.dev (rdLe (copied m) 0 2) = true) := by
      simp [hc, hd]
    exact ha.effectsReport fun M => viewCreate_creates (d := inService s.dev M) hn
  · have ha := hsmear.accepted h fun _ => if_pos ⟨hlen, hv⟩
    refine ⟨fun hr => ha.status fun _ => if_pos hr, fun hr => ?_⟩
    refine ha.effectsReport fun M => ?_
    have hp : ¬ smearProtected (inService s.dev M) (rdLe (copied m) 0 2) = true := ne_true_of_eq_false hr
    simp only [viewSmearCmd, if_neg hp, clampTo_eq_min]
    rfl
  · have ha := hclear.accepted h fun _ => if_pos ⟨hlen, hv⟩
    refine ⟨fun hr => ha.status fun _ => if_pos hr, fun hb hd => ?_⟩
    have hn : ¬ (fld s.dev .view (rdLe (copied m) 0 2) View.tenantsBound ≠ 0 ∨ bindDue s.dev (rdLe (copied m) 0 2) = true) := by
      simp [hb, hd]
    exact ha.ok fun _ => ⟨[], if_neg hn⟩
  · have ha := hpolicy.accepted h fun _ => by simp [leapPolicyCmd, lens, hlen]
    exact ha.effectsReport fun _ => rfl

end Sys2Proof.Machine

/-! R251, R263, R268, R285–R290, R312, R314: the commands of the references, of the GNSS baseband and of the
time-interval unit. -/

namespace Sys2Proof.Machine

open Sys2Proof

/-! ### References -/

section

variable {s : State} {m : Msg}

/-- REF_DISQUALIFY of a reference that is present. -/
theorem refDisqualify_accepted (h : byController s m = true) (hlen : (copied m).length = 4) (hr : rdLe (copied m) 0 1 < 10)
    (hp : refPresent s.dev (rdLe (copied m) 0 1) = true) (hv : rdLe (copied m) 1 1 ≤ 1) : Accepted refDisqualifyCmd s m := by
  have hc : WriteCmd refDisqualifyCmd := writeCmd
  refine hc.accepted h fun _ => ?_
  have h1 : ¬ ((copied m).length ≠ 4 ∨ 10 ≤ rdLe (copied m) 0 1 ∨ 1 < rdLe (copied m) 1 1) := by omega
  exact (if_neg h1).trans (if_neg (ne_false_of_eq_true hp))

/-- A reference that is forced, or released. -/
theorem refDisqualify_forces (h : byController s m = true) (hlen : (copied m).length = 4) (hr : rdLe (copied m) 0 1 < 10)
    (hp : refPresent s.dev (rdLe (copied m) 0 1) = true) {v : Nat} (hv : rdLe (copied m) 1 1 = v) (h1 : v ≤ 1) :
    answers (mailbox refDisqualifyCmd m s) s m
      (plain .ok (recBytes .refStatus (refImage (setFld s.dev .refStatus (rdLe (copied m) 0 1) RefSt.forced v)
        (rdLe (copied m) 0 1))))
      (setFld s.dev .refStatus (rdLe (copied m) 0 1) RefSt.forced v) := by
  subst hv
  exact (refDisqualify_accepted h hlen hr hp h1).ok fun _ => ⟨[], rfl⟩

end

/-- Settles O15: FORCED is the byte of the payload, and a seed is asked for where it may be made. -/
theorem referenceCommands : Obligations.ReferenceCommands := by
  have hseed : WriteCmd seedCmd := writeCmd
  refine fun s m₀ => ⟨fun h hlen hv hr hp => ?_, fun h hlen hv hr hp => ?_, fun h hlen hi => ?_⟩
  · exact refDisqualify_forces h hlen hr hp hv (by decide)
  · exact refDisqualify_forces h hlen hr hp hv (by decide)
  · have ha := hseed.accepted h fun _ => if_pos ⟨hlen, hi⟩
    exact ⟨fun hm => ha.effectsOk fun _ => if_pos hm, fun hm => ha.status fun _ => if_neg (ne_true_of_eq_false hm)⟩

/-! ### The GNSS baseband -/

section

variable {s : State} {m : Msg}

/-- The check of a command that names one antenna, present. -/
theorem oneAntenna_none {x : Ctx} {p : List Byte} {d : Dev} (hlen : p.length = 4) (ha : rdLe p 0 1 < 2)
    (hp : antPresent d (rdLe p 0 1) = true) : oneAntenna false x p d = none := by
  simp [oneAntenna, hlen, hp, ha]

/-- What a survey command shares: read and written by the controller host, with an operation code at an offset. -/
structure SurveyCmd (c : Cmd) (off : Nat) (k : RecKind) (index : List Byte → Nat) (present : Dev → Nat → Bool)
    (dep : Nat → Dep) (resurvey : Dev → Nat → Dev) : Prop where
  eq : ∃ op, c = surveyCmd op off k index present dep resurvey ∧ op / 256 ≠ 0x32

variable {c : Cmd} {off : Nat} {k : RecKind} {index : List Byte → Nat} {present : Dev → Nat → Bool} {dep : Nat → Dep}
  {resurvey : Dev → Nat → Dev}

/-- A survey command with one of its three operations, of a record that is there. -/
theorem SurveyCmd.accepted (hc : SurveyCmd c off k index present dep resurvey) (h : byController s m = true)
    (ho : rdLe (copied m) off 1 ≤ 2) (hi : index (copied m) < 2)
    (hlen : (copied m).length = if rdLe (copied m) off 1 = 1 then 4 + k.bytes else 4)
    (hp : ∀ M, present (inService s.dev M) (index (copied m)) = true) : Accepted c s m := by
  obtain ⟨op, rfl, hop⟩ := hc.eq
  refine ⟨h, admitted_of hop (fun _ => rfl) (by split <;> rfl) (by simp [surveyCmd]), fun M => ?_, noTenant s.dev rfl⟩
  have h1 : ¬ (2 < rdLe (copied m) off 1 ∨ 2 ≤ index (copied m)
      ∨ (copied m).length ≠ if rdLe (copied m) off 1 = 1 then 4 + k.bytes else 4) := by omega
  exact (if_neg h1).trans (if_neg (by simp [hp M]))

theorem SurveyCmd.read (hc : SurveyCmd c off k index present dep resurvey) (a : Accepted c s m)
    (ho : rdLe (copied m) off 1 = 0) :
    answers (mailbox c m s) s m (plain .ok (recBytes k (getRec s.dev k (index (copied m)))))
      (readClear s.dev k (index (copied m))) := by
  obtain ⟨op, rfl, -⟩ := hc.eq
  refine a.ok fun M => ⟨[], ?_⟩
  simp only [surveyCmd, ho, readReply]
  rfl

theorem SurveyCmd.write (hc : SurveyCmd c off k index present dep resurvey) (a : Accepted c s m)
    (ho : rdLe (copied m) off 1 = 1) :
    let req := rdLe (copied m) 4 k.bytes
    let old := getRec s.dev k (index (copied m))
    let v := clampRecord k.fields (dep req) 0 old req
    answers (mailbox c m s) s m (withReport (recBytes k (mergeRw k.fields old v.1)) v.2)
      { s.dev with gnss := { s.dev.gnss with writes := s.dev.gnss.writes ++ [(k, index (copied m), v.1)] } } := by
  obtain ⟨op, rfl, -⟩ := hc.eq
  refine a.report fun M => ⟨[], ?_⟩
  simp only [surveyCmd, ho, getRec_inService]
  rfl

theorem SurveyCmd.anew (hc : SurveyCmd c off k index present dep resurvey) (a : Accepted c s m)
    (ho : rdLe (copied m) off 1 = 2) :
    effects (mailbox c m s) s m (fun d => plain .ok (recBytes k (getRec (resurvey d (index (copied m))) k (index (copied m)))))
      fun d => resurvey d (index (copied m)) := by
  obtain ⟨op, rfl, -⟩ := hc.eq
  refine a.effectsOk fun M => ?_
  simp only [surveyCmd, ho]

end

/-- Settles O16: the ring of measurements is searched, and the survey commands are one command with two records. -/
theorem gnssCommands : Obligations.GnssCommands := by
  have hmeas : ReportCmd gnssMeasCmd := reportCmd
  have hsub : ReportCmd gnssSubframesCmd := reportCmd
  have hrestart : WriteCmd gnssRestartCmd := writeCmd
  have hpos : SurveyCmd gnssPositionCmd _ _ _ _ _ _ := ⟨_, rfl, by decide⟩
  have hbase : SurveyCmd gnssBaselineCmd _ _ _ _ _ _ := ⟨_, rfl, by decide⟩
  refine fun s m₀ => ⟨fun h hlen => ⟨?_, ?_, ?_, ?_, ?_, ?_⟩, fun h hlen ho ha hp => ?_, fun h hlen ho hv => ?_,
    fun h hlen ho ha hp => ?_, fun h hlen ho hv => ?_⟩
  · intro b hb
    refine (hmeas.accepted h fun _ => by simp [gnssMeasCmd, lens, hlen]).status fun M => ?_
    simp only [gnssMeasCmd, inService_gnss, hb]
  · intro hb
    refine (hmeas.accepted h fun _ => by simp [gnssMeasCmd, lens, hlen]).status fun M => ?_
    simp only [gnssMeasCmd, inService_gnss, hb]
  · intro ha hp
    refine (hsub.accepted h fun M => ?_).status fun M => rfl
    have h1 : ¬ ((copied m₀).length ≠ 4 ∨ 48 ≤ rdLe (copied m₀) 0 1) := by omega
    have hp' : antPresent (inService s.dev M) (rdLe (copied m₀) 0 1 / 24) = true := hp
    simp only [gnssSubframesCmd, if_neg h1, hp', Bool.not_true, Bool.false_eq_true, if_false]
  · intro ha hp
    exact (hrestart.accepted h fun _ => oneAntenna_none (x := hostCtx s m₀) hlen ha hp).effectsOk fun _ => rfl
  · intro ha hp ho
    exact hpos.read (hpos.accepted h (by omega) ha (by rw [ho, hlen]; rfl) fun _ => hp) ho
  · intro ho hv
    exact hbase.read (hbase.accepted h (by omega) (by decide) (by rw [ho, hlen]; rfl) fun _ => decide_eq_true hv) ho
  · exact hpos.write (hpos.accepted h (by omega) ha (by rw [ho, hlen]; rfl) fun _ => hp) ho
  · exact hbase.write (hbase.accepted h (by omega) (by decide) (by rw [ho, hlen]; rfl) fun _ => decide_eq_true hv) ho
  · exact hpos.anew (hpos.accepted h (by omega) ha (by rw [ho, hlen]; rfl) fun _ => hp) ho
  · exact hbase.anew (hbase.accepted h (by omega) (by decide) (by rw [ho, hlen]; rfl) fun _ => decide_eq_true hv) ho

/-! ### The time-interval unit -/

theorem setOutRec_inService (d : Dev) (M : MbxState) (o r : Nat) :
    setOutRec (inService d M) o r = inService (setOutRec d o r) M := by
  unfold setOutRec
  split <;> rfl

theorem setOutRec_mbx (d : Dev) (o r : Nat) : (setOutRec d o r).mbx = d.mbx := by
  unfold setOutRec
  split <;> rfl

theorem outRec_inService (d : Dev) (M : MbxState) (o : Nat) : outRec (inService d M) o = outRec d o := rfl

theorem tiuOutput_read {x : Ctx} {p : List Byte} {d : Dev} (h : p.length = 4) :
    tiuOutputCmd.body x p d = .done .ok (leBytes 16 (outImage d (rdLe p 0 1))) []
      (setOutRec d (rdLe p 0 1) (clearRc (outFields (rdLe p 0 1)) (outRec d (rdLe p 0 1)))) := if_pos h

theorem tiuOutput_write {x : Ctx} {p : List Byte} {d : Dev} (h : p.length ≠ 4) :
    let o := rdLe p 0 1
    let v := clampRecord (outFields o) (if o < 4 then ppsDep else foutDep (rdLe p 4 16)) 0 (outRec d o) (rdLe p 4 16)
    tiuOutputCmd.body x p d
      = .done .ok (leBytes 16 (mergeRw (outFields o) (outImage d o) v.1)) v.2 (writeOut d o v.1) := by
  simp only [tiuOutputCmd, if_neg h]

/-- Settles O17: the records taken are the oldest of the queue, and an output's record is one of 16 bytes. -/
theorem timeIntervalCommands : Obligations.TimeIntervalCommands := by
  have hevents : WriteCmd tiuEventsCmd := writeCmd
  refine fun s m h => ⟨fun hlen hr => ?_, fun hlen hr => ?_, fun ho => ?_⟩
  · exact (hevents.accepted h fun _ => by simp [tiuEventsCmd, lens, hlen]).status fun _ => if_pos hr
  · exact (hevents.accepted h fun _ => by simp [tiuEventsCmd, lens, hlen]).report fun _ =>
      ⟨[], if_neg (ne_true_of_eq_false hr)⟩
  · have ha (hlen : (copied m).length = 4 ∨ (copied m).length = 20) : Accepted tiuOutputCmd s m :=
      ⟨h, admitted_of (by decide) (fun _ => rfl) (by split <;> rfl) (by decide), fun _ => if_pos ⟨hlen, ho⟩, noTenant s.dev rfl⟩
    refine ⟨fun hlen => (ha (.inl hlen)).okAt (fun M => ?_) (setOutRec_mbx _ _ _), fun hlen => ?_⟩
    · rw [← setOutRec_inService]
      exact tiuOutput_read hlen
    have hb := fun M => tiuOutput_write (x := hostCtx s m) (p := copied m) (d := inService s.dev M) (by omega)
    simp only [outRec_inService] at hb
    exact (ha (.inr hlen)).effectsReport hb

end Sys2Proof.Machine

/-! The fields of a record: what a field reads after a write of it, and after a write of another. -/

namespace Sys2Proof.Machine

open Sys2Proof

theorem testBit_getF (r : Nat) (f : Fld) (i : Nat) :
    (getF r f).testBit i = (decide (i < Fld.width f) && r.testBit (i + f.lsb)) := by
  rw [getF, Nat.testBit_mod_two_pow, Nat.testBit_div_two_pow]

/-- A write replaces the bits of its field. -/
theorem testBit_setF {f : Fld} (hf : f.lsb ≤ f.msb + 1) (r v i : Nat) :
    (setF r f v).testBit i
      = if f.lsb ≤ i ∧ i ≤ f.msb then v.testBit (i - f.lsb) else r.testBit i := by
  have hw : f.lsb + Fld.width f = f.msb + 1 := by
    unfold Fld.width
    omega
  have hlow : r % 2 ^ f.lsb < 2 ^ f.lsb := Nat.mod_lt _ (Nat.two_pow_pos _)
  have hmid : 2 ^ f.lsb * (v % 2 ^ Fld.width f) + r % 2 ^ f.lsb < 2 ^ (f.msb + 1) := by
    have hv : v % 2 ^ Fld.width f + 1 ≤ 2 ^ Fld.width f := Nat.mod_lt _ (Nat.two_pow_pos _)
    calc 2 ^ f.lsb * (v % 2 ^ Fld.width f) + r % 2 ^ f.lsb
        < 2 ^ f.lsb * (v % 2 ^ Fld.width f) + 2 ^ f.lsb := by omega
      _ = 2 ^ f.lsb * (v % 2 ^ Fld.width f + 1) := (Nat.mul_succ _ _).symm
      _ ≤ 2 ^ f.lsb * 2 ^ Fld.width f := Nat.mul_le_mul_left _ hv
      _ = 2 ^ (f.msb + 1) := by rw [← pow_add, hw]
  have heq : setF r f v
      = 2 ^ (f.msb + 1) * (r / 2 ^ (f.msb + 1)) + (2 ^ f.lsb * (v % 2 ^ Fld.width f) + r % 2 ^ f.lsb) := by
    unfold setF
    omega
  rw [heq, Nat.testBit_two_pow_mul_add _ hmid]
  by_cases hhigh : i < f.msb + 1
  · rw [if_pos hhigh, Nat.testBit_two_pow_mul_add _ hlow]
    by_cases hl : i < f.lsb
    · have hn : ¬ (f.lsb ≤ i ∧ i ≤ f.msb) := by omega
      simp [hl, hn, Nat.testBit_mod_two_pow]
    · have hp : f.lsb ≤ i ∧ i ≤ f.msb := by omega
      have hi : i - f.lsb < Fld.width f := by omega
      simp [hl, hp, hi, Nat.testBit_mod_two_pow]
  · have hn : ¬ (f.lsb ≤ i ∧ i ≤ f.msb) := by omega
    rw [if_neg hhigh, if_neg hn, Nat.testBit_div_two_pow]
    congr 1
    omega

/-- A field of another place reads as before. -/
theorem getF_setF_other {f g : Fld} (hf : f.lsb ≤ f.msb + 1) (h : g.msb < f.lsb ∨ f.msb < g.lsb) (r v : Nat) :
    getF (setF r f v) g = getF r g := by
  refine Nat.eq_of_testBit_eq fun i => ?_
  rw [testBit_getF, testBit_getF, testBit_setF hf]
  by_cases hi : i < Fld.width g
  · have hn : ¬ (f.lsb ≤ i + g.lsb ∧ i + g.lsb ≤ f.msb) := by
      unfold Fld.width at hi
      omega
    rw [if_neg hn]
  · simp [hi]

/-- A field reads what was written, cut to its width. -/
theorem getF_setF_same {f : Fld} (hf : f.lsb ≤ f.msb + 1) (r v : Nat) : getF (setF r f v) f = v % 2 ^ Fld.width f := by
  refine Nat.eq_of_testBit_eq fun i => ?_
  rw [testBit_getF, testBit_setF hf, Nat.testBit_mod_two_pow]
  by_cases hi : i < Fld.width f
  · have hp : f.lsb ≤ i + f.lsb ∧ i + f.lsb ≤ f.msb := by
      unfold Fld.width at hi
      omega
    simp [hp]
  · simp [hi]

section

variable (d : Dev) (k : RecKind) (i : Nat)

theorem fld_setFld_same {f : Fld} (hf : f.lsb ≤ f.msb + 1) (v : Nat) : fld (setFld d k i f v) k i f = v % 2 ^ Fld.width f := by
  rw [fld, getRec_setFld_same, getF_setF_same hf]

theorem fld_setFld_other {f g : Fld} (hf : f.lsb ≤ f.msb + 1) (h : g.msb < f.lsb ∨ f.msb < g.lsb) (v : Nat) :
    fld (setFld d k i f v) k i g = fld d k i g := by
  rw [fld, getRec_setFld_same, getF_setF_other hf h, fld]

theorem fld_setFld_record {l : RecKind} {j : Nat} (h : l.key j ≠ k.key i) (f g : Fld) (v : Nat) :
    fld (setFld d k i f v) l j g = fld d l j g := by
  rw [fld, getRec_setFld_other d k l i j f v h, fld]

end

end Sys2Proof.Machine

/-! R46, R113, R122, R320–R329, R350, R480: the commands of the ports, of control and of the tenants. -/

namespace Sys2Proof.Machine

open Sys2Proof

/-! ### Ports -/

section

variable {x : Ctx} {p : List Byte} {d : Dev}

theorem onePort_none (hlen : p.length = 4) (hi : rdLe p 0 1 < 16) (hs : portStarts d (rdLe p 0 1) = true) :
    onePort x p d = none := by
  simp [onePort, portIdx, idxBelow, hlen, hi, hs]

theorem pauseSettle_none {i : Nat} {goesOn : Bool} (h : (getPort d i).anyPausedFrom = none) : pauseSettle d i goesOn = d := by
  simp only [pauseSettle, h]

theorem laneCount_le (v : Variant) : laneCount v ≤ 16 := by cases v <;> decide

/-- The checks of PORT_RESTART past its length, of a port whose lanes are there. -/
theorem portRestart_check (hlen : p.length = 4) (hi : rdLe p 0 1 < laneCount d.variant) :
    portRestartCmd.check x p d = if octMode d (rdLe p 0 1) = 0 then some .state
      else if !portStarts d (rdLe p 0 1) then some .notPresent else none := by
  have h16 : rdLe p 0 1 < 16 := lt_of_lt_of_le hi (laneCount_le _)
  simp [portRestartCmd, portIdx, idxBelow, hlen, h16, Nat.not_le.2 hi]

end

theorem shimLoop_accepted {s : State} {m : Msg} (h : byController s m = true) (hlen : (copied m).length = 4)
    (hi : rdLe (copied m) 0 1 < 16) (hj : rdLe (copied m) 1 1 < 16) (hs : portStarts s.dev (rdLe (copied m) 0 1) = true)
    (hs' : portStarts s.dev (rdLe (copied m) 1 1) = true) : Accepted shimLoopCmd s m := by
  have hc : WriteCmd shimLoopCmd := writeCmd
  refine hc.accepted h fun M => ?_
  have h1 : ¬ ((copied m).length ≠ 4 ∨ 16 ≤ rdLe (copied m) 0 1 ∨ 16 ≤ rdLe (copied m) 1 1) := by omega
  exact (if_neg h1).trans (if_neg (by simp [hs, hs']))

/-- Settles O18: the counters are read and cleared, and the other two wait or are refused. -/
theorem portCommands : Obligations.PortCommands := by
  have hstats : ReportCmd portStatsCmd := reportCmd
  have hrestart : WriteCmd portRestartCmd := writeCmd
  intro s m h hlen
  refine ⟨fun hi hs => ?_, fun hi hs hp => ?_, fun hi hm hs => ?_, fun hi hm => ?_, fun hi hj hs hs' => ⟨fun hu hu' => ?_, fun hu => ?_⟩⟩
  · exact (hstats.accepted h fun _ => onePort_none (x := hostCtx s m) hlen hi hs).effectsOk fun _ => rfl
  · refine (hstats.accepted h fun _ => onePort_none (x := hostCtx s m) hlen hi hs).okAt fun M => ?_
    have hp' : (getPort (inService s.dev M) (rdLe (copied m) 0 1)).anyPausedFrom = none := hp
    simp only [portStatsCmd, pauseSettle_none hp']
    rfl
  · refine (hrestart.accepted h fun M => ?_).waitsAt fun M => rfl
    rw [portRestart_check (d := inService s.dev M) hlen hi]
    exact (if_neg hm).trans (if_neg (by simp [hs]))
  · refine answers_refused h (hrestart.admitted (opAbsent_other _ _ (by decide))) (by decide) (by decide) fun M => ?_
    rw [portRestart_check (d := inService s.dev M) hlen hi]
    exact if_pos hm
  · have hn : ¬ ((!linkUp s.dev (rdLe (copied m) 0 1)) = true ∨ (!linkUp s.dev (rdLe (copied m) 1 1)) = true) := by
      simp [hu, hu']
    exact (shimLoop_accepted h hlen hi hj hs hs').waitsAt fun M => if_neg hn
  · have hn : (!linkUp s.dev (rdLe (copied m) 0 1)) = true ∨ (!linkUp s.dev (rdLe (copied m) 1 1)) = true := by
      simpa using hu
    exact (shimLoop_accepted h hlen hi hj hs hs').status fun M => if_pos hn

/-! ### Requests of a host that need not be the controller -/

section

variable {s : State} {m : Msg} {c : Cmd}

/-- A PF acting as the host of its endpoint holds the rights of the P column. -/
theorem allowed_host (h : ready s m = true) (c : Cmd) (M : MbxState)
    (hp : (if c.isWrite (copied m) then c.writeBy else c.readBy).contains .p = true) :
    c.allowed (hostCtx s m) (copied m) (inService s.dev M) = c.admits (hostCtx s m) (copied m) (inService s.dev M) true := by
  obtain ⟨-, -, -, -, -, -, -, -, -, -, -, -, -, hv, -⟩ := ready_facts h
  have hany : (if c.isWrite (copied m) then c.writeBy else c.readBy).any
      (fun w => (hostCtx s m).holds (inService s.dev M) (c.tenant (copied m)) w) = true :=
    List.any_eq_true.2 ⟨.p, by simpa using hp, by simp [Ctx.holds, Ctx.asHost, Ctx.isPf, hostCtx, hv]⟩
  have hact : (hostCtx s m).acting = none := rfl
  simp only [Cmd.allowed, hact, hany, Bool.true_and]

/-- A ready request that any life-cycle state serves, which takes no lock and names no tenant. -/
theorem answers_host (h : ready s m = true) {st : Status} {pl : List Byte} {e : Dev}
    (hp : (if c.isWrite (copied m) then c.writeBy else c.readBy).contains .p = true)
    (hadm : ∀ M, c.admits (hostCtx s m) (copied m) (inService s.dev M) true = true)
    (hcheck : ∀ M, c.check (hostCtx s m) (copied m) (inService s.dev M) = none)
    (hb : ∀ M, c.body (hostCtx s m) (copied m) (inService s.dev M) = .done st pl [] (inService e M))
    (hm : e.mbx = s.dev.mbx := by rfl) (hop : c.op / 256 ≠ 0x32 := by decide) (hcls : c.cls (copied m) = .all := by rfl)
    (hl : c.locks (copied m) = [] := by rfl) (hn : c.tenant (copied m) = none := by rfl)
    (hst : st ≠ .clamped := by decide) : answers (mailbox c m s) s m (plain st pl) e := by
  have hrun (M : MbxState) (hM : M.locks = []) :
      runCmd c (hostCtx s m) (copied m) (inService s.dev M) = .done st pl [] (inService e { M with locks := [] }) := by
    rw [runCmd_plain c _ _ _ (hcheck M) hl (by rw [hcls]; rfl) (noTenant _ hn), takeLocks_nil, hb M, ← hM]
  have := mailbox_done h c st pl [] e (opAbsent_other _ _ hop) (fun M => (allowed_host h c M hp).trans (hadm M)) hm
    fun M hM => ⟨[], [], by simp, hrun M hM⟩
  simpa [hst] using this

/-- A ready request that its requester may not make (check 4 of R345). -/
theorem answers_denied (h : ready s m = true) (hop : opAbsent s.dev.variant c.op = false)
    (hal : ∀ M, c.allowed (hostCtx s m) (copied m) (inService s.dev M) = false) :
    answers (mailbox c m s) s m (plain .denied []) s.dev := by
  obtain ⟨hon, -, -, -, -, -, -, -, -, hhead, -, -, -, -, hact⟩ := ready_facts h
  obtain ⟨M, po, hl, -, -, hbt, -, hdoors, hmes⟩ := message_ready h c.op (some c)
  have hfi : m.fragIndex.toNat = 0 := by
    obtain ⟨-, -, -, -, -, -, -, -, -, -, ht, -, -, -, -⟩ := ready_facts h
    simp only [headerOk, Bool.and_eq_true, decide_eq_true_eq] at hhead
    omega
  have hcheck : earlyCheck { fresh s.dev with mbx := M } (some c) c.op m po.bt = some .denied := by
    have hv : actingValid { fresh s.dev with mbx := M } m = true := by simp [actingValid, hact]
    simp only [earlyCheck, hhead, hfi, hv, hbt, ctxOf_ready h, Bool.not_true, Bool.false_eq_true, ne_eq, not_true_eq_false,
      or_self, ite_false]
    exact (if_neg (ne_true_of_eq_false hop)).trans (if_pos (congrArg Bool.not (hal M)))
  refine ⟨{ s with dev := respond (inService s.dev M) c.op m .denied [] [] }, ?_, rfl, ?_, ?_⟩
  · unfold mailbox whenOn withDev
    have hon' : (fresh s.dev).pwr.aonUp = true := hon
    simp only [hon', ite_true, hmes, serveNew, hcheck]
    rfl
  · exact respond_answer _ _ _ _ _ _ _
  · have hM : M = { M with locks := [] } := by rw [← hl]
    refine butDoor_respond ?_ _ _ _ _
    rw [hM]
    exact butDoor_effect [] [] hdoors rfl (by simp)

end

/-! ### Control -/

section

variable {x : Ctx} {p : List Byte} {d : Dev}

theorem keepalive_other (h : x.ep ≠ controllerEp d) :
    let left : Nat := if d.host.lapseRuns then (lapseBt d - (d.bt - d.host.lapseFrom)) * btNs d else 0
    keepaliveCmd.body x p d = .done .ok (leBytes 1 (controllerEp d) ++ leBytes 1 0 ++ leBytes 1 (b2n (lapsed d))
      ++ leBytes 1 0 ++ leBytes 4 (roundFree ((left : Rat) / 1000000)).toNat ++ leBytes 8 d.bt) [] d := by
  simp only [keepaliveCmd, h, decide_false, Bool.false_eq_true, if_false]
  rfl

theorem controllerEp_setFld_lapsed (d : Dev) (v : Nat) : controllerEp (setFld d .controller 0 Ctl.lapsed v) = controllerEp d :=
  fld_setFld_other d .controller 0 (by decide) (by decide) v

theorem keepalive_own (h : x.ep = controllerEp d) :
    let e := restartLapse (setFld d .controller 0 Ctl.lapsed 0)
    keepaliveCmd.body x p d = .done .ok (leBytes 1 (controllerEp d) ++ leBytes 1 1 ++ leBytes 1 (b2n (lapsed d))
      ++ leBytes 1 0 ++ leBytes 4 (roundFree (((lapseBt e * btNs e : Nat) : Rat) / 1000000)).toNat ++ leBytes 8 d.bt) [] e := by
  have hr : (restartLapse (setFld d .controller 0 Ctl.lapsed 0)).host.lapseRuns = true := rfl
  have hage : (restartLapse (setFld d .controller 0 Ctl.lapsed 0)).bt
      - (restartLapse (setFld d .controller 0 Ctl.lapsed 0)).host.lapseFrom = 0 := Nat.sub_self d.bt
  have hc : controllerEp (restartLapse (setFld d .controller 0 Ctl.lapsed 0)) = controllerEp d := controllerEp_setFld_lapsed d 0
  simp only [keepaliveCmd, h, decide_true, if_true, hr, hage, Nat.sub_zero, hc]
  rfl

theorem controlClaim_state (h : x.ep = controllerEp d ∨ lapsed d = false) :
    controlClaimCmd.body x p d = .done .state [] [] d := if_pos h

theorem controlClaim_defers (h : x.ep ≠ controllerEp d) (hl : lapsed d = true) :
    controlClaimCmd.body x p d = .done .ok (controllerBytes d) [] (defer d (.control x.ep)) :=
  if_neg (by simp [h, hl])

end

theorem byController_ep {s : State} {m : Msg} (h : byController s m = true) : m.fn.ep.val = controllerEp s.dev := by
  simp only [byController, Bool.and_eq_true, decide_eq_true_eq] at h
  exact h.1.2

/-- Settles O19: the requester's endpoint and the nominations decide, and the rest is due at the next edge. -/
theorem controlCommands : Obligations.ControlCommands := by
  have hrelease : WriteCmd controlReleaseCmd := writeCmd
  refine fun s m => ⟨fun h hp hne => ?_, fun h hp => ⟨?_, ?_⟩, fun h hp hne hnom => ⟨fun hl => ?_, fun hl => ?_⟩,
    fun h hlen he => ?_⟩
  · refine answers_host h rfl (fun _ => rfl) (fun _ => by rw [hp]; rfl) fun M => ?_
    exact keepalive_other (x := hostCtx s m) (d := inService s.dev M) hne
  · have hr := byController_ready h
    have hown := byController_ep h
    refine answers_host hr rfl (fun _ => rfl) (fun _ => by rw [hp]; rfl) fun M => ?_
    exact keepalive_own (x := hostCtx s m) (d := inService s.dev M) hown
  · have hr := byController_ready h
    have hown := byController_ep h
    cases hnom : nominated s.dev m.fn.ep.val with
    | true =>
      refine answers_host hr rfl (fun _ => hnom) (fun _ => by rw [hp]; rfl) fun M => ?_
      exact controlClaim_state (x := hostCtx s m) (d := inService s.dev M) (.inl hown)
    | false =>
      refine answers_denied hr (opAbsent_other _ _ (by decide)) fun M => ?_
      exact (allowed_host hr _ M rfl).trans hnom
  · refine answers_host h rfl (fun _ => hnom) (fun _ => by rw [hp]; rfl) fun M => ?_
    exact controlClaim_defers (x := hostCtx s m) (d := inService s.dev M) hne hl
  · refine answers_host h rfl (fun _ => hnom) (fun _ => by rw [hp]; rfl) fun M => ?_
    exact controlClaim_state (x := hostCtx s m) (d := inService s.dev M) (.inr hl)
  · have ha := hrelease.accepted h fun _ => if_pos ⟨hlen, he⟩
    refine ⟨fun hne hnom => ?_, fun hr => ha.status fun _ => if_pos hr⟩
    have hn : ¬ (rdLe (copied m) 0 1 = controllerEp s.dev ∨ nominated s.dev (rdLe (copied m) 0 1) = false) := by
      simp [hne, hnom]
    exact ha.okAt fun _ => if_neg hn

/-! ### Tenants -/

section

variable {s : State} {m : Msg} {c : Cmd}

/-- A write outside NTS of a tenant that is not RETIRING. -/
theorem WriteCmd.acceptedTenant (hc : WriteCmd c) (h : Machine.byController s m = true)
    (hcheck : ∀ M, c.check (hostCtx s m) (copied m) (inService s.dev M) = none)
    (ht : tenantState s.dev (rdLe (copied m) 0 2) ≠ 2) (hop : c.op / 256 ≠ 0x32 := by decide)
    (hn : c.tenant = tenantAt 0 := by rfl) : Accepted c s m := by
  refine ⟨h, hc.admitted (opAbsent_other _ _ hop), hcheck, fun t htn => ?_⟩
  rw [hn] at htn
  rwa [tenantAt_some htn]

end

section

variable {x : Ctx} {p : List Byte} {d : Dev}

theorem tenantBound_of_state {t : Nat} (h : tenantState d t = 1) : tenantBound d t = true := decide_eq_true h

theorem tenantBound_of_unbound {t : Nat} (h : tenantState d t = 0) : tenantBound d t = false := by
  simp [tenantBound, h]

theorem tenantView_waits {n : Nat} (hn : applyEdge d (rdLe p 4 8) = some n) (hb : tenantBound d (rdLe p 0 2) = true)
    (hv : flag d .view (rdLe p 2 2) View.created = true) :
    tenantViewCmd.body x p d = .wait .edge (deferAt d n (.tenantView (rdLe p 0 2) (rdLe p 2 2) x.fn x.door)) := by
  simp only [tenantViewCmd, hn, hb, hv, Bool.true_eq_false, or_self, if_false]

theorem tenantRetire_waits {n : Nat} (hn : applyEdge d (rdLe p 4 8) = some n) (hb : tenantBound d (rdLe p 0 2) = true) :
    tenantRetireCmd.body x p d = .wait .edge (deferAt d n (.retire (rdLe p 0 2) x.fn x.door)) := by
  simp only [tenantRetireCmd, hn, hb, Bool.true_eq_false, if_false]

/-- An unbound tenant takes no view and is not retired. -/
theorem unbound_state (hb : tenantBound d (rdLe p 0 2) = false) :
    tenantViewCmd.body x p d = .done .state [] [] d ∧ tenantRetireCmd.body x p d = .done .state [] [] d := by
  simp only [tenantViewCmd, tenantRetireCmd, hb, true_or, if_true]
  exact ⟨by split <;> rfl, by split <;> rfl⟩

end

/-- Settles O20: a bind is due where nothing stands against it, and the others want the tenant bound. -/
theorem tenantCommands : Obligations.TenantCommands := by
  have hbind : WriteCmd tenantBindCmd := writeCmd
  have hview : WriteCmd tenantViewCmd := writeCmd
  have hretire : WriteCmd tenantRetireCmd := writeCmd
  have hevents : WriteCmd tenantEventsCmd := writeCmd
  intro s m h p t a n ht
  have hidx : tenantIdx (copied m) = true := decide_eq_true ht
  refine ⟨fun hlen h0 he hv hw hvf hfree hcr hpend => ?_, fun hlen h1 he hv hw => ?_, fun hlen h1 hap => ⟨fun hw hcr => ?_, ?_⟩,
    fun hlen h1 => ?_, fun h0 => ⟨fun hlen => ⟨fun hw => ?_, ?_⟩, fun hlen => ?_⟩⟩
  · have hn : ¬ (tenantState s.dev t ≠ 0 ∨ fld s.dev .endpoint (rdLe p 2 1) Ep.totalVfsActive ≤ rdLe p 4 2
        ∨ (vfTenant s.dev (rdLe p 2 1) (rdLe p 4 2)).isSome ∨ flag s.dev .view (rdLe p 6 2) View.created = false
        ∨ bindPending s.dev t (rdLe p 2 1) (rdLe p 4 2) (rdLe p 6 2) = true) := by
      simp [h0, hvf, hfree, hcr, hpend]
    exact (hbind.acceptedTenant h (fun _ => if_pos ⟨hlen, hidx, he, hv, hw⟩) (by rw [h0]; decide)).okAt fun _ => if_neg hn
  · have hr : tenantState s.dev t ≠ 0 := by rw [h1]; decide
    exact (hbind.acceptedTenant h (fun _ => if_pos ⟨hlen, hidx, he, hv, hw⟩) (by rw [h1]; decide)).status fun _ => if_pos (.inl hr)
  · have hn := applyEdge_named s.dev hap
    refine (hview.acceptedTenant h (fun _ => if_pos ⟨hlen, hidx, hw⟩) (by rw [h1]; decide)).waitsAt fun M => ?_
    exact tenantView_waits (d := inService s.dev M) hn (tenantBound_of_state h1) hcr
  · have hn := applyEdge_named s.dev hap
    refine (hretire.acceptedTenant h (fun _ => if_pos ⟨hlen, hidx⟩) (by rw [h1]; decide)).waitsAt fun M => ?_
    exact tenantRetire_waits (d := inService s.dev M) hn (tenantBound_of_state h1)
  · have hr : tenantState s.dev t ≠ 0 := by rw [h1]; decide
    exact (hevents.acceptedTenant h (fun _ => if_pos ⟨hlen, hidx⟩) (by rw [h1]; decide)).okAt fun _ => if_neg hr
  · refine (hview.acceptedTenant h (fun _ => if_pos ⟨hlen, hidx, hw⟩) (by rw [h0]; decide)).status fun M => ?_
    exact (unbound_state (d := inService s.dev M) (tenantBound_of_unbound h0)).1
  · refine (hretire.acceptedTenant h (fun _ => if_pos ⟨hlen, hidx⟩) (by rw [h0]; decide)).status fun M => ?_
    exact (unbound_state (d := inService s.dev M) (tenantBound_of_unbound h0)).2
  · exact (hevents.acceptedTenant h (fun _ => if_pos ⟨hlen, hidx⟩) (by rw [h0]; decide)).status fun _ => if_pos h0

end Sys2Proof.Machine

/-! R168, R188, R235, R352: the statistics of the doors, the address table, the client table and the PTP grants. -/

namespace Sys2Proof.Machine

open Sys2Proof

/-! ### A command whose rights are its own -/

/-- A ready request, admitted by its command, whose body answers OK: its effect, from the device as the request was
taken. -/
theorem effects_ready {s : State} {m : Msg} (h : ready s m = true) (c : Cmd) (pl : Dev → List Byte) (f : Dev → Dev)
    (hop : opAbsent s.dev.variant c.op = false)
    (hal : ∀ M, c.allowed (hostCtx s m) (copied m) (inService s.dev M) = true)
    (hrun : ∀ M, M.locks = [] → runCmd c (hostCtx s m) (copied m) (inService s.dev M)
      = .done .ok (pl (inService s.dev M)) [] (f (inService s.dev M))) :
    effects (mailbox c m s) s m (fun d => plain .ok (pl d)) f := by
  obtain ⟨hon, -⟩ := ready_facts h
  obtain ⟨M, po, hl, -, -, hbt, -, hdoors, hmes⟩ := message_ready h c.op (some c)
  have hserve : serveNew { fresh s.dev with mbx := M } (some c) c.op m po
      = respond (f (inService s.dev M)) c.op m .ok (pl (inService s.dev M)) [] := by
    have hrun' : runCmd c (hostCtx s m) (copied m) { fresh s.dev with mbx := M }
        = .done .ok (pl (inService s.dev M)) [] (f (inService s.dev M)) := hrun M hl
    rw [serveNew_ready h c { fresh s.dev with mbx := M } po hbt hop (hal M)]
    simp only [runWhole, hbt, ctxOf_ready h, hrun']
  refine ⟨M, { s with dev := respond (f (inService s.dev M)) c.op m .ok (pl (inService s.dev M)) [] },
    ⟨hdoors, by simp [hl]⟩, ?_, rfl, ?_, butDoor_respond (butDoor_refl _ m) _ _ _ _⟩
  · unfold mailbox whenOn withDev
    have hon' : (fresh s.dev).pwr.aonUp = true := hon
    simp only [hon', ite_true, hmes, hserve]
  · exact respond_answer _ _ _ _ _ _ _

/-! ### Door statistics -/

section

variable {s : State} {m : Msg}

theorem hostCtx_holds_controller (h : byController s m = true) (t : Option Nat) (M : MbxState) :
    (hostCtx s m).holds (inService s.dev M) t .c = true := by
  obtain ⟨-, -, -, -, -, -, -, -, -, -, -, -, -, hv, -⟩ := ready_facts (byController_ready h)
  have hep : m.fn.ep.val = controllerEp (inService s.dev M) := byController_ep h
  simp [Ctx.holds, Ctx.asHost, Ctx.isPf, hostCtx, hv, Ctx.controls, Ctx.ep, hep]

theorem hostCtx_isPf (h : ready s m = true) : (hostCtx s m).isPf = true := by
  obtain ⟨-, -, -, -, -, -, -, -, -, -, -, -, -, hv, -⟩ := ready_facts h
  simp [Ctx.isPf, hostCtx, hv]

/-- DOOR_STATS of a function there is, asked for by the controller host. -/
theorem doorStats_effects (h : byController s m = true) (hlen : (copied m).length = 4) (he : rdLe (copied m) 0 1 ≤ 3)
    (hv : rdLe (copied m) 2 2 = 0xFFFF ∨ rdLe (copied m) 2 2 < fld s.dev .endpoint (rdLe (copied m) 0 1) Ep.totalVfsActive)
    {pl : Dev → List Byte} {f : Dev → Dev} (hb : ∀ x d, doorStatsCmd.body x (copied m) d = .done .ok (pl d) [] (f d)) :
    effects (mailbox doorStatsCmd m s) s m (fun d => plain .ok (pl d)) f := by
  refine effects_ready (byController_ready h) doorStatsCmd pl f (opAbsent_other _ _ (by decide)) (fun M => ?_) fun M hl => ?_
  · have hpf := hostCtx_isPf (byController_ready h)
    have hc := hostCtx_holds_controller h none M
    simp only [Cmd.allowed, doorStatsCmd, hpf, if_true, hc, Bool.true_or, Bool.and_true]
    split <;> simp_all
  · have hcheck : doorStatsCmd.check (hostCtx s m) (copied m) (inService s.dev M) = none := by
      have h1 : ¬ (3 < rdLe (copied m) 0 1 ∨ (rdLe (copied m) 2 2 ≠ 0xFFFF
          ∧ fld s.dev .endpoint (rdLe (copied m) 0 1) Ep.totalVfsActive ≤ rdLe (copied m) 2 2)) := by omega
      exact (if_neg (not_not.2 hlen)).trans (if_neg h1)
    rw [runCmd_plain doorStatsCmd _ _ _ hcheck rfl rfl (noTenant _ rfl), takeLocks_nil]
    exact hb _ _

/-! ### The address table -/

theorem addrEntry_read {x : Ctx} {p : List Byte} {d : Dev} (hw : recordIsWrite 4 p = false) :
    addrEntryCmd.body x p d = .done .ok (recBytes .addrEntry (getRec d .addrEntry (rdLe p 0 4))) [] d := by
  simp only [addrEntryCmd, hw, Bool.false_eq_true, if_false, readReply]

/-- An address entry as a write's payload leaves it. -/
def addrWritten (d : Dev) (p : List Byte) : Nat × List ClampEntry :=
  clampRecord addrFields (addrDep d (carried 4 .addrEntry p)) 0 (getRec d .addrEntry (rdLe p 0 4)) (carried 4 .addrEntry p)

theorem addrWritten_inService (d : Dev) (M : MbxState) (p : List Byte) :
    addrWritten (inService d M) p = addrWritten d p := rfl

theorem entriesSoon_inService (d : Dev) (M : MbxState) : entriesSoon (inService d M) = inService (entriesSoon d) M :=
  foldl_inService (fun d M e => by split <;> rfl) d.atEdge d M

theorem conflictOf_inService (d : Dev) (M : MbxState) (i v : Nat) : conflictOf (inService d M) i v = conflictOf d i v := by
  unfold conflictOf
  rw [entriesSoon_inService]
  rfl

/-- A released entry, or one of a bound tenant with which no other conflicts, is written. -/
theorem addrEntry_writes {x : Ctx} {p : List Byte} {d : Dev} (hw : recordIsWrite 4 p = true)
    (h : getF (addrWritten d p).1 Addr.family = 0 ∨ (tenantBound d (getF (addrWritten d p).1 Addr.tenant) = true
      ∧ conflictOf d (rdLe p 0 4) (addrWritten d p).1 = none)) :
    addrEntryCmd.body x p d = .done .ok (recBytes .addrEntry (addrWritten d p).1) (addrWritten d p).2
      (defer d (.write .addrEntry (rdLe p 0 4) (addrWritten d p).1)) := by
  unfold addrWritten at *
  simp only [addrEntryCmd, hw, if_true]
  obtain h0 | ⟨hb, hc⟩ := h
  · rw [if_pos h0]
  · simp only [hb, hc, Bool.not_true, Bool.false_eq_true, if_false, ite_self]

theorem addrEntry_unbound {x : Ctx} {p : List Byte} {d : Dev} (hw : recordIsWrite 4 p = true)
    (h0 : getF (addrWritten d p).1 Addr.family ≠ 0) (hb : tenantBound d (getF (addrWritten d p).1 Addr.tenant) = false) :
    addrEntryCmd.body x p d = .done .state [] [] d := by
  unfold addrWritten at *
  simp only [addrEntryCmd, hw, if_true, if_neg h0, hb, Bool.not_false]

theorem addrEntry_conflicts {x : Ctx} {p : List Byte} {d : Dev} {j : Nat} (hw : recordIsWrite 4 p = true)
    (h0 : getF (addrWritten d p).1 Addr.family ≠ 0) (hb : tenantBound d (getF (addrWritten d p).1 Addr.tenant) = true)
    (hc : conflictOf d (rdLe p 0 4) (addrWritten d p).1 = some j) :
    addrEntryCmd.body x p d = .done .state (leBytes 4 j) [] d := by
  unfold addrWritten at *
  simp only [addrEntryCmd, hw, if_true, if_neg h0, hb, Bool.not_true, Bool.false_eq_true, if_false, hc]

theorem addrEntry_isWrite {p : List Byte} (hlen : p.length = 4 + RecKind.addrEntry.bytes) : recordIsWrite 4 p = true := by
  have := RecKind.bytes_pos .addrEntry
  simp [recordIsWrite, idxLen, hlen]
  omega

/-- A command of the address table with a payload of one of its lengths. -/
theorem addrEntry_accepted (h : byController s m = true)
    (hlen : (copied m).length = 4 ∨ (copied m).length = 4 + RecKind.addrEntry.bytes) (hi : rdLe (copied m) 0 4 < 131072) :
    Accepted addrEntryCmd s m := by
  have hok : recordLenOk 4 .addrEntry (copied m) = true := by simpa [recordLenOk, idxLen] using hlen
  exact ⟨h, admitted_of (by decide) (fun _ => rfl) (by split <;> rfl) (by decide), fun _ => if_pos ⟨hok, hi⟩, noTenant s.dev rfl⟩

end

/-! ### The client table and the grants -/

/-- The device with its client and grant tables empty. -/
def flushed (d : Dev) : Dev := { clearClients d with ptp := { (clearClients d).ptp with grants := [] } }

theorem ctFlush_body (x : Ctx) (p : List Byte) (d : Dev) (M : MbxState) :
    ctFlushCmd.body x p (inService d M) = .done .ok (leBytes 8 d.bt) [] (inService (flushed d) M) := rfl

theorem ptpGrants_check {x : Ctx} {p : List Byte} {d : Dev} (hlen : p.length = 4)
    (ht : rdLe p 0 2 < 4096 ∨ rdLe p 0 2 = 0xFFFF) : ptpGrantsCmd.check x p d = none :=
  if_pos ⟨hlen, ht.imp_left fun h => decide_eq_true h⟩

/-- PTP_GRANTS from a PF's host. -/
theorem ptpGrants_accepted {s : State} {m : Msg} (h : byController s m = true) (hlen : (copied m).length = 4)
    (ht : (rdLe (copied m) 0 2 < 4096 ∧ tenantState s.dev (rdLe (copied m) 0 2) ≠ 2) ∨ rdLe (copied m) 0 2 = 0xFFFF) :
    Accepted ptpGrantsCmd s m := by
  have hhost : (hostCtx s m).asHost = true := by
    have hpf := hostCtx_isPf (byController_ready h)
    simp only [Ctx.asHost, hpf, Bool.true_and]
    rfl
  refine ⟨h, admitted_of (by decide) (fun M => ?_) rfl (by decide), fun M => ptpGrants_check hlen (ht.imp_left And.left),
    fun t htn => ?_⟩
  · simp [ptpGrantsCmd, hhost]
  · obtain ⟨hlt, hr⟩ | hall := ht
    · have htn' : tenantAt 0 (copied m) = some t := by simpa [ptpGrantsCmd, hlt] using htn
      rwa [tenantAt_some htn']
    · simp [ptpGrantsCmd, hall] at htn

/-- Settles O21: each command reads its table, and changes it where it may. -/
theorem tableCommands : Obligations.TableCommands := by
  intro s m h
  refine ⟨fun hlen he hv => ?_, fun hlen he hv hne => ?_, fun hlen hi => ?_, fun hlen hi => ⟨fun hok => ?_, fun h0 hb => ?_,
    fun h0 hb j hc => ?_⟩, fun hp => ⟨flushed s.dev, ?_, rfl, rfl, rfl, rfl, rfl⟩, fun hlen => ⟨fun ht hr => ?_, fun hall => ?_⟩⟩
  · refine doorStats_effects h hlen he (.inl hv) fun x d => ?_
    simp only [doorStatsCmd, hv, if_true]
    rfl
  · refine doorStats_effects h hlen he (.inr hv) fun x d => ?_
    simp only [doorStatsCmd, if_neg hne]
    rfl
  · have hw : recordIsWrite 4 (copied m) = false := by simp [recordIsWrite, idxLen, hlen]
    exact (addrEntry_accepted h (.inl hlen) hi).status fun M => addrEntry_read (d := inService s.dev M) hw
  · refine (addrEntry_accepted h (.inr hlen) hi).reportAt fun M => ?_
    exact addrEntry_writes (d := inService s.dev M) (addrEntry_isWrite hlen)
      (by rw [addrWritten_inService, conflictOf_inService]; exact hok)
  · exact (addrEntry_accepted h (.inr hlen) hi).status fun M => addrEntry_unbound (d := inService s.dev M) (addrEntry_isWrite hlen) h0 hb
  · refine (addrEntry_accepted h (.inr hlen) hi).status fun M => ?_
    exact addrEntry_conflicts (d := inService s.dev M) (addrEntry_isWrite hlen) h0 hb
      (by rw [addrWritten_inService, conflictOf_inService]; exact hc)
  · have hc : WriteCmd ctFlushCmd := writeCmd
    exact (hc.accepted h fun _ => by rw [hp]; rfl).okAt fun M => ctFlush_body _ _ s.dev M
  · refine (ptpGrants_accepted h hlen (.inl ⟨ht, hr⟩)).status fun M => ?_
    have hne : rdLe (copied m) 0 2 ≠ 0xFFFF := by omega
    simp only [ptpGrantsCmd, hne, decide_false, Bool.false_or]
    rfl
  · refine (ptpGrants_accepted h hlen (.inr hall)).status fun M => ?_
    simp only [ptpGrantsCmd, hall, decide_true, Bool.true_or, List.filter_true]
    rfl

end Sys2Proof.Machine

/-! R216–R225: the commands of a tenant's key ring, and NTS_MINT. -/

namespace Sys2Proof.Machine

open Sys2Proof

/-! ### The key ring -/

theorem applyEdge_not_named (d : Dev) {n : Nat} (h : ¬ (n = 0 ∨ (d.bt + 2 ≤ n ∧ n ≤ d.bt + 100000000))) : applyEdge d n = none :=
  applyEdge_none d (by omega)

/-- A write of a key ring, of a tenant that is not RETIRING. -/
theorem WriteCmd.acceptedNts {s : State} {m : Msg} {c : Cmd} (hc : WriteCmd c) (h : Machine.byController s m = true)
    (hv : s.dev.variant ≠ .e) (hcheck : ∀ M, c.check (hostCtx s m) (copied m) (inService s.dev M) = none)
    (ht : tenantState s.dev (rdLe (copied m) 0 2) ≠ 2) (hn : c.tenant = tenantAt 0 := by rfl) : Accepted c s m := by
  refine ⟨h, hc.admitted (opAbsent_variant hv _), hcheck, fun t htn => ?_⟩
  rw [hn] at htn
  rwa [tenantAt_some htn]

section

variable {x : Ctx} {p : List Byte} {d : Dev} {n : Nat}

theorem tenantLen_none {k : Nat} (hlen : p.length = k) (ht : rdLe p 0 2 < 4096) : tenantLen k x p d = none :=
  if_pos ⟨hlen, decide_eq_true ht⟩

/-- A command of a key ring whose payload has one length. -/
theorem WriteCmd.acceptedRing {s : State} {m : Msg} {c : Cmd} {k : Nat} (hc : WriteCmd c) (h : Machine.byController s m = true)
    (hv : s.dev.variant ≠ .e) (hlen : (copied m).length = k) (ht : rdLe (copied m) 0 2 < 4096)
    (hr : tenantState s.dev (rdLe (copied m) 0 2) ≠ 2) (hcheck : c.check = tenantLen k := by rfl)
    (hn : c.tenant = tenantAt 0 := by rfl) : Accepted c s m :=
  hc.acceptedNts h hv (fun M => by rw [hcheck]; exact tenantLen_none hlen ht) hr hn

/-- The payload of an install is that of its origin. -/
theorem installCheck_none (ht : rdLe p 0 2 < 4096) (hlen : p.length = 12 ∨ (12 ≤ p.length ∧ rdLe p 2 1 = 1))
    (ho : rdLe p 2 1 ≤ 1) : installCheck x p d = none := by
  have hidx : tenantIdx p = true := decide_eq_true ht
  refine if_neg ?_
  rw [hidx]
  simp only [Bool.not_true, Bool.false_eq_true, false_or]
  omega

theorem install_generates (hn : applyEdge d (rdLe p 4 8) = some n) (ho : rdLe p 2 1 = 0)
    (hr : ringPending d (rdLe p 0 2) = false) (hw : d.key.rngWithheld = false) :
    installBody x p d = atRoleEdge (draw d).2 n (.install (rdLe p 0 2) 0 0 (Config.freeValue d.free % 2 ^ 256) false x.fn x.door) := by
  simp only [installBody, hn, ho, hr, hw, if_true, Bool.false_eq_true, or_self, if_false]
  rfl

theorem install_state (h : applyEdge d (rdLe p 4 8) = none
    ∨ (rdLe p 2 1 = 0 ∧ (ringPending d (rdLe p 0 2) = true ∨ d.key.rngWithheld = true))) :
    installBody x p d = .done .state [] [] d := by
  unfold installBody
  obtain hn | ⟨ho, hr⟩ := h
  · simp only [hn]
  · simp only [ho, if_true, if_pos hr]
    split <;> rfl

theorem install_imports (hn : applyEdge d (rdLe p 4 8) = some n) (ho : rdLe p 2 1 = 1) {key id : Nat}
    (hi : importCheck d (rdLe p 0 2) (p.drop 12) = .inr (key, id)) :
    installBody x p d = atRoleEdge d n (.install (rdLe p 0 2) id 1 key false x.fn x.door) := by
  simp only [installBody, hn, ho, hi, one_ne_zero, if_false]

theorem install_refuses (hn : applyEdge d (rdLe p 4 8) = some n) (ho : rdLe p 2 1 = 1) {st : Status} {r : Nat}
    (hi : importCheck d (rdLe p 0 2) (p.drop 12) = .inl (st, r)) :
    installBody x p d = .done st (ringBytes d (rdLe p 0 2) ++ reasonTail r) [] d := by
  simp only [installBody, hn, ho, hi, one_ne_zero, if_false]

/-- An import that fails a check is DENIED or completes with STATE. -/
theorem importCheck_status {t : Nat} {b : List Byte} {st : Status} {r : Nat} (h : importCheck d t b = .inl (st, r)) :
    st = .denied ∨ st = .state := by
  unfold importCheck at h
  split at h
  · cases h
    exact .inl rfl
  · split at h
    · cases h
      exact .inl rfl
    · split at h
      · cases h
        exact .inl rfl
      · split at h
        · cases h
          exact .inl rfl
        · split at h
          · cases h
            exact .inl rfl
          · dsimp only at h
            split at h
            · cases h
              exact .inr rfl
            · split at h
              · cases h
                exact .inr rfl
              · cases h

theorem promote_waits (hn : applyEdge d (rdLe p 8 8) = some n) (hid : (ringIds d (rdLe p 0 2)).contains (rdLe p 4 4) = true)
    (h0 : rdLe p 4 4 ≠ 0) :
    ntsKeyPromoteCmd.body x p d = atRoleEdge d n (.promote (rdLe p 0 2) (rdLe p 4 4) x.fn x.door) := by
  simp only [ntsKeyPromoteCmd, svcWrite, hn, hid, h0, Bool.not_true, Bool.false_eq_true, or_self, if_false]

theorem promote_state (h : applyEdge d (rdLe p 8 8) = none ∨ (ringIds d (rdLe p 0 2)).contains (rdLe p 4 4) = false
    ∨ rdLe p 4 4 = 0) : ntsKeyPromoteCmd.body x p d = .done .state [] [] d := by
  simp only [ntsKeyPromoteCmd, svcWrite]
  obtain hn | hid := h
  · simp only [hn]
  · split
    · rfl
    · rw [if_pos (by simpa using hid)]

theorem rotate_waits (hn : applyEdge d (rdLe p 4 8) = some n) (hr : ringPending d (rdLe p 0 2) = false)
    (hw : d.key.rngWithheld = false) : ntsKeyRotateCmd.body x p d
      = atRoleEdge (draw d).2 n (.install (rdLe p 0 2) 0 0 (Config.freeValue d.free % 2 ^ 256) true x.fn x.door) := by
  simp only [ntsKeyRotateCmd, svcWrite, hn, hr, hw, Bool.false_eq_true, or_self, if_false]
  rfl

theorem rotate_state (h : applyEdge d (rdLe p 4 8) = none ∨ d.key.rngWithheld = true ∨ ringPending d (rdLe p 0 2) = true) :
    ntsKeyRotateCmd.body x p d = .done .state [] [] d := by
  simp only [ntsKeyRotateCmd, svcWrite]
  obtain hn | hr := h
  · simp only [hn]
  · split
    · rfl
    · rw [if_pos hr.symm]

theorem clear_waits (hn : applyEdge d (rdLe p 4 8) = some n) :
    ntsKeyClearCmd.body x p d = atRoleEdge d n (.clear (rdLe p 0 2) (some (x.fn, x.door))) := by
  simp only [ntsKeyClearCmd, svcWrite, hn]

theorem clear_state (hn : applyEdge d (rdLe p 4 8) = none) : ntsKeyClearCmd.body x p d = .done .state [] [] d := by
  simp only [ntsKeyClearCmd, svcWrite, hn]

theorem export_ok {wk k : Nat} (hw : wrapKey d = some wk) (hk : sampleFind (ringSample d (rdLe p 0 2)) (rdLe p 4 4) = some k) :
    ntsKeyExportCmd.body x p d
      = .done .ok (exportBlob d (rdLe p 0 2) k wk).1 [] (exportBlob d (rdLe p 0 2) k wk).2 := by
  simp only [ntsKeyExportCmd, svcWrite, hw, hk]

theorem export_state (h : wrapKey d = none ∨ sampleFind (ringSample d (rdLe p 0 2)) (rdLe p 4 4) = none) :
    ntsKeyExportCmd.body x p d = .done .state [] [] d := by
  simp only [ntsKeyExportCmd, svcWrite]
  obtain hw | hk := h
  · simp only [hw]
  · rw [hk]
    cases wrapKey d <;> rfl

end

section

variable {s : State} {m : Msg} {c : Cmd} {n : Nat} {op : RoleEdge}

/-- A change of a ring that waits for its edge. -/
theorem waits_roleEdge (a : Accepted c s m)
    (hb : ∀ M, c.body (hostCtx s m) (copied m) (inService s.dev M) = atRoleEdge (inService s.dev M) n op) :
    waits (mailbox c m s) s m .edge
      { s.dev with free := s.dev.free + 0, nts := { s.dev.nts with edges := s.dev.nts.edges ++ [(n, op)] } } :=
  a.waitsAt hb

/-- One for which a key is drawn. -/
theorem waits_drawnEdge (a : Accepted c s m)
    (hb : ∀ M, c.body (hostCtx s m) (copied m) (inService s.dev M) = atRoleEdge (draw (inService s.dev M)).2 n op) :
    waits (mailbox c m s) s m .edge
      { s.dev with free := s.dev.free + 1, nts := { s.dev.nts with edges := s.dev.nts.edges ++ [(n, op)] } } :=
  a.waitsAt hb

end

theorem importCheck_inService (d : Dev) (M : MbxState) (t : Nat) (b : List Byte) :
    importCheck (inService d M) t b = importCheck d t b := rfl

theorem ringBytes_inService (d : Dev) (M : MbxState) (t : Nat) : ringBytes (inService d M) t = ringBytes d t := rfl

section

variable {s : State} {m : Msg} {n : Nat}

theorem install_accepted (h : byController s m = true) (hv : s.dev.variant ≠ .e) (ht : rdLe (copied m) 0 2 < 4096)
    (hlen : (copied m).length = 12 ∨ (12 ≤ (copied m).length ∧ rdLe (copied m) 2 1 = 1)) (ho : rdLe (copied m) 2 1 ≤ 1)
    (hr : tenantState s.dev (rdLe (copied m) 0 2) ≠ 2) : Accepted ntsKeyInstallCmd s m := by
  have hc : WriteCmd ntsKeyInstallCmd := writeCmd
  exact hc.acceptedNts h hv (fun M => installCheck_none (x := hostCtx s m) (d := inService s.dev M) ht hlen ho) hr

/-- An install of a free key (R216). -/
theorem keyInstall_generates (ha : Accepted ntsKeyInstallCmd s m) (ho : rdLe (copied m) 2 1 = 0)
    (hn : applyEdge s.dev (rdLe (copied m) 4 8) = some n) (hr : ringPending s.dev (rdLe (copied m) 0 2) = false)
    (hw : s.dev.key.rngWithheld = false) :
    waits (mailbox ntsKeyInstallCmd m s) s m .edge
      { s.dev with
        free := s.dev.free + 1
        nts := { s.dev.nts with edges := s.dev.nts.edges ++ [(n, .install (rdLe (copied m) 0 2) 0 0
          (Config.freeValue s.dev.free % 2 ^ 256) false m.fn m.door.val)] } } :=
  waits_drawnEdge ha fun M => install_generates (d := inService s.dev M) hn ho hr hw

/-- An install of an imported key (R223). -/
theorem keyInstall_imports (ha : Accepted ntsKeyInstallCmd s m) (ho : rdLe (copied m) 2 1 = 1)
    (hn : applyEdge s.dev (rdLe (copied m) 4 8) = some n) {key id : Nat}
    (hi : importCheck s.dev (rdLe (copied m) 0 2) ((copied m).drop 12) = .inr (key, id)) :
    waits (mailbox ntsKeyInstallCmd m s) s m .edge
      { s.dev with
        free := s.dev.free + 0
        nts := { s.dev.nts with edges := s.dev.nts.edges ++ [(n, .install (rdLe (copied m) 0 2) id 1 key false m.fn m.door.val)] } } :=
  waits_roleEdge ha fun M => install_imports (d := inService s.dev M) hn ho ((importCheck_inService s.dev M _ _).trans hi)

theorem keyInstall_refuses (ha : Accepted ntsKeyInstallCmd s m) (ho : rdLe (copied m) 2 1 = 1)
    (hn : applyEdge s.dev (rdLe (copied m) 4 8) = some n) {st : Status} {r : Nat}
    (hi : importCheck s.dev (rdLe (copied m) 0 2) ((copied m).drop 12) = .inl (st, r)) :
    answers (mailbox ntsKeyInstallCmd m s) s m (plain st (ringBytes s.dev (rdLe (copied m) 0 2) ++ reasonTail r)) s.dev := by
  refine ha.status (fun M => ?_) (by obtain rfl | rfl := importCheck_status hi <;> decide)
  rw [← ringBytes_inService s.dev M]
  exact install_refuses (d := inService s.dev M) hn ho ((importCheck_inService s.dev M _ _).trans hi)

theorem keyInstall_state (ha : Accepted ntsKeyInstallCmd s m) (h : applyEdge s.dev (rdLe (copied m) 4 8) = none
    ∨ (rdLe (copied m) 2 1 = 0 ∧ (ringPending s.dev (rdLe (copied m) 0 2) = true ∨ s.dev.key.rngWithheld = true))) :
    answers (mailbox ntsKeyInstallCmd m s) s m (plain .state []) s.dev :=
  ha.status fun M => install_state (d := inService s.dev M) h

/-- A rotation to a free key (R218). -/
theorem keyRotate_waits (ha : Accepted ntsKeyRotateCmd s m)
    (hn : applyEdge s.dev (rdLe (copied m) 4 8) = some n) (hr : ringPending s.dev (rdLe (copied m) 0 2) = false)
    (hw : s.dev.key.rngWithheld = false) :
    waits (mailbox ntsKeyRotateCmd m s) s m .edge
      { s.dev with
        free := s.dev.free + 1
        nts := { s.dev.nts with edges := s.dev.nts.edges ++ [(n, .install (rdLe (copied m) 0 2) 0 0
          (Config.freeValue s.dev.free % 2 ^ 256) true m.fn m.door.val)] } } :=
  waits_drawnEdge ha fun M => rotate_waits (d := inService s.dev M) hn hr hw

end

/-! ### NTS_MINT -/

theorem RecKind.key_ne {k l : RecKind} {i j : Nat} (h : k.code ≠ l.code) (hi : i < 2 ^ 24) (hj : j < 2 ^ 24) :
    l.key j ≠ k.key i := by
  unfold RecKind.key
  omega

/-- What a wake leaves as it was: the variant, the clock, the key store, and every record but the nodes' own. -/
structure WakeKeeps (d e : Dev) : Prop where
  variant : e.variant = d.variant
  bt : e.bt = d.bt
  key : e.key = d.key
  recs : ∀ (l : RecKind) j, RecKind.nodeStatus.code ≠ l.code → j < 2 ^ 24 → getRec e l j = getRec d l j

namespace WakeKeeps

theorem refl (d : Dev) : WakeKeeps d d := ⟨rfl, rfl, rfl, fun _ _ _ _ => rfl⟩

theorem trans {a b c : Dev} (h : WakeKeeps a b) (g : WakeKeeps b c) : WakeKeeps a c where
  variant := g.variant.trans h.variant
  bt := g.bt.trans h.bt
  key := g.key.trans h.key
  recs l j hl hj := (g.recs l j hl hj).trans (h.recs l j hl hj)

theorem of_counted {d e : Dev} (h : Counted d e) : WakeKeeps d e := by
  obtain ⟨_, _, _, _, rfl⟩ := h
  exact ⟨rfl, rfl, rfl, fun _ _ _ _ => rfl⟩

theorem setPower (d : Dev) {c : Nat} (hc : c < 2 ^ 24) (v : Nat) : WakeKeeps d (Machine.setPower d c v) :=
  ⟨rfl, rfl, rfl, fun l j hl hj => getRec_setFld_other d .nodeStatus l c j _ v (RecKind.key_ne hl hc hj)⟩

theorem retentionExit (d : Dev) : WakeKeeps d (Machine.retentionExit d) := by
  unfold Machine.retentionExit
  split
  · split
    · exact refl d
    · dsimp only
      split <;> exact ⟨rfl, rfl, rfl, fun _ _ _ _ => rfl⟩
  · exact refl d

theorem startWake (d : Dev) {c : Nat} (hc : c < 2 ^ 24) (logic : Bool) : WakeKeeps d (Machine.startWake d c logic) := by
  unfold Machine.startWake
  dsimp only
  split
  · exact ((of_counted (settleSome_counted d [c])).trans ((setPower _ hc 3).trans
      (of_counted (setNode_counted _ c _)))).trans (retentionExit _)
  · split
    · exact of_counted (setNode_counted d c _)
    · exact refl d

theorem foldl {f : Dev → Nat → Dev} (hf : ∀ d n, n < 2 ^ 24 → WakeKeeps d (f d n)) (ns : List Nat) (hn : ∀ n ∈ ns, n < 2 ^ 24)
    (d : Dev) : WakeKeeps d (ns.foldl f d) := by
  induction ns generalizing d with
  | nil => exact refl d
  | cons n ns ih =>
    exact (hf d n (hn n List.mem_cons_self)).trans (ih (fun k hk => hn k (List.mem_cons_of_mem _ hk)) _)

theorem countNest (d : Dev) (c k n : Nat) : WakeKeeps d (Machine.countNest d c k n) := by
  unfold Machine.countNest countNode
  split
  · exact refl d
  · split
    · exact refl d
    · exact of_counted (bumpCtr_counted d _ n)

end WakeKeeps

theorem parentOf_lt {a b : Nat} (h : parentOf a = some b) : b < 149 := by
  unfold parentOf at h
  split at h
  · cases h
    omega
  · split at h
    · cases h
      omega
    · split at h
      · cases h
        decide
      · cases h

theorem lineage_lt {c n : Nat} (hc : c < 149) (h : n ∈ lineage c) : n < 149 := by
  unfold lineage at h
  split at h
  · obtain rfl := List.mem_singleton.1 h
    exact hc
  · next p hp =>
    have hp := parentOf_lt hp
    split at h
    · simp only [List.mem_cons, List.not_mem_nil, or_false] at h
      omega
    · next q hq =>
      have hq := parentOf_lt hq
      split at h
      · simp only [List.mem_cons, List.not_mem_nil, or_false] at h
        omega
      · next r hr =>
        have hr := parentOf_lt hr
        simp only [List.mem_cons, List.not_mem_nil, or_false] at h
        omega

theorem nodesPresent_lt {v : Variant} {n : Nat} (h : n ∈ nodesPresent v) : n < 149 :=
  List.mem_range.1 (List.mem_filter.1 h).1

theorem subtree_lt {d : Dev} {c n : Nat} (hc : c < 149) (h : n ∈ subtree d c) : n < 149 := by
  obtain rfl | h := List.mem_cons.1 h
  · exact hc
  · exact nodesPresent_lt (List.mem_filter.1 h).1

theorem wakeRequest_keeps (d : Dev) {c : Nat} (hc : c < 149) : WakeKeeps d (wakeRequest d c) := by
  unfold wakeRequest
  split
  · exact .refl d
  · split
    · exact .countNest d c 11 1
    · refine ((WakeKeeps.countNest d c 11 1).trans (.foldl (fun d n hn => .startWake d hn true) _ (fun n hn => ?_) _)).trans
        (.foldl (fun d n hn => ?_) _ (fun n hn => ?_) _)
      · exact (lineage_lt hc (List.mem_of_mem_drop hn)).trans (by decide)
      · split
        · exact .refl d
        · exact .startWake d hn false
      · exact (subtree_lt hc hn).trans (by decide)

/-- The nests present are those of a level-1 nest's code. -/
theorem mintNest_lt {d : Dev} {t nest : Nat} (h : mintNest d t = some nest) : nest < 149 := by
  unfold mintNest at h
  split at h
  · cases h
  · split at h
    · cases h
      omega
    · split at h
      · cases h
        omega
      · exact nodesPresent_lt (List.mem_of_find?_eq_some h)

/-- Only the clock and the records of the array and of the device say how long a wake may take. -/
theorem WakeKeeps.wakeLimit {d e : Dev} (h : WakeKeeps d e) : wakeLimit e = wakeLimit d := by
  have ha : getRec e .array 0 = getRec d .array 0 := h.recs .array 0 (by decide) (by decide)
  have hd : getRec e .device 0 = getRec d .device 0 := h.recs .device 0 (by decide) (by decide)
  simp only [Machine.wakeLimit, btNs, fld, ha, hd]

/-- The key ring is not what a wake changes. -/
theorem WakeKeeps.ringEntry {d e : Dev} (h : WakeKeeps d e) {t j : Nat} (hi : ringSlot t j < 2 ^ 24) :
    ringEntry e t j = ringEntry d t j := h.recs .keyRing _ (by decide) hi

theorem WakeKeeps.masterKey {d e : Dev} (h : WakeKeeps d e) (t j : Nat) : masterKey e t j = masterKey d t j := by
  simp only [Machine.masterKey, h.key]

theorem sampleMint_lt {d : Dev} {t j : Nat} (h : sampleMint (ringSample d t) = some j) : j < 3 := by
  obtain ⟨hj, -⟩ := List.findIdx?_eq_some_iff_getElem.1 h
  simpa [ringSample] using hj

section

variable {x : Ctx} {p : List Byte} {d : Dev}

theorem mint_denied (hx : x.vfTenant = none) (hr : tenantState d (rdLe p 0 2) ≠ 2)
    (h : algKey (rdLe p 2 2) = none ∨ bit (fld d .nts (rdLe p 0 2) Nts.algMask) (algBit (rdLe p 2 2)) = false) :
    ntsMintCmd.body x p d = .done .denied [] [] d := by
  have hc : (algKey (rdLe p 2 2)).isNone = true ∨ (!bit (fld d .nts (rdLe p 0 2) Nts.algMask) (algBit (rdLe p 2 2))) = true := by
    simpa using h
  simp only [ntsMintCmd, mintBody, mintTenant, hx, if_neg hr, if_pos hc]

theorem mint_state (hx : x.vfTenant = none) (hr : tenantState d (rdLe p 0 2) ≠ 2) {k : Nat} (hk : algKey (rdLe p 2 2) = some k)
    (hb : bit (fld d .nts (rdLe p 0 2) Nts.algMask) (algBit (rdLe p 2 2)) = true)
    (h : sampleMint (ringSample d (rdLe p 0 2)) = none ∨ mintNest d (rdLe p 0 2) = none) :
    ntsMintCmd.body x p d = .done .state [] [] d := by
  simp only [ntsMintCmd, mintBody, mintTenant, hx, if_neg hr, hk, hb, Option.isNone_some, Bool.not_true, Bool.false_eq_true,
    or_self, if_false]
  obtain hj | hn := h
  · simp only [hj]
  · rw [hn]
    cases sampleMint (ringSample d (rdLe p 0 2)) <;> rfl

/-- A mint waits for its jobs with the key as it stands when the request is taken, and its nest is asked to wake (R225). -/
theorem mint_waits (hx : x.vfTenant = none) (hr : tenantState d (rdLe p 0 2) ≠ 2) {k : Nat} (hk : algKey (rdLe p 2 2) = some k)
    (hb : bit (fld d .nts (rdLe p 0 2) Nts.algMask) (algBit (rdLe p 2 2)) = true) (ht : rdLe p 0 2 < 4096) {j nest : Nat}
    (hj : sampleMint (ringSample d (rdLe p 0 2)) = some j) (hn : mintNest d (rdLe p 0 2) = some nest) :
    ntsMintCmd.body x p d
      = .wait (.mint nest (d.bt + wakeLimit d) (getF (ringEntry d (rdLe p 0 2) j) KeyR.keyId)
          (ofBe (masterKey d (rdLe p 0 2) j)) (mintCount p).1 []) (if power d = 1 then wakeRequest d nest else d) := by
  have hk' : WakeKeeps d (if power d = 1 then wakeRequest d nest else d) := by
    split
    · exact wakeRequest_keeps d (mintNest_lt hn)
    · exact .refl d
  have hslot : ringSlot (rdLe p 0 2) j < 2 ^ 24 := by
    have := sampleMint_lt hj
    unfold ringSlot
    omega
  simp only [ntsMintCmd, mintBody, mintTenant, hx, if_neg hr, hk, hb, Option.isNone_some, Bool.not_true, Bool.false_eq_true,
    or_self, if_false, hj, hn, hk'.bt, hk'.wakeLimit, hk'.ringEntry hslot, hk'.masterKey]

end

/-- An NTS_MINT of the controller host with a payload of its algorithm's length. -/
theorem ntsMint_accepted {s : State} {m : Msg} (h : byController s m = true) (hv : s.dev.variant ≠ .e)
    (ht : rdLe (copied m) 0 2 < 4096) (hlen : (algKey (rdLe (copied m) 2 2) = none ∧ 8 ≤ (copied m).length)
      ∨ ∃ k, algKey (rdLe (copied m) 2 2) = some k ∧ (copied m).length = 8 + 2 * k) : Accepted ntsMintCmd s m := by
  have hpf := hostCtx_isPf (byController_ready h)
  refine ⟨h, ⟨opAbsent_variant hv _, fun M => ?_, .inl rfl, by decide⟩, fun M => ?_, noTenant s.dev rfl⟩
  · have hc := hostCtx_holds_controller h (some (mintTenant (hostCtx s m) (copied m))) M
    simp only [ntsMintCmd, mintAdmits, hpf, if_true, hc, Bool.true_or, Bool.and_true]
    rfl
  · have hidx : tenantIdx (copied m) = true := decide_eq_true ht
    have h8 : ¬ ((copied m).length < 8 ∨ (hostCtx s m).isPf = true ∧ tenantIdx (copied m) = false) := by
      rw [hidx]
      obtain ⟨-, hl⟩ | ⟨k, -, hl⟩ := hlen <;> simp <;> omega
    simp only [ntsMintCmd, mintCheck, if_neg h8]
    obtain ⟨hk, -⟩ | ⟨k, hk, hl⟩ := hlen
    · simp only [hk]
    · simp only [hk, hl, if_true]

/-- Settles O22: an edge that may be named decides first, then what each command asks of the ring. -/
theorem ntsKeyCommands : Obligations.NtsKeyCommands := by
  have hpromote : WriteCmd ntsKeyPromoteCmd := writeCmd
  have hrotate : WriteCmd ntsKeyRotateCmd := writeCmd
  have hclear : WriteCmd ntsKeyClearCmd := writeCmd
  have hexport : WriteCmd ntsKeyExportCmd := writeCmd
  refine ⟨fun s m₀ hv => ⟨?_, ?_, ?_, ?_, ?_⟩, fun s m h hv ht hr => ⟨fun hk hlen => ?_, fun k hk hlen => ⟨fun hb => ?_,
    fun hb => ⟨fun j nest hj hn => ?_, fun hno => ?_⟩⟩⟩⟩
  · rintro m t ⟨h, hlen, ht, hr⟩ ho
    have ha := install_accepted h hv ht (.inl hlen) (by omega) hr
    exact ⟨fun hn hw hp => keyInstall_generates ha ho (applyEdge_named s.dev hn) hp hw,
      fun hno => keyInstall_state ha (hno.imp (applyEdge_not_named s.dev) fun hno => ⟨ho, hno.symm⟩)⟩
  · rintro m t ⟨h, hlen, ht, hr⟩ ho
    have ha := install_accepted h hv ht (.inr ⟨hlen, ho⟩) (by omega) hr
    exact ⟨fun hn => ⟨fun key id hi => keyInstall_imports ha ho (applyEdge_named s.dev hn) hi,
      fun st r hi => keyInstall_refuses ha ho (applyEdge_named s.dev hn) hi⟩,
      fun hn => keyInstall_state ha (.inl (applyEdge_not_named s.dev hn))⟩
  · rintro ⟨h, hlen, ht, hr⟩
    have ha := hpromote.acceptedRing h hv hlen ht hr
    refine ⟨fun hn hid h0 => waits_roleEdge ha fun M => ?_, fun hno => ha.status fun M => ?_⟩
    · exact promote_waits (d := inService s.dev M) (applyEdge_named s.dev hn) hid h0
    · exact promote_state (d := inService s.dev M) (hno.imp_left (applyEdge_not_named s.dev))
  · rintro ⟨h, hlen, ht, hr⟩
    have ha := hrotate.acceptedRing h hv hlen ht hr
    have hb := hclear.acceptedRing h hv hlen ht hr
    refine ⟨fun hn => ⟨fun hw hp => keyRotate_waits ha (applyEdge_named s.dev hn) hp hw, waits_roleEdge hb fun M => ?_⟩,
      fun hno => ha.status fun M => ?_, fun hn => hb.status fun M => ?_⟩
    · exact clear_waits (d := inService s.dev M) (applyEdge_named s.dev hn)
    · exact rotate_state (d := inService s.dev M) (hno.imp_left (applyEdge_not_named s.dev))
    · exact clear_state (d := inService s.dev M) (applyEdge_not_named s.dev hn)
  · rintro ⟨h, hlen, ht, hr⟩
    have ha := hexport.acceptedRing h hv hlen ht hr
    refine ⟨fun wk k hw hk => ha.okAt fun M => ?_, fun hno => ha.status fun M => ?_⟩
    · exact export_ok (d := inService s.dev M) hw hk
    · exact export_state (d := inService s.dev M) hno
  · exact (ntsMint_accepted h hv ht (.inl ⟨hk, hlen⟩)).status fun M => mint_denied (d := inService s.dev M) rfl hr (.inl hk)
  · exact (ntsMint_accepted h hv ht (.inr ⟨k, hk, hlen⟩)).status fun M => mint_denied (d := inService s.dev M) rfl hr (.inr hb)
  · exact (ntsMint_accepted h hv ht (.inr ⟨k, hk, hlen⟩)).delays fun M =>
      mint_waits (d := inService s.dev M) rfl hr hk hb ht hj hn
  · exact (ntsMint_accepted h hv ht (.inr ⟨k, hk, hlen⟩)).status fun M =>
      mint_state (d := inService s.dev M) rfl hr hk hb hno

end Sys2Proof.Machine

/-! R23, R24, R156, R157, R163, R166: the commands of the nodes and of the programs of the array. -/

namespace Sys2Proof.Machine

open Sys2Proof

/-! ### NODE_POWER -/

section

variable {x : Ctx} {p : List Byte} {d : Dev}

/-- What NODE_POWER answers of a node (R163). -/
def nodePowerReport (d : Dev) (c : Nat) : List Byte := leBytes 8 d.bt ++ leBytes 4 (nodePower d c)

/-- A node gated by command, with its descendants (R23, R163). -/
def gatedByCommand (d : Dev) (c : Nat) : Dev :=
  let d₁ := gateRequest d c false
  let d₂ := (subtree d₁ c).foldl (fun d n => setFld d .nodeFlags n NodeFl.listenGated 0) d₁
  let d₃ := setFld d₂ .nodeFlags c NodeFl.cmdGated 1
  nodeEvent (if power d₃ = 0 then requeue d₃ (subtree d₃ c) else d₃) c

/-- A node woken by command (R24, R163). -/
def wokenByCommand (d : Dev) (c : Nat) : Dev :=
  let e := wakeRequest (setFld d .nodeFlags c NodeFl.cmdGated 0) c
  if flag d .nodeFlags c NodeFl.cmdGated then nodeEvent e c else e

/-- A door that waits for the end of an ancestor's reset. -/
def joinsReset (x : Ctx) (d : Dev) (a c : Nat) : Dev :=
  setNode d a { getNode d a with doors := (getNode d a).doors ++ [⟨x.fn, x.door, some (d.bt, c)⟩] }

/-- The nearest ancestor of a node in reset. -/
def ancestorInReset (d : Dev) (c : Nat) : Option Nat := (properAncestors c).find? fun a => decide (nodeReset d a = 1)

theorem ancestorInReset_none {c : Nat} (h : ∀ a ∈ properAncestors c, nodeReset d a ≠ 1) : ancestorInReset d c = none :=
  List.find?_eq_none.2 fun a ha => by simpa using h a ha

/-- Some ancestor of a node is GATED. -/
def underGated (d : Dev) (c : Nat) : Bool := (properAncestors c).any fun a => decide (nodePower d a = 2)

theorem underGated_false {c : Nat} (h : ∀ a ∈ properAncestors c, nodePower d a ≠ 2) : underGated d c = false := by
  simpa [underGated] using h

theorem underGated_true {a c : Nat} (h : a ∈ properAncestors c) (hg : nodePower d a = 2) : underGated d c = true :=
  List.any_eq_true.2 ⟨a, h, decide_eq_true hg⟩

theorem nodePowerCmd_body : nodePowerCmd.body = nodePowerBody := rfl

theorem nodePower_joins {a : Nat} (hr : ancestorInReset d (nodeArg p) = some a)
    (hn : ¬(rdLe p 2 1 = 1 ∧ underGated d (nodeArg p) = true)) :
    nodePowerBody x p d = .wait .edge (joinsReset x d a (nodeArg p)) := by
  unfold ancestorInReset at hr
  unfold underGated at hn
  simp only [nodePowerBody, hr, if_neg hn, joinsReset]

theorem nodePower_gates (hr : ancestorInReset d (nodeArg p) = none) (hg : underGated d (nodeArg p) = false)
    (h0 : rdLe p 2 1 = 0) : nodePowerBody x p d
      = .done .ok (nodePowerReport (gatedByCommand d (nodeArg p)) (nodeArg p)) [] (gatedByCommand d (nodeArg p)) := by
  unfold ancestorInReset at hr
  unfold underGated at hg
  simp only [nodePowerBody, hr, hg, if_pos h0, Bool.false_eq_true, if_false, nodePowerReport, gatedByCommand]

theorem nodePower_wakes (hr : ancestorInReset d (nodeArg p) = none) (hg : underGated d (nodeArg p) = false)
    (h1 : rdLe p 2 1 = 1) : nodePowerBody x p d
      = .done .ok (nodePowerReport (wokenByCommand d (nodeArg p)) (nodeArg p)) [] (wokenByCommand d (nodeArg p)) := by
  have h0 : ¬ rdLe p 2 1 = 0 := by omega
  unfold ancestorInReset at hr
  unfold underGated at hg
  simp only [nodePowerBody, hr, hg, if_neg h0, Bool.false_eq_true, if_false, nodePowerReport, wokenByCommand]

/-- Under a GATED ancestor a gate answers and does nothing. -/
theorem nodePower_gate_idle (hr : ancestorInReset d (nodeArg p) = none) (hg : underGated d (nodeArg p) = true)
    (h0 : rdLe p 2 1 = 0) : nodePowerBody x p d = .done .ok (nodePowerReport d (nodeArg p)) [] d := by
  unfold ancestorInReset at hr
  unfold underGated at hg
  simp only [nodePowerBody, hr, hg, if_pos h0, if_true, nodePowerReport]

/-- Under a GATED ancestor a wake is refused. -/
theorem nodePower_wake_state (hg : underGated d (nodeArg p) = true) (h1 : rdLe p 2 1 = 1) :
    nodePowerBody x p d = .done .state [] [] d := by
  have h0 : ¬ rdLe p 2 1 = 0 := by omega
  unfold underGated at hg
  simp only [nodePowerBody, hg, h1, and_self, if_true, one_ne_zero, if_false]
  split <;> rfl

end

section

variable {s : State} {m : Msg}

theorem nodeArgPresent_inService (M : MbxState) (p : List Byte) :
    nodeArgPresent (inService s.dev M) p = nodeArgPresent s.dev p := rfl

theorem nodePower_accepted (h : byController s m = true) (hlen : (copied m).length = 4) (hset : nodeInSet (copied m) = true)
    (hpres : nodeArgPresent s.dev (copied m) = true) (h1 : rdLe (copied m) 2 1 ≤ 1) : Accepted nodePowerCmd s m := by
  have hc : WriteCmd nodePowerCmd := writeCmd
  refine hc.accepted h fun M => ?_
  have hn : ¬ ((copied m).length ≠ 4 ∨ (!nodeInSet (copied m)) = true ∨ 1 < rdLe (copied m) 2 1) := by simp [hlen, hset, h1]
  exact (if_neg hn).trans (if_neg (by simp [nodeArgPresent_inService, hpres]))

/-- NODE_POWER GATE of a message that carries it. -/
theorem nodePower_gate (ha : Accepted nodePowerCmd s m) (h0 : rdLe (copied m) 2 1 = 0) :
    ((∀ a ∈ properAncestors (nodeArg (copied m)), nodeReset s.dev a ≠ 1) →
      ((∀ a ∈ properAncestors (nodeArg (copied m)), nodePower s.dev a ≠ 2) →
        effects (mailbox nodePowerCmd m s) s m
          (fun d => plain .ok (nodePowerReport (gatedByCommand d (nodeArg (copied m))) (nodeArg (copied m))))
          (fun d => gatedByCommand d (nodeArg (copied m))))
      ∧ (∀ a ∈ properAncestors (nodeArg (copied m)), nodePower s.dev a = 2 →
        answers (mailbox nodePowerCmd m s) s m (plain .ok (nodePowerReport s.dev (nodeArg (copied m)))) s.dev))
    ∧ (∀ a, ancestorInReset s.dev (nodeArg (copied m)) = some a →
      waits (mailbox nodePowerCmd m s) s m .edge (joinsReset (hostCtx s m) s.dev a (nodeArg (copied m)))) := by
  refine ⟨fun hr => ⟨fun hg => ha.effectsOk fun M => ?_, fun a hmem hg => ha.status fun M => ?_⟩,
    fun a hr => ha.waitsAt fun M => ?_⟩
  · rw [nodePowerCmd_body]
    exact nodePower_gates (d := inService s.dev M) (ancestorInReset_none hr) (underGated_false hg) h0
  · rw [nodePowerCmd_body]
    exact nodePower_gate_idle (d := inService s.dev M) (ancestorInReset_none hr) (underGated_true hmem hg) h0
  · rw [nodePowerCmd_body]
    exact nodePower_joins (d := inService s.dev M) hr fun hn => by omega

/-- NODE_POWER UNGATE of a message that carries it. -/
theorem nodePower_ungate (ha : Accepted nodePowerCmd s m) (h1 : rdLe (copied m) 2 1 = 1) :
    ((∀ a ∈ properAncestors (nodeArg (copied m)), nodeReset s.dev a ≠ 1 ∧ nodePower s.dev a ≠ 2) →
      effects (mailbox nodePowerCmd m s) s m
        (fun d => plain .ok (nodePowerReport (wokenByCommand d (nodeArg (copied m))) (nodeArg (copied m))))
        (fun d => wokenByCommand d (nodeArg (copied m))))
    ∧ (∀ a ∈ properAncestors (nodeArg (copied m)), nodePower s.dev a = 2 →
      answers (mailbox nodePowerCmd m s) s m (plain .state []) s.dev)
    ∧ (∀ a, ancestorInReset s.dev (nodeArg (copied m)) = some a →
      (∀ a ∈ properAncestors (nodeArg (copied m)), nodePower s.dev a ≠ 2) →
      waits (mailbox nodePowerCmd m s) s m .edge (joinsReset (hostCtx s m) s.dev a (nodeArg (copied m)))) := by
  refine ⟨fun h => ha.effectsOk fun M => ?_, fun a hmem hg => ha.status fun M => ?_, fun a hr hg => ha.waitsAt fun M => ?_⟩
  · rw [nodePowerCmd_body]
    exact nodePower_wakes (d := inService s.dev M) (ancestorInReset_none fun a ha => (h a ha).1)
      (underGated_false fun a ha => (h a ha).2) h1
  · rw [nodePowerCmd_body]
    exact nodePower_wake_state (d := inService s.dev M) (underGated_true hmem hg) h1
  · rw [nodePowerCmd_body]
    refine nodePower_joins (d := inService s.dev M) hr fun hn => ?_
    have hu := underGated_false hg
    exact absurd (hu.symm.trans hn.2) (by decide)

end

/-! ### NODE_RESET and the programs of the array -/

section

variable {x : Ctx} {p : List Byte} {d : Dev}

theorem jigActivate_waits {n : Nat} (hn : applyEdge d (rdLe p 0 8) = some n) (hs : d.arr.staged.isSome = true)
    (ho : nestsOn d = true) :
    jigActivateCmd.body x p d = .wait .edge (deferAt d n (.jigSwap x.fn x.door)) := by
  obtain ⟨y, hy⟩ := Option.isSome_iff_exists.1 hs
  simp only [jigActivateCmd, hn, hy, ho, Option.isNone_some, Bool.not_true, Bool.false_eq_true, or_self, if_false]

theorem jigActivate_state (h : applyEdge d (rdLe p 0 8) = none ∨ d.arr.staged = none ∨ nestsOn d = false) :
    jigActivateCmd.body x p d = .done .state [] [] d := by
  simp only [jigActivateCmd]
  split
  next n hn =>
    have hr : d.arr.staged.isNone = true ∨ (!nestsOn d) = true := by
      obtain h | h | h := h
      · simp [hn] at h
      · simp [h]
      · simp [h]
    exact if_pos hr
  next => rfl

end

/-- Settles O23: the ancestors of a node decide on its NODE_POWER, and the other three wait or are refused. -/
theorem arrayCommands : Obligations.ArrayCommands := by
  have hreset : WriteCmd nodeResetCmd := writeCmd
  have hupload : WriteCmd jigUploadCmd := writeCmd
  have hactivate : WriteCmd jigActivateCmd := writeCmd
  intro s m₀
  refine ⟨?_, ?_, fun ⟨h, hlen, hset, hpres⟩ => ?_, fun h => ⟨fun hlen => ?_, fun hlen => ⟨fun hap hs ho => ?_, fun hr => ?_⟩⟩⟩
  · rintro m c ⟨h, hlen, hset, hpres⟩ h0
    have := nodePower_gate (nodePower_accepted h hlen hset hpres (by omega)) h0
    refine ⟨fun hr => ?_, this.2⟩
    refine (this.1 fun a ha => by simpa using hr a ha).imp (fun hg hn => hg fun a ha => by simpa using hn a ha) id
  · rintro m c ⟨h, hlen, hset, hpres⟩ h1
    obtain ⟨hw, hst, hj⟩ := nodePower_ungate (nodePower_accepted h hlen hset hpres (by omega)) h1
    exact ⟨fun hn => hw fun a ha => by simpa using hn a ha, hst, fun a hr hn => hj a hr fun a ha => by simpa using hn a ha⟩
  · refine (hreset.accepted h fun M => ?_).waitsAt fun M => rfl
    have hn : ¬ ((copied m₀).length ≠ 4 ∨ (!nodeInSet (copied m₀)) = true) := by simp [hlen, hset]
    exact (if_neg hn).trans (if_neg (by simp [nodeArgPresent_inService, hpres]))
  · have ha := hupload.accepted h fun _ => if_pos hlen
    exact ⟨fun h0 => ha.waitsAt fun M => if_neg (not_not.2 h0), fun h0 => ha.status fun M => if_pos h0⟩
  · have ha := hactivate.accepted h fun _ => by simp [jigActivateCmd, lens, hlen]
    have hn := applyEdge_named s.dev hap
    exact ha.waitsAt fun M => jigActivate_waits (d := inService s.dev M) hn hs ho
  · have ha := hactivate.accepted h fun _ => by simp [jigActivateCmd, lens, hlen]
    have hr := hr.imp_left (applyEdge_not_named s.dev)
    exact ha.status fun M => jigActivate_state (d := inService s.dev M) hr

end Sys2Proof.Machine

/-! R375, R378, R381, R387–R389, R391, R395, R396: the commands of the asymmetric key slots and of the life cycle. -/

namespace Sys2Proof.Machine

open Sys2Proof

/-! ### The key slots -/

/-- A slot assigned to a tenant, or to none. -/
def slotGiven (d : Dev) (k t a : Nat) : Dev := setFld (setFld d .asymSlot k Slot.assigned a) .asymSlot k Slot.tenant t

section

variable {x : Ctx} {p : List Byte} {d : Dev}

theorem keyGenerate_joins (hk : slotKind d (rdLe p 0 2) = 0) (hb : flag d .asymSlot (rdLe p 0 2) Slot.generating = false)
    (hl : d.key.lifeCycle = 1 ∨ d.key.lifeCycle = 2) :
    keyGenerateCmd.body x p d = .wait .bench (enqueueBench (setFld d .asymSlot (rdLe p 0 2) Slot.generating 1) x
      (.generate (rdLe p 0 2) (rdLe p 2 1) (decide (rdLe p 3 1 = 1)) (slice p 8 32)) (rdLe p 2 1)) := by
  refine if_neg ?_
  simp only [hk, hb, ne_eq, not_true_eq_false, Bool.false_eq_true, false_or]
  tauto

theorem keyGenerate_state (h : slotKind d (rdLe p 0 2) ≠ 0 ∨ flag d .asymSlot (rdLe p 0 2) Slot.generating = true) :
    keyGenerateCmd.body x p d = .done .state [] [] d := by
  refine if_pos ?_
  obtain h | h := h
  · exact .inl h
  · exact .inr (.inl h)

theorem keyPublic_answers (h : slotKind d (rdLe p 0 2) ≠ 0) :
    keyPublicCmd.body x p d = .done .ok (publicBytes d (rdLe p 0 2)) [] d := if_neg h

theorem publicBytes_inService (M : MbxState) (k : Nat) : publicBytes (inService d M) k = publicBytes d k := by
  simp only [publicBytes, slotKind, slotSecret, fld_inService, inService_key]

theorem keyAssign_state (h : slotKind d (rdLe p 0 2) = 0 ∨ (rdLe p 2 2 ≠ 0xFFFF ∧ tenantBound d (rdLe p 2 2) = false)) :
    keyAssignCmd.body x p d = .done .state [] [] d := if_pos h

theorem keyAssign_gives (hk : slotKind d (rdLe p 0 2) ≠ 0) (ht : rdLe p 2 2 < 4096) (hb : tenantBound d (rdLe p 2 2) = true) :
    keyAssignCmd.body x p d = .done .ok (slotBytes (slotGiven d (rdLe p 0 2) (rdLe p 2 2) 1) (rdLe p 0 2)) []
      (slotGiven d (rdLe p 0 2) (rdLe p 2 2) 1) := by
  have hn : rdLe p 2 2 ≠ 0xFFFF := by omega
  have hno : ¬ (slotKind d (rdLe p 0 2) = 0 ∨ (rdLe p 2 2 ≠ 0xFFFF ∧ tenantBound d (rdLe p 2 2) = false)) := by simp [hk, hb]
  refine (if_neg hno).trans ?_
  simp only [hn, decide_false, Bool.not_false, Bool.false_eq_true, if_false]
  rfl

theorem keyAssign_withdraws (hk : slotKind d (rdLe p 0 2) ≠ 0) (ht : rdLe p 2 2 = 0xFFFF) :
    keyAssignCmd.body x p d = .done .ok (slotBytes (slotGiven d (rdLe p 0 2) 0 0) (rdLe p 0 2)) []
      (slotGiven d (rdLe p 0 2) 0 0) := by
  have hno : ¬ (slotKind d (rdLe p 0 2) = 0 ∨ (rdLe p 2 2 ≠ 0xFFFF ∧ tenantBound d (rdLe p 2 2) = false)) := by simp [hk, ht]
  refine (if_neg hno).trans ?_
  simp only [ht, decide_true, Bool.not_true, if_true]
  rfl

theorem setFld_inService (M : MbxState) (k : RecKind) (i : Nat) (f : Fld) (v : Nat) :
    setFld (inService d M) k i f v = inService (setFld d k i f v) M := rfl

theorem slotBytes_inService (M : MbxState) (k : Nat) : slotBytes (inService d M) k = slotBytes d k := rfl

theorem destroySlot_inService (M : MbxState) (k : Nat) : destroySlot (inService d M) k = inService (destroySlot d k) M := rfl

theorem keyDestroy_zeroizes (h : flag d .asymSlot (rdLe p 0 2) Slot.assigned = false) :
    keyDestroyCmd.body x p d
      = .done .ok (slotBytes (destroySlot d (rdLe p 0 2)) (rdLe p 0 2)) [] (destroySlot d (rdLe p 0 2)) :=
  if_neg (ne_true_of_eq_false h)

theorem pkeSign_joins (hk : slotKind d (rdLe p 0 2) ≠ 0) (hb : flag d .asymSlot (rdLe p 0 2) Slot.generating = false) :
    pkeSignCmd.body x p d = .wait .bench
      (enqueueBench d x (.sign (rdLe p 0 2) (rdLe p 2 2) (rdLe p 4 1) (p.drop 16)) (slotKind d (rdLe p 0 2))) :=
  if_neg (by simp [hk, hb])

end

/-- The controller host has the right to every slot (R395). -/
theorem pkeSign_accepted {s : State} {m : Msg} (h : byController s m = true) (hk : rdLe (copied m) 0 2 < 512)
    (hlen : (copied m).length = 16 + rdLe (copied m) 8 4) (hmax : rdLe (copied m) 8 4 ≤ signMax) :
    Accepted pkeSignCmd s m := by
  have hc : WriteCmd pkeSignCmd := writeCmd
  refine hc.accepted h fun M => ?_
  have h1 : ¬ ((copied m).length ≠ 16 + rdLe (copied m) 8 4 ∨ signMax < rdLe (copied m) 8 4
      ∨ (!slotIdx (copied m)) = true) := by
    simp [slotIdx, hk, hlen, hmax]
  have h2 : ¬ (!signRight (inService s.dev M) (hostCtx s m) (rdLe (copied m) 0 2)) = true := by
    simp [signRight, hostCtx_holds_controller h]
  exact (if_neg h1).trans (if_neg h2)

section

variable {s : State} {m : Msg}

theorem slotGiven_mbx (d : Dev) (k t a : Nat) : (slotGiven d k t a).mbx = d.mbx := by simp only [slotGiven, setFld_mbx]

theorem slotGiven_inService (d : Dev) (M : MbxState) (k t a : Nat) :
    slotGiven (inService d M) k t a = inService (slotGiven d k t a) M := by simp only [slotGiven, setFld_inService]

/-- A slot assigned is answered as it then is. -/
theorem keyAssign_answers (ha : Accepted keyAssignCmd s m) {t a : Nat}
    (hb : ∀ M, keyAssignCmd.body (hostCtx s m) (copied m) (inService s.dev M)
      = .done .ok (slotBytes (slotGiven (inService s.dev M) (rdLe (copied m) 0 2) t a) (rdLe (copied m) 0 2)) []
        (slotGiven (inService s.dev M) (rdLe (copied m) 0 2) t a)) :
    answers (mailbox keyAssignCmd m s) s m
      (plain .ok (slotBytes (slotGiven s.dev (rdLe (copied m) 0 2) t a) (rdLe (copied m) 0 2)))
      (slotGiven s.dev (rdLe (copied m) 0 2) t a) := by
  refine ha.okAt (fun M => ?_) (slotGiven_mbx _ _ _ _)
  rw [hb M, slotGiven_inService, slotBytes_inService]

end

/-- Settles O24: the kind of a slot, its generation under way and its tenant decide. -/
theorem keySlotCommands : Obligations.KeySlotCommands := by
  have hgen : WriteCmd keyGenerateCmd := writeCmd
  have hpub : ReportCmd keyPublicCmd := reportCmd
  have hassign : WriteCmd keyAssignCmd := writeCmd
  have hdestroy : WriteCmd keyDestroyCmd := writeCmd
  intro s m h p k busy hk
  have hidx : slotIdx p = true := decide_eq_true hk
  refine ⟨fun hlen h1 h6 hd => ?_, fun hlen => ?_, fun hlen hmax => ?_⟩
  · have ha := hgen.accepted h fun _ => if_pos ⟨hlen, hidx, h1, h6, hd⟩
    exact ⟨fun h0 hb => ha.delays fun M => keyGenerate_joins (d := inService s.dev M) h0 hb (byController_lifeCycle h),
      fun hr => ha.status fun M => keyGenerate_state (d := inService s.dev M) hr⟩
  · have hap := hpub.accepted h fun _ => if_pos ⟨hlen, hidx⟩
    have haa (ht : rdLe p 2 2 < 4096 ∨ rdLe p 2 2 = 0xFFFF) := hassign.accepted h fun _ => if_pos ⟨hlen, hidx, ht⟩
    have had := hdestroy.accepted h fun _ => if_pos ⟨hlen, hidx⟩
    refine ⟨fun h0 => hap.status fun _ => if_pos h0, fun hn => hap.status fun M => ?_,
      fun hn ht hb => keyAssign_answers (haa (.inl ht)) fun M => keyAssign_gives (d := inService s.dev M) hn ht hb,
      fun hn ht => keyAssign_answers (haa (.inr ht)) fun M => keyAssign_withdraws (d := inService s.dev M) hn ht, fun hr => ?_,
      fun hs => had.status fun _ => if_pos hs, fun hs => had.okAt fun M => ?_⟩
    · rw [keyPublic_answers (d := inService s.dev M) hn, publicBytes_inService]
    · obtain ⟨ht, hb⟩ | ⟨ht, h0⟩ := hr
      · have hn : rdLe p 2 2 ≠ 0xFFFF := by omega
        exact (haa (.inl ht)).status fun M => keyAssign_state (d := inService s.dev M) (.inr ⟨hn, hb⟩)
      · exact (haa ht).status fun M => keyAssign_state (d := inService s.dev M) (.inl h0)
    · rw [keyDestroy_zeroizes (d := inService s.dev M) hs, destroySlot_inService, slotBytes_inService]
  · have ha := pkeSign_accepted h hk hlen hmax
    exact ⟨fun hn hb => ha.delays fun M => pkeSign_joins (d := inService s.dev M) hn hb, fun hr => ha.status fun M => if_pos hr⟩

/-! ### A controller's request in a life-cycle state that serves it -/

/-- A mailbox that took a request serves what it served: each entry is the device's, or serves what the request's door did. -/
def KeepsServing (s : State) (m : Msg) (M : MbxState) : Prop :=
  ∀ e ∈ M.doors, e ∈ s.dev.mbx.doors ∨ e.2.serving = (getDoor s.dev m.fn m.door.val).serving

/-- A ready request is posted and taken at once, and what the doors serve stays. -/
theorem message_keepsServing {s : State} {m : Msg} (h : ready s m = true) (op : Nat) (c : Option Cmd) :
    ∃ (M : MbxState) (po : Posted), M.locks = [] ∧ po.bt = s.dev.bt ∧ KeepsServing s m M
      ∧ (∀ f k, doorKey f k ≠ doorKey m.fn m.door.val → getDoor (inService s.dev M) f k = getDoor s.dev f k)
      ∧ message op c m (fresh s.dev) = serveNew (inService s.dev M) c op m po := by
  obtain ⟨-, hserved, hbar, hphase, hpart, hmore, hposted, hall, hlocks, -, -, hflag, -, -, -⟩ := ready_facts h
  obtain ⟨x, hw, hxphase, hxmore, hxpart, hxserving, hxposted⟩ : ∃ x,
      writeRequest (fresh s.dev) op m = setDoor (fresh s.dev) m.fn m.door.val x
      ∧ x.phase = (getDoor s.dev m.fn m.door.val).phase ∧ x.more = (getDoor s.dev m.fn m.door.val).more
      ∧ x.partial_ = (getDoor s.dev m.fn m.door.val).partial_ ∧ x.serving = (getDoor s.dev m.fn m.door.val).serving
      ∧ x.posted = (getDoor s.dev m.fn m.door.val).posted := ⟨_, rfl, rfl, rfl, rfl, rfl, rfl⟩
  have hgx : getDoor (setDoor (fresh s.dev) m.fn m.door.val x) m.fn m.door.val = x := getDoor_setDoor _ _ _ _
  obtain ⟨fin, tag, hring⟩ := ring_free (setDoor (fresh s.dev) m.fn m.door.val x) op m
    (by rw [hgx, hxphase]; exact hphase) (by rw [hgx, hxmore]; exact hmore)
  rw [hgx] at hring
  set doors := Tab.set Door.idle s.dev.mbx.doors (doorKey m.fn m.door.val) x with hdoors
  set y : Door := { x with phase := .posted, posted := some ⟨op, m, tag, s.dev.bt⟩, resp := none, more := none,
                           seqLow := m.sequence.toNat % 65536 } with hy
  set M : MbxState := { s.dev.mbx with finish := fin, doors := Tab.set Door.idle doors (doorKey m.fn m.door.val) y } with hM
  have hring : ring (writeRequest (fresh s.dev) op m) op m = inService s.dev M := by rw [hw, hring]; rfl
  have hfree : doors.all (fun e => e.2.posted.isNone) = true := by
    rw [List.all_eq_true] at *
    intro e he
    obtain rfl | he := Tab.mem_set _ _ _ _ _ he
    · simp [hxposted, hposted]
    · exact hall e he
  have hleast : leastPosted (inService s.dev M) = some (doorKey m.fn m.door.val, ⟨op, m, tag, s.dev.bt⟩) :=
    leastPosted_set _ doors _ y _ rfl rfl hfree
  have hgy : getDoor (inService s.dev { M with v := tag }) m.fn m.door.val = y := by
    simp [getDoor, hM]
  refine ⟨{ M with v := tag }, ⟨op, m, tag, s.dev.bt⟩, hlocks, rfl, fun e he => ?_, fun f k hk => ?_, ?_⟩
  · obtain rfl | he := Tab.mem_set _ _ _ _ _ he
    · exact .inr hxserving
    · obtain rfl | he := Tab.mem_set _ _ _ _ _ he
      · exact .inr hxserving
      · exact .inl he
  · exact (Tab.get_set_other _ _ _ _ _ _ hk).trans (Tab.get_set_other _ _ _ _ _ _ hk)
  · have hserve : message op c m (fresh s.dev) = serveIfLeast (inService s.dev M) c op m := by
      have hbar' : barUp (fresh s.dev) m.fn = true := hbar
      have hposted' : (getDoor (fresh s.dev) m.fn m.door.val).posted = none := hposted
      have hserved' : doorsServed (inService s.dev M) = true := hserved
      have hphase' : (getDoor (fresh s.dev) m.fn m.door.val).phase = .idle
        ∨ (getDoor (fresh s.dev) m.fn m.door.val).phase = .done := hphase
      unfold message
      obtain hp | hp := hphase' <;>
        simp only [hbar', Bool.not_true, Bool.false_eq_true, if_false, hposted', hp, hring, hserved', if_true]
    have hxpart' : y.partial_ = none := hxpart.trans hpart
    have hpart' : (getDoor (inService s.dev { M with v := tag }) m.fn m.door.val).partial_ = none := by rw [hgy, hxpart']
    have hmsg : serveIfLeast (inService s.dev M) c op m
        = serveMessage (inService s.dev { M with v := tag }) c op m ⟨op, m, tag, s.dev.bt⟩ := by
      simp only [serveIfLeast, hleast, and_self, if_true]
      rfl
    rw [hserve, hmsg]
    simp only [serveMessage, hpart', hflag, Bool.false_eq_true, if_false]

/-- A ready request that its requester may make, which passes its checks, in a life-cycle state that serves it (R354). -/
structure InState (c : Cmd) (s : State) (m : Msg) : Prop where
  ready : ready s m = true
  present : opAbsent s.dev.variant c.op = false
  allowed : ∀ M, c.allowed (hostCtx s m) (copied m) (inService s.dev M) = true
  check : ∀ M, c.check (hostCtx s m) (copied m) (inService s.dev M) = none
  serves : (c.cls (copied m)).serves s.dev.key.lifeCycle = true
  tenant : ∀ t, c.tenant (copied m) = some t → tenantState s.dev t ≠ 2

section

variable {s : State} {m : Msg} {c : Cmd}

/-- A write of the controller host whose command names no tenant. -/
theorem InState.ofWrite (h : Machine.ready s m = true) (he : m.fn.ep.val = controllerEp s.dev)
    (hs : c.writeCls.serves s.dev.key.lifeCycle = true)
    (hcheck : ∀ M, c.check (hostCtx s m) (copied m) (inService s.dev M) = none)
    (hw : c.isWrite = fun _ => true := by rfl) (ho : c.writeBy.contains .c = true := by rfl)
    (ha : ∀ x p d, c.admits x p d true = true := by exact fun _ _ _ => rfl) (hop : c.op / 256 ≠ 0x32 := by decide)
    (hn : ∀ p, c.tenant p = none := by exact fun _ => rfl) : InState c s m where
  ready := h
  present := opAbsent_other _ _ hop
  allowed M := by
    obtain ⟨-, -, -, -, -, -, -, -, -, -, -, -, -, hv, -⟩ := ready_facts h
    have hep : m.fn.ep.val = controllerEp (inService s.dev M) := he
    have hc : (hostCtx s m).holds (inService s.dev M) (c.tenant (copied m)) .c = true := by
      simp [Ctx.holds, Ctx.asHost, Ctx.isPf, hostCtx, hv, Ctx.controls, Ctx.ep, hep]
    have hany : c.writeBy.any (fun w => (hostCtx s m).holds (inService s.dev M) (c.tenant (copied m)) w) = true :=
      List.any_eq_true.2 ⟨.c, by simpa using ho, hc⟩
    have hact : (hostCtx s m).acting = none := rfl
    simp only [Cmd.allowed, hw, if_true, hact, hany, Bool.true_and, ha]
  check := hcheck
  serves := by simpa only [Cmd.cls, hw, if_true] using hs
  tenant := noTenant s.dev (hn _)

/-- The door and the device a served request leaves. -/
def replied (op : Nat) (m : Msg) (po : Posted) : Reply → Dev
  | .done st pl es d => respond d op m st pl es
  | .wait w d => setDoor d m.fn m.door.val { getDoor d m.fn m.door.val with
      phase := .serving, posted := none, partial_ := none, serving := some (po, w) }

namespace InState

variable (a : InState c s m)
include a

/-- Its body runs. -/
theorem served : ∃ (M : MbxState) (po : Posted), (∀ l ∈ M.locks, l.fn = m.fn ∧ l.door = m.door.val) ∧ KeepsServing s m M
      ∧ (∀ f k, doorKey f k ≠ doorKey m.fn m.door.val → getDoor (inService s.dev M) f k = getDoor s.dev f k)
      ∧ mailbox c m s = .next { s with dev := replied c.op m po (c.body (hostCtx s m) (copied m) (inService s.dev M)) } := by
  obtain ⟨M, po, hlocks, hbt, hkeeps, hdoors, hmes⟩ := message_keepsServing a.ready c.op (some c)
  obtain ⟨L, hL, hrun⟩ := runCmd_ran c (hostCtx s m) (copied m) (inService s.dev M) hlocks (a.check M) a.serves a.tenant
  have hon : (fresh s.dev).pwr.aonUp = true := (ready_facts a.ready).1
  have hrun' : runCmd c (hostCtx s m) (copied m) (inService s.dev M)
    = c.body (hostCtx s m) (copied m) (inService s.dev { M with locks := L }) := hrun
  refine ⟨{ M with locks := L }, po, hL, hkeeps, hdoors, ?_⟩
  unfold mailbox whenOn withDev
  simp only [hon, if_true, hmes]
  rw [serveNew_ready a.ready c (inService s.dev M) po hbt a.present (a.allowed M)]
  simp only [runWhole, hbt, ctxOf_ready a.ready, hrun']
  cases c.body (hostCtx s m) (copied m) (inService s.dev { M with locks := L }) <;> rfl

/-- A body that answers a status alone and leaves the device as it was. -/
theorem status {st : Status} {pl : List Byte}
    (hb : ∀ M, KeepsServing s m M → c.body (hostCtx s m) (copied m) (inService s.dev M) = .done st pl [] (inService s.dev M))
    (hcl : st ≠ .clamped := by decide) : answers (mailbox c m s) s m (plain st pl) s.dev := by
  obtain ⟨M, po, hL, hkeeps, hdoors, hout⟩ := a.served
  rw [hb M hkeeps] at hout
  refine ⟨_, hout, rfl, ?_, butDoor_respond (butDoor_effect M.locks [] hdoors rfl hL) _ _ _ _⟩
  exact (respond_answer _ _ _ _ _ _ _).trans (by simp [hcl])

/-- A body that leaves its door in SERVING. -/
theorem waitsAt {w : Waiting} {e : Dev}
    (hb : ∀ M, KeepsServing s m M → c.body (hostCtx s m) (copied m) (inService s.dev M) = .wait w (inService e M))
    (hm : e.mbx = s.dev.mbx := by rfl) : waits (mailbox c m s) s m w e := by
  obtain ⟨M, po, hL, hkeeps, hdoors, hout⟩ := a.served
  rw [hb M hkeeps] at hout
  refine ⟨_, hout, rfl, ?_, butDoor_setDoor (butDoor_effect M.locks [] hdoors hm hL) _⟩
  simp only [servingFor, replied, getDoor_setDoor, if_true, Option.map_some]

end InState

end

/-! ### The life cycle, the security versions and the wrap key -/

section

variable {x : Ctx} {p : List Byte} {d : Dev}

theorem lcAdvance_check (h1 : 1 ≤ rdLe p 0 1) (h3 : rdLe p 0 1 ≤ 3) (hlen : p.length = lcLength (rdLe p 0 1))
    (he : rdLe p 0 1 = 1 → rdLe p 8 1 ≤ 3 ∧ rdLe p 9 1 ≤ 3) : lcAdvanceCmd.check x p d = none := by
  have hn : ¬ (rdLe p 0 1 < 1 ∨ 3 < rdLe p 0 1 ∨ p.length ≠ lcLength (rdLe p 0 1)) := by omega
  exact (if_neg hn).trans (if_neg (by omega))

theorem lcAdvance_state (h : d.key.otpBusy = true ∨ rdLe p 0 1 ≠ otpState d.key.otp + 1) :
    lcAdvanceCmd.body x p d = .done .state [] [] d := if_pos h

/-- What an LC_ADVANCE carries to its programming: the payload, and for PROVISIONED the DRS drawn (R378). -/
def lcCopy (d : Dev) (p : List Byte) : List Byte :=
  if rdLe p 0 1 = 1 then slice p 8 80 ++ leBytes 32 (Config.freeValue d.free) else if rdLe p 0 1 = 2 then slice p 8 8 else []

/-- PROVISIONED may not be entered: two equal endpoints, or no random source. -/
def lcBarred (d : Dev) (p : List Byte) : Prop :=
  rdLe p 0 1 = 1 ∧ ((rdLe p 10 1 = 1 ∧ rdLe p 8 1 = rdLe p 9 1) ∨ d.key.rngWithheld = true)

/-- LC_ADVANCE to the next state while the OTP is free. -/
theorem lcAdvance_next (hb : d.key.otpBusy = false) (hk : rdLe p 0 1 = otpState d.key.otp + 1) :
    lcAdvanceCmd.body x p d = if slice p 4 4 ≠ lcConfirm (rdLe p 0 1) then .done .denied [] [] d
      else if rdLe p 0 1 = 1 ∧ rdLe p 10 1 = 1 ∧ rdLe p 8 1 = rdLe p 9 1 then .done .state [] [] d
      else if rdLe p 0 1 = 1 ∧ d.key.rngWithheld then .done .state [] [] d
      else match intentFree d.key.otp (rdLe p 0 1) with
        | none => .done .state [] [] d
        | some second => .wait (.lcAdvance (rdLe p 0 1) (lcCopy d p) second)
            { d with free := d.free + 1, key := { d.key with otpBusy := true } } := by
  have hn : ¬ (d.key.otpBusy = true ∨ rdLe p 0 1 ≠ otpState d.key.otp + 1) := by simp [hb, hk]
  exact if_neg hn

theorem lcAdvance_barred (hb : d.key.otpBusy = false) (hk : rdLe p 0 1 = otpState d.key.otp + 1)
    (hc : slice p 4 4 = lcConfirm (rdLe p 0 1)) (h : lcBarred d p ∨ intentFree d.key.otp (rdLe p 0 1) = none) :
    lcAdvanceCmd.body x p d = .done .state [] [] d := by
  rw [lcAdvance_next hb hk, if_neg (not_not.2 hc)]
  obtain ⟨h1, ⟨ht, he⟩ | hw⟩ | hi := h
  · exact if_pos ⟨h1, ht, he⟩
  · have hp : rdLe p 0 1 = 1 ∧ d.key.rngWithheld = true := ⟨h1, hw⟩
    rw [if_pos hp, ite_self]
  · simp only [hi, ite_self]

theorem lcAdvance_waits (hb : d.key.otpBusy = false) (hk : rdLe p 0 1 = otpState d.key.otp + 1)
    (hc : slice p 4 4 = lcConfirm (rdLe p 0 1)) (h : ¬ lcBarred d p) {b : Bool}
    (hi : intentFree d.key.otp (rdLe p 0 1) = some b) :
    lcAdvanceCmd.body x p d = .wait (.lcAdvance (rdLe p 0 1) (lcCopy d p) b)
      { d with free := d.free + 1, key := { d.key with otpBusy := true } } := by
  have h1 : ¬ (rdLe p 0 1 = 1 ∧ rdLe p 10 1 = 1 ∧ rdLe p 8 1 = rdLe p 9 1) := fun ⟨h1, h2⟩ => h ⟨h1, .inl h2⟩
  have h2 : ¬ (rdLe p 0 1 = 1 ∧ d.key.rngWithheld) := fun ⟨h1, h2⟩ => h ⟨h1, .inr h2⟩
  rw [lcAdvance_next hb hk, if_neg (not_not.2 hc), if_neg h1, if_neg h2, hi]

/-- The counts asked for are ones the running images carry, and the OTP is free (R381). -/
def svnMay (d : Dev) (p : List Byte) : Prop :=
  rdLe p 0 1 ≤ 64 ∧ rdLe p 1 1 ≤ 64 ∧ rdLe p 0 1 ≤ d.pwr.running.svn ∧ rdLe p 1 1 ≤ d.arr.active.svn ∧ d.key.otpBusy = false

theorem svnMay_iff : svnMay d p ↔ ¬ (64 < rdLe p 0 1 ∨ 64 < rdLe p 1 1 ∨ d.pwr.running.svn < rdLe p 0 1
    ∨ d.arr.active.svn < rdLe p 1 1 ∨ d.key.otpBusy = true) := by
  simp only [svnMay, not_or, not_lt, Bool.not_eq_true]

theorem svnRaise_waits (h : svnMay d p) : lcSvnRaiseCmd.body x p d
    = .wait (.svnRaise (rdLe p 0 1) (rdLe p 1 1)) { d with key := { d.key with otpBusy := true } } :=
  if_neg (svnMay_iff.1 h)

theorem svnRaise_state (h : ¬ svnMay d p) : lcSvnRaiseCmd.body x p d = .done .state [] [] d :=
  if_pos (not_not.1 (mt svnMay_iff.2 h))

theorem wrapInstall_denied (h : rdLe p 0 2 = 0 ∨ rdLe p 0 2 = 0xFFFF) :
    wrapInstallCmd.body x p d = .done .denied [] [] d := if_pos h

/-- WRAP_KEY_INSTALL of a KEY_ID that a key may have. -/
theorem wrapInstall_named (h0 : rdLe p 0 2 ≠ 0) (hf : rdLe p 0 2 ≠ 0xFFFF) :
    wrapInstallCmd.body x p d = if d.key.otp.wrapState ≠ 0 ∨ wrapInstalling d then .done .state [] [] d
      else if rdLe p 2 1 = 0 then .wait (.wrapInstall (rdLe p 0 2) 0 (rdBe p 4 32)) d
      else if d.key.rngWithheld then .done .state [] [] d
      else .wait (.wrapInstall (rdLe p 0 2) 1 (Config.freeValue d.free % 2 ^ 256)) { d with free := d.free + 1 } :=
  if_neg (by simp [h0, hf])

end

/-- An installation of the wrap key waits. -/
def installsWrap : Option (Posted × Waiting) → Bool
  | some (_, .wrapInstall ..) => true
  | _ => false

theorem wrapInstalling_iff (d : Dev) : wrapInstalling d = d.mbx.doors.any fun e => installsWrap e.2.serving := rfl

/-- A request that is taken installs no wrap key of itself. -/
theorem wrapInstalling_taken {s : State} {m : Msg} {M : MbxState} (hk : KeepsServing s m M) (h : wrapInstalling s.dev = false) :
    wrapInstalling (inService s.dev M) = false := by
  simp only [wrapInstalling_iff, List.any_eq_false, Bool.not_eq_true] at h ⊢
  have hown : installsWrap (getDoor s.dev m.fn m.door.val).serving = false := by
    have := Tab.get_all (fun x : Door => !installsWrap x.serving) Door.idle s.dev.mbx.doors (doorKey m.fn m.door.val) rfl
      (by simpa using h)
    simpa [getDoor] using this
  intro e he
  obtain he | he := hk e he
  · exact h e he
  · rw [he]
    exact hown

/-- Settles O25: the life-cycle state, the cells of the OTP and the random source decide. -/
theorem lifeCycleCommands : Obligations.LifeCycleCommands := by
  intro s m h he p k otp withheld busy
  refine ⟨fun hl h1 h3 hlen hep => ?_, fun hl hlen => ?_, fun hl hlen hf => ?_⟩
  · have ha : InState lcAdvanceCmd s m := .ofWrite h he (decide_eq_true hl) fun M => lcAdvance_check h1 h3 hlen hep
    refine ⟨fun hr => ha.status fun M _ => lcAdvance_state (d := inService s.dev M) hr,
      fun hb hk => ⟨fun hc => ha.status fun M _ => ?_, fun hc => ⟨fun hr => ?_, fun hr b hi => ?_⟩⟩⟩
    · rw [lcAdvance_next (d := inService s.dev M) hb hk]
      exact if_pos hc
    · exact ha.status fun M _ => lcAdvance_barred (d := inService s.dev M) hb hk hc hr
    · exact ha.waitsAt fun M _ => lcAdvance_waits (d := inService s.dev M) hb hk hc hr hi
  · have ha : InState lcSvnRaiseCmd s m := .ofWrite h he (decide_eq_true hl) fun M => by simp [lcSvnRaiseCmd, lens, hlen, p]
    exact ⟨fun hr => ha.waitsAt fun M _ => svnRaise_waits (d := inService s.dev M) hr,
      fun hr => ha.status fun M _ => svnRaise_state (d := inService s.dev M) hr⟩
  · have ha : InState wrapInstallCmd s m := .ofWrite h he (decide_eq_true hl) fun M => if_pos ⟨hlen, hf⟩
    refine ⟨fun hr => ha.status fun M _ => if_pos hr, fun h0 hF hw => ha.status fun M _ => ?_, fun h0 hF hw hi => ?_⟩
    · rw [wrapInstall_named h0 hF]
      exact if_pos (.inl hw)
    · have hn (M : MbxState) (hk : KeepsServing s m M) :
          ¬ ((inService s.dev M).key.otp.wrapState ≠ 0 ∨ wrapInstalling (inService s.dev M) = true) := by
        rw [wrapInstalling_taken hk hi]
        exact fun hr => hr.elim (· hw) (by decide)
      have hgen : rdLe p 2 1 = 1 → rdLe p 2 1 ≠ 0 := fun h1 => by omega
      refine ⟨fun hz => ha.waitsAt fun M hk => ?_, fun h1 hr => ha.waitsAt fun M hk => ?_, fun h1 hr => ha.status fun M hk => ?_⟩
      · rw [wrapInstall_named h0 hF, if_neg (hn M hk)]
        exact if_pos hz
      · rw [wrapInstall_named h0 hF, if_neg (hn M hk), if_neg (hgen h1)]
        exact if_neg (ne_true_of_eq_false hr)
      · rw [wrapInstall_named h0 hF, if_neg (hn M hk), if_neg (hgen h1)]
        exact if_pos hr

end Sys2Proof.Machine

/-! R361, R364–R371: the commands of the flash, the tags and the choice of firmware. -/

namespace Sys2Proof.Machine

open Sys2Proof

/-! ### The flash and the tags -/

section

variable {x : Ctx} {p : List Byte} {d : Dev}

theorem tagWrite_waits {g : Nat} (h : tagNext d = some g) : tagWriteCmd.body x p d = .wait (.tagWrite g (p.drop 4)) d := by
  simp only [tagWriteCmd, h]

theorem tagWrite_full (h : tagNext d = none) : tagWriteCmd.body x p d = .done .state [] [] d := by
  simp only [tagWriteCmd, h]

theorem slotNamed_of (hlen : p.length = 4) (hk : rdLe p 0 1 ≤ 1) : slotNamed p = true := by simp [slotNamed, hlen, hk]

theorem fwWrite_check (h12 : 12 ≤ p.length) (h4 : (p.length - 8) % 4 = 0) (hmax : p.length ≤ 1048576) (hk : rdLe p 0 1 ≤ 1)
    (hend : rdLe p 4 4 + (p.length - 8) ≤ 8384512) : fwWriteCmd.check x p d = none :=
  if_neg (by omega)

theorem fwWrite_waits (hs : slotState d (rdLe p 0 1) ≤ 1) (ho : rdLe p 4 4 = fld d .fwStatus 0 (Fw.sWrittenBytes (rdLe p 0 1))) :
    fwWriteCmd.body x p d = .wait (.fwWrite (rdLe p 0 1) (rdLe p 4 4) (p.drop 8)) d := if_neg (by omega)

end

/-- Settles O26: the next tag, and the state and the place of a slot, decide. -/
theorem flashCommands : Obligations.FlashCommands := by
  have htag : WriteCmd tagWriteCmd := writeCmd
  have herase : WriteCmd fwEraseCmd := writeCmd
  have hwrite : WriteCmd fwWriteCmd := writeCmd
  have hverify : WriteCmd fwVerifyCmd := writeCmd
  intro s m h p k
  refine ⟨fun hn hlen => ?_, fun hlen hk => ?_, fun h12 h4 hmax hk hend => ?_⟩
  · have ha := htag.accepted h fun _ => if_pos ⟨hn, hlen⟩
    exact ⟨fun g hg => ha.waitsAt fun M => tagWrite_waits (d := inService s.dev M) hg,
      fun hf => ha.status fun M => tagWrite_full (d := inService s.dev M) hf⟩
  · have he := herase.accepted h fun _ => if_pos (slotNamed_of hlen hk)
    have hv := hverify.accepted h fun _ => if_pos (slotNamed_of hlen hk)
    refine ⟨fun hp hr hn => ?_, fun hr => he.status fun _ => if_pos hr, fun h0 h2 => ?_, fun hr => hv.status fun _ => if_pos hr⟩
    · have hno : ¬ (preferredSlot s.dev = k ∨ runningSlot s.dev = k ∨ nextNames s.dev k = true) := by simp [hp, hr, hn]
      exact he.waitsAt fun _ => if_neg hno
    · have hno : ¬ (slotState s.dev k = 0 ∨ slotState s.dev k = 2) := by omega
      exact hv.waitsAt fun _ => if_neg hno
  · have ha := hwrite.accepted h fun M => fwWrite_check h12 h4 hmax hk hend
    exact ⟨fun hs ho => ha.waitsAt fun M => fwWrite_waits (d := inService s.dev M) hs ho, fun hr => ha.status fun _ => if_pos hr⟩

/-! ### The choice of firmware -/

section

variable {x : Ctx} {p : List Byte} {d : Dev}

theorem preferWrite_isSome (k : Nat) : (preferWrite d k).isSome = decide ((getFlash d k).prefs.length < 256) := by
  unfold preferWrite
  dsimp only
  split
  next h => simp [Nat.not_lt.2 h]
  next h => simp [Nat.not_le.1 h]

theorem preferWrite_inService (M : MbxState) (k : Nat) :
    (preferWrite (inService d M) k).isSome = (preferWrite d k).isSome := by
  rw [preferWrite_isSome, preferWrite_isSome]
  rfl

/-- The slot named is the next for a trial. -/
def nextChosen (d : Dev) (n : Nat) : Dev := setFld d .fwStatus 0 Fw.nextSlot n

theorem fwSelect_trial (h0 : rdLe p 1 1 = 0) (hv : slotValid d (rdLe p 0 1) = true) (hr : runningSlot d ≠ rdLe p 0 1) :
    fwSelectCmd.body x p d
      = .done .ok (fwBytes (nextChosen d (2 + rdLe p 0 1))) [] (nextChosen d (2 + rdLe p 0 1)) := by
  simp only [fwSelectCmd, h0, hv, hr, Bool.not_true, Bool.false_eq_true, or_self, if_false, nextChosen]

theorem fwSelect_trial_state (h0 : rdLe p 1 1 = 0) (h : slotValid d (rdLe p 0 1) = false ∨ runningSlot d = rdLe p 0 1) :
    fwSelectCmd.body x p d = .done .state [] [] d := by
  have hr : (!slotValid d (rdLe p 0 1)) = true ∨ runningSlot d = rdLe p 0 1 := by simpa using h
  simp only [fwSelectCmd, h0, if_pos hr]

/-- A preference may be written for a slot (R364). -/
def mayPrefer (d : Dev) (k : Nat) : Prop := slotValid d k = true ∧ (preferWrite d k).isSome = true

theorem mayPrefer_inService (M : MbxState) (k : Nat) : mayPrefer (inService d M) k ↔ mayPrefer d k := by
  unfold mayPrefer
  rw [preferWrite_inService]
  rfl

/-- The device after a preference. -/
def preferred (d : Dev) (k : Nat) : Dev := (preferWrite d k).getD d

theorem preferWrite_eq {k : Nat} (h : (preferWrite d k).isSome = true) : preferWrite d k = some (preferred d k) := by
  obtain ⟨e, he⟩ := Option.isSome_iff_exists.1 h
  simp only [preferred, he, Option.getD_some]

theorem fwSelect_prefer (h1 : rdLe p 1 1 = 1) (hm : mayPrefer d (rdLe p 0 1)) (ht : trialActive d = false) :
    fwSelectCmd.body x p d = .done .ok (fwBytes (preferred d (rdLe p 0 1))) [] (preferred d (rdLe p 0 1)) := by
  obtain ⟨hv, hw⟩ := hm
  simp only [fwSelectCmd, h1, hv, ht, Bool.not_true, Bool.false_eq_true, or_self, if_false, preferWrite_eq hw]

theorem fwSelect_prefer_state (h1 : rdLe p 1 1 = 1) (h : ¬ mayPrefer d (rdLe p 0 1) ∨ trialActive d = true) :
    fwSelectCmd.body x p d = .done .state [] [] d := by
  simp only [fwSelectCmd, h1]
  split
  · rfl
  next hn =>
    obtain ⟨hv, ht⟩ : slotValid d (rdLe p 0 1) = true ∧ trialActive d = false := by simpa using hn
    have hw : preferWrite d (rdLe p 0 1) = none := by
      obtain h | h := h
      · exact Option.not_isSome_iff_eq_none.1 fun hw => h ⟨hv, hw⟩
      · exact absurd (ht.symm.trans h) (by decide)
    simp only [hw]

theorem fwSelect_cancel (h2 : rdLe p 1 1 = 2) :
    fwSelectCmd.body x p d = .done .ok (fwBytes (nextChosen d 0)) [] (nextChosen d 0) := by
  simp only [fwSelectCmd, h2, nextChosen]

/-- The slot on trial kept: its preference written, and the trial ended. -/
def confirmed (d : Dev) : Dev := setFld (preferred d (runningSlot d)) .fwStatus 0 Fw.trialActive 0

theorem fwConfirm_keeps (ht : trialActive d = true) (hm : mayPrefer d (runningSlot d)) :
    fwConfirmCmd.body x p d = .done .ok (fwBytes (confirmed d)) [] (confirmed d) := by
  obtain ⟨hv, hw⟩ := hm
  simp only [fwConfirmCmd, ht, hv, Bool.not_true, Bool.false_eq_true, or_self, if_false, preferWrite_eq hw, confirmed]

theorem fwConfirm_state (h : trialActive d = false ∨ ¬ mayPrefer d (runningSlot d)) :
    fwConfirmCmd.body x p d = .done .state [] [] d := by
  simp only [fwConfirmCmd]
  split
  · rfl
  next hn =>
    obtain ⟨ht, hv⟩ : trialActive d = true ∧ slotValid d (runningSlot d) = true := by simpa using hn
    have hw : preferWrite d (runningSlot d) = none := by
      obtain h | h := h
      · exact absurd (h.symm.trans ht) (by decide)
      · exact Option.not_isSome_iff_eq_none.1 fun hw => h ⟨hv, hw⟩
    simp only [hw]

/-- A reload due in 1 ms (R371). -/
def reloadSoon (d : Dev) : Dev := { d with pwr := { d.pwr with reloadDue := some (d.bt + msToBt d 1) } }

theorem fwReload_due (hl : d.mbx.locks = []) (h : ∀ k, nextSlot d = some k → slotAbiFits d k = true) :
    fwReloadCmd.body x p d = .done .ok (leBytes 8 d.bt) [] (reloadSoon d) := by
  refine if_neg ?_
  rw [hl]
  cases hn : nextSlot d with
  | none => simp
  | some k => simp [h k hn]

theorem fwReload_state {k : Nat} (hn : nextSlot d = some k) (hf : slotAbiFits d k = false) :
    fwReloadCmd.body x p d = .done .state [] [] d := by
  refine if_pos (.inr ?_)
  simp only [hn, hf, Bool.not_false]

end

/-- A request of the controller host that takes no lock: its body meets none. -/
theorem Accepted.okUnlocked {c : Cmd} {s : State} {m : Msg} (a : Accepted c s m) {pl : List Byte} {e : Dev}
    (hl : c.locks (copied m) = [])
    (hb : ∀ M, M.locks = [] → c.body (hostCtx s m) (copied m) (inService s.dev M) = .done .ok pl [] (inService e M))
    (hm : e.mbx = s.dev.mbx) : answers (mailbox c m s) s m (plain .ok pl) e := by
  have hrun (M : MbxState) (hM : M.locks = []) :
      runCmd c (hostCtx s m) (copied m) (inService s.dev M) = .done .ok pl [] (inService e { M with locks := [] }) := by
    rw [runCmd_plain c _ _ _ (a.check M) hl (serves_byController a.byController _ (cls_ne a.admitted.classes _)) a.tenant,
      takeLocks_nil, hb M hM, ← hM]
  exact mailbox_ok (byController_ready a.byController) c pl [] e a.admitted.present
    (fun M => allowed_byController a.byController c _ M (a.admitted.admits M) a.admitted.rights) hm
    fun M hM => ⟨[], [], by simp, hrun M hM⟩

/-- FW_SELECT of a message that carries a choice. -/
theorem fwSelect_accepted {s : State} {m : Msg} (h : byController s m = true) (hlen : (copied m).length = 4)
    (hk : rdLe (copied m) 0 1 ≤ 1) (h2 : rdLe (copied m) 1 1 ≤ 2) : Accepted fwSelectCmd s m := by
  have hc : WriteCmd fwSelectCmd := writeCmd
  exact hc.accepted h fun _ => if_pos ⟨slotNamed_of hlen hk, h2⟩

/-- Settles O27: the state of the slots, the trial and the room for a preference decide. -/
theorem firmwareChoice : Obligations.FirmwareChoice := by
  have hconfirm : WriteCmd fwConfirmCmd := writeCmd
  have hreload : WriteCmd fwReloadCmd := writeCmd
  intro s m₀ may
  refine ⟨?_, ?_, ?_, fun h hp => ?_⟩
  · intro m k h hlen hk h0
    have ha := fwSelect_accepted h hlen hk (by omega)
    exact ⟨fun hv hr => ha.effectsOk fun M => fwSelect_trial (d := inService s.dev M) h0 hv hr,
      fun hr => ha.status fun M => fwSelect_trial_state (d := inService s.dev M) h0 hr⟩
  · intro m k h hlen hk h1
    have ha := fwSelect_accepted h hlen hk (by omega)
    exact ⟨fun hm ht => ha.effectsOk fun M => fwSelect_prefer (d := inService s.dev M) h1 ((mayPrefer_inService M _).2 hm) ht,
      fun hr => ha.status fun M => fwSelect_prefer_state (d := inService s.dev M) h1
        (hr.imp_left (mt (mayPrefer_inService M _).1))⟩
  · intro m h hlen hk h2
    have ha := fwSelect_accepted h hlen hk (by omega)
    exact ha.effectsOk fun M => fwSelect_cancel (d := inService s.dev M) h2
  · have ha := hconfirm.accepted h fun _ => by rw [hp]; rfl
    have hb := hreload.accepted h fun _ => by rw [hp]; rfl
    refine ⟨fun ht hm => ha.effectsOk fun M => ?_, fun hr => ha.status fun M => ?_, fun hf => ?_, fun k hn hf => ?_⟩
    · exact fwConfirm_keeps (d := inService s.dev M) ht ((mayPrefer_inService M _).2 hm)
    · exact fwConfirm_state (d := inService s.dev M) (hr.imp_right (mt (mayPrefer_inService M _).1))
    · exact hb.okUnlocked rfl (fun M hM => fwReload_due (d := inService s.dev M) hM hf) rfl
    · exact hb.status fun M => fwReload_state (d := inService s.dev M) hn hf

end Sys2Proof.Machine

/-! R405, R418–R422, R434, R441: the commands of the fault collector and of the power states. -/

namespace Sys2Proof.Machine

open Sys2Proof

/-! ### The fault collector -/

section

variable {s : State} {m : Msg}

/-- FAULT_CLEAR waits for its edge (R405). -/
theorem faultClear_waits (h : byController s m = true) (hlen : (copied m).length = 8) (hset : faultInSet (copied m) = true)
    (hpres : nodeInSet (copied m) = true → nodeArgPresent s.dev (copied m) = true) :
    waits (mailbox faultClearCmd m s) s m .edge
      { s.dev with atEdge := s.dev.atEdge ++ [(s.dev.bt + 1,
          .faultClear (rdLe (copied m) 0 1) (rdLe (copied m) 1 1) (rdLe (copied m) 4 4) m.fn m.door.val)] } := by
  have hc : WriteCmd faultClearCmd := writeCmd
  refine (hc.accepted h fun M => ?_).waitsAt fun M => rfl
  have h1 : ¬ ((copied m).length ≠ 8 ∨ (!faultInSet (copied m)) = true) := by simp [hlen, hset]
  have h2 : ¬ (nodeInSet (copied m) && !nodeArgPresent (inService s.dev M) (copied m)) = true := by
    simpa [nodeArgPresent_inService] using hpres
  exact (if_neg h1).trans (if_neg h2)

end

section

variable {x : Ctx} {p : List Byte} {d : Dev}

theorem faultClass_check (hlen : p.length = 4 ∨ p.length = 20) (hs : rdLe p 0 2 = 0 ∨ srcExists d (rdLe p 0 2) = true) :
    faultClassCmd.check x p d = none := by
  have h1 : ¬ (p.length ≠ 4 ∧ p.length ≠ 20) := by omega
  have h2 : ¬ (rdLe p 0 2 ≠ 0 ∧ srcExists d (rdLe p 0 2) = false) := by
    obtain h | h := hs <;> simp [h]
  exact (if_neg h1).trans (if_neg h2)

theorem faultClass_reads_source (hlen : p.length = 4) (h0 : rdLe p 0 2 ≠ 0) :
    faultClassCmd.body x p d = .done .ok (leBytes 16 (faultSrcImage d (rdLe p 0 2))) [] d := by
  simp only [faultClassCmd, if_neg h0, if_pos hlen]

theorem faultClass_reads_collector (hlen : p.length = 4) (h0 : rdLe p 0 2 = 0) :
    faultClassCmd.body x p d = .done .ok (leBytes 16 (getRec d .collector 0)) [] d := by
  simp only [faultClassCmd, if_pos h0, if_pos hlen]

/-- A source's record as a write leaves it. -/
def sourceWritten (d : Dev) (p : List Byte) : Nat × List ClampEntry :=
  clampRecord RecKind.faultSrc.fields (faultSrcDep (rdLe p 0 2)) 0 (getRec d .faultSrc (rdLe p 0 2)) (rdLe p 4 16)

/-- The collector's record as a write leaves it. -/
def collectorWritten (d : Dev) (p : List Byte) : Nat × List ClampEntry :=
  clampRecord RecKind.collector.fields noDep 0 (getRec d .collector 0) (rdLe p 4 16)

theorem faultClass_writes_source (hlen : p.length = 20) (h0 : rdLe p 0 2 ≠ 0) :
    faultClassCmd.body x p d = .done .ok
      (leBytes 16 (mergeRw RecKind.faultSrc.fields (faultSrcImage d (rdLe p 0 2)) (sourceWritten d p).1)) (sourceWritten d p).2
      (defer d (.write .faultSrc (rdLe p 0 2) (sourceWritten d p).1)) := by
  have h4 : ¬ p.length = 4 := by omega
  simp only [faultClassCmd, if_neg h0, if_neg h4, sourceWritten]

theorem faultClass_writes_collector (hlen : p.length = 20) (h0 : rdLe p 0 2 = 0) :
    faultClassCmd.body x p d = .done .ok
      (leBytes 16 (mergeRw RecKind.collector.fields (getRec d .collector 0) (collectorWritten d p).1)) (collectorWritten d p).2
      (defer d (.write .collector 0 (collectorWritten d p).1)) := by
  have h4 : ¬ p.length = 4 := by omega
  simp only [faultClassCmd, h0, if_true, if_neg h4, collectorWritten]

theorem sourceWritten_inService (M : MbxState) : sourceWritten (inService d M) p = sourceWritten d p := rfl

theorem collectorWritten_inService (M : MbxState) : collectorWritten (inService d M) p = collectorWritten d p := rfl

theorem faultSrcImage_inService (M : MbxState) (id : Nat) : faultSrcImage (inService d M) id = faultSrcImage d id := rfl

theorem countEntries_inService (M : MbxState) (ids : List Nat) :
    ids.flatMap (countEntry (inService d M)) = ids.flatMap (countEntry d) := rfl

theorem sourcesFrom_inService (M : MbxState) (id : Nat) : sourcesFrom (inService d M) id = sourcesFrom d id := rfl

theorem faultInject_check (hlen : p.length = 4) (h1 : rdLe p 2 1 ≤ 1) (h3 : rdLe p 3 1 ≠ 0)
    (hs : srcExists d (rdLe p 0 2) = true) : faultInjectCmd.check x p d = none := by
  have hn : ¬ (p.length ≠ 4 ∨ 1 < rdLe p 2 1 ∨ rdLe p 3 1 = 0) := by omega
  exact (if_neg hn).trans (if_neg (by simp [hs]))

/-- A checker armed (R418). -/
def checkerArmed (d : Dev) (c n mode : Nat) : Dev :=
  let e := setFld d .faultSrc c FSrc.injectRemain n
  { e with flt := { e.flt with injectMode := Tab.set 0 e.flt.injectMode c mode } }

theorem faultInject_arms (hc : (srcInfo (rdLe p 0 2)).checker = true) (h5 : srcClass d (rdLe p 0 2) ≠ 5)
    (h0 : injectRemain d (rdLe p 0 2) = 0) :
    let e := checkerArmed d (checkerOf (rdLe p 0 2)) (rdLe p 3 1) (rdLe p 2 1)
    faultInjectCmd.body x p d = .done .ok (recBytes .faultSrc (faultSrcImage e (rdLe p 0 2))) [] e :=
  if_neg (by simp [hc, h5, h0])

end

/-- FAULT_CLASS with a payload of one of its lengths, of the collector or of a source there is. -/
theorem faultClass_accepted {s : State} {m : Msg} (h : byController s m = true)
    (hlen : (copied m).length = 4 ∨ (copied m).length = 20)
    (hs : rdLe (copied m) 0 2 = 0 ∨ srcExists s.dev (rdLe (copied m) 0 2) = true) : Accepted faultClassCmd s m :=
  ⟨h, admitted_of (by decide) (fun _ => rfl) (by split <;> rfl) (by decide),
    fun M => faultClass_check (d := inService s.dev M) hlen hs, noTenant s.dev rfl⟩

/-- Settles O28: each command waits for the edge, or answers by the source it names. -/
theorem faultCommands : Obligations.FaultCommands := by
  have hinject : WriteCmd faultInjectCmd := writeCmd
  have hcounts : ReportCmd faultCountsCmd := reportCmd
  intro s m₀
  refine ⟨?_, fun h => ⟨fun h0 hs => ⟨fun hlen => ?_, fun hlen => ?_⟩, fun h0 => ⟨fun hlen => ?_, fun hlen => ?_⟩,
    fun hlen h1 h3 hs => ?_, fun hlen => ?_⟩⟩
  · simp only [List.forall_mem_cons, List.not_mem_nil, false_imp_iff, implies_true, and_true]
    exact ⟨faultClear_waits, faultClear_waits, faultClear_waits, faultClear_waits, faultClear_waits⟩
  · refine (faultClass_accepted h (.inl hlen) (.inr hs)).status fun M => ?_
    rw [faultClass_reads_source hlen h0, faultSrcImage_inService]
  · refine (faultClass_accepted h (.inr hlen) (.inr hs)).reportAt fun M => ?_
    rw [faultClass_writes_source hlen h0, faultSrcImage_inService, sourceWritten_inService]
    rfl
  · exact (faultClass_accepted h (.inl hlen) (.inl h0)).status fun M => faultClass_reads_collector hlen h0
  · refine (faultClass_accepted h (.inr hlen) (.inl h0)).reportAt fun M => ?_
    rw [faultClass_writes_collector hlen h0, collectorWritten_inService]
    rfl
  · have ha := hinject.accepted h fun M => faultInject_check (d := inService s.dev M) hlen h1 h3 hs
    exact ⟨fun hc h5 hr => ha.effectsOk fun M => faultInject_arms (d := inService s.dev M) hc h5 hr,
      fun hr => ha.status fun M => if_pos hr⟩
  · refine (hcounts.accepted h fun _ => by simp [faultCountsCmd, lens, hlen]).status fun M => ?_
    simp only [faultCountsCmd, sourcesFrom_inService, countEntries_inService]

/-! ### POWER_STATE -/

section

variable {x : Ctx} {p : List Byte} {d : Dev}

/-- A change of the power state that is to be made. -/
def powerPending (d : Dev) (v : Nat) : Dev := setFld d .power 0 Pow.pending v

theorem powerTarget_pending {v : Nat} (h : pendingState d ≠ 0) : powerTarget d v = .done .state [] [] d := if_pos h

theorem powerTarget_present (h0 : pendingState d = 0) {v : Nat} (hv : power d = v) :
    powerTarget d v = .done .ok (powerBytes d) [] d := by
  rw [powerTarget, if_neg (not_not.2 h0), if_pos hv.symm]

theorem powerTarget_full (h0 : pendingState d = 0) (hv : power d ≠ 0) : powerTarget d 0
    = .done .ok (powerBytes (defer (powerPending d 3) .listenExit)) [] (defer (powerPending d 3) .listenExit) := by
  rw [powerTarget, if_neg (not_not.2 h0), if_neg (Ne.symm hv)]
  rfl

theorem powerTarget_listen (h0 : pendingState d = 0) (hv : power d ≠ 1) : powerTarget d 1
    = .done .ok (powerBytes (defer (powerPending d 1) .listen)) [] (defer (powerPending d 1) .listen) := by
  rw [powerTarget, if_neg (not_not.2 h0), if_neg (Ne.symm hv)]
  rfl

/-- KEEP-TIME asked for, from the answer on (R434). -/
def keepTimeFrom (d : Dev) : Dev := powerPending { d with pwr := { d.pwr with ktFrom := some d.bt } } 2

theorem powerTarget_keepTime (h0 : pendingState d = 0) (hv : power d ≠ 2) (ht : trialActive d = false) (hl : d.mbx.locks = []) :
    powerTarget d 2 = .done .ok (powerBytes (keepTimeFrom d)) [] (keepTimeFrom d) := by
  have hn : ¬ (trialActive d || anyLock d) = true := by simp [ht, anyLock, hl]
  rw [powerTarget, if_neg (not_not.2 h0), if_neg (Ne.symm hv), if_pos rfl, if_neg hn]
  rfl

theorem powerTarget_onTrial (ht : trialActive d = true) (hv : power d ≠ 2) :
    powerTarget d 2 = .done .state [] [] d := by
  have hp : (trialActive d || anyLock d) = true := by simp [ht]
  rw [powerTarget, if_neg (Ne.symm hv), if_pos rfl, if_pos hp, ite_self]

theorem powerState_body {v : Nat} (hv : rdLe p 0 1 = v) (h2 : v ≤ 2) : powerStateCmd.body x p d = powerTarget d v := by
  subst hv
  exact if_neg (by omega)

end

section

variable {s : State} {m : Msg}

/-- A message that asks for a state, or for the record. -/
theorem powerState_accepted (h : byController s m = true) (hlen : (copied m).length = 4)
    (hv : rdLe (copied m) 0 1 ≤ 2 ∨ rdLe (copied m) 0 1 = 0xFF) : Accepted powerStateCmd s m :=
  ⟨h, admitted_of (by decide) (fun _ => rfl) (by split <;> rfl) (by decide), fun _ => if_pos ⟨hlen, hv⟩, noTenant s.dev rfl⟩

/-- A request of the controller host that takes no lock and answers OK: its effect. -/
theorem Accepted.effectsUnlocked {c : Cmd} (a : Accepted c s m) {pl : Dev → List Byte} {f : Dev → Dev}
    (hl : c.locks (copied m) = [])
    (hb : ∀ M, M.locks = [] → c.body (hostCtx s m) (copied m) (inService s.dev M)
      = .done .ok (pl (inService s.dev M)) [] (f (inService s.dev M))) :
    effects (mailbox c m s) s m (fun d => plain .ok (pl d)) f := by
  refine effects_ready (byController_ready a.byController) c pl f a.admitted.present
    (fun M => allowed_byController a.byController c _ M (a.admitted.admits M) a.admitted.rights) fun M hM => ?_
  rw [runCmd_plain c _ _ _ (a.check M) hl (serves_byController a.byController _ (cls_ne a.admitted.classes _)) a.tenant,
    takeLocks_nil, hb M hM]

/-- What any state asked for is answered at once. -/
theorem powerState_answers (h : byController s m = true) (hlen : (copied m).length = 4) {v : Nat}
    (hv : rdLe (copied m) 0 1 = v) (h2 : v ≤ 2) :
    (pendingState s.dev ≠ 0 → answers (mailbox powerStateCmd m s) s m (plain .state []) s.dev)
    ∧ (pendingState s.dev = 0 → power s.dev = v →
      answers (mailbox powerStateCmd m s) s m (plain .ok (powerBytes s.dev)) s.dev) := by
  have ha := powerState_accepted h hlen (.inl (by omega))
  refine ⟨fun hp => ha.status fun M => ?_, fun hp hpow => ha.status fun M => ?_⟩
  · exact (powerState_body hv h2).trans (powerTarget_pending (d := inService s.dev M) hp)
  · exact (powerState_body hv h2).trans (powerTarget_present (d := inService s.dev M) hp hpow)

end

/-! ### Resets -/

section

variable {x : Ctx} {p : List Byte} {d : Dev}

/-- A device reset due 1 ms after its answer (R422). -/
def resetSoon (d : Dev) : Dev :=
  { d with pwr := { d.pwr with resetDue := some (d.pwr.resetDue.getD (d.bt + msToBt d 1, 3)) } }

theorem deviceReset_due (hl : d.mbx.locks = []) :
    deviceResetCmd.body x p d = .done .ok (leBytes 8 d.bt) [] (resetSoon d) := by
  refine if_neg ?_
  simp [hl]

/-- The bits of RESET_CAUSE given are cleared. -/
def causeCleared (d : Dev) (b : Nat) : Dev :=
  let c := fld d .resetCause 0 RCause.cause
  setFld d .resetCause 0 RCause.cause (c - (c &&& (b % 2 ^ 15)))

theorem resetCause_clears (hlen : p.length = 4) : resetCauseCmd.body x p d
    = .done .ok (causeBytes (causeCleared d (rdLe p 0 2))) [] (causeCleared d (rdLe p 0 2)) := by
  have hn : ¬ p.length = 0 := by omega
  simp only [resetCauseCmd, if_neg hn, causeCleared]

end

/-- Settles O29: what is pending and what is present decide on a state asked for. -/
theorem powerCommands : Obligations.PowerCommands := by
  have hreset : WriteCmd deviceResetCmd := writeCmd
  intro s m₀ asked turns pend atEdge
  refine ⟨?_, ?_, ?_, ?_, ?_, fun h hp => ?_, fun h hlen => ?_⟩
  · rintro m ⟨rfl, h, hlen, hv⟩
    exact (powerState_accepted h hlen (.inr hv)).okAt fun M => if_pos hv
  · simp only [List.mem_cons, Prod.mk.injEq, List.not_mem_nil, or_false]
    rintro v i (⟨rfl, rfl⟩ | ⟨rfl, rfl⟩ | ⟨rfl, rfl⟩) m ⟨rfl, h, hlen, hv⟩
    · exact powerState_answers h hlen hv (by decide)
    · exact powerState_answers h hlen hv (by decide)
    · exact powerState_answers h hlen hv (by decide)
  · rintro m ⟨rfl, h, hlen, hv⟩ h0 hp
    refine (powerState_accepted h hlen (.inl (by omega))).effectsOk fun M => ?_
    exact (powerState_body hv (by decide)).trans (powerTarget_full (d := inService s.dev M) h0 hp)
  · rintro m ⟨rfl, h, hlen, hv⟩ h0 hp
    refine (powerState_accepted h hlen (.inl (by omega))).effectsOk fun M => ?_
    exact (powerState_body hv (by decide)).trans (powerTarget_listen (d := inService s.dev M) h0 hp)
  · rintro m ⟨rfl, h, hlen, hv⟩ h0 hp
    have ha := powerState_accepted h hlen (.inl (by omega))
    refine ⟨fun ht => ha.effectsUnlocked rfl fun M hM => ?_, fun ht => ha.status fun M => ?_⟩
    · exact (powerState_body hv (by decide)).trans (powerTarget_keepTime (d := inService s.dev M) h0 hp ht hM)
    · exact (powerState_body hv (by decide)).trans (powerTarget_onTrial (d := inService s.dev M) ht hp)
  · have ha := hreset.accepted h fun _ => by rw [hp]; rfl
    exact ha.okUnlocked rfl (fun M hM => deviceReset_due (d := inService s.dev M) hM) rfl
  · have ha : Accepted resetCauseCmd s m₀ := ⟨h, admitted_of (by decide) (fun _ => rfl) (by split <;> rfl) (by decide),
      fun _ => by simp [resetCauseCmd, lens, hlen], noTenant s.dev rfl⟩
    exact ha.effectsOk fun M => resetCause_clears (d := inService s.dev M) hlen

end Sys2Proof.Machine

/-! R444, R446, R448, R451, R453, R454: the commands of the gauge and of the trace scribe. -/

namespace Sys2Proof.Machine

open Sys2Proof

/-- A body that answers STATE and has an effect. -/
theorem Accepted.stateAt {c : Cmd} {s : State} {m : Msg} (a : Accepted c s m) {e : Dev}
    (hb : ∀ M, c.body (hostCtx s m) (copied m) (inService s.dev M) = .done .state [] [] (inService e M))
    (hm : e.mbx = s.dev.mbx) : answers (mailbox c m s) s m (plain .state []) e := by
  have := ran_done a.byController c .state [] [] e a.admitted.present a.admitted.admits a.admitted.rights hm
    a.admitted.classes a.check a.tenant fun M => ⟨[], hb M⟩
  simpa using this

/-! ### The gauge and the counters -/

section

variable {x : Ctx} {p : List Byte} {d : Dev}

theorem gauge_strobes (h : d.obs.gauge = none) : gaugeCmd.body x p d
    = .wait .gauge { d with obs := { d.obs with
        gauge := some { strobeBt := d.bt + 2, fn := x.fn, door := x.door, captured := none } } } := by
  simp only [gaugeCmd, h]

theorem gauge_busy {g : GaugeRun} (h : d.obs.gauge = some g) : gaugeCmd.body x p d
    = .done .busy (busyPayload ⟨lockGauge, g.fn, g.door, g.strobeBt - 2⟩) [] d := by
  simp only [gaugeCmd, h]

/-- The counters a CTR_READ names. -/
def ctrNamed (p : List Byte) : List Nat := (List.range (rdLe p 8 4)).map (rdLe p 4 4 + ·)

/-- The snapshot a CTR_READ names. -/
def snapNamed (d : Dev) (p : List Byte) : Option Snapshot := d.obs.snaps.find? fun x => decide (x.id = rdLe p 0 4)

theorem ctrRead_live (h0 : rdLe p 0 4 = 0) : ctrReadCmd.body x p d
    = .done .ok (leBytes 4 0 ++ leBytes 4 0 ++ leBytes 8 0
        ++ (ctrNamed p).flatMap fun i => leBytes 8 (liveValue (settleAll d) i)) [] (settleAll d) := by
  simp only [ctrReadCmd, if_pos h0, ctrNamed]

theorem ctrRead_snap (h0 : rdLe p 0 4 ≠ 0) {y : Snapshot} (h : snapNamed d p = some y) : ctrReadCmd.body x p d
    = .done .ok (leBytes 4 (rdLe p 0 4) ++ leBytes 4 0 ++ leBytes 8 y.strobeBt
        ++ (ctrNamed p).flatMap fun i => leBytes 8 (snapValue d y i)) [] d := by
  unfold snapNamed at h
  simp only [ctrReadCmd, if_neg h0, h, ctrNamed]

theorem ctrRead_state (h0 : rdLe p 0 4 ≠ 0) (h : snapNamed d p = none) : ctrReadCmd.body x p d = .done .state [] [] d := by
  unfold snapNamed at h
  simp only [ctrReadCmd, if_neg h0, h]

end

/-! ### The scribe -/

section

variable {x : Ctx} {p : List Byte} {d : Dev}

theorem scribeTrigger_ignored (h : scribeState d = 2 ∨ scribeState d = 3) :
    scribeTrigger d 1 0 = bumpFld d .scribeHdr 0 ScrSt.trigIgnored := by
  have h1 : ¬ scribeState d = 1 := by omega
  rw [scribeTrigger, if_neg h1, if_pos h]

theorem scribeTrigger_idle (h : scribeState d = 0 ∨ 3 < scribeState d) : scribeTrigger d 1 0 = d := by
  have h1 : ¬ scribeState d = 1 := by omega
  have h2 : ¬ (scribeState d = 2 ∨ scribeState d = 3) := by omega
  rw [scribeTrigger, if_neg h1, if_neg h2]

theorem scribeTrigger_body_other (h : scribeState d ≠ 1) :
    scribeTriggerCmd.body x p d = .done .state [] [] (scribeTrigger d 1 0) := if_neg h

theorem bumpFld_inService (M : MbxState) (k : RecKind) (i : Nat) (f : Fld) :
    bumpFld (inService d M) k i f = inService (bumpFld d k i f) M := rfl

theorem scribeAdvance_cuts (h : scribeState d = 1) :
    scribeAdvanceCmd.body x p d = .done .ok (scribeBytes (endSegment d 3)) [] (endSegment d 3) := by
  simp only [scribeAdvanceCmd, h, true_or, if_true]

theorem scribeAdvance_completes (h : scribeState d = 2) :
    scribeAdvanceCmd.body x p d = .done .ok (scribeBytes (endSegment d 2)) [] (endSegment d 2) := by
  simp only [scribeAdvanceCmd, h, or_true, if_true, OfNat.ofNat_ne_one, if_false]

theorem scribeAdvance_state (h1 : scribeState d ≠ 1) (h2 : scribeState d ≠ 2) :
    scribeAdvanceCmd.body x p d = .done .state [] [] d := if_neg (by omega)

end

/-- Settles O30: the gauge, the snapshots and the scribe's state decide. -/
theorem observeCommands : Obligations.ObserveCommands := by
  have hgauge : ReportCmd gaugeCmd := reportCmd
  have harm : WriteCmd scribeArmCmd := writeCmd
  have htrig : WriteCmd scribeTriggerCmd := writeCmd
  have hadv : WriteCmd scribeAdvanceCmd := writeCmd
  have hread : ReportCmd scribeReadCmd := reportCmd
  intro s m h p
  refine ⟨fun hp => ?_, fun hlen hn htop => ?_, fun hp => ?_, fun hlen hi h1 hmax => ?_⟩
  · have ha := hgauge.accepted h fun _ => by rw [show copied m = [] from hp]; rfl
    exact ⟨fun hg => ha.waitsAt fun M => gauge_strobes (d := inService s.dev M) hg,
      fun g hg => ha.status fun M => gauge_busy (d := inService s.dev M) hg⟩
  · have ha : Accepted ctrReadCmd s m :=
      ⟨h, admitted_of (by decide) (fun _ => rfl) rfl (by decide), fun _ => if_pos ⟨hlen, hn, htop⟩, noTenant s.dev rfl⟩
    exact ⟨fun h0 => ha.effectsOk fun M => ctrRead_live h0,
      fun h0 y hy => ha.status fun M => ctrRead_snap (d := inService s.dev M) h0 hy,
      fun h0 hy => ha.status fun M => ctrRead_state (d := inService s.dev M) h0 hy⟩
  · have ha := harm.accepted h fun _ => by rw [show copied m = [] from hp]; rfl
    have ht := htrig.accepted h fun _ => by rw [show copied m = [] from hp]; rfl
    have hd := hadv.accepted h fun _ => by rw [show copied m = [] from hp]; rfl
    refine ⟨ha.effectsOk fun M => rfl, fun h1 => ⟨ht.effectsOk fun M => if_pos h1, hd.effectsOk fun M => ?_⟩,
      fun h2 => hd.effectsOk fun M => ?_, fun h23 => ht.stateAt (fun M => ?_) rfl, fun h0 => ht.status fun M => ?_,
      fun h1 h2 => hd.status fun M => ?_⟩
    · exact scribeAdvance_cuts (d := inService s.dev M) h1
    · exact scribeAdvance_completes (d := inService s.dev M) h2
    · rw [scribeTrigger_body_other (d := inService s.dev M) (fun h1 : scribeState s.dev = 1 => by omega),
        scribeTrigger_ignored (d := inService s.dev M) h23, bumpFld_inService]
    · rw [scribeTrigger_body_other (d := inService s.dev M) (fun h1 : scribeState s.dev = 1 => by omega),
        scribeTrigger_idle (d := inService s.dev M) h0]
    · exact scribeAdvance_state (d := inService s.dev M) h1 h2
  · have ha := hread.accepted h fun _ => if_pos ⟨hlen, hi, h1, hmax⟩
    exact ⟨fun hs => ha.status fun M => if_neg (Nat.not_le.2 hs), fun hs => ha.status fun M => if_pos hs⟩

end Sys2Proof.Machine

/-! R318, R325, R327, R331: what an event of the device does, and the host's registers. -/

namespace Sys2Proof.Machine

open Sys2Proof

/-! ### Events of a device under power -/

section

variable {s : State} {f g : Dev → Dev} {P : Dev → Prop} {b : Prop}

/-- An event off the packet path has its effect. -/
theorem becomes_event (h : s.dev.pwr.aonUp = true) (hf : f (fresh s.dev) = g (fresh s.dev)) : becomes (whenOn s f) s g :=
  (whenOn_up h f).trans (by rw [hf])

theorem rests_event (h : s.dev.pwr.aonUp = true) (hf : f (fresh s.dev) = fresh s.dev) : rests (whenOn s f) s :=
  becomes_event h hf

theorem acts_event (h : s.dev.pwr.aonUp = true) (hp : P (f (fresh s.dev))) : acts (whenOn s f) s P :=
  ⟨_, whenOn_up h f, hp⟩

theorem onlyIf_event (h : s.dev.pwr.aonUp = true) (hb : b → f (fresh s.dev) = g (fresh s.dev))
    (hn : ¬ b → f (fresh s.dev) = fresh s.dev) : onlyIf b (whenOn s f) s g :=
  ⟨fun hb' => becomes_event h (hb hb'), fun hn' => rests_event h (hn hn')⟩

/-- An event of the packet path, while it works, has its effect. -/
theorem becomes_pathEvent (h : s.dev.pwr.aonUp = true) (hr : s.dev.pwr.railFailed = false) (hp : pathRuns s.dev = true)
    (hf : f (fresh s.dev) = g (fresh s.dev)) : becomes (onPath s f) s g :=
  (onPath_open h hr hp f).trans (by rw [hf])

theorem rests_pathEvent (h : s.dev.pwr.aonUp = true) (hr : s.dev.pwr.railFailed = false) (hp : pathRuns s.dev = true)
    (hf : f (fresh s.dev) = fresh s.dev) : rests (onPath s f) s :=
  becomes_pathEvent h hr hp hf

theorem acts_pathEvent (h : s.dev.pwr.aonUp = true) (hr : s.dev.pwr.railFailed = false) (hp : pathRuns s.dev = true)
    (hf : P (f (fresh s.dev))) : acts (onPath s f) s P :=
  ⟨_, onPath_open h hr hp f, hf⟩

theorem onlyIf_pathEvent (h : s.dev.pwr.aonUp = true) (hr : s.dev.pwr.railFailed = false) (hp : pathRuns s.dev = true)
    (hb : b → f (fresh s.dev) = g (fresh s.dev)) (hn : ¬ b → f (fresh s.dev) = fresh s.dev) : onlyIf b (onPath s f) s g :=
  ⟨fun hb' => becomes_pathEvent h hr hp (hb hb'), fun hn' => rests_pathEvent h hr hp (hn hn')⟩

end

/-! ### Writes of host registers -/

section

variable {d : Dev} {f : Fn} {e v : Nat}

theorem deviceEventsW1c_reached (h : barUp d (pfOf e) = true) (bits : Nat) : deviceEventsW1c d e bits
    = setFn d (pfOf e) { getFn d (pfOf e) with
        deviceEvents := (getFn d (pfOf e)).deviceEvents - ((getFn d (pfOf e)).deviceEvents &&& bits) } := if_pos h

theorem deviceEventsW1c_unreached (h : barUp d (pfOf e) = false) (bits : Nat) : deviceEventsW1c d e bits = d :=
  if_neg (ne_true_of_eq_false h)

theorem deviceEventMask_reached (h : barUp d (pfOf e) = true) (n : Nat) : deviceEventMask d e n
    = if (List.range 4).any (fun b => bit (getFn d (pfOf e)).deviceEventMask b && !bit (n % 16) b
          && bit (getFn d (pfOf e)).deviceEvents b) then
        sendMsix (setFn d (pfOf e) { getFn d (pfOf e) with deviceEventMask := n % 16 }) (pfOf e) 8
      else setFn d (pfOf e) { getFn d (pfOf e) with deviceEventMask := n % 16 } := if_pos h

theorem deviceEventMask_unreached (h : barUp d (pfOf e) = false) (n : Nat) : deviceEventMask d e n = d :=
  if_neg (ne_true_of_eq_false h)

theorem vfEventW1c_reached (h : barUp d (vfOf e v) = true) (bits : Nat) : vfEventW1c d e v bits
    = setRec d .eventWord (eventIdx e v) (eventWord d e v - (eventWord d e v &&& bits)) := if_pos h

theorem vfEventW1c_unreached (h : barUp d (vfOf e v) = false) (bits : Nat) : vfEventW1c d e v bits = d :=
  if_neg (ne_true_of_eq_false h)

/-- An access that no BAR takes, or one of another size, changes nothing (R318). -/
theorem barWrite_ignored {o size n : Nat} (h : barUp d f = false ∨ (f.vf.isSome = true ∧ 0x10000 ≤ o)
    ∨ ¬ (size = 4 ∧ o % 4 = 0 ∨ size = 8 ∧ o % 8 = 0)) : barWrite d f o size n = d := by
  unfold barWrite
  split
  · rfl
  next hn =>
    obtain ⟨hb, hv⟩ : barUp d f = true ∧ ¬ (f.vf.isSome = true ∧ 0x10000 ≤ o) := by simpa using hn
    obtain h | h | h := h
    · exact absurd (h.symm.trans hb) (by decide)
    · exact absurd h hv
    · rw [if_neg (fun h4 => h (.inl h4)), if_neg (fun h8 => h (.inr h8))]

/-- The function's BAR takes an access. -/
theorem bar_takes {o : Nat} (h : barUp d f = true) (hv : f.vf.isSome = true → o < 0x10000) :
    ¬ ((!barUp d f) = true ∨ (f.vf.isSome = true ∧ 0x10000 ≤ o)) := by
  simpa [h] using hv

theorem barWrite_dword {o n : Nat} (h : barUp d f = true) (hv : f.vf.isSome = true → o < 0x10000) (h4 : o % 4 = 0) :
    barWrite d f o 4 n = writeDword d f o (n % 2 ^ 32) :=
  (if_neg (bar_takes h hv)).trans (if_pos ⟨rfl, h4⟩)

theorem barWrite_qword {o n : Nat} (h : barUp d f = true) (hv : f.vf.isSome = true → o < 0x10000) (h8 : o % 8 = 0) :
    barWrite d f o 8 n = writeDword (writeDword d f o (n % 2 ^ 32)) f (o + 4) (n / 2 ^ 32 % 2 ^ 32) :=
  (if_neg (bar_takes h hv)).trans ((if_neg (by simp)).trans (if_pos ⟨rfl, h8⟩))

/-- PAGE_BASE of a PF's window is limited silently (R449). -/
theorem barWrite_pageBase (h : barUp d (pfOf e) = true) (n : Nat) : barWrite d (pfOf e) 0x20000 4 n
    = setFn d (pfOf e) { getFn d (pfOf e) with pageBase := min (n % 2 ^ 32) 106495 } :=
  barWrite_dword h (fun hv => by cases hv) rfl

theorem barWrite_source (h : barUp d (pfOf e) = true) (n : Nat) : barWrite d (pfOf e) 0x20004 4 n
    = setFn d (pfOf e) { getFn d (pfOf e) with winSource := n % 2 } := by
  have hw : barWrite d (pfOf e) 0x20004 4 n
      = setFn d (pfOf e) { getFn d (pfOf e) with winSource := n % 2 ^ 32 % 2 } :=
    barWrite_dword h (fun hv => by cases hv) rfl
  rw [hw, Nat.mod_mod_of_dvd _ (by decide)]

end

/-- Settles O31: each write is taken by its register, where the function's BAR is reached. -/
theorem hostRegisterWrites : Obligations.HostRegisterWrites := by
  intro s h
  refine ⟨fun ep => ⟨fun hb => ⟨fun bits => ?_, fun v => ?_, fun v => ⟨?_, ?_⟩⟩, fun hb v => ⟨?_, ?_⟩⟩,
    fun ep vf bits => ⟨fun hb => ?_, fun hb => ?_⟩, fun f off size v => ⟨fun hi => ?_, fun hb hv => ⟨?_, ?_⟩⟩⟩
  · exact becomes_event (f := fun d => deviceEventsW1c d ep.val _) h (deviceEventsW1c_reached (d := fresh s.dev) hb _)
  · exact becomes_event (f := fun d => deviceEventMask d ep.val _) h (deviceEventMask_reached (d := fresh s.dev) hb _)
  · exact becomes_event (f := fun d => barWrite d (pfOf ep.val) 0x20000 4 v.toNat) h (barWrite_pageBase (d := fresh s.dev) hb _)
  · exact becomes_event (f := fun d => barWrite d (pfOf ep.val) 0x20004 4 v.toNat) h (barWrite_source (d := fresh s.dev) hb _)
  · exact rests_event (f := fun d => deviceEventsW1c d ep.val _) h (deviceEventsW1c_unreached (d := fresh s.dev) hb _)
  · exact rests_event (f := fun d => deviceEventMask d ep.val _) h (deviceEventMask_unreached (d := fresh s.dev) hb _)
  · exact becomes_event (f := fun d => vfEventW1c d ep.val vf.val _) h (vfEventW1c_reached (d := fresh s.dev) hb _)
  · exact rests_event (f := fun d => vfEventW1c d ep.val vf.val _) h (vfEventW1c_unreached (d := fresh s.dev) hb _)
  · exact rests_event (f := fun d => barWrite d f off.toNat _ v.toNat) h (barWrite_ignored (d := fresh s.dev) hi)
  · rintro rfl h4
    exact becomes_event (f := fun d => barWrite d f off.toNat _ v.toNat) h (barWrite_dword (d := fresh s.dev) hb hv h4)
  · rintro rfl h8
    exact becomes_event (f := fun d => barWrite d f off.toNat _ v.toNat) h (barWrite_qword (d := fresh s.dev) hb hv h8)

/-! ### Reads of host registers -/

section

variable {d : Dev} {f : Fn}

theorem barRead_ignored {o : Nat} (h : barUp d f = false ∨ (f.vf.isSome = true ∧ 0x10000 ≤ o)) : barRead d f o = d :=
  if_pos (by simpa using h)

theorem barRead_unaligned {o : Nat} (h : barUp d f = true) (hv : f.vf.isSome = true → o < 0x10000) (h4 : o % 4 ≠ 0) :
    barRead d f o = emit d (.barRead f o 0) :=
  (if_neg (bar_takes h hv)).trans (if_pos h4)

theorem barRead_dword {o : Nat} (h : barUp d f = true) (hv : f.vf.isSome = true → o < 0x10000) (h4 : o % 4 = 0) :
    barRead d f o = emit (barDword d f o).2 (.barRead f o (barDword d f o).1) :=
  (if_neg (bar_takes h hv)).trans (if_neg (not_not.2 h4))

theorem barDword_btLow : barDword d f 0x10
    = (d.bt % 2 ^ 32, setFn d f { getFn d f with btLatch := d.bt % 2 ^ 64 }) := by
  unfold barDword
  cases f.vf <;> rfl

theorem barDword_eventsInFlr (hv : f.vf.isSome = true) : barDword d f 8
    = ((getFn d f).eventsInFlr, setFn d f { getFn d f with eventsInFlr := 0 }) := by
  obtain ⟨v, hv⟩ := Option.isSome_iff_exists.1 hv
  have hf : f = vfOf f.ep.val v.val := by
    obtain ⟨ep, vf⟩ := f
    cases hv
    simp [vfOf]
  simp only [barDword, hv, pageRead, vfPage, Option.isSome_some, and_self, if_true, Nat.reduceEqDiff, if_false,
    Nat.reduceLT, ← hf]

/-- Where a ring's REFUSED stands (Tables HOST.1 and HOST.2). -/
def refusedAt (f : Fn) (tx : Bool) (r : Nat) : Nat :=
  (if f.vf.isSome then 0x2000 + (if tx then 0x80 else 0) else 0x4000 + (if tx then 0x800 else 0)) + 32 * r + 12

theorem refusedAt_bounds {tx : Bool} {r : Nat} (hr : r < ringCount f) :
    refusedAt f tx r < 0x5000 ∧ refusedAt f tx r % 4 = 0 := by
  unfold ringCount at hr
  unfold refusedAt
  cases hv : f.vf <;> cases tx <;> simp [hv] at hr ⊢ <;> omega

/-- The fourth dword of a ring block in a table of blocks. -/
theorem ringDword_at {b r : Nat} (hb : b % 32 = 0) (tx : Bool) :
    ringDword d f tx ((b + 32 * r + 12 - b) / 32) ((b + 32 * r + 12) % 32 / 4) = ringDword d f tx r 3 := by
  have hr : (b + 32 * r + 12 - b) / 32 = r := by omega
  have hk : (b + 32 * r + 12) % 32 / 4 = 3 := by omega
  rw [hr, hk]

theorem barDword_refused {tx : Bool} {r : Nat} (hr : r < ringCount f) (hs : safe d = false) :
    barDword d f (refusedAt f tx r) = ringDword d f tx r 3 := by
  unfold ringCount at hr
  unfold barDword refusedAt
  cases hv : f.vf with
  | none =>
    rw [hv, Option.isNone_none, if_pos rfl] at hr
    cases tx <;> simp (disch := omega) only [hs, Option.isSome_none, Bool.false_eq_true, if_true, if_false, if_neg, if_pos]
    · exact ringDword_at (by decide) _
    · exact ringDword_at (b := 0x4800) (by decide) _
  | some v =>
    rw [hv, Option.isNone_some, if_neg Bool.false_ne_true] at hr
    cases tx <;> simp (disch := omega) only [hs, Option.isSome_some, Bool.false_eq_true, if_true, if_false, if_neg, if_pos]
    · exact ringDword_at (by decide) _
    · exact ringDword_at (b := 0x2080) (by decide) _

end

/-- Settles O32: a read has the effect of its dword. -/
theorem hostRegisterReads : Obligations.HostRegisterReads := by
  intro s f h reads
  have hread (o : Nat) : whenOn s (fun d => barRead d f o) = .next { s with dev := barRead (fresh s.dev) f o } := whenOn_up h _
  refine ⟨fun hb => ⟨?_, fun hv => ?_, fun tx r hr hs => ?_, fun off h4 hv => ?_⟩, fun off hi => ?_, fun hb => ?_⟩
  · refine (hread 0x10).trans ?_
    rw [barRead_dword (d := fresh s.dev) hb (fun _ => by decide) rfl, barDword_btLow]
    rfl
  · refine (hread 8).trans ?_
    rw [barRead_dword (d := fresh s.dev) hb (fun _ => by decide) rfl, barDword_eventsInFlr hv]
    rfl
  · intro o i
    obtain ⟨hlt, h4⟩ := refusedAt_bounds (f := f) (tx := tx) hr
    have ho : (BitVec.ofNat 18 (refusedAt f tx r.val)).toNat = refusedAt f tx r.val :=
      Nat.mod_eq_of_lt (by omega)
    refine (hread (BitVec.ofNat 18 (refusedAt f tx r.val)).toNat).trans ?_
    rw [ho, barRead_dword (d := fresh s.dev) hb (fun _ => by omega) h4, barDword_refused (d := fresh s.dev) hr hs]
    rfl
  · refine (hread off.toNat).trans ?_
    rw [barRead_unaligned (d := fresh s.dev) hb hv h4]
    rfl
  · exact rests_event (f := fun d => barRead d f off.toNat) h (barRead_ignored (d := fresh s.dev) hi)
  · exact rests_event (f := fun d => barRead d f 0x10) h (barRead_ignored (d := fresh s.dev) (.inl hb))

end Sys2Proof.Machine

/-! R327, R330, R332: descriptors posted to a ring, its control word, and the ends of interrupt holdoffs. -/

namespace Sys2Proof.Machine

open Sys2Proof

section

variable {d : Dev} {f : Fn} {tx : Bool} {r : Nat}

/-- The ring's index as a write of PRODUCER leaves it. -/
def producerMoved (d : Dev) (f : Fn) (tx : Bool) (r n : Nat) : Dev := setFld d .ring (ringIdx f tx r) Rng.producer n

theorem ringEnabled_moved (n : Nat) : ringEnabled (producerMoved d f tx r n) f tx r = ringEnabled d f tx r := by
  unfold ringEnabled ringFld producerMoved
  rw [fld_setFld_other _ _ _ (by decide) (by decide)]

/-- The descriptors a write of PRODUCER posts: as many as it advances, 0 where the host has put none. -/
def newlyPosted (d : Dev) (f : Fn) (tx : Bool) (r producer : Nat) (ds : List (BitVec 256)) : List (BitVec 256) :=
  let n := (producer + 65536 - ringFld d f tx r Rng.producer) % 65536
  ds.take n ++ List.replicate (n - ds.length) 0

/-- The BAR and the function take a write to a ring. -/
theorem ring_takes (hb : barUp d f = true) (hr : r < ringCount f) : ¬ ((!barUp d f) = true ∨ ringCount f ≤ r) := by
  simpa [hb] using hr

theorem ring_ignores (h : barUp d f = false ∨ ringCount f ≤ r) : (!barUp d f) = true ∨ ringCount f ≤ r := by
  simpa using h

theorem ringProducer_enabled (hb : barUp d f = true) (hr : r < ringCount f) (he : ringEnabled d f tx r = true) (producer : Nat)
    (ds : List (BitVec 256)) : ringProducer d f tx r producer ds
      = tiuDrain (setRing (producerMoved d f tx r producer) f tx r { getRing d f tx r with
          posted := (getRing d f tx r).posted ++ newlyPosted d f tx r producer ds }) := by
  have he' : ringEnabled (producerMoved d f tx r producer) f tx r = true := (ringEnabled_moved producer).trans he
  exact (if_neg (ring_takes hb hr)).trans (congrArg tiuDrain (if_pos he'))

theorem ringProducer_disabled (hb : barUp d f = true) (hr : r < ringCount f) (he : ringEnabled d f tx r = false) (producer : Nat)
    (ds : List (BitVec 256)) : ringProducer d f tx r producer ds = tiuDrain (producerMoved d f tx r producer) := by
  have he' : ringEnabled (producerMoved d f tx r producer) f tx r ≠ true :=
    ne_true_of_eq_false ((ringEnabled_moved producer).trans he)
  exact (if_neg (ring_takes hb hr)).trans (congrArg tiuDrain (if_neg he'))

/-- A ring's record after a write of some of its bits, but for ENABLE's effects. -/
def ringClamped (d : Dev) (f : Fn) (tx : Bool) (r lo hi v : Nat) : Nat :=
  let old := getRec d .ring (ringIdx f tx r)
  (clampRecord (ringFieldsIn f lo hi) (ringDep d f tx (setF old ⟨hi, lo⟩ v)) 0 old (setF old ⟨hi, lo⟩ v)).1

theorem ringWrite_eq (d : Dev) (f : Fn) (tx : Bool) (r lo hi v : Nat) : ringWrite d f tx r lo hi v =
    let new := ringClamped d f tx r lo hi v
    let e := setRec d .ring (ringIdx f tx r) new
    if getF (getRec d .ring (ringIdx f tx r)) Rng.enable = 0 ∧ getF new Rng.enable = 1 then
      setRing (setFld e .ring (ringIdx f tx r) Rng.consumer (getF new Rng.producer)) f tx r
        { getRing d f tx r with posted := [], inFlight := [] }
    else if getF new Rng.enable = 0 then setRing e f tx r { getRing d f tx r with posted := [] }
    else e := by
  unfold ringWrite ringClamped
  rfl

theorem getRec_setRing (x : RingState) (k : RecKind) (i : Nat) : getRec (setRing d f tx r x) k i = getRec d k i := rfl

theorem enable_lt (v : Nat) : getF v Rng.enable < 2 := Nat.mod_lt _ (by decide)

theorem ringEnabled_iff : ringEnabled d f tx r = true ↔ getF (getRec d .ring (ringIdx f tx r)) Rng.enable = 1 := decide_eq_true_iff

/-- The record of a ring just enabled: CONSUMER at PRODUCER, and ENABLE as written. -/
theorem enabledRecord (v : Nat) :
    getF (setF v Rng.consumer (getF v Rng.producer)) Rng.consumer = getF (setF v Rng.consumer (getF v Rng.producer)) Rng.producer
    ∧ getF (setF v Rng.consumer (getF v Rng.producer)) Rng.enable = getF v Rng.enable := by
  have hlt : getF v Rng.producer < 2 ^ Fld.width Rng.consumer := Nat.mod_lt _ (by decide)
  refine ⟨?_, getF_setF_other (by decide) (by decide) _ _⟩
  rw [getF_setF_same (by decide), getF_setF_other (by decide) (by decide), Nat.mod_eq_of_lt hlt]

/-- What a write of a ring's bits leaves, by ENABLE before and after. -/
theorem ringWrite_cases (lo hi v : Nat) :
    let e := ringWrite d f tx r lo hi v
    (ringEnabled d f tx r = false ∧ ringEnabled e f tx r = true
        ∧ ringFld e f tx r Rng.consumer = ringFld e f tx r Rng.producer ∧ (getRing e f tx r).posted = [])
    ∨ (ringEnabled e f tx r = false ∧ (getRing e f tx r).posted = [])
    ∨ (ringEnabled d f tx r = true ∧ ringEnabled e f tx r = true) := by
  intro e
  have he : e = _ := ringWrite_eq d f tx r lo hi v
  generalize ringClamped d f tx r lo hi v = new at he
  have hnew := enable_lt new
  have hold := enable_lt (getRec d .ring (ringIdx f tx r))
  dsimp only at he
  split at he
  next h =>
    obtain ⟨h0, h1⟩ := h
    have hrec : getRec e .ring (ringIdx f tx r) = setF new Rng.consumer (getF new Rng.producer) := by
      rw [he, getRec_setRing, getRec_setFld_same, getRec_setRec_same]
    obtain ⟨hc, hen⟩ := enabledRecord new
    refine .inl ⟨?_, ringEnabled_iff.2 (by rw [hrec, hen, h1]), ?_, by rw [he, getRing_setRing_same]⟩
    · exact Bool.eq_false_iff.2 fun h => by rw [ringEnabled_iff, h0] at h; cases h
    · simp only [ringFld, fld, hrec, hc]
  next h =>
    split at he
    next h0 =>
      have hrec : getRec e .ring (ringIdx f tx r) = new := by rw [he, getRec_setRing, getRec_setRec_same]
      refine .inr (.inl ⟨?_, by rw [he, getRing_setRing_same]⟩)
      exact Bool.eq_false_iff.2 fun h => by rw [ringEnabled_iff, hrec, h0] at h; cases h
    next h0 =>
      have hrec : getRec e .ring (ringIdx f tx r) = new := by rw [he, getRec_setRec_same]
      refine .inr (.inr ⟨ringEnabled_iff.2 ?_, ringEnabled_iff.2 ?_⟩)
      · by_contra hn
        exact h ⟨by omega, by omega⟩
      · rw [hrec]
        omega

theorem ringEnableWrite_takes (hb : barUp d f = true) (hr : r < ringCount f) (v : Nat) :
    ringEnableWrite d f tx r v = tiuDrain (ringWrite d f tx r 160 191 v) := if_neg (ring_takes hb hr)

theorem ringEnableWrite_ignores (h : barUp d f = false ∨ ringCount f ≤ r) (v : Nat) : ringEnableWrite d f tx r v = d :=
  if_pos (ring_ignores h)

theorem ringProducer_ignores (h : barUp d f = false ∨ ringCount f ≤ r) (producer : Nat) (ds : List (BitVec 256)) :
    ringProducer d f tx r producer ds = d := if_pos (ring_ignores h)

theorem ringHoldoffEnd_idle (h : (getRing d f tx r).holdoff = false) : ringHoldoffEnd d f tx r = d := by
  simp only [ringHoldoffEnd, h, Bool.false_and, Bool.false_eq_true, if_false]

theorem ringHoldoffEnd_over (h : (getRing d f tx r).holdoff = true) (ho : (getRing d f tx r).irqOwed = false) :
    ringHoldoffEnd d f tx r = setRing d f tx r { getRing d f tx r with holdoff := false } := by
  simp only [ringHoldoffEnd, h, ho, Bool.and_false, Bool.false_eq_true, if_false, if_true]

theorem ringHoldoffEnd_sends (h : (getRing d f tx r).holdoff = true) (ho : (getRing d f tx r).irqOwed = true) :
    ringHoldoffEnd d f tx r
      = ringMessage (setRing d f tx r { getRing d f tx r with holdoff := false, irqOwed := false }) f tx r := by
  simp only [ringHoldoffEnd, h, ho, Bool.and_true, if_true]

end

/-- Settles O33: ENABLE before and after decides what is posted, and a holdoff's end sends what it held back. -/
theorem ringEvents : Obligations.RingEvents := by
  intro s f tx r h x
  refine ⟨fun hb hr => ⟨fun producer ds => ⟨fun he => ?_, fun he => ?_⟩, fun v => ⟨?_, fun hd he => ?_, fun he => ?_⟩⟩,
    fun hi => ⟨fun v => ?_, fun p ds => ?_⟩, fun hx => ?_, fun hx ho => ?_, fun hx ho => ?_, fun ep => ⟨fun hy => ?_, fun hy => ?_⟩⟩
  · exact becomes_event (f := fun d => ringProducer d f tx r.val producer.toNat ds) h
      (ringProducer_enabled (d := fresh s.dev) hb hr he _ _)
  · exact becomes_event (f := fun d => ringProducer d f tx r.val producer.toNat ds) h
      (ringProducer_disabled (d := fresh s.dev) hb hr he _ _)
  · exact becomes_event (f := fun d => ringEnableWrite d f tx r.val v.toNat) h
      (ringEnableWrite_takes (d := fresh s.dev) hb hr _)
  · obtain ⟨-, -, hc, hp⟩ | ⟨he', -⟩ | ⟨hd', -⟩ := ringWrite_cases (d := s.dev) (f := f) (tx := tx) (r := r.val) 160 191 v.toNat
    · exact ⟨hc, hp⟩
    · exact absurd (he'.symm.trans he) (by decide)
    · exact absurd (hd.symm.trans hd') (by decide)
  · obtain ⟨-, he', -⟩ | ⟨-, hp⟩ | ⟨-, he'⟩ := ringWrite_cases (d := s.dev) (f := f) (tx := tx) (r := r.val) 160 191 v.toNat
    · exact absurd (he.symm.trans he') (by decide)
    · exact hp
    · exact absurd (he.symm.trans he') (by decide)
  · exact rests_event (f := fun d => ringEnableWrite d f tx r.val v.toNat) h (ringEnableWrite_ignores (d := fresh s.dev) hi _)
  · exact rests_event (f := fun d => ringProducer d f tx r.val p.toNat ds) h (ringProducer_ignores (d := fresh s.dev) hi _ _)
  · exact rests_event (f := fun d => ringHoldoffEnd d f tx r.val) h (ringHoldoffEnd_idle (d := fresh s.dev) hx)
  · exact becomes_event (f := fun d => ringHoldoffEnd d f tx r.val) h (ringHoldoffEnd_over (d := fresh s.dev) hx ho)
  · exact becomes_event (f := fun d => ringHoldoffEnd d f tx r.val) h (ringHoldoffEnd_sends (d := fresh s.dev) hx ho)
  · exact becomes_event (f := fun d => summaryHoldoffEnd d ep.val) h (if_neg (ne_true_of_eq_false hy))
  · exact becomes_event (f := fun d => summaryHoldoffEnd d ep.val) h (if_pos hy)

end Sys2Proof.Machine

/-! R316, R317, R328, R422, R431, R437, R440: function-level reset, PERST, the training of a link and configuration space. -/

namespace Sys2Proof.Machine

open Sys2Proof

/-! ### What a reset of functions leaves of the others -/

theorem Tab.get_filterMap {α : Type} (d : α) (k : Nat) {keep : Nat × α → Option (Nat × α)} (t : Tab α)
    (hk : ∀ e ∈ t, e.1 = k → keep e = some e) (ho : ∀ e ∈ t, e.1 ≠ k → ∀ x ∈ keep e, x.1 = e.1) :
    Tab.get d (t.filterMap keep) k = Tab.get d t k := by
  induction t with
  | nil => rfl
  | cons e t ih =>
    have ih := ih (fun x hx => hk x (List.mem_cons_of_mem _ hx)) fun x hx => ho x (List.mem_cons_of_mem _ hx)
    obtain ⟨i, v⟩ := e
    by_cases hi : i = k
    · rw [List.filterMap_cons_some (hk _ (List.mem_cons_self ..) hi)]
      simp [Tab.get, hi]
    · have hget : Tab.get d ((i, v) :: t) k = Tab.get d t k := by simp [Tab.get, Ne.symm hi]
      rw [hget, ← ih]
      cases hx : keep (i, v) with
      | none => rw [List.filterMap_cons_none hx]
      | some x =>
        obtain ⟨j, w⟩ := x
        have hj : j = i := ho _ (List.mem_cons_self ..) hi _ hx
        rw [List.filterMap_cons_some hx]
        simp [Tab.get, hj, Ne.symm hi]

section

variable {d : Dev} {f g : Fn}

theorem resetDoor_host (k : Nat) (x : Door) (door : Nat) : (resetDoor d k x f door).host = d.host := by
  unfold resetDoor
  split
  · rfl
  · dsimp only
    split <;> rfl

theorem foldl_host {α : Type} {step : Dev → α → Dev} (h : ∀ d a, (step d a).host = d.host) (l : List α) (d : Dev) :
    (l.foldl step d).host = d.host := by
  induction l generalizing d with
  | nil => rfl
  | cons a l ih => exact (ih _).trans (h d a)

/-- The functions that a reset does not name keep their state. -/
theorem getFn_resetFns {p : Nat → Bool} (h : p (Fn.key g) = false) : getFn (resetFns d p) g = getFn d g := by
  have hfold : (d.mbx.doors.foldl (fun d e =>
      if p (e.1 / 8) then resetDoor d e.1 e.2 (fnOfKey (e.1 / 8)) (e.1 % 8) else d) d).host = d.host := by
    refine foldl_host (fun d e => ?_) _ _
    split
    · exact resetDoor_host _ _ _
    · rfl
  simp only [getFn, resetFns, hfold]
  refine Tab.get_filterMap _ _ _ (fun e _ hk => ?_) fun e _ _ x hx => ?_
  · rw [hk, h]
    rfl
  · split at hx
    · split at hx
      · cases hx
      · cases hx
        rfl
    · cases hx
      rfl

theorem getFn_setFn_other (x : FnState) (h : Fn.key g ≠ Fn.key f) : getFn (setFn d f x) g = getFn d g :=
  Tab.get_set_other _ _ _ _ _ _ h

/-- A function-level reset of a function that is reached. -/
theorem flr_reached (h : barUp d f = true) :
    (getFn (flr d f) f).inFlr = true ∧ (getFn (flr d f) f).eventOwed = f.vf.isSome
      ∧ ∀ g, Fn.key g ≠ Fn.key f → getFn (flr d f) g = getFn d g := by
  have hf : flr d f = _ := if_neg (by simp [h])
  rw [hf]
  refine ⟨by rw [getFn_setFn_same], by rw [getFn_setFn_same], fun g hg => ?_⟩
  rw [getFn_setFn_other _ hg]
  exact getFn_resetFns (p := fun k => decide (k = Fn.key f)) (decide_eq_false hg)

theorem flr_unreached (h : barUp d f = false) : flr d f = d := if_pos (by simp [h])

theorem flrComplete_in (h : (getFn d f).inFlr = true) : flrComplete d f
    = setCause (setFn d f { getFn d f with inFlr := false }) (if f.vf.isNone then 12 else 13) := if_pos h

theorem flrComplete_out (h : (getFn d f).inFlr = false) : flrComplete d f = d := if_neg (ne_true_of_eq_false h)

end

/-! ### PERST and links -/

section

variable {d : Dev} {e : Nat}

/-- The level of an endpoint's PERST. -/
def perstLevel (d : Dev) (e : Nat) (v : Bool) : Dev := setEp d e { getEp d e with perst := v }

/-- PERST released: TotalVFs takes the value written. -/
def perstReleased (d : Dev) (e : Nat) : Dev :=
  setFld (setFld (perstLevel d e false) .endpoint e Ep.totalVfsActive (fld d .endpoint e Ep.totalVfs)) .endpoint e Ep.perstBt d.bt

/-- A PERST released changes its endpoint's record alone. -/
theorem fld_perstReleased (he : e < 4) {k : RecKind} (hk : k.code ≠ RecKind.endpoint.code) (x : Fld) :
    fld (perstReleased d e) k 0 x = fld d k 0 x := by
  have hne : k.key 0 ≠ RecKind.endpoint.key e := RecKind.key_ne hk.symm (by omega) (by decide)
  unfold perstReleased
  rw [fld_setFld_record _ _ _ hne, fld_setFld_record _ _ _ hne]
  rfl

theorem safe_perstReleased (he : e < 4) : safe (perstReleased d e) = safe d := by
  have hk : RecKind.faultStatus.code ≠ RecKind.endpoint.code := by decide
  simp only [safe, flag, fld_perstReleased he hk]

theorem perstReleased_pwr : (perstReleased d e).pwr = d.pwr := rfl

theorem perstAssert_again (h : (getEp d e).perst = true) : perstAssert d e = d := if_pos h

theorem perstAssert_powered (h : (getEp d e).perst = false) (hm : mainPowered d = true) :
    perstAssert d e = setCause (resetEndpoint (perstLevel d e true) e) (8 + e) := by
  have hm' : mainPowered (perstLevel d e true) = true := hm
  exact (if_neg (ne_true_of_eq_false h)).trans (if_pos hm')

theorem perstAssert_unpowered (h : (getEp d e).perst = false) (hm : mainPowered d = false) :
    perstAssert d e = perstLevel d e true := by
  have hm' : mainPowered (perstLevel d e true) = false := hm
  exact (if_neg (ne_true_of_eq_false h)).trans (if_neg (ne_true_of_eq_false hm'))

theorem perstDeassert_again (h : (getEp d e).perst = false) : perstDeassert d e = d := if_pos (by simp [h])

theorem perstDeassert_released (h : (getEp d e).perst = true) : perstDeassert d e = wakeEvent (perstReleased d e) 2 e :=
  if_neg (by simp [h])

/-- In the FATAL safe state, in a reset, or outside KEEP-TIME, a PERST released wakes nothing. -/
theorem wakeEvent_perst_idle (he : e < 4) (h : safe d = true ∨ resetHeld d = true ∨ d.pwr.ktFrom = none ∧ power d ≠ 2) :
    wakeEvent (perstReleased d e) 2 e = perstReleased d e := by
  have hpow : power (perstReleased d e) = power d := fld_perstReleased he (by decide) _
  have hheld : resetHeld (perstReleased d e) = resetHeld d := rfl
  unfold wakeEvent
  rw [safe_perstReleased he, hheld, hpow, perstReleased_pwr]
  obtain h | h | ⟨hk, hp⟩ := h
  · exact if_pos (.inl h)
  · exact if_pos (.inr h)
  · simp [hk, hp]

theorem wakeEvent_perst_wakes (he : e < 4) (hs : safe d = false) (hr : resetHeld d = false) (hk : d.pwr.ktFrom = none)
    (hp : power d = 2) (h0 : pendingState d = 0) (hm : d.pwr.mainEnAt = none) :
    wakeEvent (perstReleased d e) 2 e = beginWake (noteWake (perstReleased d e) 2 e) := by
  have hsafe : safe (perstReleased d e) = false := (safe_perstReleased he).trans hs
  have hpow : power (perstReleased d e) = 2 := (fld_perstReleased he (by decide) _).trans hp
  have hpend : pendingState (perstReleased d e) = 0 := (fld_perstReleased he (by decide) _).trans h0
  have hheld : resetHeld (perstReleased d e) = false := hr
  unfold wakeEvent
  rw [perstReleased_pwr]
  simp [hsafe, hheld, hk, hpow, hpend, hm]

end

/-! ### Configuration space -/

section

variable {d : Dev} {f : Fn} {bm mx : Bool}

/-- The two bits written, and what they held back sent. -/
def configWritten (d : Dev) (f : Fn) (bm mx : Bool) : Dev :=
  flushMsix (setFn d f { getFn d f with busMaster := bm, msixEnable := mx }) f

theorem configWrite_unreached (h : barUp d f = false) : configWrite d f bm mx = d := if_pos (by simp [h])

theorem configWrite_pf (h : barUp d f = true) (hv : f.vf = none) :
    configWrite d f bm mx = tiuDrain (configWritten d f bm mx) := by
  unfold configWrite
  rw [if_neg (by simp [h]), hv]
  rfl

/-- The message owed since a function-level reset of a VF. -/
theorem configWrite_vf (h : barUp d f = true) {v : Fin 1024} (hv : f.vf = some v) : configWrite d f bm mx
    = if (mx && !(getFn d f).msixEnable && (getFn d f).eventOwed) = true then
        let e := setFn (configWritten d f bm mx) f { getFn (configWritten d f bm mx) f with eventOwed := false }
        if eventWord e f.ep.val v.val = 0 then e else vfMessage e f.ep.val v.val
      else configWritten d f bm mx := by
  unfold configWrite
  rw [if_neg (by simp [h]), hv]
  rfl

end

/-- Settles O34: each event has its effect on the endpoint or function it reaches. -/
theorem endpointEvents : Obligations.EndpointEvents := by
  intro s h
  refine ⟨?_, fun f => ⟨fun hi => ?_, fun hi => ?_⟩, fun ep => ⟨fun hp => ⟨?_, fun hr => ?_, fun hs hr hk hp2 h0 hm => ?_⟩,
    fun hp => ⟨?_, fun hm => ?_, fun hm => ?_⟩, ?_, ?_⟩, fun f bm mx => ⟨fun hb => ?_, fun hb => ⟨fun hv => ?_, fun v hv => ?_⟩⟩⟩
  · rintro f i (⟨ep, vf, rfl, rfl⟩ | ⟨ep, rfl, rfl⟩)
    · exact ⟨fun hb => acts_event (f := fun d => flr d (vfOf ep.val vf.val)) h (flr_reached (d := fresh s.dev) hb),
        fun hb => rests_event (f := fun d => flr d (vfOf ep.val vf.val)) h (flr_unreached (d := fresh s.dev) hb)⟩
    · exact ⟨fun hb => acts_event (f := fun d => flr d (pfOf ep.val)) h (flr_reached (d := fresh s.dev) hb),
        fun hb => rests_event (f := fun d => flr d (pfOf ep.val)) h (flr_unreached (d := fresh s.dev) hb)⟩
  · exact becomes_event (f := fun d => flrComplete d f) h (flrComplete_in (d := fresh s.dev) hi)
  · exact rests_event (f := fun d => flrComplete d f) h (flrComplete_out (d := fresh s.dev) hi)
  · exact rests_event (f := fun d => perstAssert d ep.val) h (perstAssert_again (d := fresh s.dev) hp)
  · exact becomes_event (f := fun d => perstDeassert d ep.val) h ((perstDeassert_released (d := fresh s.dev) hp).trans
      (wakeEvent_perst_idle (d := fresh s.dev) ep.isLt hr))
  · exact becomes_event (f := fun d => perstDeassert d ep.val) h ((perstDeassert_released (d := fresh s.dev) hp).trans
      (wakeEvent_perst_wakes (d := fresh s.dev) ep.isLt hs hr hk hp2 h0 hm))
  · exact rests_event (f := fun d => perstDeassert d ep.val) h (perstDeassert_again (d := fresh s.dev) hp)
  · exact becomes_event (f := fun d => perstAssert d ep.val) h (perstAssert_powered (d := fresh s.dev) hp hm)
  · exact becomes_event (f := fun d => perstAssert d ep.val) h (perstAssert_unpowered (d := fresh s.dev) hp hm)
  · exact ⟨fun ht => becomes_event (f := fun d => linkTrained d ep.val) h (if_pos ht),
      fun ht => rests_event (f := fun d => linkTrained d ep.val) h (if_neg ht)⟩
  · exact becomes_event (f := fun d => linkDown d ep.val) h rfl
  · exact rests_event (f := fun d => configWrite d f bm mx) h (configWrite_unreached (d := fresh s.dev) hb)
  · exact becomes_event (f := fun d => configWrite d f bm mx) h (configWrite_pf (d := fresh s.dev) hb hv)
  · exact ⟨fun hn => becomes_event (f := fun d => configWrite d f bm mx) h
        ((configWrite_vf (d := fresh s.dev) hb hv).trans (if_neg (ne_true_of_eq_false hn))),
      fun ho => becomes_event (f := fun d => configWrite d f bm mx) h
        ((configWrite_vf (d := fresh s.dev) hb hv).trans (if_pos ho))⟩

end Sys2Proof.Machine

/-! R320, R329: the lapse timer, and the end of a tenant's retirement. -/

namespace Sys2Proof.Machine

open Sys2Proof

/-! ### What messages to the hosts leave as it was -/

/-- What a fold's steps keep, the fold keeps. -/
theorem foldl_keeps {α β : Type} {p : Dev → β} {step : Dev → α → Dev} (l : List α) (h : ∀ d, ∀ a ∈ l, p (step d a) = p d)
    (d : Dev) : p (l.foldl step d) = p d := by
  induction l generalizing d with
  | nil => rfl
  | cons a l ih => exact (ih (fun d b hb => h d b (List.mem_cons_of_mem _ hb)) _).trans (h d a List.mem_cons_self)

/-- The records, the counters and the retirements of a device. -/
structure Core where
  variant : Variant
  recs : Tab Nat
  ctr : Tab Nat
  retireEnd : Tab Nat

def coreOf (d : Dev) : Core := ⟨d.variant, d.recs, d.obs.ctr, d.host.retireEnd⟩

section

variable {d : Dev}

theorem coreOf_sendMsix (d : Dev) (f : Fn) (v : Nat) : coreOf (sendMsix d f v) = coreOf d := by
  unfold sendMsix
  dsimp only
  split
  · rfl
  · split <;> rfl

theorem coreOf_respond (op : Nat) (m : Msg) (st : Status) (pl : List Byte) (es : List ClampEntry) :
    coreOf (respond d op m st pl es) = coreOf d := by
  obtain ⟨⟨M, S, F, O, h⟩, -⟩ := butDoor_respond (butDoor_refl d m) op st pl es
  rw [h]
  rfl

theorem coreOf_complete (f : Fn) (k : Nat) (st : Status) (pl : List Byte) (es : List ClampEntry) :
    coreOf (complete d f k st pl es) = coreOf d := by
  unfold complete
  dsimp only
  split
  · rfl
  · split
    · rfl
    · split
      · rfl
      · exact coreOf_respond _ _ _ _ _

theorem getRec_of_core {d e : Dev} (h : coreOf e = coreOf d) (k : RecKind) (i : Nat) : getRec e k i = getRec d k i := by
  have hv : e.variant = d.variant := congrArg Core.variant h
  have hr : e.recs = d.recs := congrArg Core.recs h
  simp only [getRec, hv, hr]

theorem coreOf_summaryRise (e : Nat) : coreOf (summaryRise d e) = coreOf d := by
  unfold summaryRise
  dsimp only
  split
  · rfl
  · split
    · exact coreOf_sendMsix _ _ _
    · exact coreOf_sendMsix _ _ _

theorem coreOf_vfMessage (e v : Nat) : coreOf (vfMessage d e v) = coreOf d := by
  unfold vfMessage
  split
  · split
    · exact coreOf_sendMsix _ _ _
    · rfl
  · rfl

/-- Event bits set change the event word's record alone. -/
theorem coreOf_setEventBits (e v bits : Nat) : coreOf (setEventBits d e v bits) = coreOf d
    ∨ ∃ w, coreOf (setEventBits d e v bits) = coreOf (setRec d .eventWord (eventIdx e v) w) := by
  unfold setEventBits
  dsimp only
  split
  · exact .inl rfl
  · refine .inr ⟨eventWord d e v ||| bits, ?_⟩
    have hrise : coreOf (if eventWord d e v = 0 then
          summaryRise (setRec d .eventWord (eventIdx e v) (eventWord d e v ||| bits)) e
        else setRec d .eventWord (eventIdx e v) (eventWord d e v ||| bits))
        = coreOf (setRec d .eventWord (eventIdx e v) (eventWord d e v ||| bits)) := by
      split
      · exact coreOf_summaryRise _
      · rfl
    generalize (if eventWord d e v = 0 then _ else _ : Dev) = y at hrise ⊢
    split
    · exact hrise
    · split
      · exact (coreOf_vfMessage _ _).trans hrise
      · exact hrise

end

/-! ### The lapse timer -/

section

variable {d : Dev}

theorem keepaliveLapse_due (h : d.host.lapseRuns = true ∧ lapseBt d ≤ d.bt + 1 - d.host.lapseFrom) : keepaliveLapse d
    = setDevEventAll (raise (setFld { d with host := { d.host with lapseRuns := false } } .controller 0 Ctl.lapsed 1)
        (srcId 0x60 0)) 2 := if_pos h

theorem keepaliveLapse_early (h : ¬ (d.host.lapseRuns = true ∧ lapseBt d ≤ d.bt + 1 - d.host.lapseFrom)) :
    keepaliveLapse d = d := if_neg h

end

/-! ### The end of a retirement -/

/-- What the end of a tenant's retirement is told by: its record, its key ring, the retirements and the counters. -/
def retireView (t : Nat) (d : Dev) : Nat × Nat × Nat × Nat × Tab Nat × Tab Nat :=
  (getRec d .tenant t, ringEntry d t 0, ringEntry d t 1, ringEntry d t 2, d.host.retireEnd, d.obs.ctr)

section

variable {d : Dev} {t : Nat}

theorem retireView_of_core {d e : Dev} (h : coreOf e = coreOf d) : retireView t e = retireView t d := by
  have hc : e.obs.ctr = d.obs.ctr := congrArg Core.ctr h
  have hr : e.host.retireEnd = d.host.retireEnd := congrArg Core.retireEnd h
  simp only [retireView, ringEntry, getRec_of_core h, hc, hr]

/-- A record of a kind but the tenant's and the key ring's. -/
theorem retireView_setRec (ht : t < 4096) {k : RecKind} {i : Nat} (hi : i < 2 ^ 24) (h1 : k.code ≠ RecKind.tenant.code)
    (h2 : k.code ≠ RecKind.keyRing.code) (v : Nat) : retireView t (setRec d k i v) = retireView t d := by
  have hr : ∀ s < 3, ringEntry (setRec d k i v) t s = ringEntry d t s := fun s hs =>
    getRec_setRec_other d k .keyRing i _ v (RecKind.key_ne h2 hi (by unfold ringSlot; omega))
  have ht : getRec (setRec d k i v) .tenant t = getRec d .tenant t :=
    getRec_setRec_other d k .tenant i t v (RecKind.key_ne h1 hi (by omega))
  simp only [retireView, ht, hr 0 (by decide), hr 1 (by decide), hr 2 (by decide)]
  rfl

theorem listed_lt {k : RecKind} {e : Nat × Nat} (h : e ∈ listed d k) : e.1 < 2 ^ 24 := by
  unfold listed at h
  obtain ⟨x, -, rfl⟩ := List.mem_map.1 h
  exact Nat.mod_lt _ (by decide)

theorem tenantEp_lt (d : Dev) (t : Nat) : tenantEp d t < 4 := Nat.mod_lt _ (by decide)

theorem tenantVf_lt (d : Dev) (t : Nat) : tenantVf d t < 1024 := Nat.mod_lt _ (by decide)

/-- A fold that changes records of another kind leaves a record as it was. -/
theorem getRec_foldl_other {α : Type} {step : Dev → α → Dev} {l : RecKind} {j : Nat} (as : List α)
    (h : ∀ d, ∀ a ∈ as, ∃ k i v, l.key j ≠ RecKind.key k i ∧ step d a = setRec d k i v) (d : Dev) :
    getRec (as.foldl step d) l j = getRec d l j :=
  foldl_keeps (p := fun d => getRec d l j) as (fun d a ha => by
    obtain ⟨k, i, v, hne, heq⟩ := h d a ha
    rw [heq, getRec_setRec_other _ _ _ _ _ _ hne]) d

/-- A record returned to its reset value. -/
def resetAt (d : Dev) (k : RecKind) (i : Nat) : Dev := setRec d k i (resetRec d.variant k i)

theorem key_ne_index {k : RecKind} {i j : Nat} (h : i ≠ j) : k.key i ≠ k.key j := by
  unfold RecKind.key
  omega

/-- The three slots of a key ring returned to their reset values. -/
theorem ringReset_entry {s : Nat} (hs : s < 3) :
    ringEntry ((List.range 3).foldl (fun d s => resetAt d .keyRing (ringSlot t s)) d) t s = 0 := by
  have h0 : ∀ v i, resetRec v .keyRing i = 0 := fun _ _ => rfl
  have hne : ∀ a b, a ≠ b → RecKind.keyRing.key (ringSlot t a) ≠ RecKind.keyRing.key (ringSlot t b) := fun a b hab =>
    key_ne_index (by unfold ringSlot; omega)
  show getRec (resetAt (resetAt (resetAt d .keyRing (ringSlot t 0)) .keyRing (ringSlot t 1)) .keyRing (ringSlot t 2))
    .keyRing (ringSlot t s) = 0
  unfold resetAt
  simp only [h0]
  interval_cases s
  · rw [getRec_setRec_other _ _ _ _ _ _ (hne 0 2 (by decide)), getRec_setRec_other _ _ _ _ _ _ (hne 0 1 (by decide)),
      getRec_setRec_same]
  · rw [getRec_setRec_other _ _ _ _ _ _ (hne 1 2 (by decide)), getRec_setRec_same]
  · rw [getRec_setRec_same]

theorem coreOf_clearClients (d : Dev) : coreOf (clearClients d) = coreOf d := rfl

/-- The records of one a tenant returned to their reset values. -/
def tenantKindsReset (d : Dev) (t : Nat) : Dev :=
  [RecKind.tenantArray, .launch, .ntp, .bcast, .nts, .ptp, .tenant].foldl (fun d k => resetAt d k t) d

/-- The access rules of a tenant returned to their reset values. -/
def accessReset (d : Dev) (t : Nat) : Dev := (List.range 16).foldl (fun d r => resetAt d .access (16 * t + r)) d

/-- The key ring of a tenant returned to its reset value. -/
def ringReset (d : Dev) (t : Nat) : Dev := (List.range 3).foldl (fun d s => resetAt d .keyRing (ringSlot t s)) d

theorem resetTenantRecords_eq (d : Dev) (t : Nat) : resetTenantRecords d t =
    let gen := (fld d .ntp t Ntp.tenantGen + 1) % 256
    let e := setFld (ringReset (accessReset (tenantKindsReset d t) t) t) .ntp t Ntp.tenantGen gen
    if gen = 0 then clearClients e else e := rfl

theorem foldl_resetAt_hostObs {α : Type} (as : List α) (k : α → RecKind) (i : α → Nat) (d : Dev) :
    (as.foldl (fun d a => resetAt d (k a) (i a)) d).host = d.host ∧ (as.foldl (fun d a => resetAt d (k a) (i a)) d).obs = d.obs :=
  ⟨foldl_keeps (p := Dev.host) (step := fun d a => resetAt d (k a) (i a)) as (fun _ _ _ => rfl) d,
    foldl_keeps (p := Dev.obs) (step := fun d a => resetAt d (k a) (i a)) as (fun _ _ _ => rfl) d⟩

theorem tenantKindsReset_tenant : getRec (tenantKindsReset d t) .tenant t = resetRec d.variant .tenant t :=
  getRec_setRec_same _ _ _ _

theorem accessReset_tenant (ht : t < 4096) : getRec (accessReset d t) .tenant t = getRec d .tenant t :=
  getRec_foldl_other _ (fun _ r hr =>
    ⟨_, _, _, RecKind.key_ne (by decide) (by have := List.mem_range.1 hr; omega) (by omega), rfl⟩) d

theorem ringReset_tenant (ht : t < 4096) : getRec (ringReset d t) .tenant t = getRec d .tenant t :=
  getRec_foldl_other _ (fun _ s hs =>
    ⟨_, _, _, RecKind.key_ne (by decide) (by have := List.mem_range.1 hs; unfold ringSlot; omega) (by omega), rfl⟩) d

/-- The records of a retired tenant are back at their reset values. -/
theorem resetTenantRecords_view (ht : t < 4096) : retireView t (resetTenantRecords d t)
    = (resetRec d.variant .tenant t, 0, 0, 0, d.host.retireEnd, d.obs.ctr) := by
  have hring : retireView t (resetTenantRecords d t) = retireView t (ringReset (accessReset (tenantKindsReset d t) t) t) := by
    rw [resetTenantRecords_eq]
    dsimp only
    generalize ringReset (accessReset (tenantKindsReset d t) t) t = c
    have hntp := fun v => retireView_setRec (d := c) ht (k := .ntp) (i := t) (by omega) (by decide) (by decide) v
    split
    · exact (retireView_of_core (coreOf_clearClients _)).trans (hntp _)
    · exact hntp _
  have hr (s : Nat) (hs : s < 3) : ringEntry (ringReset (accessReset (tenantKindsReset d t) t) t) t s = 0 := ringReset_entry hs
  have hkeep (x : Dev) : (ringReset (accessReset (tenantKindsReset x t) t) t).host = x.host
      ∧ (ringReset (accessReset (tenantKindsReset x t) t) t).obs = x.obs := by
    obtain ⟨h1, h2⟩ := foldl_resetAt_hostObs [RecKind.tenantArray, .launch, .ntp, .bcast, .nts, .ptp, .tenant] id (fun _ => t) x
    obtain ⟨h3, h4⟩ := foldl_resetAt_hostObs (List.range 16) (fun _ => .access) (fun r => 16 * t + r) (tenantKindsReset x t)
    obtain ⟨h5, h6⟩ := foldl_resetAt_hostObs (List.range 3) (fun _ => .keyRing) (fun s => ringSlot t s)
      (accessReset (tenantKindsReset x t) t)
    exact ⟨h5.trans (h3.trans h1), h6.trans (h4.trans h2)⟩
  obtain ⟨hhost, hobs⟩ := hkeep d
  rw [hring]
  simp only [retireView, ringReset_tenant ht, accessReset_tenant ht, tenantKindsReset_tenant, hr 0 (by decide),
    hr 1 (by decide), hr 2 (by decide), hhost, hobs]

/-- Counters returned to zero. -/
theorem ctrValue_zeroed (l : List Nat) {k : Nat} (h : k ∈ l ∨ ctrValue d (tenantCtr t k) = 0) :
    ctrValue (l.foldl (fun d k => setCtr d (tenantCtr t k) 0) d) (tenantCtr t k) = 0 := by
  induction l generalizing d with
  | nil => exact h.resolve_left (by simp)
  | cons j l ih =>
    refine ih ?_
    by_cases hj : tenantCtr t k = tenantCtr t j
    · right
      simp [hj, ctrValue, setCtr]
    · obtain h | h := h
      · exact .inl ((List.mem_cons.1 h).resolve_left fun he => hj (by rw [he]))
      · exact .inr ((Tab.get_set_other 0 0 d.obs.ctr _ _ 0 hj).trans h)

/-- The retirement of a tenant is over, or is not. -/
def retireDue (d : Dev) (t : Nat) : Prop :=
  tenantState d t = 2 ∧ Tab.get 0 d.host.retireEnd t ≠ 0 ∧ Tab.get 0 d.host.retireEnd t ≤ d.bt + 1

theorem retireComplete_early (h : ¬ retireDue d t) : retireComplete d t = d := by
  refine if_pos ?_
  by_contra hn
  refine h ⟨?_, ?_, ?_⟩ <;> omega

theorem coreOf_viewBound (v : Nat) (up : Bool) : ∃ i w, coreOf (viewBound d v up) = coreOf (setRec d .view i w) :=
  ⟨_, _, rfl⟩

/-- The counters of a tenant at zero. -/
def ctrsZeroed (d : Dev) (t : Nat) : Dev := (List.range 24).foldl (fun d k => setCtr d (tenantCtr t k) 0) d

/-- The tenant's grants, bucket, statistics and counters gone, and its place in its view. -/
def retireCounters (d : Dev) (t : Nat) : Dev :=
  let d := clearStats (clearStats (clearStats (viewBound d (tenantView d t) false) .ntp t) .nts t) .ptp t
  freeGrants (setBucket (ctrsZeroed d t) t ⟨0, 0⟩) t

/-- The retirement is no longer due. -/
def retireEnded (d : Dev) (t : Nat) : Dev :=
  { d with arr := { d.arr with served := Tab.set 0 d.arr.served t 0 }
           host := { d.host with retireEnd := Tab.set 0 d.host.retireEnd t 0 } }

/-- The slots assigned to a tenant, assigned to none. -/
def slotsFreed (d : Dev) (t : Nat) : Dev :=
  (listed d .asymSlot).foldl (fun d s =>
    if getF s.2 Slot.assigned = 1 ∧ getF s.2 Slot.tenant = t then
      setFld (setFld d .asymSlot s.1 Slot.assigned 0) .asymSlot s.1 Slot.tenant 0
    else d) d

theorem ctrsZeroed_zero {k : Nat} (hk : k < 24) : ctrValue (ctrsZeroed d t) (tenantCtr t k) = 0 := by
  unfold ctrsZeroed
  exact ctrValue_zeroed _ (.inl (List.mem_range.2 hk))

theorem ctrValue_grantsFreed (b : Bucket) (i : Nat) : ctrValue (freeGrants (setBucket d t b) t) i = ctrValue d i := rfl

theorem retireCounters_zero {k : Nat} (hk : k < 24) : ctrValue (retireCounters d t) (tenantCtr t k) = 0 := by
  unfold retireCounters
  dsimp only
  rw [ctrValue_grantsFreed, ctrsZeroed_zero hk]

theorem ctrValue_retireEnded (i : Nat) : ctrValue (retireEnded d t) i = ctrValue d i := rfl

theorem retireEnded_retireEnd : Tab.get 0 (retireEnded d t).host.retireEnd t = 0 := by
  simp [retireEnded]

theorem retireView_slotsFreed (ht : t < 4096) : retireView t (slotsFreed d t) = retireView t d := by
  refine foldl_keeps (p := retireView t) _ (fun d s hs => ?_) d
  have hset := fun d v => retireView_setRec (d := d) ht (k := .asymSlot) (listed_lt hs) (by decide) (by decide) v
  split
  · exact (hset _ _).trans (hset _ _)
  · rfl

theorem retireView_setEventBits (ht : t < 4096) {e v : Nat} (he : e < 4) (hv : v < 1024) (bits : Nat) :
    retireView t (setEventBits d e v bits) = retireView t d := by
  obtain h | ⟨w, h⟩ := coreOf_setEventBits (d := d) e v bits
  · exact retireView_of_core h
  · exact (retireView_of_core h).trans (retireView_setRec ht (by unfold eventIdx; omega) (by decide) (by decide) _)

/-- What is answered and told when a retirement is over. -/
theorem retireComplete_due (h : retireDue d t) : ∃ l : List Posted, ∃ g : Posted → Nat, retireComplete d t = l.foldl
    (fun d po => complete d po.msg.fn (g po) .ok (leBytes 8 d.bt) [])
    (setEventBits (slotsFreed (resetTenantRecords (retireEnded (retireCounters d t) t) t) t) (tenantEp d t) (tenantVf d t)
      evRetired) := by
  have hn : ¬ (Tab.get 0 d.host.retireEnd t = 0 ∨ d.bt + 1 < Tab.get 0 d.host.retireEnd t ∨ tenantState d t ≠ 2) := by
    obtain ⟨h2, h0, hle⟩ := h
    omega
  exact ⟨_, _, if_neg hn⟩

theorem retireComplete_view (ht : t < 4096) (h : retireDue d t) : retireView t (retireComplete d t)
    = retireView t (resetTenantRecords (retireEnded (retireCounters d t) t) t) := by
  obtain ⟨l, g, heq⟩ := retireComplete_due h
  rw [heq, foldl_keeps (p := retireView t) l (fun d po _ => retireView_of_core (coreOf_complete _ _ _ _ _)) _,
    retireView_setEventBits ht (tenantEp_lt d t) (tenantVf_lt d t), retireView_slotsFreed ht]

theorem resetRec_tenant (v : Variant) (t : Nat) : getF (resetRec v .tenant t) Ten.state = 0 := by
  show getF (resetOf tenFields) Ten.state = 0
  decide

/-- A retired tenant is UNBOUND, with its key ring empty and its counters zero. -/
theorem retireComplete_unbound (ht : t < 4096) (h : retireDue d t) :
    tenantState (retireComplete d t) t = 0 ∧ Tab.get 0 (retireComplete d t).host.retireEnd t = 0
      ∧ (∀ k < 3, ringEntry (retireComplete d t) t k = 0) ∧ ∀ k < 24, ctrValue (retireComplete d t) (tenantCtr t k) = 0 := by
  have hview := (retireComplete_view ht h).trans (resetTenantRecords_view ht)
  simp only [retireView, Prod.mk.injEq] at hview
  obtain ⟨hten, h0, h1, h2, hend, hctr⟩ := hview
  refine ⟨?_, ?_, fun k hk => ?_, fun k hk => ?_⟩
  · rw [tenantState, fld, hten, resetRec_tenant]
  · rw [hend]
    exact retireEnded_retireEnd
  · interval_cases k
    · exact h0
    · exact h1
    · exact h2
  · have hc : ctrValue (retireComplete d t) (tenantCtr t k) = ctrValue (retireEnded (retireCounters d t) t) (tenantCtr t k) :=
      congrArg (fun c => Tab.get 0 c (tenantCtr t k)) hctr
    rw [hc, ctrValue_retireEnded, retireCounters_zero hk]

end

/-- Settles O35: the timer and the retirement act when they are due, and not before. -/
theorem lapseAndRetirement : Obligations.LapseAndRetirement := by
  intro s h
  refine ⟨fun hl => ?_, fun hl => ?_, fun t => ⟨fun hd => ?_, fun hd => ?_⟩⟩
  · exact becomes_event (f := keepaliveLapse) h (keepaliveLapse_due (d := fresh s.dev) hl)
  · exact rests_event (f := keepaliveLapse) h (keepaliveLapse_early (d := fresh s.dev) hl)
  · exact acts_event (f := fun d => retireComplete d t.val) h (retireComplete_unbound (d := fresh s.dev) t.isLt hd)
  · exact rests_event (f := fun d => retireComplete d t.val) h (retireComplete_early (d := fresh s.dev) hd)

end Sys2Proof.Machine

/-! R17, R18, R406, R429, R463, R464, R476: the AON supply, the rails, the sensors, the oscillator and the PLLs. -/

namespace Sys2Proof.Machine

open Sys2Proof

/-! ### AON power-on -/

/-- A device that differs in its records and in the number drawn next, at the most. -/
def OnlyRecs (d e : Dev) : Prop := ∃ R F, e = { d with recs := R, free := F }

namespace OnlyRecs

variable {a b c : Dev}

theorem trans (h : OnlyRecs a b) (g : OnlyRecs b c) : OnlyRecs a c := by
  obtain ⟨_, _, rfl⟩ := h
  obtain ⟨R, F, rfl⟩ := g
  exact ⟨R, F, rfl⟩

theorem setFld (h : OnlyRecs a b) (k : RecKind) (i : Nat) (f : Fld) (v : Nat) : OnlyRecs a (Machine.setFld b k i f v) :=
  h.trans ⟨_, b.free, rfl⟩

theorem refreshPreferred (h : OnlyRecs a b) : OnlyRecs a (Machine.refreshPreferred b) := by
  unfold Machine.refreshPreferred
  split
  · exact (h.trans (c := (drawUpTo b 1).2) ⟨b.recs, _, rfl⟩).setFld _ _ _ _
  · exact h.setFld _ _ _ _

theorem setSlotState (h : OnlyRecs a b) (s state reason : Nat) : OnlyRecs a (Machine.setSlotState b s state reason) :=
  (((((h.setFld _ _ _ _).setFld _ _ _ _).setFld _ _ _ _).setFld _ _ _ _).setFld _ _ _ _).refreshPreferred

theorem deriveSlot (h : OnlyRecs a b) (s : Nat) : OnlyRecs a (Machine.deriveSlot b s) := by
  unfold Machine.deriveSlot
  dsimp only
  split
  · exact (h.setSlotState s 0 0).setFld _ _ _ _
  · split
    · exact (h.setSlotState s 3 0).setFld _ _ _ _
    · exact (h.setSlotState s 4 _).setFld _ _ _ _

theorem refl (a : Dev) : OnlyRecs a a := ⟨a.recs, a.free, rfl⟩

end OnlyRecs

section

variable {d : Dev}

/-- AON power-on: reset values, but for the OTP and the flash of a device without the supply. -/
theorem aonPowerOn_reset (d : Dev) :
    (aonPowerOn d).pwr.aonUp = true ∧ (aonPowerOn d).bt = 0 ∧ (aonPowerOn d).ts = TsState.reset
      ∧ (aonPowerOn d).mbx = MbxState.reset ∧ (aonPowerOn d).atEdge = []
      ∧ (d.pwr.aonUp = false → (aonPowerOn d).key.otp = d.key.otp ∧ (aonPowerOn d).key.flash = d.key.flash) := by
  have hslots (e : Dev) : OnlyRecs e (deriveSlots e) := ((OnlyRecs.refl e).deriveSlot 0).deriveSlot 1
  have hshape : ∃ p : Dev, ∃ v, aonPowerOn d = deriveSlots (setFld p .controller 0 Ctl.controller v)
      ∧ p.pwr.aonUp = true ∧ p.bt = 0 ∧ p.ts = TsState.reset ∧ p.mbx = MbxState.reset ∧ p.atEdge = []
      ∧ (d.pwr.aonUp = false → p.key.otp = d.key.otp ∧ p.key.flash = d.key.flash) := by
    unfold aonPowerOn
    refine ⟨_, _, rfl, rfl, rfl, rfl, rfl, rfl, fun hoff => ?_⟩
    rw [if_neg (ne_true_of_eq_false hoff)]
    exact ⟨rfl, rfl⟩
  obtain ⟨p, v, heq, haon, hbt, hts, hmbx, hedge, hkey⟩ := hshape
  obtain ⟨R, F, hd⟩ := hslots (setFld p .controller 0 Ctl.controller v)
  rw [heq, hd]
  exact ⟨haon, hbt, hts, hmbx, hedge, hkey⟩

/-! ### Rails -/

theorem setRail_false (r : Nat) : setRail d r false
    = endEpisode { d with pwr := { d.pwr with railsOut := setBit d.pwr.railsOut r false } } (srcId 0x11 r) := rfl

theorem setRail_false_pwr (r : Nat) :
    (setRail d r false).pwr = { d.pwr with railsOut := setBit d.pwr.railsOut r false } := rfl

/-- The rails found, from a device whose clock reads the same. -/
theorem railsFound_phase (d : Dev) : (railsFound d).pwr.phase = .bootRom ∧ (railsFound d).pwr.railsBt = d.bt := by
  have hlock (x : Dev) : (lockPlls x).pwr.phase = x.pwr.phase ∧ (lockPlls x).pwr.railsBt = x.pwr.railsBt := by
    have hfold (y : Dev) : ((List.range 5).foldl (fun d i => endEpisode d (srcId 0x10 i)) y).pwr = y.pwr :=
      foldl_keeps (p := Dev.pwr) (step := fun d i => endEpisode d (srcId 0x10 i)) _ (fun _ _ _ => rfl) y
    obtain ⟨o, f, n, u, hc⟩ := settleAll_counted x
    have hpwr : (settleAll x).pwr = x.pwr := by rw [hc]
    have heq : (lockPlls x).pwr.phase = (settleAll x).pwr.phase ∧ (lockPlls x).pwr.railsBt = (settleAll x).pwr.railsBt := by
      unfold lockPlls
      dsimp only
      rw [hfold]
      exact ⟨rfl, rfl⟩
    rwa [hpwr] at heq
  exact hlock _

/-- The main rails a check finds outside. -/
def railsLow (low : List Nat) : List Nat := (List.range 16).filter fun r => isMain r && low.contains r

theorem mainRailsCheck_idle {low : List Nat} (h : d.pwr.phase ≠ .railsWait) : mainRailsCheck d low = d := if_pos h

theorem mainRailsCheck_found {low : List Nat} (h : d.pwr.phase = .railsWait) (ho : railsLow low = []) :
    (mainRailsCheck d low).pwr.phase = .bootRom ∧ (mainRailsCheck d low).pwr.railsBt = d.bt := by
  unfold railsLow at ho
  have heq : mainRailsCheck d low
      = railsFound ((List.range 16).foldl (fun d r => if isMain r then setRail d r false else d) d) := by
    rw [mainRailsCheck, if_neg (not_not.2 h), ho]
  have hbt : ((List.range 16).foldl (fun d r => if isMain r then setRail d r false else d) d).bt = d.bt :=
    foldl_keeps (p := Dev.bt) (step := fun d r => if isMain r then setRail d r false else d) _
      (fun d r _ => by split <;> rfl) d
  rw [heq]
  obtain ⟨hp, hr⟩ := railsFound_phase ((List.range 16).foldl (fun d r => if isMain r then setRail d r false else d) d)
  exact ⟨hp, hr.trans hbt⟩

theorem mainRailsCheck_early {low : List Nat} (h : d.pwr.phase = .railsWait) (ho : railsLow low ≠ [])
    (hb : d.bt + 1 < d.pwr.mainEnBt + msToBt d 20) : mainRailsCheck d low = d := by
  unfold railsLow at ho
  rw [mainRailsCheck, if_neg (not_not.2 h)]
  split
  next h0 => exact absurd h0 ho
  next => exact if_pos hb

theorem mainRailsCheck_late {low : List Nat} (h : d.pwr.phase = .railsWait) {r : Nat} {rs : List Nat} (ho : railsLow low = r :: rs)
    (hb : d.pwr.mainEnBt + msToBt d 20 ≤ d.bt + 1) : mainRailsCheck d low
      = setRail { d with pwr := { d.pwr with railsOut := rs.foldl (fun n r => setBit n r true) d.pwr.railsOut } } r true := by
  unfold railsLow at ho
  rw [mainRailsCheck, if_neg (not_not.2 h), ho]
  exact if_neg (Nat.not_lt.2 hb)

theorem voltRange_unwatched {r : Nat} (h : railWatched d r = false) : voltRange d r = d := if_pos h

theorem voltRange_path {r : Nat} (h : railWatched d r = true) (hp : (pathRail r && fastRuns d) = true) :
    voltRange d r = setRail { d with pwr := { d.pwr with railFailed := true } } r true := by
  rw [voltRange, if_neg (by simp [h]), if_pos (by simpa using hp)]

theorem voltRange_other {r : Nat} (h : railWatched d r = true) (hp : (pathRail r && fastRuns d) = false) :
    voltRange d r = setRail d r true := by
  rw [voltRange, if_neg (by simp [h]), if_neg (by simpa using hp)]

theorem bit_setBit (n i k : Nat) (b : Bool) : bit (setBit n i b) k = if k = i then b else bit n k := by
  unfold bit setBit
  rw [testBit_setF (by simp)]
  by_cases hk : k = i
  · subst hk
    cases b <;> simp
  · rw [if_neg hk, if_neg (by simp only; omega)]

/-- No other main rail is outside. -/
def lastOut (d : Dev) (r : Nat) : Bool := (List.range 16).all fun k => decide (k = r) || !(isMain k && bit d.pwr.railsOut k)

theorem mainOut_setRail (r : Nat) : mainOut (setRail d r false) = !lastOut d r := by
  unfold mainOut lastOut
  rw [List.not_all_eq_any_not, setRail_false_pwr]
  congr 1
  funext k
  rw [bit_setBit]
  by_cases hk : k = r <;> simp [hk]

theorem railWithin_idle {r : Nat} (h : bit d.pwr.railsOut r = false) : railWithin d r = d := if_neg (ne_true_of_eq_false h)

theorem railWithin_ends {r : Nat} (h : bit d.pwr.railsOut r = true) (hw : d.pwr.phase ≠ .railsWait ∨ lastOut d r = false) :
    railWithin d r = setRail d r false := by
  refine (if_pos h).trans (if_neg fun ⟨hp, ho⟩ => ?_)
  rw [mainOut_setRail] at ho
  obtain hw | hw := hw
  · exact hw hp
  · simp [hw] at ho

theorem railWithin_finds {r : Nat} (h : bit d.pwr.railsOut r = true) (hw : d.pwr.phase = .railsWait) (hl : lastOut d r = true) :
    railWithin d r = railsFound (setRail d r false) := by
  refine (if_pos h).trans (if_pos ⟨hw, ?_⟩)
  rw [mainOut_setRail, hl]
  rfl

/-! ### Sensors, the oscillator and the PLLs -/

theorem pllUnlock_idle {i : Nat} (h : fastRuns d = false ∨ bit d.pwr.plls i = false) : pllUnlock d i = d :=
  if_pos (by simpa using h)

theorem pllUnlock_locked {i : Nat} (hf : fastRuns d = true) (hb : bit d.pwr.plls i = true) :
    ¬ ((!fastRuns d) = true ∨ (!bit d.pwr.plls i) = true) := by simp [hf, hb]

theorem pllUnlock_octets {i : Nat} (hf : fastRuns d = true) (hb : bit d.pwr.plls i = true) (h3 : 3 ≤ i) :
    pllUnlock d i = setPll (startEpisode d (srcId 0x10 i)) i false := by
  rw [pllUnlock, if_neg (pllUnlock_locked hf hb)]
  obtain ⟨j, rfl⟩ := Nat.exists_eq_add_of_le h3
  rw [Nat.add_comm]
  rfl

theorem pllRelock_idle {i : Nat} (h : fastRuns d = false ∨ (i = 4 ∧ d.variant ≠ .f)) : pllRelock d i = d := by
  refine if_neg fun ⟨hf, hi⟩ => ?_
  obtain h | ⟨h4, hv⟩ := h
  · exact absurd (h.symm.trans hf) (by decide)
  · exact hi.elim (· h4) hv

theorem pllRelock_locks {i : Nat} (hf : fastRuns d = true) (hi : i ≠ 4 ∨ d.variant = .f) : pllRelock d i
    = endEpisode (setPll (if i = 0 then settleAll d else d) i true) (srcId 0x10 i) := if_pos ⟨hf, hi⟩

end

/-- Settles O36: each supply event is taken through the branches of its one function, the last main rail being the one
whose return finds the rails. -/
theorem supplyEvents : Obligations.SupplyEvents := by
  intro s o
  refine ⟨⟨_, rfl, aonPowerOn_reset (fresh s.dev)⟩, fun h => ⟨acts_event (f := supplyLoss) h rfl, fun low => ?_, fun r => ?_,
    fun r => ?_, fun i c => ?_, fun off => ?_, fun i => ?_⟩⟩
  · refine ⟨fun hp => ?_, fun hp => ⟨fun ho => ?_, fun ho hb => ?_, fun r rs ho hb => ?_⟩⟩
    · exact rests_event (f := fun d => mainRailsCheck d (low.map Fin.val)) h (mainRailsCheck_idle (d := fresh s.dev) hp)
    · exact acts_event (f := fun d => mainRailsCheck d (low.map Fin.val)) h (mainRailsCheck_found (d := fresh s.dev) hp ho)
    · exact rests_event (f := fun d => mainRailsCheck d (low.map Fin.val)) h (mainRailsCheck_early (d := fresh s.dev) hp ho hb)
    · exact becomes_event (f := fun d => mainRailsCheck d (low.map Fin.val)) h
        (mainRailsCheck_late (d := fresh s.dev) hp ho hb)
  · refine ⟨fun hw => ?_, fun hw => ⟨fun hp => ?_, fun hp => ?_⟩⟩
    · exact rests_event (f := fun d => voltRange d r.val) h (voltRange_unwatched (d := fresh s.dev) hw)
    · exact becomes_event (f := fun d => voltRange d r.val) h (voltRange_path (d := fresh s.dev) hw hp)
    · exact becomes_event (f := fun d => voltRange d r.val) h (voltRange_other (d := fresh s.dev) hw hp)
  · refine ⟨fun hb => ?_, fun hb hw => ?_, fun hb hw hl => ?_⟩
    · exact rests_event (f := fun d => railWithin d r.val) h (railWithin_idle (d := fresh s.dev) hb)
    · exact becomes_event (f := fun d => railWithin d r.val) h (railWithin_ends (d := fresh s.dev) hb hw)
    · exact becomes_event (f := fun d => railWithin d r.val) h (railWithin_finds (d := fresh s.dev) hb hw hl)
  · refine ⟨fun hr => ?_, fun hr => ?_, becomes_event (f := fun d => tempEnd d i.val c) h rfl⟩
    · cases c
      · exact becomes_event (f := fun d => tempEpisode d i.val 0x12) h (if_pos hr)
      · exact becomes_event (f := fun d => tempEpisode d i.val 0x13) h (if_pos hr)
    · cases c
      · exact rests_event (f := fun d => tempEpisode d i.val 0x12) h (if_neg (ne_true_of_eq_false hr))
      · exact rests_event (f := fun d => tempEpisode d i.val 0x13) h (if_neg (ne_true_of_eq_false hr))
  · exact becomes_event (f := fun d => oscCheck d off) h rfl
  · refine ⟨fun hi => ?_, fun hf hb => ⟨fun h0 => ?_, fun h1 => ?_, fun h2 => ?_, fun h3 => ?_⟩, fun hi => ?_, fun hf hi => ?_⟩
    · exact rests_event (f := fun d => pllUnlock d i.val) h (pllUnlock_idle (d := fresh s.dev) hi)
    · obtain rfl : i = 0 := Fin.ext h0
      exact becomes_event (f := fun d => pllUnlock d 0) h (if_neg (pllUnlock_locked (d := fresh s.dev) hf hb))
    · obtain rfl : i = 1 := Fin.ext h1
      exact becomes_event (f := fun d => pllUnlock d 1) h (if_neg (pllUnlock_locked (d := fresh s.dev) hf hb))
    · obtain rfl : i = 2 := Fin.ext h2
      exact becomes_event (f := fun d => pllUnlock d 2) h (if_neg (pllUnlock_locked (d := fresh s.dev) hf hb))
    · exact becomes_event (f := fun d => pllUnlock d i.val) h (pllUnlock_octets (d := fresh s.dev) hf hb h3)
    · exact rests_event (f := fun d => pllRelock d i.val) h (pllRelock_idle (d := fresh s.dev) hi)
    · exact becomes_event (f := fun d => pllRelock d i.val) h (pllRelock_locks (d := fresh s.dev) hf hi)

end Sys2Proof.Machine

/-! R370, R410, R412, R422–R427: RESET_N, device resets, the watchdog and an unconfirmed trial. -/

namespace Sys2Proof.Machine

open Sys2Proof

/-! ### What stays as it was when a domain stops -/

/-- The cause bits but that of the AON power-on. -/
def lateCauses : Fld := ⟨127, 113⟩

/-- The variant, the clock, the cause bits but the first, and the power state but for what a stop notes in it. -/
structure Stable where
  variant : Variant
  bt : Nat
  cause : Nat
  pwr : PwrState

def stable (d : Dev) : Stable :=
  ⟨d.variant, d.bt, fld d .resetCause 0 lateCauses, { d.pwr with held := none, fwStopBt := 0 }⟩

section

variable {d e : Dev}

theorem stable_bt (h : stable e = stable d) : e.bt = d.bt := congrArg Stable.bt h

theorem bit_cause (d : Dev) (b : Nat) :
    bit (fld d .resetCause 0 RCause.cause) (b + 1) = bit (fld d .resetCause 0 lateCauses) b := by
  unfold fld bit
  rw [testBit_getF, testBit_getF]
  have hd : decide (b + 1 < Fld.width RCause.cause) = decide (b < Fld.width lateCauses) := decide_eq_decide.2 (by
    show b + 1 < 16 ↔ b < 15
    omega)
  have hi : b + 1 + RCause.cause.lsb = b + lateCauses.lsb := by
    show b + 1 + 112 = b + 113
    omega
  rw [hd, hi]

theorem stable_cause (h : stable e = stable d) (b : Nat) :
    bit (fld e .resetCause 0 RCause.cause) (b + 1) = bit (fld d .resetCause 0 RCause.cause) (b + 1) := by
  rw [bit_cause, bit_cause]
  exact congrArg (fun x => bit x.cause b) h

theorem stable_resetDue (h : stable e = stable d) : e.pwr.resetDue = d.pwr.resetDue :=
  congrArg (fun x => x.pwr.resetDue) h

theorem stable_foldl {α : Type} {f : Dev → α → Dev} (l : List α) (h : ∀ d, ∀ a ∈ l, stable (f d a) = stable d) (d : Dev) :
    stable (l.foldl f d) = stable d := foldl_keeps (p := stable) (step := f) l h d

theorem stable_setRec {k : RecKind} {i v : Nat} (h : RecKind.resetCause.key 0 ≠ k.key i) : stable (setRec d k i v) = stable d := by
  have hc : fld (setRec d k i v) .resetCause 0 lateCauses = fld d .resetCause 0 lateCauses :=
    congrArg (getF · lateCauses) (getRec_setRec_other d k .resetCause i 0 v h)
  unfold stable
  rw [hc]
  rfl

/-- A record of another kind is another record. -/
theorem causeApart {k : RecKind} {i : Nat} (h : 59 < k.code ∨ (k.code < 59 ∧ i < 2 ^ 24)) :
    RecKind.resetCause.key 0 ≠ k.key i := by
  unfold RecKind.key
  have hc : RecKind.resetCause.code = 59 := rfl
  rw [hc]
  omega

theorem stable_setFld {k : RecKind} {i : Nat} (f : Fld) (v : Nat) (h : 59 < k.code ∨ (k.code < 59 ∧ i < 2 ^ 24)) :
    stable (setFld d k i f v) = stable d := stable_setRec (causeApart h)

/-- Two tables that differ in their default alone, where a field of the defaults agrees. -/
theorem getF_get_default {x y : Nat} {f : Fld} (h : getF x f = getF y f) (t : Tab Nat) (k : Nat) :
    getF (Tab.get x t k) f = getF (Tab.get y t k) f := by
  induction t with
  | nil => exact h
  | cons e t ih =>
    simp only [Tab.get]
    split
    · rfl
    · exact ih

/-- CONSUMER of a ring and the cause bits do not overlap, wherever the ring's record stands. -/
theorem stable_consumer (i v : Nat) : stable (setFld d .ring i Rng.consumer v) = stable d := by
  by_cases hk : RecKind.resetCause.key 0 = RecKind.ring.key i
  · have hdef : getF (resetRec d.variant .resetCause 0) lateCauses = getF (resetRec d.variant .ring i) lateCauses := by
      have h0 : getF (resetOf RecKind.ring.fields) lateCauses = 0 := by decide
      have hring : getF (resetRec d.variant .ring i) lateCauses = 0 := by
        simp only [resetRec]
        split
        · rw [getF_setF_other (by decide) (by decide), h0]
        · rw [getF_setF_other (by decide) (by decide), h0]
      rw [hring]
      show getF (resetOf RecKind.resetCause.fields) lateCauses = 0
      decide
    have hc : fld (setFld d .ring i Rng.consumer v) .resetCause 0 lateCauses = fld d .resetCause 0 lateCauses := by
      calc getF (Tab.get (resetRec d.variant .resetCause 0) (setFld d .ring i Rng.consumer v).recs (RecKind.resetCause.key 0))
            lateCauses
          = getF (getRec (setFld d .ring i Rng.consumer v) .ring i) lateCauses := by
            rw [hk]
            exact getF_get_default hdef _ _
        _ = getF (getRec d .ring i) lateCauses := by
            rw [getRec_setFld_same, getF_setF_other (by decide) (by decide)]
        _ = getF (Tab.get (resetRec d.variant .resetCause 0) d.recs (RecKind.resetCause.key 0)) lateCauses := by
            rw [hk]
            exact (getF_get_default hdef _ _).symm
    unfold stable
    rw [hc]
    rfl
  · exact stable_setRec hk

theorem stable_ite {a b : Dev} {c : Prop} [Decidable c] (ha : stable a = stable d) (hb : stable b = stable d) :
    stable (if c then a else b) = stable d := by
  split
  · exact ha
  · exact hb

end

section

variable (d : Dev)

/-! ### Rings and ports -/

theorem stable_sendMsix (f : Fn) (v : Nat) : stable (sendMsix d f v) = stable d :=
  stable_ite rfl (stable_ite rfl rfl)

theorem stable_ringMessage (f : Fn) (tx : Bool) (r : Nat) : stable (ringMessage d f tx r) = stable d :=
  have h := stable_sendMsix d f (ringFld d f tx r Rng.vector)
  stable_ite rfl (stable_ite h h)

theorem stable_writeBack (f : Fn) (tx : Bool) (r wb : Nat) (data : List Byte) : stable (writeBack d f tx r wb data) = stable d := by
  unfold writeBack
  exact stable_ite rfl ((stable_ringMessage _ _ _ _).trans (stable_consumer _ _))

theorem stable_drainTx (n : Nat) (f : Fn) (r : Nat) : stable (drainTx n d f r) = stable d := by
  induction n generalizing d with
  | zero => rfl
  | succ n ih =>
    unfold drainTx
    dsimp only
    split
    · exact (ih _).trans (stable_writeBack _ _ _ _ _ _)
    · rfl

theorem stable_txReady (f : Fn) (r slot wb : Nat) : stable (txReady d f r slot wb) = stable d := by
  unfold txReady
  exact stable_ite (stable_drainTx _ _ _ _) rfl

theorem stable_lostHost (w : TxWho) (l : TxLoss) : stable (lostHost d w l) = stable d := by
  unfold lostHost
  split
  · exact stable_txReady _ _ _ _ _
  · rfl

theorem stable_truncateTx (p : Nat) : stable (truncateTx d p) = stable d := by
  unfold truncateTx
  dsimp only
  split
  · exact stable_lostHost _ _ _
  · rfl

/-- A flush that counts nothing (R134). -/
theorem stable_flushQueues (p : Nat) : stable (flushQueues d p .flushed) = stable d := by
  unfold flushQueues
  refine stable_foldl _ (fun d q _ => ?_) d
  dsimp only
  have hcause : (if TxLoss.flushed = .modeChange ∧ q = 7 then TxLoss.flushed else .flushed) = .flushed := ite_self _
  rw [hcause]
  exact stable_foldl _ (fun d f _ => stable_lostHost d f.who .flushed) _

theorem stable_flushPorts : stable (flushPorts d) = stable d :=
  stable_foldl _ (fun d p _ => (stable_flushQueues _ p).trans (stable_truncateTx d p)) d

/-! ### The firmware and the units -/

theorem stable_captureHeld : stable (captureHeld d) = stable d := rfl

theorem stable_raise (id : Nat) : stable (raise d id) = stable d := stable_ite rfl rfl

theorem stable_enterRef {r : Nat} (st reason : Nat) (hr : r < 10) : stable (enterRef d r st reason) = stable d := by
  have hset (f : Fld) (v : Nat) (d : Dev) : stable (setFld d .refStatus r f v) = stable d :=
    stable_setFld f v (.inr ⟨by decide, by omega⟩)
  unfold enterRef
  have h := (hset RefSt.reason reason (setFld d .refStatus r RefSt.state st)).trans (hset RefSt.state st d)
  have hforget := stable_ite (c := st = 0) (a := forgetTrain (setFld (setFld d .refStatus r RefSt.state st) .refStatus r RefSt.reason reason) r)
    h h
  exact stable_ite hforget hforget

theorem stable_discStop : stable (discStop d) = stable d := by
  have hset {m : Nat} (hm : m < 2) (f : Fld) (v : Nat) (d : Dev) : stable (setFld d .servoStatus m f v) = stable d :=
    stable_setFld f v (.inr ⟨by decide, by omega⟩)
  unfold discStop
  refine (stable_foldl _ (fun d m hm => ?_) _).trans (stable_foldl _ (fun d r hr => ?_) _)
  · have hm : m < 2 := by
      simp only [List.mem_cons, List.not_mem_nil, or_false] at hm
      omega
    dsimp only
    have h := fun v => (hset hm SrvSt.servoState v (setFld d .servoStatus m SrvSt.seedOk 0)).trans (hset hm SrvSt.seedOk 0 d)
    exact stable_ite (h _) ((stable_raise _ _).trans (h _))
  · have hr : r < 10 := List.mem_range.1 hr
    exact (stable_setFld _ _ (.inr ⟨by decide, by omega⟩)).trans (stable_enterRef d 0 3 hr)

theorem stable_firmwareStops : stable (firmwareStops d) = stable d := by
  unfold firmwareStops
  split
  · exact (show stable _ = stable (discStop d) from rfl).trans (stable_discStop d)
  · rfl

theorem stable_gnssMemoryLost : stable (gnssMemoryLost d) = stable d := by
  have hsearch (d : Dev) : stable (searchLost d) = stable d := by
    unfold searchLost
    split <;> rfl
  have hset (k : RecKind) (a v : Nat) (d : Dev) (h : k.code < 59 ∧ a < 2) : stable (setRec d k a v) = stable d :=
    stable_setRec (causeApart (.inr ⟨h.1, by omega⟩))
  unfold gnssMemoryLost
  refine (stable_foldl _ (fun d a ha => ?_) _).trans (hsearch d)
  have ha : a < 2 := by
    simp only [List.mem_cons, List.not_mem_nil, or_false] at ha
    omega
  dsimp only
  refine (hset _ _ _ _ ⟨by decide, ha⟩).trans (stable_ite ?_ rfl)
  exact hset _ _ _ _ ⟨by decide, ha⟩

theorem stable_interruptSlow (w : Waiting) : stable (interruptSlow d w) = stable d := by
  have hset (f : Fld) (v : Nat) (d : Dev) : stable (setFld d .fwStatus 0 f v) = stable d :=
    stable_setFld f v (.inr ⟨by decide, by decide⟩)
  have hpreferred (d : Dev) : stable (refreshPreferred d) = stable d := by
    unfold refreshPreferred
    exact stable_ite ((hset _ _ _).trans rfl) (hset _ _ _)
  have hslot (s st r : Nat) (d : Dev) : stable (setSlotState d s st r) = stable d := by
    unfold setSlotState
    simp only [hset, hpreferred]
  cases w with
  | tagWrite k bytes =>
    simp only [interruptSlow, interruptTag]
    exact stable_ite rfl rfl
  | fwErase s => exact (hslot _ _ _ _).trans rfl
  | fwWrite s off data => exact (hslot _ _ _ _).trans rfl
  | wrapInstall id form key =>
    simp only [interruptSlow, interruptWrap]
    exact stable_ite rfl rfl
  | _ => rfl

theorem stable_abortSlow : stable (abortSlow d) = stable d := by
  have hbusy (d : Dev) : stable (setOtpBusy d false) = stable d := rfl
  unfold abortSlow
  refine (hbusy _).trans (stable_foldl _ (fun d e _ => ?_) d)
  split
  · exact stable_interruptSlow _ _
  · rfl

theorem stable_benchStop : stable (benchStop d) = stable d := by
  refine (stable_foldl (f := fun d (e : Nat × Nat) => setFld d .asymSlot e.1 Slot.generating 0) _ (fun d e he => ?_) _).trans rfl
  exact stable_setFld _ _ (.inr ⟨by decide, listed_lt he⟩)

theorem stable_processorStops : stable (processorStops d) = stable d := by
  have hlast (d : Dev) : stable { d with mbx := { d.mbx with locks := [] }, obs := { d.obs with gauge := none },
                                         ptp := { d.ptp with clients := [], inbox := [] } } = stable d := rfl
  have hmasters (d : Dev) : stable ([0, 1].foldl (fun d c =>
      setFld (setFld d .ptpClient c PCli.masterPortId 0) .ptpClient c PCli.masterClass 0) d) = stable d := by
    refine stable_foldl _ (fun d c hc => ?_) d
    have hc : c < 2 := by
      simp only [List.mem_cons, List.not_mem_nil, or_false] at hc
      omega
    have hset (f : Fld) (v : Nat) (d : Dev) : stable (setFld d .ptpClient c f v) = stable d :=
      stable_setFld f v (.inr ⟨by decide, by omega⟩)
    exact (hset _ _ _).trans (hset _ _ _)
  unfold processorStops
  exact (hlast _).trans ((hmasters _).trans ((stable_benchStop _).trans ((stable_abortSlow _).trans
    ((stable_gnssMemoryLost _).trans (stable_firmwareStops d)))))

theorem stable_freezeScribe : stable (freezeScribe d) = stable d := by
  have hset (k : RecKind) (i : Nat) (f : Fld) (v : Nat) (d : Dev) (h : 59 < k.code) : stable (setFld d k i f v) = stable d :=
    stable_setFld f v (.inl h)
  unfold freezeScribe
  exact stable_ite ((hset _ _ _ _ _ (by decide)).trans (stable_ite rfl (hset _ _ _ _ _ (by decide)))) rfl

theorem stable_tiuReset : stable (tiuReset d) = stable d := by
  have hcal (d : Dev) : stable ((List.range 8).foldl (fun d i => uncalibrate (setIn d i
      { getIn d i with lastStamp := none, waiting := none, gate := none, calBt := none, hits := [] }) i) d) = stable d := by
    refine stable_foldl _ (fun d i hi => ?_) d
    have hi : i < 8 := List.mem_range.1 hi
    have hset (f : Fld) (v : Nat) (d : Dev) : stable (setFld d .tiuInStatus i f v) = stable d :=
      stable_setFld f v (.inr ⟨by decide, by omega⟩)
    exact (hset _ _ _).trans (hset _ _ _)
  have hpulse (d : Dev) : stable ((List.range 6).foldl endPulse d) = stable d :=
    stable_foldl (f := endPulse) _ (fun _ _ _ => rfl) d
  have hlast (d : Dev) : stable (endEpisode { d with tiu := { d.tiu with fifo := [], lost := false } } (srcId 0x59 0)) = stable d :=
    rfl
  unfold tiuReset
  exact (hlast _).trans ((hpulse _).trans (hcal d))

theorem stable_clearNotches {a : Nat} (ha : a < 2) : stable (clearNotches d a) = stable d := by
  have hnotch (n : Nat) (on : Bool) (hz : Int) (d : Dev) : stable (setNotch d a n on hz) = stable d := by
    have h (v : Nat) : stable (setRec d .gnssAntStatus a v) = stable d :=
      stable_setRec (causeApart (.inr ⟨by decide, by omega⟩))
    have h' (v : Nat) (x : Antenna) : stable (setAnt (setRec d .gnssAntStatus a v) a x) = stable d := h v
    unfold setNotch
    exact stable_ite (h _) (h' _ _)
  have hlast (d : Dev) (x : Antenna) : stable (endEpisode (setAnt d a x) (srcId 0x53 a)) = stable d := rfl
  unfold clearNotches
  exact (hlast _ _).trans (stable_foldl (f := fun d n => setNotch d a n false 0) _ (fun d n _ => hnotch n false 0 d) d)

theorem stable_searchAll (a : Nat) (cold : Bool) : stable (searchAll d a cold) = stable d := rfl

theorem stable_gnssDomainReset : stable (gnssDomainReset d) = stable d := by
  have hidle (a : Nat) (d : Dev) : stable (idleChans d a) = stable d :=
    stable_foldl (f := fun d i => setChan d i Channel.idle) _ (fun _ _ _ => rfl) d
  have hsearch {a : Nat} (ha : a < 2) (d : Dev) : stable (searchAll (clearNotches d a) a false) = stable d :=
    (stable_searchAll _ _ _).trans (stable_clearNotches d ha)
  have hring (d : Dev) : stable
      { d with gnss := { d.gnss with ring := [], blocks := 0, pairs := [], acq := none, epochBt := none } } = stable d := rfl
  unfold gnssDomainReset gnssIdle
  exact (hsearch (by decide) _).trans ((hsearch (by decide) _).trans ((hring _).trans ((hidle 1 _).trans (hidle 0 d))))

theorem stable_resetRecords : stable (resetRecords d) = stable d := by
  have hdrop : stable (dropRecs d isResetKind) = stable d := by
    have hget : getRec (dropRecs d isResetKind) .resetCause 0 = getRec d .resetCause 0 :=
      (Tab.get_filter (fun x => !isResetKind (x / 2 ^ 24)) _ d.recs _).trans (if_pos (by decide))
    unfold stable fld
    rw [hget]
    rfl
  have hviews (d : Dev) : stable ((listed d .view).foldl (fun d e => setFld d .view e.1 View.tenantsBound 0) d) = stable d :=
    stable_foldl (f := fun d (e : Nat × Nat) => setFld d .view e.1 View.tenantsBound 0) _
      (fun _ _ he => stable_setFld _ _ (.inr ⟨by decide, listed_lt he⟩)) d
  have hvfs (d : Dev) (l : List Nat) (hl : l.length = 4) :
      stable ((l.zipIdx).foldl (fun d x => setFld d .endpoint x.2 Ep.totalVfsActive x.1) d) = stable d := by
    refine stable_foldl (f := fun d (x : Nat × Nat) => setFld d .endpoint x.2 Ep.totalVfsActive x.1) _ (fun d x hx => ?_) d
    have hx := List.snd_lt_of_mem_zipIdx hx
    exact stable_setFld _ _ (.inr ⟨by decide, by omega⟩)
  unfold resetRecords
  exact (hviews _).trans ((hvfs _ _ (by simp)).trans hdrop)

/-! ### The reach of a reset -/

/-- What a reset of all but the AON keeps, and what it returns to its reset value. -/
structure ResetReach (d e : Dev) : Prop where
  bt : e.bt = d.bt
  due : e.pwr.resetDue = d.pwr.resetDue
  cause : ∀ b, bit (fld e .resetCause 0 RCause.cause) (b + 1) = bit (fld d .resetCause 0 RCause.cause) (b + 1)
  mbx : e.mbx = MbxState.reset
  ports : e.ports = []
  halted : e.pwr.halted = false

theorem stable_power (f : Fld) (v : Nat) : stable (setFld d .power 0 f v) = stable d := stable_setFld f v (.inl (by decide))

theorem resetReach_applyReset : ResetReach d (applyReset d) := by
  have hstop : stable (processorStops (flushPorts (captureHeld d))) = stable d :=
    (stable_processorStops _).trans ((stable_flushPorts _).trans (stable_captureHeld d))
  have hclients (d : Dev) : stable (clearClients { d with ct := { d.ct with retainedFrom := some d.bt } }) = stable d := rfl
  have hunits (d : Dev) : stable (gnssDomainReset (tiuReset (freezeScribe (clearClients
      { d with ct := { d.ct with retainedFrom := some d.bt } })))) = stable d :=
    (stable_gnssDomainReset _).trans ((stable_tiuReset _).trans ((stable_freezeScribe _).trans (hclients d)))
  have hstats (d : Dev) (p : Nat → Bool) : stable (dropStats d p) = stable d := rfl
  have hzero (d : Dev) : stable (zeroCounters d) = stable d := rfl
  have hpower (d : Dev) : stable (setFld (setPowerPending d 0) .power 0 Pow.wakeLatched 0) = stable d :=
    (stable_power _ _ _).trans (stable_power _ _ _)
  unfold applyReset
  extract_lets stopped ct units counts e
  have h1 : stable stopped = stable d := hstop
  have h2 : stable units = stable stopped := hunits stopped
  have h3 : stable counts = stable units :=
    (hstats (resetRecords (zeroCounters units)) _).trans ((stable_resetRecords _).trans (hzero units))
  have h4 : stable e = stable counts := hpower counts
  have he : stable e = stable d := h4.trans (h3.trans (h2.trans h1))
  clear_value e
  have hbt : e.bt = d.bt := stable_bt he
  have hdue : e.pwr.resetDue = d.pwr.resetDue := stable_resetDue he
  have hcause := stable_cause he
  exact ⟨hbt, hdue, hcause, rfl, rfl, rfl⟩

theorem stable_wakeByReset (code : Nat) : stable (wakeByReset d code) = stable d :=
  stable_ite ((stable_power _ _ _).trans (stable_power _ _ _)) rfl

theorem resetReach_wakes (code : Nat) : ResetReach d (applyReset (wakeByReset d code)) := by
  obtain ⟨hbt, hdue, hcause, hmbx, hports, hhalted⟩ := resetReach_applyReset (wakeByReset d code)
  have h := stable_wakeByReset d code
  exact ⟨hbt.trans (stable_bt h), hdue.trans (stable_resetDue h), fun b => (hcause b).trans (stable_cause h b), hmbx, hports,
    hhalted⟩

theorem bit_setCause {b : Nat} (hb : b < 16) : bit (fld (setCause d b) .resetCause 0 RCause.cause) b = true := by
  have h (n : Nat) : bit (n % 2 ^ 16) b = bit n b := by
    unfold bit
    rw [Nat.testBit_mod_two_pow, decide_eq_true hb, Bool.true_and]
  unfold setCause
  rw [fld_setFld_other _ _ _ (by decide) (by decide), fld_setFld_same _ _ _ (by decide)]
  exact (h _).trans ((bit_setBit _ _ _ _).trans (if_pos rfl))

theorem safe_setFld {k : RecKind} {i : Nat} {f : Fld} {v : Nat} (h : RecKind.faultStatus.key 0 ≠ k.key i) :
    safe (setFld d k i f v) = safe d := by
  unfold safe flag
  rw [fld_setFld_record _ _ _ h]

theorem safe_setCause (b : Nat) : safe (setCause d b) = safe d :=
  (safe_setFld _ (by decide)).trans (safe_setFld d (by decide))

/-! ### RESET_N -/

theorem resetNAssert_held (h : d.pwr.resetN.isSome = true) : resetNAssert d = d := if_pos h

theorem resetNAssert_low (h : d.pwr.resetN = none) :
    (resetNAssert d).pwr.resetN = some d.bt ∧ (resetNAssert d).pwr.devReset = false
      ∧ bit (fld (resetNAssert d) .resetCause 0 RCause.cause) 1 = true
      ∧ (safe d = false → (resetNAssert d).mbx = MbxState.reset ∧ (resetNAssert d).ports = []
        ∧ (resetNAssert d).pwr.halted = false) := by
  have hn : ¬ d.pwr.resetN.isSome = true := by simp [h]
  have hbit : bit (fld (setCause d 1) .resetCause 0 RCause.cause) 1 = true := bit_setCause d (by decide)
  unfold resetNAssert
  rw [if_neg hn]
  dsimp only
  rw [safe_setCause]
  by_cases hs : safe d = true
  · rw [if_pos hs]
    exact ⟨rfl, rfl, hbit, fun h => absurd (hs.symm.trans h) (by decide)⟩
  · rw [if_neg hs]
    have hr := resetReach_wakes (setCause d 1) 5
    generalize applyReset (wakeByReset (setCause d 1) 5) = e at hr ⊢
    exact ⟨congrArg some hr.bt, rfl, (hr.cause 0).trans hbit, fun _ => ⟨hr.mbx, hr.ports, hr.halted⟩⟩

theorem power_enterPower {v : Nat} (hv : v < 4) : power (enterPower d v) = v := by
  unfold enterPower setPowerPending power
  rw [fld_setFld_other _ _ _ (by decide) (by decide)]
  split
  next h => exact h
  next =>
    rw [fld_setFld_other _ _ _ (by decide) (by decide), fld_setFld_same _ _ _ (by decide)]
    exact Nat.mod_eq_of_lt hv

theorem power_setCause (b : Nat) : power (setCause d b) = power d := by
  unfold setCause power
  rw [fld_setFld_record _ _ _ (by decide), fld_setFld_record _ _ _ (by decide)]

theorem enterPower_pwr (v : Nat) : (enterPower d v).pwr = d.pwr := by
  unfold enterPower
  split <;> rfl

/-- A reset that ends outside the FATAL safe state begins a full boot in FULL. -/
theorem endReset_boots (kind : Nat) : (endReset d kind).pwr.resetN = none ∧ (endReset d kind).pwr.devReset = false
    ∧ (endReset d kind).pwr.resetDue = d.pwr.resetDue
    ∧ (safe d = false → (endReset d kind).pwr.bootKind = kind ∧ power (endReset d kind) = 0) := by
  obtain ⟨F, hF⟩ : ∃ F, (if d.flt.graceHeld = true then startGrace d else d) = { d with flt := F } := by
    split
    · exact ⟨_, rfl⟩
    · exact ⟨d.flt, rfl⟩
  unfold endReset
  rw [hF]
  extract_lets held pwr released full p
  by_cases hs : safe d = true
  · rw [if_pos (show safe released = true from hs)]
    exact ⟨rfl, rfl, rfl, fun h => absurd (hs.symm.trans h) (by decide)⟩
  · rw [if_neg (show ¬ safe released = true from hs)]
    have hpwr : full.pwr = { d.pwr with devReset := false, resetN := none } := enterPower_pwr _ 0
    have hresetN : full.pwr.resetN = none := congrArg PwrState.resetN hpwr
    have hdev : full.pwr.devReset = false := congrArg PwrState.devReset hpwr
    have hdue : full.pwr.resetDue = d.pwr.resetDue := by rw [hpwr]
    have hpower : power full = 0 := power_enterPower _ (by decide)
    split
    · exact ⟨hresetN, hdev, hdue, fun _ => ⟨rfl, hpower⟩⟩
    · exact ⟨hresetN, hdev, hdue, fun _ => ⟨rfl, hpower⟩⟩
    · exact ⟨hresetN, hdev, hdue, fun _ => ⟨rfl, hpower⟩⟩

theorem resetNDeassert_high (h : d.pwr.resetN = none) : resetNDeassert d = d := by
  unfold resetNDeassert
  rw [h]

theorem resetNDeassert_ends {n : Nat} (h : d.pwr.resetN = some n) :
    (resetNDeassert d).pwr.resetN = none ∧ (resetNDeassert d).pwr.devReset = false ∧ (resetNDeassert d).pwr.resetDue = none
      ∧ (safe d = false → (resetNDeassert d).pwr.bootKind = 2 ∧ power (resetNDeassert d) = 0) := by
  have hshape : ∃ e, resetNDeassert d = endReset e 2 ∧ e.pwr.resetDue = none ∧ safe e = safe d := by
    unfold resetNDeassert
    rw [h]
    dsimp only
    have hsafe (f : Fld) (v : Nat) : safe (setFld d .resetCause 0 f v) = safe d := safe_setFld d (by decide)
    split
    · exact ⟨_, rfl, rfl, (safe_setCause _ _).trans (hsafe _ _)⟩
    · next hdue => exact ⟨_, rfl, hdue, hsafe _ _⟩
  obtain ⟨e, heq, hdue, hsafe⟩ := hshape
  obtain ⟨hn, hdev, hdue', hboot⟩ := endReset_boots e 2
  rw [heq]
  exact ⟨hn, hdev, hdue'.trans hdue, fun hs => hboot (hsafe.trans hs)⟩

/-! ### The long assertion, device resets, the watchdog and the trial -/

theorem pinLong_high (h : d.pwr.resetN = none) : pinLong d = d := by
  unfold pinLong
  rw [h]

/-- PIN_LONG was set already, at an edge as late. -/
def longCounted (d : Dev) (n : Nat) : Bool :=
  decide (n + twoSeconds d ≤ fld d .resetCause 0 RCause.lastResetBt) && bit (fld d .resetCause 0 RCause.cause) 2

theorem pinLong_sets {n : Nat} (h : d.pwr.resetN = some n) (hb : n + twoSeconds d ≤ d.bt) (hc : longCounted d n = false) :
    pinLong d = setCause d 2 := by
  unfold pinLong
  rw [h]
  exact if_pos ⟨hb, congrArg (!·) hc⟩

theorem pinLong_idle {n : Nat} (h : d.pwr.resetN = some n) (hi : d.bt < n + twoSeconds d ∨ longCounted d n = true) :
    pinLong d = d := by
  unfold pinLong
  rw [h]
  refine if_neg fun ⟨hb, hc⟩ => ?_
  obtain hi | hi := hi
  · exact absurd hb (Nat.not_le.2 hi)
  · unfold longCounted at hi
    simp [hi] at hc

/-- A device reset may begin. -/
def resetStarts (d : Dev) (n : Nat) : Prop := n ≤ d.bt + 1 ∧ safe d = false ∧ resetHeld d = false

theorem deviceResetStart_begins {n c : Nat} (h : d.pwr.resetDue = some (n, c)) (hdue : resetStarts d n) :
    (deviceResetStart d).pwr.devReset = true ∧ (deviceResetStart d).pwr.resetFrom = d.bt
      ∧ (deviceResetStart d).pwr.resetDue = none ∧ (deviceResetStart d).mbx = MbxState.reset ∧ (deviceResetStart d).ports = [] := by
  obtain ⟨hn, hs, hr⟩ := hdue
  have hneg : ¬ (d.bt + 1 < n ∨ safe d = true ∨ resetHeld d = true) := by
    simp only [hs, hr, Bool.false_eq_true, or_false]
    omega
  unfold deviceResetStart
  rw [h]
  dsimp only
  rw [if_neg hneg]
  have hreach := resetReach_wakes (setCause { d with pwr := { d.pwr with resetDue := none } } c) 4
  generalize applyReset (wakeByReset (setCause { d with pwr := { d.pwr with resetDue := none } } c) 4) = e at hreach ⊢
  have hbt : e.bt = d.bt := hreach.bt
  have hdue : e.pwr.resetDue = none := hreach.due
  exact ⟨rfl, hbt, hdue, hreach.mbx, hreach.ports⟩

theorem deviceResetStart_waits (h : ∀ n c, d.pwr.resetDue = some (n, c) → ¬ resetStarts d n) : deviceResetStart d = d := by
  unfold deviceResetStart
  split
  next n c hdue =>
    refine if_pos (Classical.not_not.1 fun hneg => h n c hdue ?_)
    simp only [not_or, Nat.not_lt, Bool.not_eq_true] at hneg
    exact hneg
  next => rfl

/-- The watchdog watches a firmware that runs or starts. -/
def watched (d : Dev) : Prop :=
  (d.pwr.phase = .ready ∨ d.pwr.phase = .fwStart) ∧ fastRuns d = true ∧ d.pwr.halted = false ∧ safe d = false

theorem watchdogExpiry_stops (h : watched d) : (watchdogExpiry d).pwr.phase = .bootRom ∧ (watchdogExpiry d).pwr.bootKind = 4
    ∧ (watchdogExpiry d).pwr.reloadDue = none ∧ (watchdogExpiry d).mbx.locks = [] := by
  have hlocks (d : Dev) : (processorStops d).mbx.locks = [] := rfl
  have hraise (d : Dev) (b id : Nat) : (raise (setCause d b) id).mbx = d.mbx := by
    unfold raise raiseWith
    dsimp only
    split <;> rfl
  have heq : watchdogExpiry d = { raise (setCause (processorStops d) 5) (srcId 0x05 0) with
      pwr := { (raise (setCause (processorStops d) 5) (srcId 0x05 0)).pwr with
        phase := .bootRom, bootKind := 4, reloadDue := none } } := by
    obtain ⟨hphase, hfast, hhalt, hsafe⟩ := h
    exact if_pos ⟨hphase, hfast, by simp [hhalt], by simp [hsafe]⟩
  have hfree : (raise (setCause (processorStops d) 5) (srcId 0x05 0)).mbx.locks = [] := by
    rw [hraise]
    exact hlocks d
  rw [heq]
  generalize raise (setCause (processorStops d) 5) (srcId 0x05 0) = e at hfree ⊢
  exact ⟨rfl, rfl, rfl, hfree⟩

theorem watchdogExpiry_idle (h : ¬ watched d) : watchdogExpiry d = d := by
  refine if_neg fun ⟨hphase, hfast, hhalt, hsafe⟩ => h ⟨hphase, hfast, ?_, ?_⟩
  · simpa using hhalt
  · simpa using hsafe

/-- A trial that has not been confirmed in time. -/
def trialEnds (d : Dev) : Prop :=
  fwRuns d = true ∧ trialActive d = true ∧ confirmRemain d = 0 ∧ d.pwr.reloadDue = none ∧ d.pwr.resetDue = none

theorem trialExpiry_reverts (h : trialEnds d) : trialExpiry d
    = { d with pwr := if slotAbiFits d (preferredSlot d) then { d.pwr with reloadDue := some d.bt }
                      else { d.pwr with resetDue := some (d.bt, 3) } } := by
  obtain ⟨hfw, htrial, hremain, hreload, hreset⟩ := h
  unfold trialExpiry
  rw [if_neg (by simp [hfw, htrial, hremain, hreload, hreset])]
  split <;> rfl

theorem trialExpiry_idle (h : ¬ trialEnds d) : trialExpiry d = d := by
  refine if_pos (Classical.not_not.1 fun hneg => h ?_)
  simp only [not_or, Bool.not_eq_true, Bool.not_eq_false', ne_eq, not_not, Option.isSome_eq_false_iff, Option.isNone_iff_eq_none]
    at hneg
  exact hneg

end

/-- Settles O37: a reset keeps the clock, the cause bits and what is due, as each part of it does, and the rest follows
from the branches of the six events. -/
theorem resetEvents : Obligations.ResetEvents := by
  intro s h
  refine ⟨fun hn => ?_, fun hn => ?_, fun n hn => ⟨fun hb hc => ?_, fun hi => ?_⟩, fun hn => ⟨?_, ?_⟩, fun n hn => ?_,
    ⟨fun n c hr hd => ?_, fun hd => ?_⟩, ⟨fun hw => ?_, fun hw => ?_⟩, ⟨fun he => ?_, fun he => ?_⟩⟩
  · exact rests_event (f := resetNAssert) h (resetNAssert_held (fresh s.dev) hn)
  · exact acts_event (f := resetNAssert) h (resetNAssert_low (fresh s.dev) hn)
  · exact becomes_event (f := pinLong) (g := fun d => setCause d 2) h (pinLong_sets (fresh s.dev) hn hb hc)
  · exact rests_event (f := pinLong) h (pinLong_idle (fresh s.dev) hn hi)
  · exact rests_event (f := pinLong) h (pinLong_high (fresh s.dev) hn)
  · exact rests_event (f := resetNDeassert) h (resetNDeassert_high (fresh s.dev) hn)
  · exact acts_event (f := resetNDeassert) h (resetNDeassert_ends (fresh s.dev) hn)
  · exact acts_event (f := deviceResetStart) h (deviceResetStart_begins (fresh s.dev) hr hd)
  · exact rests_event (f := deviceResetStart) h (deviceResetStart_waits (fresh s.dev) hd)
  · exact acts_event (f := watchdogExpiry) h (watchdogExpiry_stops (fresh s.dev) hw)
  · exact rests_event (f := watchdogExpiry) h (watchdogExpiry_idle (fresh s.dev) hw)
  · exact becomes_event (f := trialExpiry) h (trialExpiry_reverts (fresh s.dev) he)
  · exact rests_event (f := trialExpiry) h (trialExpiry_idle (fresh s.dev) he)

end Sys2Proof.Machine

/-! R34, R368, R379, R401, R430, R435–R440, R474: boots, wakes, the sideband, KEEP-TIME, the drain of LISTEN and JTAG. -/

namespace Sys2Proof.Machine

open Sys2Proof

/-! ### A frame given up -/

/-- A device that differs in its records, counts, host side and emissions, at the most. -/
def Delivered (d e : Dev) : Prop :=
  ∃ R S H O X, e = { d with recs := R, stats := S, host := H, obs := O, out := X }

namespace Delivered

variable {a b c d : Dev}

theorem refl (d : Dev) : Delivered d d := ⟨d.recs, d.stats, d.host, d.obs, d.out, rfl⟩

theorem trans (h : Delivered a b) (g : Delivered b c) : Delivered a c := by
  obtain ⟨_, _, _, _, _, rfl⟩ := h
  obtain ⟨R, S, H, O, X, rfl⟩ := g
  exact ⟨R, S, H, O, X, rfl⟩

theorem ite {p : Prop} [Decidable p] (hb : Delivered a b) (hc : Delivered a c) : Delivered a (if p then b else c) := by
  split
  · exact hb
  · exact hc

theorem foldl {α : Type} {f : Dev → α → Dev} (hf : ∀ d x, Delivered d (f d x)) (l : List α) (d : Dev) :
    Delivered d (l.foldl f d) := by
  induction l generalizing d with
  | nil => exact refl d
  | cons x l ih => exact (hf d x).trans (ih _)

theorem ports (h : Delivered a b) : b.ports = a.ports := by
  obtain ⟨_, _, _, _, _, rfl⟩ := h
  rfl

theorem key (h : Delivered a b) : b.key = a.key := by
  obtain ⟨_, _, _, _, _, rfl⟩ := h
  rfl

theorem bt (h : Delivered a b) : b.bt = a.bt := by
  obtain ⟨_, _, _, _, _, rfl⟩ := h
  rfl

theorem pwr (h : Delivered a b) : b.pwr = a.pwr := by
  obtain ⟨_, _, _, _, _, rfl⟩ := h
  rfl

theorem variant (h : Delivered a b) : b.variant = a.variant := by
  obtain ⟨_, _, _, _, _, rfl⟩ := h
  rfl

theorem recs (d : Dev) (R : Tab Nat) : Delivered d { d with recs := R } := ⟨R, d.stats, d.host, d.obs, d.out, rfl⟩

theorem host (d : Dev) (H : HostState) : Delivered d { d with host := H } := ⟨d.recs, d.stats, H, d.obs, d.out, rfl⟩

theorem stats (d : Dev) (S : Tab Nat) : Delivered d { d with stats := S } := ⟨d.recs, S, d.host, d.obs, d.out, rfl⟩

theorem obs (d : Dev) (O : ObsState) : Delivered d { d with obs := O } := ⟨d.recs, d.stats, d.host, O, d.out, rfl⟩

theorem emit (d : Dev) (x : Emission) : Delivered d (Machine.emit d x) := ⟨d.recs, d.stats, d.host, d.obs, _, rfl⟩

theorem bumpStat (d : Dev) (k : StatKind) (i n w m : Nat) : Delivered d (Machine.bumpStat d k i n w m) := stats d _

theorem setRing (d : Dev) (f : Fn) (tx : Bool) (r : Nat) (x : RingState) : Delivered d (Machine.setRing d f tx r x) := host d _

theorem sendMsix (d : Dev) (f : Fn) (v : Nat) : Delivered d (Machine.sendMsix d f v) :=
  ite (refl d) (ite (host d _) (emit d _))

theorem ringMessage (d : Dev) (f : Fn) (tx : Bool) (r : Nat) : Delivered d (Machine.ringMessage d f tx r) :=
  ite (setRing d f tx r _) (ite (sendMsix d f _) ((sendMsix d f _).trans (setRing _ f tx r _)))

theorem writeBack (d : Dev) (f : Fn) (tx : Bool) (r wb : Nat) (data : List Byte) :
    Delivered d (Machine.writeBack d f tx r wb data) := by
  unfold Machine.writeBack
  exact ite (refl d) ((emit d _).trans ((recs (Machine.emit d _) _).trans (ringMessage _ f tx r)))

theorem drainTx (n : Nat) (d : Dev) (f : Fn) (r : Nat) : Delivered d (Machine.drainTx n d f r) := by
  induction n generalizing d with
  | zero => exact refl d
  | succ n ih =>
    unfold Machine.drainTx
    dsimp only
    split
    · exact ((setRing d f true r _).trans (writeBack _ f true r _ _)).trans (ih _)
    · exact refl d

theorem txReady (d : Dev) (f : Fn) (r slot wb : Nat) : Delivered d (Machine.txReady d f r slot wb) := by
  unfold Machine.txReady
  exact ite ((setRing d f true r _).trans (drainTx _ _ f r)) (refl d)

theorem lostHost (d : Dev) (w : TxWho) (l : TxLoss) : Delivered d (Machine.lostHost d w l) := by
  unfold Machine.lostHost
  split
  · exact txReady d _ _ _ _
  · exact refl d

theorem lostTenant (d : Dev) (w : TxWho) (l : TxLoss) : Delivered d (Machine.lostTenant d w l) := by
  unfold Machine.lostTenant
  split
  · exact refl d
  · split
    · exact (bumpStat d .ntp _ 26 64 1).trans (obs _ _)
    · exact (bumpStat d .nts _ 19 64 1).trans (obs _ _)
    · exact (bumpStat d .ptp _ 20 64 1).trans (obs _ _)
    · exact refl d

theorem lost (d : Dev) (w : TxWho) (l : TxLoss) : Delivered d (Machine.lost d w l) :=
  (lostTenant d w l).trans (lostHost _ w l)

end Delivered

section

variable {d : Dev}

/-! ### The drain of LISTEN (R435) -/

theorem portQueue_setQueue (d : Dev) (p q : Nat) (l : List TxFrame) (i j : Nat) :
    portQueue (setQueue d p q l) i j = if i = p ∧ j = q then l else portQueue d i j := by
  unfold portQueue setQueue setPort getPort
  by_cases hi : i = p
  · subst hi
    dsimp only
    rw [Tab.get_set_same]
    by_cases hj : j = q
    · subst hj
      rw [if_pos ⟨rfl, rfl⟩, Tab.get_set_same]
    · rw [if_neg fun h => hj h.2, Tab.get_set_other _ _ _ _ _ _ hj]
  · dsimp only
    rw [if_neg fun h => hi h.1, Tab.get_set_other _ _ _ _ _ _ hi]

/-- No frame of a queue waits in the shared area. -/
def drained (d : Dev) (p q : Nat) : Prop := ∀ f ∈ portQueue d p q, f.area ≠ .shared

theorem portQueue_drainQueue (d : Dev) (p q i j : Nat) : portQueue (drainQueue d p q) i j
    = if i = p ∧ j = q then (portQueue d p q).filter fun f => !decide (f.area = .shared) else portQueue d i j := by
  have hlost : ∀ (l : List TxFrame) (d : Dev),
      Delivered d (l.foldl (fun d f => lost (bumpPort d p (32 + q)) f.who .full) d) :=
    Delivered.foldl fun d f => (Delivered.bumpStat d .port p (32 + q) 64 1).trans (Delivered.lost _ _ _)
  have hq (d e : Dev) (h : Delivered d e) : portQueue e i j = portQueue d i j := by
    unfold portQueue getPort
    rw [h.ports]
  exact (hq _ _ (hlost _ _)).trans (portQueue_setQueue d p q _ i j)

theorem drained_drainQueue_same (d : Dev) (p q : Nat) : drained (drainQueue d p q) p q := by
  intro f hf
  rw [portQueue_drainQueue, if_pos ⟨rfl, rfl⟩] at hf
  simpa using (List.mem_filter.1 hf).2

theorem drained_drainQueue {i j : Nat} (h : drained d i j) (p q : Nat) : drained (drainQueue d p q) i j := by
  intro f hf
  rw [portQueue_drainQueue] at hf
  split at hf
  · next heq =>
    obtain ⟨rfl, rfl⟩ := heq
    exact h f (List.mem_filter.1 hf).1
  · exact h f hf

/-- What each step of a fold keeps and one of them brings about holds after it. -/
theorem foldl_establishes {α : Type} {f : Dev → α → Dev} {P : Dev → Prop} (hkeep : ∀ d x, P d → P (f d x)) {x : α}
    (hmake : ∀ d, P (f d x)) {l : List α} (hx : x ∈ l) (d : Dev) : P (l.foldl f d) := by
  have hall : ∀ (l : List α) (d : Dev), P d → P (l.foldl f d) := by
    intro l
    induction l with
    | nil => exact fun _ h => h
    | cons y l ih => exact fun d h => ih _ (hkeep d y h)
  induction l generalizing d with
  | nil => cases hx
  | cons y l ih =>
    obtain rfl | hx := List.mem_cons.1 hx
    · exact hall l _ (hmake d)
    · exact ih hx _

/-- The shared area is drained 1 ms into LISTEN. -/
def drains (d : Dev) : Prop :=
  power d = 1 ∧ d.pwr.sharedGated = true ∧ fld d .power 0 Pow.entryBt + msToBt d 1 ≤ d.bt + 1

/-- The queues of one port drained. -/
def drainPort (d : Dev) (p : Nat) : Dev := (List.range 8).foldl (fun d q => drainQueue d p q) d

theorem drained_drainPort {i j : Nat} (h : drained d i j) (p : Nat) : drained (drainPort d p) i j :=
  List.foldlRecOn (motive := fun d => drained d i j) _ _ h fun _ hd q _ => drained_drainQueue hd p q

theorem drained_drainPort_same (d : Dev) (p : Nat) {q : Nat} (hq : q < 8) : drained (drainPort d p) p q :=
  foldl_establishes (f := fun d q => drainQueue d p q) (P := fun d => drained d p q) (fun _ j hd => drained_drainQueue hd p j)
    (fun d => drained_drainQueue_same d p q) (List.mem_range.2 hq) d

theorem listenDrain_empties (h : drains d) {p q : Nat} (hp : p < 16) (hq : q < 8) : drained (listenDrain d) p q := by
  have heq : listenDrain d = (List.range 16).foldl drainPort d := if_pos h
  rw [heq]
  exact foldl_establishes (f := drainPort) (P := fun d => drained d p q) (fun _ i hd => drained_drainPort hd i)
    (fun d => drained_drainPort_same d p hq) (List.mem_range.2 hp) d

theorem listenDrain_idle (h : ¬ drains d) : listenDrain d = d := if_neg h

/-! ### JTAG (R400, R401, R474) -/

theorem truncateTx_delivered (d : Dev) (p : Nat) : ∃ P F, Delivered { d with ports := P, free := F } (truncateTx d p) := by
  unfold truncateTx
  dsimp only
  split
  · exact ⟨_, d.free + 1, (Delivered.emit _ _).trans (Delivered.lostHost _ _ _)⟩
  · exact ⟨d.ports, d.free, .refl d⟩

theorem truncateTx_key (d : Dev) (p : Nat) : (truncateTx d p).key = d.key := by
  obtain ⟨_, _, h⟩ := truncateTx_delivered d p
  exact h.key

theorem truncateTx_variant (d : Dev) (p : Nat) : (truncateTx d p).variant = d.variant := by
  obtain ⟨_, _, h⟩ := truncateTx_delivered d p
  exact h.variant

theorem jtagInstruction_dark {j : JtagInstr} (h : mainPowered d = false) : jtagInstruction d j = d := if_pos (by simp [h])

theorem jtagInstruction_selects {j : JtagInstr} (h : mainPowered d = true) :
    (jtagInstruction d j).key.jtag = jtagSelect d j
      ∧ (jtagSelect d j = .idcode → Emission.idcode (idcode d.variant) ∈ (jtagInstruction d j).out) := by
  have hkey (d : Dev) : ((List.range 6).foldl endPulse ((List.range 16).foldl truncateTx d)).key = d.key :=
    (foldl_keeps (p := Dev.key) (step := endPulse) _ (fun _ _ _ => rfl) _).trans
      (foldl_keeps (p := Dev.key) (step := truncateTx) _ (fun d p _ => truncateTx_key d p) d)
  have hvariant (d : Dev) : ((List.range 6).foldl endPulse ((List.range 16).foldl truncateTx d)).variant = d.variant :=
    (foldl_keeps (p := Dev.variant) (step := endPulse) _ (fun _ _ _ => rfl) _).trans
      (foldl_keeps (p := Dev.variant) (step := truncateTx) _ (fun d p _ => truncateTx_variant d p) d)
  unfold jtagInstruction
  rw [if_neg (by simp [h])]
  extract_lets sel key x e
  have he : e.key.jtag = sel ∧ e.variant = d.variant := by
    unfold e
    split
    · rw [hkey, hvariant]
      exact ⟨rfl, rfl⟩
    · exact ⟨rfl, rfl⟩
  clear_value e
  split
  next hsel =>
    refine ⟨he.1, fun _ => ?_⟩
    rw [← he.2]
    exact List.mem_append_right _ (List.mem_singleton_self _)
  next hsel => exact ⟨he.1, fun h => absurd h hsel⟩

/-! ### The firmware ready (R430) -/

theorem retentionExit_pwr (d : Dev) : (retentionExit d).pwr = d.pwr := by
  unfold retentionExit
  split
  · split
    · rfl
    · dsimp only
      split <;> rfl
  · rfl

theorem startWake_pwr (d : Dev) (n : Nat) (logic : Bool) : (startWake d n logic).pwr = d.pwr := by
  have hsettle : (settle d n).pwr = d.pwr := by
    obtain ⟨_, _, _, _, hc⟩ := settleSome_counted d [n]
    rw [settle, hc]
  unfold startWake
  dsimp only
  split
  · rw [retentionExit_pwr, setNode_pwr, setPower, setFld_pwr, hsettle]
  · split
    · rw [setNode_pwr]
    · rfl

theorem wakeEvery_pwr (d : Dev) : (wakeEvery d).pwr = d.pwr :=
  foldl_keeps (p := Dev.pwr) (step := fun d n => if cmdGated d n then d else startWake d n false) _
    (fun d n _ => by
      split
      · rfl
      · exact startWake_pwr d n false) d

theorem startBenches_pwr (d : Dev) : (startBenches d).pwr = d.pwr :=
  foldl_keeps (p := Dev.pwr) (step := startBench) _ (fun d b _ => by
    unfold startBench
    split
    · rfl
    · split <;> rfl) d

theorem discRestart_pwr (d : Dev) : (discRestart d).pwr = d.pwr := by
  have hrefs (again : Bool) (d : Dev) : ((List.range 10).foldl (fun d r =>
      setRef d r { RefDyn.reset with stateEval := d.disc.evalN, stateBt := d.bt, restarted := again }) d).pwr = d.pwr :=
    foldl_keeps (p := Dev.pwr) (step := fun d r =>
      setRef d r { RefDyn.reset with stateEval := d.disc.evalN, stateBt := d.bt, restarted := again }) _ (fun _ _ _ => rfl) d
  unfold discRestart
  dsimp only [List.foldl_cons, List.foldl_nil]
  split
  · simp only [setFld_pwr, setServo_pwr, hrefs]
  · simp only [setServo_pwr, hrefs]

theorem setDevEventAll_pwr (d : Dev) (b : Nat) : (setDevEventAll d b).pwr = d.pwr :=
  foldl_keeps (p := Dev.pwr) (step := fun d e => setDevEvent d e b) _ (fun d e _ => by
    have hsend (d : Dev) (f : Fn) (v : Nat) : (sendMsix d f v).pwr = d.pwr := (Delivered.sendMsix d f v).pwr
    unfold setDevEvent
    dsimp only
    split
    · rfl
    · split
      · rfl
      · exact hsend _ _ _) d

theorem stageCarried_pwr (d : Dev) : (stageCarried d).pwr = d.pwr := by
  unfold stageCarried
  extract_lets x r
  rw [setFld_pwr]

theorem setCause_pwr (d : Dev) (b : Nat) : (setCause d b).pwr = d.pwr := by rw [setCause, setFld_pwr, setFld_pwr]

/-- A wake that ends notes that none is in progress. -/
theorem wakeEnds_pwr (d : Dev) : (wakeEnds d).pwr = { d.pwr with wakeFrom := none } := by
  have hfill (l : List Nat) (d : Dev) : (l.foldl fillBucket d).pwr = d.pwr :=
    foldl_keeps (p := Dev.pwr) (step := fillBucket) l (fun d t _ => by rw [fillBucket, setBucket_pwr]) d
  have hnone (d e : Dev) (h : e.pwr = d.pwr) :
      ({ e with pwr := { e.pwr with wakeFrom := none } } : Dev).pwr = { d.pwr with wakeFrom := none } := by
    rw [← h]
  unfold wakeEnds
  extract_lets e ms w
  have hw : w.pwr = d.pwr := by
    unfold w e
    rw [setFld_pwr, setCause_pwr, enterPower_pwr]
  clear_value w
  rw [hfill]
  exact hnone d w hw

/-- The firmware starts, and may become ready. -/
def firmwareStarts (d : Dev) : Prop := d.pwr.phase = .fwStart ∧ fastRuns d = true ∧ safe d = false

theorem fwReady_idle (h : ¬ firmwareStarts d) : fwReady d = d := by
  refine if_pos (Classical.not_not.1 fun hneg => h ?_)
  simp only [not_or, ne_eq, not_not, Bool.not_eq_true, Bool.not_eq_false'] at hneg
  exact hneg

theorem fwReady_ready (h : firmwareStarts d) :
    (fwReady d).pwr.phase = .ready ∧ (fwReady d).pwr.tablesLost = false ∧ (fwReady d).pwr.readyBt = d.bt := by
  obtain ⟨hphase, hfast, hsafe⟩ := h
  have hstage (d : Dev) (k : Nat) : (if 3 ≤ k then stageCarried d else d).pwr = d.pwr := by
    split
    · exact stageCarried_pwr d
    · rfl
  have hwake (d : Dev) (k : Nat) : (if k = 5 then wakeEnds d else d).pwr
      = { d.pwr with wakeFrom := if k = 5 then none else d.pwr.wakeFrom } := by
    split
    · exact wakeEnds_pwr d
    · rfl
  have hevery (d : Dev) (k : Nat) : (if k ≤ 2 ∨ k = 5 then wakeEvery d else d).pwr = d.pwr := by
    split
    · exact wakeEvery_pwr d
    · rfl
  have hlapse (d : Dev) : (restartLapse d).pwr = d.pwr := rfl
  unfold fwReady
  rw [if_neg (by simp [hphase, hfast, hsafe])]
  dsimp only
  rw [setDevEventAll_pwr, hevery, hwake, hstage, startBenches_pwr, hlapse, discRestart_pwr]
  exact ⟨rfl, rfl, rfl⟩

/-! ### Boots (R368, R379) -/

/-- Neither the FATAL safe state nor a reset holds the device. -/
def unheld (d : Dev) : Prop := safe d = false ∧ resetHeld d = false

/-- A full boot may run. -/
def fullBoots (d : Dev) : Prop :=
  d.pwr.phase = .bootRom ∧ d.pwr.bootKind ≤ 2 ∧ unheld d ∧ flashReady d = true

/-- The device as the boot ROM rolls it forward. -/
def bootStart (d : Dev) : Dev :=
  if (readFlash (lockPlls d)).pwr.bootKind = 0 then clearClients (readFlash (lockPlls d)) else readFlash (lockPlls d)

theorem fullBoot_idle (h : ¬ fullBoots d) : fullBoot d = d := by
  refine if_pos (Classical.not_not.1 fun hneg => h ?_)
  simp only [not_or, ne_eq, not_not, Bool.not_eq_true, Bool.not_eq_false', Nat.not_lt] at hneg
  obtain ⟨hphase, hkind, hheld, hsafe, hflash⟩ := hneg
  exact ⟨hphase, hkind, ⟨hsafe, hheld⟩, hflash⟩

theorem fullBoots.open (h : fullBoots d) :
    ¬ (d.pwr.phase ≠ .bootRom ∨ 2 < d.pwr.bootKind ∨ resetHeld d = true ∨ safe d = true ∨ (!flashReady d) = true) := by
  obtain ⟨hphase, hkind, ⟨hsafe, hheld⟩, hflash⟩ := h
  simp [hphase, hheld, hsafe, hflash, Nat.not_lt.2 hkind]

theorem fullBoot_halts (h : fullBoots d) {e : Dev} (hroll : rollForward (bootStart d) = (e, false)) : fullBoot d = e := by
  unfold bootStart at hroll
  unfold fullBoot
  rw [if_neg h.open]
  dsimp only
  rw [hroll]
  rfl

theorem fullBoot_slotless (h : fullBoots d) {e f : Dev} (hroll : rollForward (bootStart d) = (e, true))
    (hslot : bootSlot e false = (none, f)) : fullBoot d = fatal f 0x65 := by
  unfold bootStart at hroll
  unfold fullBoot
  rw [if_neg h.open]
  dsimp only
  rw [hroll]
  dsimp only
  rw [hslot]
  rfl

theorem fullBoot_starts (h : fullBoots d) {e f : Dev} {k : Nat} (hroll : rollForward (bootStart d) = (e, true))
    (hslot : bootSlot e false = (some k, f)) : fullBoot d
      = if copyReason (startFirmware f k) (carriedJig (startFirmware f k).pwr.running) ≠ 0 then fatal (startFirmware f k) 0x24
        else { startFirmware f k with arr := { (startFirmware f k).arr with
          active := carriedJig (startFirmware f k).pwr.running, staged := none } } := by
  unfold bootStart at hroll
  unfold fullBoot
  rw [if_neg h.open]
  dsimp only
  rw [hroll]
  dsimp only
  rw [hslot]
  rfl

/-- A stopped processor may boot. -/
def stopped (d : Dev) : Prop := d.pwr.phase = .bootRom ∧ 3 ≤ d.pwr.bootKind ∧ d.pwr.bootKind ≤ 5

/-- A reload of the firmware is due. -/
def reloads (d : Dev) : Prop := ∃ n, d.pwr.reloadDue = some n ∧ n ≤ d.bt + 1 ∧ d.pwr.phase = .ready ∧ d.pwr.halted = false

theorem processorBoot_held (h : ¬ unheld d) : processorBoot d = d := by
  refine if_pos (Classical.not_not.1 fun hneg => h ?_)
  simp only [not_or, Bool.not_eq_true] at hneg
  exact hneg.symm

theorem processorBoot_unheld (h : unheld d) : processorBoot d
    = if d.pwr.phase = .bootRom ∧ 3 ≤ d.pwr.bootKind ∧ d.pwr.bootKind ≤ 5 then
        if !flashReady d then d else bootProcessor (if d.pwr.bootKind = 5 then readFlash (lockPlls d) else d)
      else match d.pwr.reloadDue with
        | some n =>
          if d.pwr.phase = .ready ∧ !d.pwr.halted ∧ n ≤ d.bt + 1 then
            bootProcessor { setCause (processorStops d) 6 with
              pwr := { (setCause (processorStops d) 6).pwr with phase := .bootRom, bootKind := 3, reloadDue := none } }
          else d
        | none => d := by
  exact if_neg (by simp [h.1, h.2])

theorem processorBoot_boots (h : unheld d) (hb : stopped d) (hf : flashReady d = true) : processorBoot d
    = bootProcessor (if d.pwr.bootKind = 5 then readFlash (lockPlls d) else d) := by
  unfold stopped at hb
  rw [processorBoot_unheld h, if_pos hb, if_neg (by simp [hf])]

theorem processorBoot_waits (h : unheld d) (hb : stopped d) (hf : flashReady d = false) : processorBoot d = d := by
  unfold stopped at hb
  rw [processorBoot_unheld h, if_pos hb, if_pos (by simp [hf])]

theorem processorBoot_reloads (h : unheld d) (hr : reloads d) : processorBoot d
    = bootProcessor { setCause (processorStops d) 6 with
        pwr := { (setCause (processorStops d) 6).pwr with phase := .bootRom, bootKind := 3, reloadDue := none } } := by
  obtain ⟨n, hdue, hn, hphase, hhalted⟩ := hr
  rw [processorBoot_unheld h, if_neg (by simp [hphase]), hdue]
  exact if_pos ⟨hphase, by simp [hhalted], hn⟩

theorem processorBoot_idle (h : ¬ unheld d ∨ (¬ stopped d ∧ ¬ reloads d)) : processorBoot d = d := by
  by_cases hu : unheld d
  · obtain h | ⟨hb, hr⟩ := h
    · exact absurd hu h
    unfold stopped at hb
    rw [processorBoot_unheld hu, if_neg hb]
    split
    next n hdue =>
      refine if_neg fun ⟨hphase, hhalted, hn⟩ => hr ⟨n, hdue, hn, hphase, ?_⟩
      simpa using hhalted
    next => rfl
  · exact processorBoot_held hu

/-! ### Wakes (R437, R438) -/

/-- What a wake event of a code begins. -/
def wokenBy (code : Nat) (d : Dev) : Dev :=
  if power d = 1 then setPowerPending (defer (noteWake d code 0) .listenExit) 3 else beginWake (noteWake d code 0)

/-- A state a wake event takes the device out of. -/
def sleeps (d : Dev) : Prop := power d = 1 ∨ (power d = 2 ∧ d.pwr.mainEnAt = none)

theorem wakeEvent_wakes {code : Nat} (hcode : code ≠ 2) (h : unheld d) (hkt : d.pwr.ktFrom = none) (hp : pendingState d = 0)
    (hs : sleeps d) : wakeEvent d code 0 = wokenBy code d := by
  unfold wakeEvent wokenBy
  rw [if_neg (by simp [h.1, h.2]), if_neg (by simp [hkt])]
  obtain h1 | ⟨h2, hm⟩ := hs
  · rw [if_neg (by omega), if_pos ⟨h1, hcode, hp⟩, if_pos h1]
  · rw [if_pos h2, if_pos ⟨hp, hm⟩, if_neg (by omega)]

theorem wakeEvent_idle {code : Nat} (h : ¬ unheld d ∨ (d.pwr.ktFrom = none ∧ power d = 0)) : wakeEvent d code 0 = d := by
  unfold wakeEvent
  by_cases hu : unheld d
  · obtain h | ⟨hkt, hp⟩ := h
    · exact absurd hu h
    rw [if_neg (by simp [hu.1, hu.2]), if_neg (by simp [hkt]), if_neg (by omega), if_neg (by omega)]
  · refine if_pos (Classical.not_not.1 fun hneg => hu ?_)
    simp only [not_or, Bool.not_eq_true] at hneg
    exact hneg

/-- The count of sideband wakes and nothing else. -/
def countSideband (d : Dev) : Dev := bumpFld d .power 0 Pow.sidebandWakes

theorem fld_countSideband {f : Fld} (h : f.msb < Pow.sidebandWakes.lsb ∨ Pow.sidebandWakes.msb < f.lsb) :
    fld (countSideband d) .power 0 f = fld d .power 0 f := by
  unfold countSideband bumpFld fld
  rw [getRec_setRec_same, bumpF, getF_setF_other (by decide) h]

theorem sidebandWake_counts : sidebandWake d 0xA1 0x57 true = wakeEvent (countSideband d) 3 0 := if_pos ⟨rfl, rfl, rfl⟩

theorem sidebandWake_other {c x : Nat} {p : Bool} (h : p = false ∨ c ≠ 0xA1 ∨ x ≠ 0x57) : sidebandWake d c x p = d := by
  refine if_neg fun ⟨hc, hx, hp⟩ => ?_
  obtain h | h | h := h
  · exact absurd (hp.symm.trans h) (by decide)
  · exact h hc
  · exact h hx

theorem unheld_countSideband : unheld (countSideband d) ↔ unheld d := by
  have hs : safe (countSideband d) = safe d := by
    unfold safe flag fld countSideband bumpFld
    rw [getRec_setRec_other _ _ _ _ _ _ (by decide)]
  unfold unheld
  rw [hs]
  exact Iff.rfl

theorem power_countSideband : power (countSideband d) = power d := fld_countSideband (by decide)

theorem sidebandWake_wakes (h : unheld d) (hkt : d.pwr.ktFrom = none) (hp : pendingState d = 0) (hs : sleeps d) :
    sidebandWake d 0xA1 0x57 true = wokenBy 3 (countSideband d) := by
  have hs' : sleeps (countSideband d) := by
    unfold sleeps
    rw [power_countSideband]
    exact hs
  rw [sidebandWake_counts]
  exact wakeEvent_wakes (by decide) (unheld_countSideband.2 h) hkt ((fld_countSideband (by decide)).trans hp) hs'

theorem sidebandWake_idle (h : ¬ unheld d ∨ (d.pwr.ktFrom = none ∧ power d = 0)) :
    sidebandWake d 0xA1 0x57 true = countSideband d := by
  rw [sidebandWake_counts]
  refine wakeEvent_idle (h.imp (fun hu h => hu (unheld_countSideband.1 h)) fun ⟨hkt, hp⟩ => ⟨hkt, ?_⟩)
  rw [power_countSideband, hp]

/-! ### The entry to KEEP-TIME (R436) -/

theorem keepTimeEntry_none (h : d.pwr.ktFrom = none) : keepTimeEntry d = d := by
  unfold keepTimeEntry
  rw [h]

theorem keepTimeEntry_early {n : Nat} (h : d.pwr.ktFrom = some n) (hn : d.bt + 1 < n + msToBt d 4 ∨ ¬ unheld d) :
    keepTimeEntry d = d := by
  unfold keepTimeEntry
  rw [h]
  refine if_pos ?_
  obtain hn | hu := hn
  · exact .inl hn
  · refine .inr (Classical.not_not.1 fun hneg => hu ?_)
    simp only [not_or, Bool.not_eq_true] at hneg
    exact hneg.symm

theorem keepTimeEntry_idle (h : d.pwr.ktFrom = none ∨ ¬ unheld d) : keepTimeEntry d = d := by
  obtain hkt | hu := h
  · exact keepTimeEntry_none hkt
  · cases hkt : d.pwr.ktFrom with
    | none => exact keepTimeEntry_none hkt
    | some n => exact keepTimeEntry_early hkt (.inr hu)

/-- Only the AON runs. -/
structure Asleep (d : Dev) : Prop where
  phase : d.pwr.phase = .mainOff
  plls : d.pwr.plls = 0
  ktFrom : d.pwr.ktFrom = none
  power : Machine.power d = 2
  mbx : d.mbx = MbxState.reset
  queue : d.arr.queue = []
  ctx : d.arr.ctx = []

theorem power_setFld {f : Fld} (v : Nat) (hf : f.lsb ≤ f.msb + 1) (h : Pow.power.msb < f.lsb ∨ f.msb < Pow.power.lsb) :
    power (setFld d .power 0 f v) = power d := fld_setFld_other _ _ _ hf h v

/-- A wake latched during the entry begins without waking anything yet. -/
theorem asleep_beginWake (h : Asleep d) : Asleep (beginWake d) := by
  have hpwr : (setPowerPending (setFld d .power 0 Pow.wakeLatched 0) 3).pwr = d.pwr := by
    rw [setPowerPending, setFld_pwr, setFld_pwr]
  have hmbx : (setPowerPending (setFld d .power 0 Pow.wakeLatched 0) 3).mbx = d.mbx := by
    rw [setPowerPending, setFld_mbx, setFld_mbx]
  have harr : (setPowerPending (setFld d .power 0 Pow.wakeLatched 0) 3).arr = d.arr := by
    rw [setPowerPending, setFld_arr, setFld_arr]
  have hpower : power (setPowerPending (setFld d .power 0 Pow.wakeLatched 0) 3) = power d := by
    rw [setPowerPending, power_setFld _ (by decide) (by decide), power_setFld _ (by decide) (by decide)]
  unfold beginWake
  generalize setPowerPending (setFld d .power 0 Pow.wakeLatched 0) 3 = e at hpwr hmbx harr hpower ⊢
  refine ⟨?_, ?_, ?_, hpower.trans h.power, hmbx.trans h.mbx, ?_, ?_⟩
  · exact (congrArg PwrState.phase hpwr).trans h.phase
  · exact (congrArg PwrState.plls hpwr).trans h.plls
  · exact (congrArg PwrState.ktFrom hpwr).trans h.ktFrom
  · exact (congrArg ArrayState.queue harr).trans h.queue
  · exact (congrArg ArrayState.ctx harr).trans h.ctx

theorem power_bumpFld {f : Fld} {n : Nat} (hf : f.lsb ≤ f.msb + 1) (h : Pow.power.msb < f.lsb ∨ f.msb < Pow.power.lsb) :
    power (bumpFld d .power 0 f n) = power d := by
  unfold power bumpFld fld
  rw [getRec_setRec_same, bumpF, getF_setF_other hf h]

theorem keepTimeEntry_enters {n : Nat} (h : d.pwr.ktFrom = some n) (hu : unheld d) (hn : n + msToBt d 4 ≤ d.bt + 1) :
    Asleep (keepTimeEntry d) := by
  unfold keepTimeEntry
  split
  next hnone => exact absurd (hnone.symm.trans h) (by simp)
  next m hm =>
    obtain rfl : n = m := Option.some.inj (h.symm.trans hm)
    rw [if_neg (by simp [hu.1, hu.2, Nat.not_lt.2 hn])]
    extract_lets gated units ct cleared stats entered arr pwr last
    have hentered : power entered = 2 :=
      (power_bumpFld (by decide) (by decide)).trans (power_enterPower _ (by decide))
    clear_value entered
    have hlast : Asleep last := ⟨rfl, rfl, rfl, hentered, rfl, rfl, rfl⟩
    clear_value last
    split
    · exact asleep_beginWake hlast
    · exact hlast

end

/-- Settles O38: each event is taken through the branches of its one function; the drain is an invariant of the folds
over the queues, and the entry to KEEP-TIME ends by writing what it promises. -/
theorem powerEvents : Obligations.PowerEvents := by
  intro s h
  refine ⟨⟨fun hs => ?_, fun hs => ?_⟩, ⟨fun hb => ⟨fun d hr => ?_, fun d e hr hd => ?_, fun d e k hr hd => ?_⟩, fun hb => ?_⟩,
    ⟨fun hu hb hf => ?_, fun hu hb hf => ?_, fun hu hr => ?_, fun hi => ?_⟩, fun hu hkt hp hs => ⟨?_, ?_⟩, fun hi => ⟨?_, ?_⟩,
    fun c x p hc => ?_, fun c => ?_, fun n hkt hu => ⟨fun hn => ?_, fun hn => ?_⟩, fun hi => ?_, ⟨fun hd => ?_, fun hd => ?_⟩,
    fun j => ⟨fun hm => ?_, fun hm => ?_⟩⟩
  · exact acts_event (f := fwReady) h (fwReady_ready (d := fresh s.dev) hs)
  · exact rests_event (f := fwReady) h (fwReady_idle (d := fresh s.dev) hs)
  · exact becomes_event (f := fullBoot) (g := fun _ => d) h (fullBoot_halts (d := fresh s.dev) hb hr)
  · exact becomes_event (f := fullBoot) (g := fun _ => fatal e 0x65) h (fullBoot_slotless (d := fresh s.dev) hb hr hd)
  · exact becomes_event (f := fullBoot) h (fullBoot_starts (d := fresh s.dev) hb hr hd)
  · exact rests_event (f := fullBoot) h (fullBoot_idle (d := fresh s.dev) hb)
  · exact becomes_event (f := processorBoot) h (processorBoot_boots (d := fresh s.dev) hu hb hf)
  · exact rests_event (f := processorBoot) h (processorBoot_waits (d := fresh s.dev) hu hb hf)
  · exact becomes_event (f := processorBoot) h (processorBoot_reloads (d := fresh s.dev) hu hr)
  · exact rests_event (f := processorBoot) h (processorBoot_idle (d := fresh s.dev) hi)
  · exact becomes_event (f := fun d => wakeEvent d 1 0) h (wakeEvent_wakes (d := fresh s.dev) (by decide) hu hkt hp hs)
  · exact becomes_event (f := fun d => sidebandWake d 0xA1 0x57 true) h (sidebandWake_wakes (d := fresh s.dev) hu hkt hp hs)
  · exact rests_event (f := fun d => wakeEvent d 1 0) h (wakeEvent_idle (d := fresh s.dev) hi)
  · exact becomes_event (f := fun d => sidebandWake d 0xA1 0x57 true) (g := countSideband) h
      (sidebandWake_idle (d := fresh s.dev) hi)
  · refine rests_event (f := fun d => sidebandWake d c.toNat x.toNat p) h (sidebandWake_other (d := fresh s.dev) ?_)
    exact hc.imp_right (Or.imp (fun hc h => hc (BitVec.eq_of_toNat_eq h)) fun hx h => hx (BitVec.eq_of_toNat_eq h))
  · exact becomes_event (f := fun d => defer d (.sideband c.toNat)) h rfl
  · have ha := keepTimeEntry_enters (d := fresh s.dev) hkt hu hn
    exact acts_event (f := keepTimeEntry) h ⟨ha.phase, ha.plls, ha.ktFrom, ha.power, ha.mbx, ha.queue, ha.ctx⟩
  · exact rests_event (f := keepTimeEntry) h (keepTimeEntry_early (d := fresh s.dev) hkt (.inl hn))
  · exact rests_event (f := keepTimeEntry) h (keepTimeEntry_idle (d := fresh s.dev) hi)
  · exact rests_event (f := listenDrain) h (listenDrain_idle (d := fresh s.dev) hd)
  · exact acts_event (f := listenDrain) h fun p hp q hq => listenDrain_empties (d := fresh s.dev) hd hp hq
  · exact rests_event (f := fun d => jtagInstruction d j) h (jtagInstruction_dark (d := fresh s.dev) hm)
  · exact acts_event (f := fun d => jtagInstruction d j) h (jtagInstruction_selects (d := fresh s.dev) hm)

end Sys2Proof.Machine

/-! R68, R73, R74, R75: the leap switch and the lapse of leap sources. R259, R260, R263, R265: the discipline's events. -/

namespace Sys2Proof.Machine

open Sys2Proof

section

variable {d : Dev}

/-! ### Leap events -/

/-- A leap that has reached its switch instant. -/
def leapTaken (l : LeapEv) (d : Dev) : Dev :=
  evalLeap (setRec { d with leap := { d.leap with pending := none, last := some l } } .leap 0
    (setF (setF (setF (setS (getRec d .leap 0) Leap.dNowS l.dNew) Leap.pending 0) Leap.dPendingS 0) Leap.mPendingS 0)) false

theorem leapSwitch_due {l : LeapEv} (h : d.leap.pending = some l) (hl : l.switch * sec32 ≤ (tshNs96 d : Int)) :
    leapSwitch d = leapTaken l d := by
  unfold leapSwitch
  rw [h]
  exact if_neg (Int.not_lt.2 hl)

theorem leapSwitch_early {l : LeapEv} (h : d.leap.pending = some l) (hl : (tshNs96 d : Int) < l.switch * sec32) :
    leapSwitch d = d := by
  unfold leapSwitch
  rw [h]
  exact if_pos hl

theorem leapSwitch_none (h : d.leap.pending = none) : leapSwitch d = d := by
  unfold leapSwitch
  rw [h]

theorem hostExpiry_due (h : d.leap.hostExpires ≠ 0 ∧ (d.leap.hostExpires : Int) ≤ (tshSec d : Int) - dNow d) :
    hostExpiry d = evalLeap { d with leap := { d.leap with hostExpired := true } } false :=
  if_neg fun hn => hn.elim h.1 (Int.not_lt.2 h.2)

theorem hostExpiry_early (h : ¬ (d.leap.hostExpires ≠ 0 ∧ (d.leap.hostExpires : Int) ≤ (tshSec d : Int) - dNow d)) :
    hostExpiry d = d := by
  refine if_pos (Classical.not_not.1 fun hneg => h ?_)
  rw [not_or, Int.not_lt] at hneg
  exact hneg

end

/-- Settles O39: each event evaluates the leap state where its condition holds, and takes the tick's stamps anew. -/
theorem leapEvents : Obligations.LeapEvents := by
  intro s h ends
  have hends {f g : Dev → Dev} {i : Instr} (hi : exec i s = whenOn s fun d => refreshTick (f d))
      (hfg : f (fresh s.dev) = g (fresh s.dev)) : ends i g := by
    show becomes (exec i s) s _
    rw [hi]
    exact becomes_event (f := fun d => refreshTick (f d)) h (congrArg refreshTick hfg)
  refine ⟨fun l hl => ⟨fun hd => ?_, fun hd => ?_⟩, fun hl => ?_, ⟨fun hd => ?_, fun hd => ?_⟩, fun hd => ?_, fun hd => ?_⟩
  · exact hends (f := leapSwitch) (g := leapTaken l) rfl (leapSwitch_due (d := fresh s.dev) hl hd)
  · exact hends (f := leapSwitch) rfl (leapSwitch_early (d := fresh s.dev) hl hd)
  · exact hends (f := leapSwitch) rfl (leapSwitch_none (d := fresh s.dev) hl)
  · exact hends (f := hostExpiry) rfl (hostExpiry_due (d := fresh s.dev) hd)
  · exact hends (f := hostExpiry) rfl (hostExpiry_early (d := fresh s.dev) hd)
  · exact hends (f := gpsLapse) rfl (if_pos hd)
  · exact hends (f := gpsLapse) rfl (if_neg hd)

end Sys2Proof.Machine

/-! R259, R260, R263, R265: evaluations of the references, the end of a seed's verification and of a holdover. -/

namespace Sys2Proof.Machine

open Sys2Proof

/-- The record writes that wait for an evaluation, and the number of the evaluation. -/
def evalMark (d : Dev) : List (RecKind × Nat × Nat) × Nat := (d.disc.writes, d.disc.evalN)

section

variable (d : Dev)

@[simp] theorem evalMark_setRec (k : RecKind) (i v : Nat) : evalMark (setRec d k i v) = evalMark d := by
  rw [evalMark, setRec_disc, evalMark]

@[simp] theorem evalMark_setFld (k : RecKind) (i : Nat) (f : Fld) (v : Nat) : evalMark (setFld d k i f v) = evalMark d := by
  rw [evalMark, setFld_disc, evalMark]

@[simp] theorem evalMark_bumpFld (k : RecKind) (i : Nat) (f : Fld) (n : Nat) : evalMark (bumpFld d k i f n) = evalMark d := by
  rw [evalMark, bumpFld_disc, evalMark]

@[simp] theorem evalMark_setRef (r : Nat) (x : RefDyn) : evalMark (setRef d r x) = evalMark d := id rfl

@[simp] theorem evalMark_setServo (m : Nat) (x : ServoDyn) : evalMark (setServo d m x) = evalMark d := id rfl

@[simp] theorem evalMark_raise (id_ : Nat) : evalMark (raise d id_) = evalMark d := by
  unfold raise raiseWith
  dsimp only
  split <;> rfl

@[simp] theorem evalMark_endEpisode (id_ : Nat) : evalMark (endEpisode d id_) = evalMark d := id rfl

@[simp] theorem evalMark_episodeIf (b : Bool) (id_ : Nat) : evalMark (episodeIf d b id_) = evalMark d := by
  unfold episodeIf startEpisode
  split
  · split
    · rfl
    · exact evalMark_raise _ _
  · rfl

@[simp] theorem evalMark_defer (op : EdgeOp) : evalMark (defer d op) = evalMark d := id rfl

theorem evalMark_foldl {α : Type} {f : Dev → α → Dev} (l : List α) (h : ∀ d, ∀ a, evalMark (f d a) = evalMark d) :
    evalMark (l.foldl f d) = evalMark d := foldl_keeps (p := evalMark) (step := f) l (fun d a _ => h d a) d

/-! ### The references -/

@[simp] theorem evalMark_forgetTrain (r : Nat) : evalMark (forgetTrain d r) = evalMark d := evalMark_setRef d r _

@[simp] theorem evalMark_enterRef (r st reason : Nat) : evalMark (enterRef d r st reason) = evalMark d := by
  simp only [enterRef, apply_ite evalMark, evalMark_setRef, evalMark_forgetTrain, evalMark_setFld, ite_self]

@[simp] theorem evalMark_disqualify (r reason : Nat) : evalMark (disqualify d r reason) = evalMark d := by
  simp [disqualify, apply_ite evalMark]

@[simp] theorem evalMark_recordMeas (r : Nat) (x : Option Meas) : evalMark (recordMeas d r x) = evalMark d := by
  unfold recordMeas
  split <;> simp

@[simp] theorem evalMark_advanceRef (r : Nat) (x : Option Meas) : evalMark (advanceRef d r x) = evalMark d := by
  unfold advanceRef
  split <;> simp [apply_ite evalMark]

@[simp] theorem evalMark_evalRef (r : Nat) (x : Option Meas) : evalMark (evalRef d r x) = evalMark d := by
  unfold evalRef
  split
  · simp
  · dsimp only
    split
    · simp
    · split
      · simp
      · split <;> simp

@[simp] theorem evalMark_crossCheck : evalMark (crossCheck d) = evalMark d := by
  unfold crossCheck
  dsimp only
  split
  · refine (evalMark_foldl _ _ fun d r => ?_).trans (evalMark_episodeIf _ _ _)
    split <;> simp
  · exact evalMark_episodeIf _ _ _

/-! ### The servos -/

@[simp] theorem evalMark_setState (m st : Nat) : evalMark (setState d m st) = evalMark d := by
  unfold setState
  dsimp only
  split
  · rfl
  · split
    · simp
    · split <;> simp
    · simp
    · simp

@[simp] theorem evalMark_publish (m : Nat) (inc : Option Nat) (disp delay : Nat) (stamp : Bool) :
    evalMark (publish d m inc disp delay stamp) = evalMark d := evalMark_defer d _

@[simp] theorem evalMark_publishFrozen (m : Nat) (inc : Option Nat) : evalMark (publishFrozen d m inc) = evalMark d :=
  evalMark_publish d m inc _ _ false

@[simp] theorem evalMark_chooseFor (m : Nat) : evalMark (chooseFor d m) = evalMark d := by
  unfold chooseFor
  extract_lets old new x none_ e switched y
  have he : evalMark e = evalMark d := evalMark_episodeIf d _ _
  clear_value e new
  split
  · exact he
  · have hs : evalMark switched = evalMark d := by simp [switched, he]
    clear_value switched
    split
    · exact hs
    · simp only [apply_ite evalMark, evalMark_setState, evalMark_setServo, hs, ite_self]

@[simp] theorem evalMark_loseActive (m : Nat) : evalMark (loseActive d m) = evalMark d := by
  simp [loseActive, apply_ite evalMark]

@[simp] theorem evalMark_lockStep (m : Nat) (within beyond : Bool) : evalMark (lockStep d m within beyond) = evalMark d := by
  simp [lockStep, apply_ite evalMark]

@[simp] theorem evalMark_phaseUpdate (m r : Nat) (e : Int) : evalMark (phaseUpdate d m r e) = evalMark d := by
  simp [phaseUpdate]

@[simp] theorem evalMark_freqUpdate (m : Nat) (ppt : Int) : evalMark (freqUpdate d m ppt) = evalMark d := by
  simp [freqUpdate]

@[simp] theorem evalMark_freshServo (m : Nat) : evalMark (freshServo d m) = evalMark d := by
  simp [freshServo, apply_ite evalMark]

@[simp] theorem evalMark_servoStep (ms : List (Option Meas)) (m : Nat) : evalMark (servoStep ms d m) = evalMark d := by
  unfold servoStep
  extract_lets x en e before idle f
  have he : evalMark e = evalMark d := evalMark_setServo d m _
  clear_value e
  split
  · simp [idle, apply_ite evalMark, he]
  · split
    · simp [apply_ite evalMark, he]
    · extract_lets meas g y n counted
      have hf : evalMark f = evalMark d := by simp [f, apply_ite evalMark, he]
      clear_value f
      have hg : evalMark g = evalMark d := by
        unfold g
        cases meas with
        | none => simp [hf]
        | some v =>
          dsimp only
          split <;> simp [hf]
      clear_value g
      simp [counted, apply_ite evalMark, hg]

/-! ### Seeds and selection -/

@[simp] theorem evalMark_setSeed (m ok st : Nat) : evalMark (setSeed d m ok st) = evalMark d := by simp [setSeed]

@[simp] theorem evalMark_abortSeed (m : Nat) : evalMark (abortSeed d m) = evalMark d := by
  unfold abortSeed
  rw [evalMark_raise, evalMark_setServo, evalMark_bumpFld, evalMark_setSeed]

@[simp] theorem evalMark_verifySeed (x : Nat) : evalMark (verifySeed d x) = evalMark d := by
  unfold verifySeed
  dsimp only
  split
  · exact evalMark_setSeed d x 0 0
  · split
    · exact evalMark_abortSeed d x
    · rfl

@[simp] theorem evalMark_startSeed (x : Nat) : evalMark (startSeed d x) = evalMark d := by
  simp [startSeed, apply_ite evalMark]

@[simp] theorem evalMark_autoSet (m : Nat) : evalMark (autoSet d m) = evalMark d := by
  unfold autoSet
  split
  · split <;> rfl
  · rfl

@[simp] theorem evalMark_seedStep (x : Nat) : evalMark (seedStep d x) = evalMark d := by
  have hasked (r : Nat) : evalMark { d with disc := { d.disc with seedReq := r } } = evalMark d := rfl
  simp [seedStep, apply_ite evalMark, hasked]

@[simp] theorem evalMark_checkMasters : evalMark (checkMasters d) = evalMark d := by simp [checkMasters]

@[simp] theorem evalMark_requestSelect (m : Nat) : evalMark (requestSelect d m) = evalMark d := by simp [requestSelect]

@[simp] theorem evalMark_autoSelect : evalMark (autoSelect d) = evalMark d := by
  simp [autoSelect, apply_ite evalMark]

@[simp] theorem evalMark_spoofCheck : evalMark (spoofCheck d) = evalMark d := by
  have hgnss (g : GnssState) : evalMark { d with gnss := g } = evalMark d := rfl
  simp [spoofCheck, apply_ite evalMark, hgnss]

@[simp] theorem evalMark_applyDisc (w : RecKind × Nat × Nat) : evalMark (applyDisc d w) = evalMark d := by
  simp [applyDisc, apply_ite evalMark]

/-- An evaluation takes up the writes that wait for it, and is one more. -/
theorem evalMark_evaluate : evalMark (evaluate d) = ([], d.disc.evalN + 1) := by
  unfold evaluate
  extract_lets gps ws disc taken ms spoof refs crossed chosen stepped seeded selected
  have htaken : evalMark taken = ([], d.disc.evalN + 1) := evalMark_foldl _ _ evalMark_applyDisc
  have hspoof : evalMark spoof = evalMark taken := evalMark_spoofCheck _
  have hrefs : evalMark refs = evalMark spoof := evalMark_foldl _ _ fun d r => evalMark_evalRef d r _
  have hcrossed : evalMark crossed = evalMark refs := evalMark_crossCheck _
  have hchosen : evalMark chosen = evalMark crossed :=
    evalMark_foldl _ _ fun d m => (evalMark_chooseFor _ m).trans (evalMark_freshServo d m)
  have hstepped : evalMark stepped = evalMark chosen := evalMark_foldl _ _ (evalMark_servoStep · ms ·)
  have hseeded : evalMark seeded = evalMark stepped := evalMark_foldl _ _ evalMark_seedStep
  have hselected : evalMark selected = evalMark seeded := (evalMark_autoSelect _).trans (evalMark_checkMasters _)
  have h : evalMark selected = ([], d.disc.evalN + 1) := by
    rw [hselected, hseeded, hstepped, hchosen, hcrossed, hrefs, hspoof, htaken]
  clear_value selected
  split
  · exact h
  · exact (evalMark_defer _ _).trans h

end

section

variable {d : Dev}

theorem seedVerifyEnd_commits {m : Nat} (h : seedState d m = 1 ∧ flag d .servoStatus m SrvSt.seedOk = true
    ∧ elapsed d (getServo d m).seedBt (fld d .servo m Srv.seedVerifyS) = true) : seedVerifyEnd d m
      = { setFld { d with free := d.free + 1 } .servoStatus m SrvSt.seedState 2 with
          atEdge := d.atEdge ++ [(d.bt + 2 + Config.freeValue d.free % 99999999, .seed m)] } := if_pos h

theorem holdoverMax_leaves {m : Nat} (h : (getServo d m).state = 3 ∧ fld d .servo m Srv.holdoverMaxS ≠ 0
    ∧ elapsed d (getServo d m).stateBt (fld d .servo m Srv.holdoverMaxS) = true) :
    holdoverMax d m = publishFrozen (setState d m 0) m none := if_pos h

/-- An event of the firmware under a condition of its own. -/
theorem onlyIf_firmware {s : State} {f g : Dev → Dev} {c : Prop} (h : s.dev.pwr.aonUp = true)
    (hc : c → f (fresh s.dev) = g (fresh s.dev)) (hn : ¬ c → f (fresh s.dev) = fresh s.dev) :
    onlyIf (fwRuns s.dev = true ∧ c) (onFirmware s f) s g := by
  refine onlyIf_event (f := fun d => if fwRuns d = true then f d else d) h (fun hb => ?_) fun hb => ?_
  · exact (if_pos hb.1).trans (hc hb.2)
  · by_cases hf : fwRuns s.dev = true
    · exact (if_pos hf).trans (hn fun hc => hb ⟨hf, hc⟩)
    · exact if_neg hf

end

/-- Settles O41: an evaluation empties the list of waiting writes before any of its steps, none of which puts one there. -/
theorem disciplineEvents : Obligations.DisciplineEvents := by
  intro s h
  refine ⟨?_, fun hf => ?_, fun m => ?_, fun m => ?_⟩
  · exact onlyIf_event (f := fun d => if fwRuns d = true then evaluate d else d) h (fun hf => if_pos hf) fun hf => if_neg hf
  · have he := Prod.mk.inj (evalMark_evaluate (fresh s.dev))
    refine acts_event (f := fun d => if fwRuns d = true then evaluate d else d) h ?_
    rw [if_pos (show fwRuns (fresh s.dev) = true from hf)]
    exact he
  · exact onlyIf_firmware (f := fun d => seedVerifyEnd d m.val) h (seedVerifyEnd_commits (d := fresh s.dev)) fun hn => if_neg hn
  · exact onlyIf_firmware (f := fun d => holdoverMax d m.val) h (holdoverMax_leaves (d := fresh s.dev)) fun hn => if_neg hn

end Sys2Proof.Machine

/-! R270–R275, R277, R278, R280, R283, R290: the events of the GNSS baseband. -/

namespace Sys2Proof.Machine

open Sys2Proof

section

variable {s : State} {f g : Dev → Dev} {c : Prop} {run : Dev → Bool}

/-- An event of a domain that runs, under a condition that names the domain. -/
theorem onlyIf_gated (h : s.dev.pwr.aonUp = true) (hc : c → run (fresh s.dev) = true) (hb : c → f (fresh s.dev) = g (fresh s.dev))
    (hn : run (fresh s.dev) = true → ¬ c → f (fresh s.dev) = fresh s.dev) :
    onlyIf c (whenOn s fun d => if run d = true then f d else d) s g := by
  refine onlyIf_event (f := fun d => if run d = true then f d else d) h (fun hb' => ?_) fun hn' => ?_
  · exact (if_pos (hc hb')).trans (hb hb')
  · by_cases hr : run (fresh s.dev) = true
    · exact (if_pos hr).trans (hn hr hn')
    · exact if_neg hr

theorem becomes_gated (h : s.dev.pwr.aonUp = true) (hr : run (fresh s.dev) = true) (hb : f (fresh s.dev) = g (fresh s.dev)) :
    becomes (whenOn s fun d => if run d = true then f d else d) s g :=
  becomes_event (f := fun d => if run d = true then f d else d) h ((if_pos hr).trans hb)

theorem rests_gated (h : s.dev.pwr.aonUp = true) (hb : run (fresh s.dev) = true → f (fresh s.dev) = fresh s.dev) :
    rests (whenOn s fun d => if run d = true then f d else d) s := by
  refine rests_event (f := fun d => if run d = true then f d else d) h ?_
  by_cases hr : run (fresh s.dev) = true
  · exact (if_pos hr).trans (hb hr)
  · exact if_neg hr

end

section

variable {d : Dev}

theorem gnssRuns_of_antRuns {a : Nat} (h : antRuns d a = true) : gnssRuns d = true := by
  unfold antRuns at h
  simp only [Bool.and_eq_true] at h
  exact h.1.1

/-! ### Signal input -/

theorem notchRelease_ends {a n b : Nat} (h : notchOn d a n = true) (hb : Tab.get none (getAnt d a).below n = some b)
    (hl : 10 ^ 9 ≤ (d.bt - b) * btNs d) : notchRelease d a n = endEpisode (setNotch d a n false 0) (srcId 0x53 a) := by
  unfold notchRelease
  rw [hb]
  exact if_pos ⟨h, hl⟩

theorem notchRelease_stays {a n : Nat} (h : ¬ (notchOn d a n = true
    ∧ ∃ b, Tab.get none (getAnt d a).below n = some b ∧ 10 ^ 9 ≤ (d.bt - b) * btNs d)) : notchRelease d a n = d := by
  unfold notchRelease
  split
  next b hb => exact if_neg fun ⟨hn, hl⟩ => h ⟨hn, b, hb, hl⟩
  next => rfl

theorem agcReport_dark {a gain least clipped : Nat} {pulses : List Pulse} (h : antRuns d a ≠ true) :
    agcReport d a gain least clipped pulses = d := if_pos (by simpa using h)

theorem agcReport_runs {a gain least clipped : Nat} {pulses : List Pulse} (h : antRuns d a = true) :
    agcReport d a gain least clipped pulses
      = episodeIf (episodeIf (episodeIf (setRec d .gnssAntStatus a
          (setF (setF (setF (getRec d .gnssAntStatus a) GAntSt.agcGainCdb (min 4800 gain)) GAntSt.clipPpm
            (ppm clipped sampleRate)) GAntSt.blankPpm (blankPpm d a 1 pulses))) (decide (4800 ≤ least)) (srcId 0x50 a))
          (decide (1000 < ppm clipped sampleRate)) (srcId 0x51 a))
          (decide (100000 < blankPpm d a 1 pulses)) (srcId 0x52 a) := if_neg (by simpa using h)

theorem spectrum_off {a : Nat} {power : List Nat} {tracked : List Int}
    (h : ¬ (antRuns d a = true ∧ flag d .gnssAnt a GAnt.notchEn = true)) :
    spectrum d a power tracked = setAnt d a { getAnt d a with bins := [] } := by
  refine if_pos ?_
  simp only [Bool.or_eq_true, Bool.not_eq_true']
  by_cases hr : antRuns d a = true
  · exact .inr (Bool.eq_false_of_not_eq_true fun hf => h ⟨hr, hf⟩)
  · exact .inl (Bool.eq_false_of_not_eq_true hr)

theorem notches_on {a : Nat} (h : antRuns d a = true ∧ flag d .gnssAnt a GAnt.notchEn = true) :
    ¬ (!antRuns d a || !flag d .gnssAnt a GAnt.notchEn) = true := by simp [h.1, h.2]

theorem spectrum_short {a : Nat} {power : List Nat} {tracked : List Int}
    (h : antRuns d a = true ∧ flag d .gnssAnt a GAnt.notchEn = true) (hp : power.length ≠ 1024) :
    spectrum d a power tracked = d := by
  rw [spectrum, if_neg (notches_on h), if_pos hp]

/-! ### Searches and channels -/

theorem acquisition_none {a : Nat} {found : List Detection} (h : d.gnss.acq = none) : acquisition d a found = d := by
  unfold acquisition
  rw [h]

/-- A search of an antenna whose time has come. -/
def searchEnds (d : Dev) (a : Nat) (r : AcqRun) : Prop :=
  r.ant = a ∧ antRuns d a = true ∧ fwRuns d = true ∧ r.duration ≤ (d.bt - r.fromBt) * btNs d

theorem acquisition_ends {a : Nat} {found : List Detection} {r : AcqRun} (h : d.gnss.acq = some r) (hr : searchEnds d a r) :
    acquisition d a found = startSearch ((found.filter (detects d r)).foldl
      (fun d x => assignPrn a d (x.prn.val + 1) x.code.val (dopplerOf x.bin.val))
      { d with gnss := { d.gnss with acq := none } }) := by
  obtain ⟨hant, hruns, hfw, hlate⟩ := hr
  unfold acquisition
  rw [h]
  exact if_neg (by simp [hant, hruns, hfw, Nat.not_lt.2 hlate])

theorem acquisition_early {a : Nat} {found : List Detection} {r : AcqRun} (h : d.gnss.acq = some r)
    (hr : ¬ searchEnds d a r) : acquisition d a found = d := by
  unfold acquisition
  rw [h]
  refine if_pos (Classical.not_not.1 fun hneg => hr ?_)
  simp only [not_or, ne_eq, not_not, Bool.not_eq_true, Bool.not_eq_false', Nat.not_lt] at hneg
  exact hneg

theorem cn0Loss_loses {i b : Nat} (hr : chanRuns d i = true) (hx : (getChan d i).state = 2) (hb : (getChan d i).lowBt = some b)
    (hl : fld d .gnssAnt (i / 24) GAnt.cn0LossMs * 10 ^ 6 ≤ (d.bt - b) * btNs d) : cn0Loss d i = loseChan d i := by
  unfold cn0Loss
  rw [hb]
  exact if_pos ⟨hr, decide_eq_true hx, hl⟩

theorem cn0Loss_stays {i : Nat} (h : ¬ (chanRuns d i = true ∧ (getChan d i).state = 2
    ∧ ∃ b, (getChan d i).lowBt = some b ∧ fld d .gnssAnt (i / 24) GAnt.cn0LossMs * 10 ^ 6 ≤ (d.bt - b) * btNs d)) :
    cn0Loss d i = d := by
  unfold cn0Loss
  split
  next b hb => exact if_neg fun ⟨hr, hx, hl⟩ => h ⟨hr, of_decide_eq_true hx, b, hb, hl⟩
  next => rfl

section

variable {i : Nat} {v : PullReport} {r : LoopReport}

theorem carrierCheck_dark (h : chanRuns d i ≠ true) : carrierCheck d i v r = d := if_pos (by simpa using h)

theorem carrierCheck_pulling (h : chanRuns d i = true) (hx : (getChan d i).state = 1) : carrierCheck d i v r
    = if v.peak.natAbs ≤ 16 ∧ v.freq.natAbs < 25000 ∧ (d.bt - (getChan d i).since) * btNs d ≤ 500 * 10 ^ 6 then
        setChan d i { getChan d i with state := 2, codeLock := true } else d := by
  rw [carrierCheck, if_neg (by simp [h]), if_pos hx]

theorem carrierCheck_tracking (h : chanRuns d i = true) (hx : (getChan d i).state = 2) : carrierCheck d i v r
    = let low := decide (r.cn0.toNat < fld d .gnssAnt (i / 24) GAnt.cn0LossDbhz * 100)
      let x := getChan d i
      let y := { x with cn0 := r.cn0.toNat, lowBt := if low then some (x.lowBt.getD d.bt) else none }
      setChan d i (if 800 ≤ r.costas ∧ y.lockBt.isNone then carrierLocked y d.bt r.phase
       else if r.costas < 500 ∧ y.lockBt.isSome then carrierLost y else y) := by
  rw [carrierCheck, if_neg (by simp [h]), if_neg (by simp [hx]), if_pos hx]

theorem carrierCheck_other (h1 : (getChan d i).state ≠ 1) (h2 : (getChan d i).state ≠ 2) : carrierCheck d i v r = d := by
  unfold carrierCheck
  dsimp only
  rw [if_neg h1, if_neg h2, ite_self]

end

/-- A window of BIT_SYNC that has ended. -/
def bitWindowEnds (d : Dev) (i : Nat) : Prop :=
  chanRuns d i = true ∧ (getChan d i).state = 2 ∧ (getChan d i).lockBt.isSome = true ∧ (getChan d i).bitSync = false
    ∧ 2 * 10 ^ 9 ≤ (d.bt - (getChan d i).windowBt) * btNs d

theorem bitSyncWindow_open {i : Nat} {counts : List Nat} (h : ¬ bitWindowEnds d i) : bitSyncWindow d i counts = d := by
  refine if_pos (Classical.not_not.1 fun hneg => h ?_)
  simp only [not_or, ne_eq, not_not, Bool.not_eq_true, Bool.not_eq_false', Nat.not_lt, Option.isNone_eq_false_iff] at hneg
  exact hneg

theorem bitWindowEnds.ends {i : Nat} (h : bitWindowEnds d i) : ¬ ((!chanRuns d i) = true ∨ (getChan d i).state ≠ 2
    ∨ (getChan d i).lockBt.isNone = true ∨ (getChan d i).bitSync = true
    ∨ (d.bt - (getChan d i).windowBt) * btNs d < 2 * 10 ^ 9) := by
  obtain ⟨hr, hx, hl, hs, hw⟩ := h
  simpa [hr, hx, Option.isSome_iff_ne_none.1 hl, hs] using hw

theorem bitSyncWindow_syncs {i p : Nat} {counts : List Nat} (h : bitWindowEnds d i) (hp : bitPosition counts = some p) :
    bitSyncWindow d i counts = setChan { d with free := d.free + 1 } i { getChan d i with
      bitSync := true, bitPos := p, bits := 0, stream := Config.freeValue d.free % 4, cands := [], words := [] } := by
  rw [bitSyncWindow, if_neg h.ends, hp]
  rfl

theorem bitSyncWindow_fails {i : Nat} {counts : List Nat} (h : bitWindowEnds d i) (hp : bitPosition counts = none) :
    bitSyncWindow d i counts = setChan d i { getChan d i with windowBt := d.bt } := by
  rw [bitSyncWindow, if_neg h.ends, hp]

theorem subframe_takes {i : Nat} {sums : List Int} (h : chanRuns d i = true ∧ (getChan d i).bitSync = true) :
    subframe d i sums = sums.foldl (receiveBit i) d := if_pos (by simpa using h)

theorem subframe_idle {i : Nat} {sums : List Int} (h : ¬ (chanRuns d i = true ∧ (getChan d i).bitSync = true)) :
    subframe d i sums = d := if_neg (by simpa using h)

/-! ### Epochs and the baseline's survey -/

theorem epoch_idle {x : EpochData} (h : ¬ (folTracks d 17 = true ∧ d.gnss.epochBt ≠ some d.bt) ∨ epochInstant d = none) :
    epoch d x = d := by
  unfold epoch
  split
  · rfl
  · next hn =>
    obtain h | h := h
    · refine absurd (Classical.not_not.1 fun hneg => h ?_) hn
      simp only [not_or, Bool.not_eq_true, Bool.not_eq_false'] at hneg
      exact hneg
    · rw [h]

theorem epoch_writes {x : EpochData} {e : Nat} (h : folTracks d 17 = true ∧ d.gnss.epochBt ≠ some d.bt)
    (he : epochInstant d = some e) : epoch d x
      = epochWork ((List.range (chanCount d)).foldl (latchChan x) { d with gnss := { d.gnss with
          ring := (d.gnss.ring ++ [((d.gnss.blocks + 1) % 2 ^ 32, measBlock d ((d.gnss.blocks + 1) % 2 ^ 32) e x)]).drop
            ((d.gnss.ring ++ [((d.gnss.blocks + 1) % 2 ^ 32, measBlock d ((d.gnss.blocks + 1) % 2 ^ 32) e x)]).length - 16)
          blocks := (d.gnss.blocks + 1) % 2 ^ 32, epochBt := some d.bt } }) e x := by
  unfold epoch
  rw [if_neg (by simp [h.1, h.2]), he]
  rfl

/-- The survey of the baseline has lasted BL_SURVEY_S. -/
def surveyLasted (d : Dev) : Prop :=
  fld d .gnssBase 0 GBl.blState = 1 ∧ fld d .gnssBase 0 GBl.blSurveyS * 10 ^ 9 ≤ (d.bt - d.gnss.blFrom) * btNs d

theorem baselineEnd_early {b : Option BaselineFit} (h : ¬ surveyLasted d) : baselineEnd d b = d := if_neg h

theorem baselineEnd_holds {b : BaselineFit} (h : surveyLasted d) (hb : fitGood b = true) :
    baselineEnd d (some b) = holdBaseline d b.base := by
  unfold surveyLasted at h
  rw [baselineEnd, if_pos h, Option.filter_some_pos hb]

theorem baselineEnd_again {o : Option BaselineFit} (h : surveyLasted d) (ho : o.filter fitGood = none)
    (h2 : d.gnss.blSecond = false) :
    baselineEnd d o = { d with gnss := { d.gnss with blFrom := d.bt, blSecond := true } } := by
  unfold surveyLasted at h
  rw [baselineEnd, if_pos h, ho]
  dsimp only
  rw [h2]
  rfl

theorem baselineEnd_fails {o : Option BaselineFit} (h : surveyLasted d) (ho : o.filter fitGood = none)
    (h2 : d.gnss.blSecond = true) :
    baselineEnd d o = raise { d with gnss := { d.gnss with blFrom := d.bt, blSecond := false } } (srcId 0x55 0) := by
  unfold surveyLasted at h
  rw [baselineEnd, if_pos h, ho]
  dsimp only
  rw [h2]
  rfl

end

section

variable {s : State}

/-- The events of a channel. -/
theorem channelEvents (h : s.dev.pwr.aonUp = true) (i : Fin 48) :
    let x := getChan s.dev i.val
    let lost (d : Dev) : Dev := wantPrns (setChan d i.val { Channel.idle with prn := x.prn, state := 3, since := d.bt })
      (i.val / 24) [(x.prn, false)]
    onlyIf (chanRuns s.dev i.val = true ∧ x.state = 1 ∧ 500 * 10 ^ 6 ≤ (s.dev.bt - x.since) * btNs s.dev)
        (exec (.pullInTimeout i) s) s lost
    ∧ onlyIf (chanRuns s.dev i.val = true ∧ x.state = 2
          ∧ ∃ b, x.lowBt = some b ∧ fld s.dev .gnssAnt (i.val / 24) GAnt.cn0LossMs * 10 ^ 6 ≤ (s.dev.bt - b) * btNs s.dev)
        (exec (.cn0Loss i) s) s lost := by
  refine ⟨?_, ?_⟩
  · exact onlyIf_gated (run := gnssRuns) (f := fun d => pullInTimeout d i.val) h (fun hc => gnssRuns_of_antRuns hc.1)
      (fun hc => if_pos hc) fun _ hn => if_neg hn
  · exact onlyIf_gated (run := gnssRuns) (f := fun d => cn0Loss d i.val) h (fun hc => gnssRuns_of_antRuns hc.1)
      (fun ⟨hr, hx, b, hb, hl⟩ => cn0Loss_loses (d := fresh s.dev) hr hx hb hl) fun _ hn => cn0Loss_stays (d := fresh s.dev) hn

/-- The lock check of a channel. -/
theorem lockCheckEvents (h : s.dev.pwr.aonUp = true) (i : Fin 48) (v : PullReport) (r : LoopReport) :
    let x := getChan s.dev i.val
    let low := decide (r.cn0.toNat < fld s.dev .gnssAnt (i.val / 24) GAnt.cn0LossDbhz * 100)
    let y := { x with cn0 := r.cn0.toNat, lowBt := if low then some (x.lowBt.getD s.dev.bt) else none }
    (x.state = 1 → onlyIf (chanRuns s.dev i.val = true ∧ v.peak.natAbs ≤ 16 ∧ v.freq.natAbs < 25000
        ∧ (s.dev.bt - x.since) * btNs s.dev ≤ 500 * 10 ^ 6)
      (exec (.carrierLockCheck i v r) s) s fun d => setChan d i.val { x with state := 2, codeLock := true })
    ∧ (x.state = 2 → onlyIf (chanRuns s.dev i.val = true) (exec (.carrierLockCheck i v r) s) s fun d => setChan d i.val
        (if 800 ≤ r.costas ∧ x.lockBt.isNone then
           { y with lockBt := some d.bt, phaseBase := r.phase / 65536 * 65536, windowBt := d.bt }
         else if r.costas < 500 ∧ x.lockBt.isSome then
           { y with lockBt := none, bitSync := false, frameSync := false, inverted := false, slip := true, badRun := 0
                    cands := [], words := [] }
         else y))
    ∧ (x.state ≠ 1 → x.state ≠ 2 → rests (exec (.carrierLockCheck i v r) s) s) := by
  refine ⟨fun hx => ?_, fun hx => ?_, fun h1 h2 => ?_⟩
  · refine onlyIf_gated (run := gnssRuns) (f := fun d => carrierCheck d i.val v r) h (fun hc => gnssRuns_of_antRuns hc.1)
      (fun hc => ?_) fun _ hn => ?_
    · exact (carrierCheck_pulling (d := fresh s.dev) hc.1 hx).trans (if_pos hc.2)
    · by_cases hr : chanRuns (fresh s.dev) i.val = true
      · exact (carrierCheck_pulling hr hx).trans (if_neg fun hc => hn ⟨hr, hc⟩)
      · exact carrierCheck_dark hr
  · exact onlyIf_gated (run := gnssRuns) (f := fun d => carrierCheck d i.val v r) h gnssRuns_of_antRuns
      (fun hr => carrierCheck_tracking (d := fresh s.dev) hr hx) fun _ hn => carrierCheck_dark (d := fresh s.dev) hn
  · exact rests_gated (run := gnssRuns) (f := fun d => carrierCheck d i.val v r) h
      fun _ => carrierCheck_other (d := fresh s.dev) h1 h2

/-- The end of the baseline's survey, with the firmware. -/
theorem baselineEvent (h : s.dev.pwr.aonUp = true) {o : Option BaselineFit} {g : Dev → Dev}
    (hb : surveyLasted (fresh s.dev) → baselineEnd (fresh s.dev) o = g (fresh s.dev)) :
    onlyIf (gnssRuns s.dev = true ∧ fwRuns s.dev = true ∧ surveyLasted s.dev) (exec (.baselineSurveyEnd o) s) s g := by
  refine onlyIf_gated (run := gnssRuns) (f := fun d => if fwRuns d = true then baselineEnd d o else d) h (fun hc => hc.1)
    (fun hc => (if_pos hc.2.1).trans (hb hc.2.2)) fun hg hn => ?_
  by_cases hf : fwRuns s.dev = true
  · exact (if_pos hf).trans (baselineEnd_early (d := fresh s.dev) fun hs => hn ⟨hg, hf, hs⟩)
  · exact if_neg hf

end

/-- Settles O42: each event is taken through the branches of its one function, whose condition names the domain it needs. -/
theorem gnssEvents : Obligations.GnssEvents := by
  refine ⟨fun s h => ⟨fun a n => ?_, fun a gain least clipped pulses => ?_, fun a found => ⟨fun hq => ?_, fun r hq => ?_⟩,
    fun i => ⟨(channelEvents h i).1, (channelEvents h i).2, fun v r => lockCheckEvents h i v r,
      fun counts => ⟨fun p hp => ?_, fun hp => ?_⟩, fun sums => ?_⟩, fun a power tracked => ⟨fun hr => ?_, fun hg hr => ?_,
      fun hr hp => ?_⟩⟩, fun s h => ⟨fun x => ⟨fun hx => ?_, fun e ht he => ?_⟩, fun b hb => ?_, fun o ho => ⟨fun h2 => ?_,
      fun h2 => ?_⟩⟩⟩
  · exact onlyIf_gated (run := gnssRuns) (f := fun d => notchRelease d a.val n.val) h (fun hc => hc.1)
      (fun ⟨_, hn, b, hb, hl⟩ => notchRelease_ends (d := fresh s.dev) hn hb hl)
      fun hr hn => notchRelease_stays (d := fresh s.dev) fun hc => hn ⟨hr, hc⟩
  · exact onlyIf_gated (run := gnssRuns) (f := fun d => agcReport d a.val gain.toNat least.toNat clipped pulses) h
      gnssRuns_of_antRuns (agcReport_runs (d := fresh s.dev)) fun _ hn => agcReport_dark (d := fresh s.dev) hn
  · exact rests_gated (run := gnssRuns) (f := fun d => acquisition d a.val found) h
      fun _ => acquisition_none (d := fresh s.dev) hq
  · exact onlyIf_gated (run := gnssRuns) (f := fun d => acquisition d a.val found) h (fun hc => gnssRuns_of_antRuns hc.2.1)
      (acquisition_ends (d := fresh s.dev) hq) fun _ => acquisition_early (d := fresh s.dev) hq
  · exact onlyIf_gated (run := gnssRuns) (f := fun d => bitSyncWindow d i.val counts) h (fun hc => gnssRuns_of_antRuns hc.1)
      (fun hc => bitSyncWindow_syncs (d := fresh s.dev) hc hp) fun _ => bitSyncWindow_open (d := fresh s.dev)
  · exact onlyIf_gated (run := gnssRuns) (f := fun d => bitSyncWindow d i.val counts) h (fun hc => gnssRuns_of_antRuns hc.1)
      (fun hc => bitSyncWindow_fails (d := fresh s.dev) hc hp) fun _ => bitSyncWindow_open (d := fresh s.dev)
  · exact onlyIf_gated (run := gnssRuns) (f := fun d => subframe d i.val sums) h (fun hc => gnssRuns_of_antRuns hc.1)
      (subframe_takes (d := fresh s.dev)) fun _ => subframe_idle (d := fresh s.dev)
  · refine rests_gated (run := gnssRuns) (f := fun d => spectrum d a.val power tracked) h fun hg => ?_
    obtain hr | ⟨hr, hp⟩ := hr
    · exact absurd (hr.symm.trans hg) (by decide)
    · exact spectrum_short (d := fresh s.dev) hr hp
  · exact becomes_gated (run := gnssRuns) (f := fun d => spectrum d a.val power tracked)
      (g := fun d => setAnt d a.val { getAnt d a.val with bins := [] }) h hg (spectrum_off (d := fresh s.dev) hr)
  · refine becomes_gated (run := gnssRuns) (f := fun d => spectrum d a.val power tracked) h (gnssRuns_of_antRuns hr.1) ?_
    exact (if_neg (notches_on (d := fresh s.dev) hr)).trans (if_neg (not_not.2 hp))
  · refine rests_gated (run := gnssRuns) (f := fun d => epoch d x) h fun hg => epoch_idle (d := fresh s.dev) ?_
    exact hx.imp_left fun hn ht => hn ⟨hg, ht⟩
  · exact becomes_gated (run := gnssRuns) (f := fun d => epoch d x) h ht.1 (epoch_writes (d := fresh s.dev) ht.2 he)
  · exact baselineEvent h fun hs => baselineEnd_holds (d := fresh s.dev) hs hb
  · exact baselineEvent h fun hs => baselineEnd_again (d := fresh s.dev) hs ho h2
  · exact baselineEvent h fun hs => baselineEnd_fails (d := fresh s.dev) hs ho h2

end Sys2Proof.Machine

/-! R296, R297, R300, R301, R304, R305, R308–R312: the events of the time-interval unit. -/

namespace Sys2Proof.Machine

open Sys2Proof

section

variable {d : Dev}

/-! ### Inputs -/

theorem getIn_setIn (i j : Nat) (x : TiuInput) : getIn (setIn d i x) j = if j = i then x else getIn d j := by
  by_cases h : j = i
  · rw [if_pos h, h]
    exact Tab.get_set_same ..
  · rw [if_neg h]
    exact Tab.get_set_other _ _ _ _ _ _ h

/-- The capture path takes an edge: the unit runs, the input is captured, and EDGE chooses the edge. -/
def Captures (d : Dev) (e : TiuEdge) : Prop :=
  tiuRuns d = true ∧ capturing d e.input.val = true ∧ edgeChosen d e.input.val e.level = true

/-- The input takes the level of an edge. -/
def levelled (d : Dev) (e : TiuEdge) : Dev := setIn d e.input.val { getIn d e.input.val with level := e.level }

theorem captures_guard {e : TiuEdge} : (!tiuRuns (levelled d e) || !capturing (levelled d e) e.input.val
    || !edgeChosen (levelled d e) e.input.val e.level) = true ↔ ¬ Captures d e := by
  show (!tiuRuns d || !capturing d e.input.val || !edgeChosen d e.input.val e.level) = true ↔ _
  simp only [Captures, Bool.or_eq_true, Bool.not_eq_true', ← Bool.not_eq_true, not_and_or, or_assoc]

theorem inputEdge_ignored {e : TiuEdge} (h : ¬ Captures d e) : inputEdge d e = levelled d e :=
  if_pos (captures_guard.2 h)

theorem inputEdge_glitch {e : TiuEdge} (h : Captures d e) (hg : e.heldNs < fld d .tiuIn e.input.val TIn.minPulseNs) :
    inputEdge d e = bumpFld (levelled d e) .tiuInStatus e.input.val TInSt.glitches :=
  (if_neg fun hc => captures_guard.1 hc h).trans (if_pos hg)

/-- Taking an edge's fine count changes the input's state and records in nothing. -/
theorem fineOf_eq {e : TiuEdge} : ∃ n, (fineOf d e).2 = { d with free := n } := by
  unfold fineOf
  extract_lets hs
  split
  · exact ⟨_, rfl⟩
  · exact ⟨_, rfl⟩

/-- A captured edge of an input is accepted, or rejected within HOLDOFF_NS of the last (R297). -/
def edgeTaken (e : TiuEdge) (fine : Nat) (d : Dev) : Dev :=
  let early : Bool := match (getIn d e.input.val).lastStamp with
    | some l => decide ((capture d e fine).stamp - l < (fld d .tiuIn e.input.val TIn.holdoffNs : Int) * 2 ^ 32)
    | none => false
  if early then bumpFld d .tiuInStatus e.input.val TInSt.holdoffRejects
  else acceptEdge d e.input.val (!e.level) (capture d e fine)

/-- An accepted edge is one that no earlier one of its input holds off. -/
theorem inputEdge_captured {e : TiuEdge} {fine : Nat} {d₂ : Dev} (h : Captures d e)
    (hg : fld d .tiuIn e.input.val TIn.minPulseNs ≤ e.heldNs) (hf : fineOf (levelled d e) e = (fine, d₂)) :
    ((∃ l, (getIn d e.input.val).lastStamp = some l
        ∧ (capture d₂ e fine).stamp - l < (fld d .tiuIn e.input.val TIn.holdoffNs : Int) * 2 ^ 32) →
      inputEdge d e = bumpFld d₂ .tiuInStatus e.input.val TInSt.holdoffRejects)
    ∧ ((¬ ∃ l, (getIn d e.input.val).lastStamp = some l
        ∧ (capture d₂ e fine).stamp - l < (fld d .tiuIn e.input.val TIn.holdoffNs : Int) * 2 ^ 32) →
      inputEdge d e = acceptEdge d₂ e.input.val (!e.level) (capture d₂ e fine)) := by
  obtain ⟨n, hn⟩ := fineOf_eq (d := levelled d e) (e := e)
  rw [hf] at hn
  have hl : (getIn d₂ e.input.val).lastStamp = (getIn d e.input.val).lastStamp := by
    rw [show getIn d₂ e.input.val = getIn (levelled d e) e.input.val by rw [show d₂ = _ from hn]; rfl, levelled, getIn_setIn,
      if_pos rfl]
  have hh : fld d₂ .tiuIn e.input.val TIn.holdoffNs = fld d .tiuIn e.input.val TIn.holdoffNs := by
    rw [show d₂ = _ from hn]
    rfl
  have hs : inputEdge d e = edgeTaken e fine d₂ := by
    refine (if_neg fun hc => captures_guard.1 hc h).trans ((if_neg (Nat.not_lt.2 hg)).trans ?_)
    show edgeTaken e (fineOf (levelled d e) e).1 (fineOf (levelled d e) e).2 = _
    rw [hf]
  rw [hs, edgeTaken, hl, hh]
  cases (getIn d e.input.val).lastStamp with
  | none => exact ⟨fun ⟨_, hc, _⟩ => (nomatch hc), fun _ => if_neg Bool.false_ne_true⟩
  | some l =>
    refine ⟨fun ⟨_, hc, hlt⟩ => if_pos ?_, fun hn => if_neg fun hlt => hn ⟨l, rfl, of_decide_eq_true hlt⟩⟩
    cases hc
    exact decide_eq_true hlt

theorem intervalOverflow_none {i : Nat} (h : (getIn d i).waiting = none) : intervalOverflow d i = d := by
  unfold intervalOverflow overflowBy
  rw [h]

theorem intervalOverflow_some {i : Nat} {a : Capture} (h : (getIn d i).waiting = some a) :
    intervalOverflow d i = if coarseAhead d < a.tick + 2 ^ 32 then d else
      produce (bumpFld (setIn d i { getIn d i with waiting := none }) .tiuInStatus i TInSt.overflows)
        (overflowRecord (bumpFld (setIn d i { getIn d i with waiting := none }) .tiuInStatus i TInSt.overflows) i a) := by
  unfold intervalOverflow overflowBy
  rw [h]

/-- An input counts edges between gates: the unit runs and the input is in FREQUENCY mode. -/
def Gates (d : Dev) (i : Nat) : Prop := tiuRuns d = true ∧ inMode d i = 3

theorem gateEnd_idle {i : Nat} (h : ¬ Gates d i ∨ dueIn d 0 (gateLength d i * 2 ^ 8) = none) : gateEnd d i = d := by
  by_cases hg : (!tiuRuns d || decide (inMode d i ≠ 3)) = true
  · exact if_pos hg
  · refine (if_neg hg).trans ?_
    have hd : dueIn d 0 (gateLength d i * 2 ^ 8) = none := h.resolve_left fun hn => hn (by simpa [Gates] using hg)
    rw [hd]

theorem gateEnd_turns {i : Nat} {t : Rat} (h : Gates d i) (ht : dueIn d 0 (gateLength d i * 2 ^ 8) = some t) :
    gateEnd d i = turnGate i d (t / 2 ^ 8).floor := by
  obtain ⟨hr, hm⟩ := h
  refine (if_neg (by simp [hr, hm])).trans ?_
  rw [ht]

/-- The gate that begins at a boundary. -/
def openGate (i : Nat) (b : Int) (d : Dev) : Dev :=
  let late := tiuStep d && decide (b * 2 ^ 8 ≤ max (loadSpan d).1 (loadSpan d).2)
  setIn d i { getIn d i with
    gate := some { start := b, first := none, last := b, count := 0, uncal := false
                   untracked := !folTracks d 16 || late, gap := false } }

theorem turnGate_first {i : Nat} {b : Int} (h : (getIn d i).gate = none) : turnGate i d b = openGate i b d := by
  unfold turnGate
  rw [h]
  rfl

theorem turnGate_next {i : Nat} {b : Int} {g : Gate} (h : (getIn d i).gate = some g) :
    turnGate i d b = if b ≤ g.start then d else openGate i b (closeGate d i g b) := by
  unfold turnGate
  rw [h]
  by_cases hb : b ≤ g.start
  · exact (if_pos (decide_eq_true hb)).trans (if_pos hb).symm
  · exact (if_neg (mt of_decide_eq_true hb)).trans (if_neg hb).symm

/-! ### Outputs -/

/-- An edge of an output leaves its pin. -/
def leavesPin (d : Dev) (o : Nat) (x : TiuOutput) (t : Rat) : Dev :=
  emit (setOut d o x) (.output o (outLevel (setOut d o x) o) (roundFree (t * 1000 / 2 ^ 40) - outTrim (setOut d o x) o))

/-- A pulse or cycle of an output begins at an instant, where none is in progress. -/
def beginsPulse (o : Nat) (t length cycle : Rat) (byLoad : Bool) (steps : Fld) (x : TiuOutput) (d : Dev) : Dev :=
  let d := if x.active then leavesPin d o { x with active := false } x.endAt else d
  let d := leavesPin d o { x with active := true, endAt := t + length, cycleEnd := t + cycle, last := some t } t
  if byLoad then setOutRec d o (bumpF (outRec d o) steps) else d

theorem begin_eq {o : Nat} {t length cycle : Rat} {byLoad : Bool} {steps : Fld} :
    begin_ d o t length cycle byLoad steps
      = if ((getOut d o).active = true ∧ t < (getOut d o).endAt) ∨ t < (getOut d o).cycleEnd then d
        else beginsPulse o t length cycle byLoad steps (getOut d o) d := rfl

/-- The first edge of an output, of a due instant's pulse. -/
def firstEdge (d : Dev) (o : Nat) (off period length cycle : Rat) (byLoad : Bool) (steps : Fld) : Dev :=
  if !mayBegin d o then d
  else match dueOrLoad d o off period byLoad with
    | some t => begin_ d o t length cycle byLoad steps
    | none => d

theorem firstEdge_idle {o : Nat} {off period length cycle : Rat} {byLoad : Bool} {steps : Fld}
    (h : mayBegin d o = false ∨ dueOrLoad d o off period byLoad = none) :
    firstEdge d o off period length cycle byLoad steps = d := by
  unfold firstEdge
  by_cases hm : mayBegin d o = true
  · rw [h.resolve_left (by simp [hm]), hm]
    rfl
  · exact if_pos (by simpa using hm)

theorem firstEdge_due {o : Nat} {off period length cycle : Rat} {byLoad : Bool} {steps : Fld} {t : Rat}
    (hm : mayBegin d o = true) (ht : dueOrLoad d o off period byLoad = some t) :
    firstEdge d o off period length cycle byLoad steps = begin_ d o t length cycle byLoad steps := by
  unfold firstEdge
  rw [ht, hm]
  rfl

theorem ppsEdge_first {o : Nat} {b : Bool} : ppsEdge d o true b = firstEdge d o
    ((((getS (getRec d .ppsOut o) Pps.offsetNs : Int) : Rat) + (getF (getRec d .ppsOut o) Pps.offsetFinePs : Rat) / 1000) * 2 ^ 40)
    (getF (getRec d .ppsOut o) Pps.periodMs * 10 ^ 6 * 2 ^ 40) (getF (getRec d .ppsOut o) Pps.pulseUs * 1000 * 2 ^ 40)
    (getF (getRec d .ppsOut o) Pps.pulseUs * 1000 * 2 ^ 40) b Pps.stepEvents := rfl

theorem foutEdge_first {o : Nat} {b : Bool} : foutEdge d (4 + o) true b = firstEdge d (4 + o) 0
    ((getF (getRec d .fout o) Fout.freqDen : Rat) * 10 ^ 9 * 2 ^ 40 / getF (getRec d .fout o) Fout.freqNum)
    ((getF (getRec d .fout o) Fout.freqDen : Rat) * 10 ^ 9 * 2 ^ 40 / getF (getRec d .fout o) Fout.freqNum / 2)
    ((getF (getRec d .fout o) Fout.freqDen : Rat) * 10 ^ 9 * 2 ^ 40 / getF (getRec d .fout o) Fout.freqNum) b
    Fout.stepEvents := by
  unfold foutEdge
  rw [Nat.add_sub_cancel_left]
  rfl

end

section

variable {s : State}

/-- The last edge of an output's pulse, by an event that gives nothing else. -/
theorem lastEdge {ev : Dev → Dev} {o : Nat} (h : s.dev.pwr.aonUp = true) (hev : ∀ d, ev d = if endDue d o then endOut d o else d) :
    onlyIf (endDue s.dev o = true) (whenOn s ev) s fun d => leavesPin d o { getOut d o with active := false } (getOut d o).endAt :=
  onlyIf_event (f := ev) h (fun hc => (hev _).trans (if_pos hc)) fun hc => (hev _).trans (if_neg hc)

/-- The first edge of an output's pulse, by an event that gives nothing else. -/
theorem firstEdges {ev : Dev → Dev} {o : Nat} {off period length cycle : Rat} {b : Bool} {steps : Fld}
    (h : s.dev.pwr.aonUp = true) (hev : ev (fresh s.dev) = firstEdge (fresh s.dev) o off period length cycle b steps) :
    (mayBegin s.dev o = false ∨ dueOrLoad s.dev o off period b = none → rests (whenOn s ev) s)
    ∧ ∀ t, mayBegin s.dev o = true → dueOrLoad s.dev o off period b = some t →
      onlyIf (¬ (((getOut s.dev o).active = true ∧ t < (getOut s.dev o).endAt) ∨ t < (getOut s.dev o).cycleEnd)) (whenOn s ev) s
        (beginsPulse o t length cycle b steps (getOut s.dev o)) := by
  refine ⟨fun hn => rests_event (f := ev) h (hev.trans (firstEdge_idle (d := fresh s.dev) hn)), fun t hm ht => ?_⟩
  have hb := hev.trans ((firstEdge_due (d := fresh s.dev) hm ht).trans begin_eq)
  exact onlyIf_event (f := ev) h (fun hc => hb.trans (if_neg hc)) fun hc => hb.trans (if_pos (Classical.not_not.1 hc))

theorem inputEvents (h : s.dev.pwr.aonUp = true) (i : Fin 8) :
    onlyIf (tiuRuns s.dev = true ∧ flag s.dev .tiuInStatus i.val TInSt.dllLock = false) (exec (.tiuDllLock i) s) s
      (fun d => setFld (setFld d .tiuInStatus i.val TInSt.dllLock 1) .tiuInStatus i.val TInSt.calState 1)
    ∧ onlyIf (flag s.dev .tiuInStatus i.val TInSt.dllLock = true) (exec (.tiuDllUnlock i) s) s
      (fun d => raise (uncalibrate d i.val) (srcId 0x58 i.val)) :=
  ⟨onlyIf_event (f := fun d => dllLock d i.val) h (fun hc => if_pos hc) fun hc => if_neg hc,
    onlyIf_event (f := fun d => dllUnlock d i.val) h (fun hc => if_pos hc) fun hc => if_neg hc⟩

end

/-- Settles O43: each event is taken through the branches of its one function. -/
theorem tiuEvents : Obligations.TiuEvents := by
  refine ⟨fun s h => ⟨fun e => ⟨fun hn => ?_, fun hc hg => ?_, fun hc hg fine d₂ hf => ⟨fun he => ?_, fun he => ?_⟩⟩,
    fun i => ⟨fun hw => ?_, fun a hw => ?_, ⟨fun hn => ?_, fun t hc ht => ⟨fun hg => ?_, fun g hg => ?_⟩⟩, fun hits => ?_,
      inputEvents h i⟩⟩, fun s h => ⟨fun o b => ⟨?_, ?_⟩, fun o b => ⟨?_, ?_⟩, fun o => ?_⟩⟩
  · exact becomes_event (f := fun d => inputEdge d e) h (inputEdge_ignored (d := fresh s.dev) hn)
  · exact becomes_event (f := fun d => inputEdge d e) h (inputEdge_glitch (d := fresh s.dev) hc hg)
  · exact becomes_event (f := fun d => inputEdge d e) h ((inputEdge_captured (d := fresh s.dev) hc hg hf).1 he)
  · exact becomes_event (f := fun d => inputEdge d e) h ((inputEdge_captured (d := fresh s.dev) hc hg hf).2 he)
  · exact rests_gated (run := tiuRuns) (f := fun d => intervalOverflow d i.val) h
      fun _ => intervalOverflow_none (d := fresh s.dev) hw
  · exact onlyIf_gated (run := tiuRuns) (f := fun d => intervalOverflow d i.val) h (fun hc => hc.1)
      (fun hc => (intervalOverflow_some (d := fresh s.dev) hw).trans (if_neg (Nat.not_lt.2 hc.2)))
      fun hr hn => (intervalOverflow_some (d := fresh s.dev) hw).trans (if_pos (Nat.not_le.1 fun hl => hn ⟨hr, hl⟩))
  · exact rests_event (f := fun d => gateEnd d i.val) h (gateEnd_idle (d := fresh s.dev) hn)
  · exact becomes_event (f := fun d => gateEnd d i.val) h
      ((gateEnd_turns (d := fresh s.dev) hc ht).trans (turnGate_first (d := fresh s.dev) hg))
  · have hb := (gateEnd_turns (d := fresh s.dev) hc ht).trans (turnGate_next (d := fresh s.dev) hg)
    exact onlyIf_event (f := fun d => gateEnd d i.val) h (fun hl => hb.trans (if_neg (Int.not_le.2 hl)))
      fun hl => hb.trans (if_pos (Int.not_lt.1 hl))
  · exact onlyIf_event (f := fun d => calPass d i.val hits) h (fun hc => if_pos hc) fun hc => if_neg hc
  · exact lastEdge (ev := fun d => ppsEdge d o.val false b) h fun _ => rfl
  · exact firstEdges (ev := fun d => ppsEdge d o.val true b) h ppsEdge_first
  · exact lastEdge (ev := fun d => foutEdge d (4 + o.val) false b) h fun _ => rfl
  · exact firstEdges (ev := fun d => foutEdge d (4 + o.val) true b) h foutEdge_first
  · refine onlyIf_gated (run := fastRuns) (f := fun d => outSettings d o.val) h (fun hc => hc.1)
      (fun hc => if_neg ?_) fun hr hn => if_pos ?_
    · exact fun hd => Option.isSome_iff_ne_none.1 hc.2 (Option.isNone_iff_eq_none.1 hd)
    · exact Option.isNone_iff_eq_none.2 (Classical.not_not.1 fun hd => hn ⟨hr, Option.isSome_iff_ne_none.2 hd⟩)

end Sys2Proof.Machine

/-! R384, R385, R394–R396, R446, R447, R451, R453: the random source, the benches, the gauge and the scribe. -/

namespace Sys2Proof.Machine

open Sys2Proof

/-- The number of snapshots taken. -/
def snapMark (d : Dev) : Nat := d.obs.snapCount

section

variable (d : Dev)

/-! ### Counting takes no snapshot -/

theorem snapMark_bumpCtr (i n : Nat) : snapMark (bumpCtr d i n) = snapMark d := rfl

theorem snapMark_draw : snapMark (draw d).2 = snapMark d := rfl

theorem snapMark_ite {c : Prop} [Decidable c] {a b : Dev} (ha : snapMark a = snapMark d) (hb : snapMark b = snapMark d) :
    snapMark (if c then a else b) = snapMark d := by
  split
  · exact ha
  · exact hb

theorem snapMark_foldl {α : Type} {f : Dev → α → Dev} (h : ∀ d x, snapMark (f d x) = snapMark d) (l : List α) :
    snapMark (l.foldl f d) = snapMark d := by
  induction l generalizing d with
  | nil => rfl
  | cons x l ih => exact (ih (f d x)).trans (h d x)

theorem snapMark_levelCount (i n : Nat) (holds : Bool) : snapMark (levelCount d i n holds) = snapMark d := by
  unfold levelCount
  extract_lets was src e
  have he : snapMark e = snapMark d := snapMark_ite d rfl rfl
  refine snapMark_ite d rfl (snapMark_ite d he (snapMark_ite d ?_ (snapMark_ite d ?_ he)))
  · exact (snapMark_bumpCtr e i n).trans he
  · exact (snapMark_bumpCtr e i 1).trans he

theorem snapMark_freeParts (is : List Nat) (n : Nat) : snapMark (freeParts is n d) = snapMark d :=
  snapMark_foldl d (f := fun d i => bumpCtr (drawUpTo d n).2 i (drawUpTo d n).1) (fun _ i => snapMark_bumpCtr _ i _) is

theorem snapMark_issueSlot (e t : Nat) (x : Context) (cycle : Nat) (w : Bool) :
    snapMark (issueSlot d e t x cycle w) = snapMark d := by
  unfold issueSlot
  extract_lets node d₁ d₂ d₃ d₄
  have h₂ : snapMark d₂ = snapMark d := snapMark_bumpCtr d₁ _ 1
  have h₃ : snapMark d₃ = snapMark d := snapMark_ite d h₂ ((snapMark_bumpCtr d₂ _ 1).trans h₂)
  exact (snapMark_bumpCtr d₃ _ 1).trans h₃

theorem snapMark_engineCycle (on : Bool) (e cycle : Nat) : snapMark (engineCycle on e cycle d) = snapMark d := by
  unfold engineCycle
  have hd := snapMark_draw d
  generalize draw d = p at hd ⊢
  obtain ⟨v, d₁⟩ := p
  dsimp only at hd ⊢
  split
  · exact (snapMark_issueSlot d₁ _ _ _ _ _).trans hd
  · exact (snapMark_bumpCtr d₁ _ 1).trans hd

theorem snapMark_engineCycles (on : Bool) (e n cycle : Nat) : snapMark (engineCycles on e n cycle d) = snapMark d := by
  induction n generalizing cycle d with
  | zero => rfl
  | succ n ih => exact (ih (engineCycle on e cycle d) (cycle + 1)).trans (snapMark_engineCycle d on e cycle)

theorem snapMark_settleEngine (e n p : Nat) : snapMark (settleEngine d e n p) = snapMark d := by
  unfold settleEngine
  extract_lets on held now d₁ d₂ d₃ d₄ d₅ d₆
  have h₁ : snapMark d₁ = snapMark d := snapMark_bumpCtr d _ n
  have h₂ : snapMark d₂ = snapMark d := snapMark_ite d h₁ ((snapMark_bumpCtr d₁ _ n).trans h₁)
  have h₃ : snapMark d₃ = snapMark d := (snapMark_foldl d₂ (f := fun d (h : Nat × Context) =>
    countTenant (busyCount d (engineCtr e (8 + h.1)) n) h.2.desc.tenant 23 n)
    (fun d h => (snapMark_bumpCtr _ _ n).trans (snapMark_ite d (snapMark_bumpCtr d _ n) rfl)) held).trans h₂
  have h₅ : snapMark d₅ = snapMark d := (snapMark_levelCount d₄ _ n _).trans ((snapMark_levelCount d₃ _ n _).trans h₃)
  refine snapMark_ite d ((snapMark_bumpCtr d₅ _ n).trans h₅) ?_
  exact (snapMark_freeParts _ _ n).trans ((snapMark_engineCycles d₅ on e n (now - n)).trans h₅)

theorem snapMark_settleNest (c n : Nat) : snapMark (settleNest d c n) = snapMark d := by
  unfold settleNest
  extract_lets e waits d₁ d₂ d₃ k d₄ d₅ d₆
  have h₃ : snapMark d₃ = snapMark d :=
    (snapMark_levelCount d₂ _ n _).trans ((snapMark_levelCount d₁ _ n _).trans (snapMark_bumpCtr d _ n))
  have h₆ : snapMark d₆ = snapMark d := (snapMark_levelCount d₅ _ n _).trans
    ((snapMark_levelCount d₄ _ n _).trans ((snapMark_levelCount d₃ _ n _).trans h₃))
  exact snapMark_ite d ((snapMark_freeParts d₆ _ n).trans h₆) h₃

theorem snapMark_settleAt (c p : Nat) : snapMark (settleAt d c p) = snapMark d := by
  unfold settleAt
  extract_lets old n src d₁
  exact snapMark_ite d rfl (snapMark_ite d (snapMark_settleEngine d₁ c n p) (snapMark_settleNest d₁ c n))

theorem snapMark_settleEdge : snapMark (settleEdge d) = snapMark d :=
  snapMark_foldl d (f := fun d c => settleAt d c d.obs.phase) (fun d c => snapMark_settleAt d c _) _

end

section

variable {d : Dev}

/-! ### The benches -/

/-- The time of the operation a bench runs since a base tick is over. -/
theorem benchLeft_eq_zero {q : BenchReq} {n : Nat} : benchLeft d q n = 0 ↔ benchUs q * 1000 ≤ (d.bt - n) * btNs d :=
  Nat.sub_eq_zero_iff_le

theorem benchComplete_idle {b : Nat} {r : BenchResult} (h : runningOn d b = none) : benchComplete d b r = d := by
  unfold benchComplete
  rw [h]

theorem benchComplete_early {b n : Nat} {r : BenchResult} {q : BenchReq} (h : runningOn d b = some (q, n))
    (hl : ¬ benchUs q * 1000 ≤ (d.bt - n) * btNs d) : benchComplete d b r = d := by
  unfold benchComplete
  rw [h]
  exact if_pos fun hz => hl (benchLeft_eq_zero.1 hz)

/-- What a bench leaves as its operation ends. -/
def benchEnds (q : BenchReq) (b : Nat) (r : BenchResult) (d : Dev) : Dev :=
  let ok := decide (r = .done)
  let d := setFld (bumpFld (setRunning d b none) .bench b Bench.ops) .bench b Bench.ucodeVersion d.pwr.running.ucodeVersion
  let d := if r = .unverified then raise d (srcId 0x0D b) else d
  let d := match q.op with
    | .sign k scheme ik input => signDone d q k scheme ik input ok
    | .generate k kind der label => generateDone d q k kind der label ok
  if fwRuns d then startBenches d else d

theorem benchComplete_ends {b n : Nat} {r : BenchResult} {q : BenchReq} (h : runningOn d b = some (q, n))
    (hl : benchUs q * 1000 ≤ (d.bt - n) * btNs d) : benchComplete d b r = benchEnds q b r d := by
  have hp : (bumpFld (setRunning d b none) .bench b Bench.ops).pwr = d.pwr := by
    rw [bumpFld_pwr]
    rfl
  unfold benchComplete benchEnds
  rw [h]
  dsimp only
  rw [if_neg (not_not.2 (benchLeft_eq_zero.2 hl)), hp] <;> rfl

/-! ### The gauge -/

theorem gaugeStrobe_idle (h : d.obs.gauge = none) : gaugeStrobe d = d := by
  unfold gaugeStrobe
  rw [h]

/-- The capture of a gauge takes place: not yet made, at its strobe, in the fast domain. -/
def Strobes (d : Dev) (g : GaugeRun) : Prop := g.captured = none ∧ g.strobeBt ≤ d.bt ∧ fastRuns d = true

theorem gaugeStrobe_waits {g : GaugeRun} (h : d.obs.gauge = some g) (hn : ¬ Strobes d g) : gaugeStrobe d = d := by
  unfold gaugeStrobe
  rw [h]
  refine if_pos (Classical.not_not.1 fun hneg => hn ?_)
  simpa [Strobes] using hneg

/-- The device at a capture cycle: every node's counters brought up to it. -/
def atStrobe (d : Dev) : Dev := settleEdge { d with obs := { d.obs with phase := max 32 d.obs.phase } }

theorem gaugeStrobe_captures {g : GaugeRun} (h : d.obs.gauge = some g) (ht : Strobes d g) :
    ∃ snap, (gaugeStrobe d).obs.gauge = some { g with captured := some snap } ∧ snap.strobeBt = g.strobeBt
      ∧ snap.id = d.obs.snapCount + 1 ∧ snap.values = (gaugeStrobe d).obs.ctr := by
  obtain ⟨hc, hb, hf⟩ := ht
  have hn : (atStrobe d).obs.snapCount = d.obs.snapCount := snapMark_settleEdge _
  have hs : gaugeStrobe d = { atStrobe d with obs := { (atStrobe d).obs with
      gauge := some { g with
        captured := some { id := (atStrobe d).obs.snapCount + 1, strobeBt := g.strobeBt, values := (atStrobe d).obs.ctr } } } } := by
    unfold gaugeStrobe
    rw [h]
    exact if_neg (by simp [hc, hb, hf])
  rw [hs]
  exact ⟨_, rfl, rfl, congrArg (· + 1) hn, rfl⟩

theorem gaugeCopy_idle (h : d.obs.gauge = none) : gaugeCopyComplete d = d := by
  unfold gaugeCopyComplete
  rw [h]

theorem gaugeCopy_waits {g : GaugeRun} (h : d.obs.gauge = some g) (hc : g.captured = none) : gaugeCopyComplete d = d := by
  unfold gaugeCopyComplete
  rw [h]
  dsimp only
  rw [hc]

theorem gaugeCopy_ends {g : GaugeRun} {snap : Snapshot} (h : d.obs.gauge = some g) (hc : g.captured = some snap) :
    gaugeCopyComplete d = complete { d with obs := { d.obs with
        gauge := none, snapCount := d.obs.snapCount + 1
        snaps := (d.obs.snaps ++ [snap]).drop ((d.obs.snaps ++ [snap]).length - 2) } }
      g.fn g.door .ok (leBytes 4 snap.id ++ leBytes 4 0 ++ leBytes 8 snap.strobeBt) [] := by
  unfold gaugeCopyComplete
  rw [h]
  dsimp only
  rw [hc]

/-! ### The scribe -/

theorem rearmEnd_waits (h : ¬ (scribeState d = 3 ∧ d.obs.rearmBt + 2 ≤ d.bt)) : rearmEnd d = d := by
  refine if_pos (Classical.not_not.1 fun hneg => h ?_)
  rw [not_or, not_not, Nat.not_lt] at hneg
  exact hneg

theorem rearmEnd_ends (h : scribeState d = 3 ∧ d.obs.rearmBt + 2 ≤ d.bt) : rearmEnd d =
    if flag d .scribe 0 Scr.autoRearm = true ∧ curSegment d + 1 < fld d .scribe 0 Scr.segments then
      armSegment d (curSegment d + 1)
    else if flag d .scribe 0 Scr.autoRearm = true ∧ flag d .scribe 0 Scr.wrap = true then armSegment d 0
    else setScribe d 4 := by
  obtain ⟨hs, hb⟩ := h
  refine (if_neg (by simp [hs, hb])).trans ?_
  cases flag d .scribe 0 Scr.autoRearm <;> simp

end

/-- Settles O44: each event is taken through the branches of its one function; counting the cycles up to the capture takes
no snapshot of its own. -/
theorem keyAndObserveEvents : Obligations.KeyAndObserveEvents := by
  refine fun s h => ⟨?_, ?_, fun b r => ⟨fun hr => ?_, fun q n hr => ?_⟩, fun hg => ⟨?_, ?_⟩,
    fun g hg => ⟨fun hn => ?_, fun ht => ?_, fun hc => ?_, fun snap hc => ?_⟩, ?_, ?_⟩
  · exact onlyIf_event (f := rngFail) h (fun hc => if_pos hc) fun hc => if_neg hc
  · exact onlyIf_event (f := rngRecovery) h (fun hc => if_pos hc) fun hc => if_neg hc
  · exact rests_gated (run := fastRuns) (f := fun d => benchComplete d b.val r) h
      fun _ => benchComplete_idle (d := fresh s.dev) hr
  · exact onlyIf_gated (run := fastRuns) (f := fun d => benchComplete d b.val r) (g := benchEnds q b.val r) h (fun hc => hc.1)
      (fun hc => benchComplete_ends (d := fresh s.dev) hr hc.2)
      fun hf hn => benchComplete_early (d := fresh s.dev) hr fun hl => hn ⟨hf, hl⟩
  · exact rests_event (f := gaugeStrobe) h (gaugeStrobe_idle (d := fresh s.dev) hg)
  · exact rests_event (f := gaugeCopyComplete) h (gaugeCopy_idle (d := fresh s.dev) hg)
  · exact rests_event (f := gaugeStrobe) h (gaugeStrobe_waits (d := fresh s.dev) hg hn)
  · exact acts_event (f := gaugeStrobe) h (gaugeStrobe_captures (d := fresh s.dev) hg ht)
  · exact rests_event (f := gaugeCopyComplete) h (gaugeCopy_waits (d := fresh s.dev) hg hc)
  · exact becomes_event (f := gaugeCopyComplete) h (gaugeCopy_ends (d := fresh s.dev) hg hc)
  · exact onlyIf_event (f := segmentComplete) h (fun hc => if_pos hc) fun hc => if_neg hc
  · exact onlyIf_event (f := rearmEnd) h (rearmEnd_ends (d := fresh s.dev)) (rearmEnd_waits (d := fresh s.dev))

end Sys2Proof.Machine

/-! R406, R407, R410, R411, R416, R418: raises, echoes, the grace timer and the scrubber. -/

namespace Sys2Proof.Machine

open Sys2Proof

/-! ### What a trace record leaves unchanged -/

/-- A device that a trace record may have left: the fault collector and the power state are as they were. -/
structure Traced (d e : Dev) : Prop where
  flt : e.flt = d.flt
  pwr : e.pwr = d.pwr
  bt : e.bt = d.bt
  grace : getRec e .faultRec recGrace = getRec d .faultRec recGrace
  status : getRec e .faultStatus 0 = getRec d .faultStatus 0

namespace Traced

variable {a b c d : Dev}

theorem refl (d : Dev) : Traced d d := ⟨rfl, rfl, rfl, rfl, rfl⟩

theorem trans (h : Traced a b) (g : Traced b c) : Traced a c :=
  ⟨g.flt.trans h.flt, g.pwr.trans h.pwr, g.bt.trans h.bt, g.grace.trans h.grace, g.status.trans h.status⟩

theorem ite {p : Prop} [Decidable p] (hb : Traced a b) (hc : Traced a c) : Traced a (if p then b else c) := by
  split
  · exact hb
  · exact hc

theorem setFld (d : Dev) {k : RecKind} (hk : 63 ≤ k.code) (i : Nat) (f : Fld) (v : Nat) :
    Traced d (Machine.setFld d k i f v) := by
  refine ⟨setFld_flt .., setFld_pwr .., setFld_bt .., getRec_setFld_other d k .faultRec i recGrace f v ?_,
    getRec_setFld_other d k .faultStatus i 0 f v ?_⟩
  · show RecKind.faultRec.code * 2 ^ 24 + recGrace ≠ k.code * 2 ^ 24 + i
    show 55 * 2 ^ 24 + 150 ≠ _
    omega
  · show 58 * 2 ^ 24 + 0 ≠ k.code * 2 ^ 24 + i
    omega

theorem bumpFld (d : Dev) {k : RecKind} (hk : 63 ≤ k.code) (i : Nat) (f : Fld) : Traced d (Machine.bumpFld d k i f) :=
  setFld d hk i f _

theorem obs (d : Dev) (o : ObsState) : Traced d { d with obs := o } := ⟨rfl, rfl, rfl, rfl, rfl⟩

theorem emit (d : Dev) (x : Emission) : Traced d (Machine.emit d x) := ⟨rfl, rfl, rfl, rfl, rfl⟩

theorem draw (d : Dev) : Traced d (Machine.draw d).2 := ⟨rfl, rfl, rfl, rfl, rfl⟩

theorem cycleNow (d : Dev) : Traced d (Machine.cycleNow d).2 := (draw d).trans (obs _ _)

theorem setSegList (d : Dev) (i : Nat) (l : List Nat) : Traced d (Machine.setSegList d i l) :=
  (obs d _).trans (setFld _ (by decide) i _ _)

theorem scribeStore (d : Dev) (r : Nat) : Traced d (Machine.scribeStore d r) :=
  ite (setSegList d _ _) (ite ((obs d _).trans (setSegList _ _ _)) (refl d))

theorem scribeOffer (d : Dev) (time : Nat) (bs : List Byte) : Traced d (Machine.scribeOffer d time bs) := by
  unfold Machine.scribeOffer
  refine ite ((draw d).trans ?_) (refl d)
  generalize Machine.draw d = p
  obtain ⟨v, e⟩ := p
  dsimp only
  refine ite ((obs e _).trans (bumpFld _ (by decide) 0 _)) ?_
  exact (ite (refl e) ((scribeStore e _).trans (obs _ _))).trans (scribeStore _ _)

theorem obsOffer (d : Dev) (time : Nat) (bs : List Byte) : Traced d (Machine.obsOffer d time bs) := by
  unfold Machine.obsOffer
  refine ite ((draw d).trans ?_) (refl d)
  generalize Machine.draw d = p
  obtain ⟨v, e⟩ := p
  dsimp only
  refine ite ((obs e _).trans (bumpFld _ (by decide) 0 _)) ?_
  exact (ite (refl e) ((emit e _).trans (obs _ _))).trans (emit _ _)

theorem trace (d : Dev) (source sub unit : Nat) (payload : List Byte) : Traced d (Machine.trace d source sub unit payload) := by
  unfold Machine.trace
  extract_lets wanted live
  refine ite ((cycleNow d).trans ?_) (refl d)
  generalize Machine.cycleNow d = p
  obtain ⟨v, e⟩ := p
  dsimp only
  exact (scribeOffer e _ _).trans (obsOffer _ _ _)

end Traced

section

variable {d : Dev}

/-! ### Raises (R406, R407) -/

/-- The report of a checker that waits in the collector's queue. -/
def queuedRaise (d : Dev) (x : RaiseIn) : Option Raise :=
  d.flt.queue.find? fun q => decide (q.source = x.source.toNat) && decide (q.detail = x.detail.toNat)

theorem faultRaise_absent {x : RaiseIn} (h : srcExists d x.source.toNat = false) : faultRaise d x = d := if_pos h

theorem faultRaise_stopped {x : RaiseIn} (h : queuedRaise d x = none) (hr : srcRuns d x.source.toNat = false) :
    faultRaise d x = d := by
  by_cases he : srcExists d x.source.toNat = false
  · exact if_pos he
  · unfold queuedRaise at h
    refine (if_neg he).trans ?_
    rw [h]
    exact if_pos hr

theorem faultRaise_queued {x : RaiseIn} {q : Raise} (he : srcExists d x.source.toNat = true) (h : queuedRaise d x = some q) :
    faultRaise d x = handleRaise { d with flt := { d.flt with queue := d.flt.queue.erase q } } q := by
  unfold queuedRaise at h
  refine (if_neg (by simp [he])).trans ?_
  rw [h]

/-- A new report of a source in a domain that runs. -/
def NewRaise (d : Dev) (x : RaiseIn) : Prop :=
  srcExists d x.source.toNat = true ∧ queuedRaise d x = none ∧ srcRuns d x.source.toNat = true

theorem faultRaise_monitor {x : RaiseIn} (h : NewRaise d x) (hm : 0x10 ≤ srcCode x.source.toNat ∧ srcCode x.source.toNat ≤ 0x14) :
    faultRaise d x = if d.flt.episodes.contains x.source.toNat then d else
      handleRaise { d with flt := { d.flt with episodes := d.flt.episodes ++ [x.source.toNat] } } ⟨x.source.toNat, 0, false⟩ := by
  obtain ⟨he, hq, hr⟩ := h
  unfold queuedRaise at hq
  refine (if_neg (by simp [he])).trans ?_
  rw [hq]
  exact (if_neg (by simp [hr])).trans (if_pos hm)

theorem faultRaise_checker {x : RaiseIn} (h : NewRaise d x)
    (hm : srcCode x.source.toNat < 0x10 ∨ 0x14 < srcCode x.source.toNat) :
    faultRaise d x = handleRaise (unitEffect (takeInjection d x.source.toNat).2 x (takeInjection d x.source.toNat).1)
      ⟨x.source.toNat, x.detail.toNat, (takeInjection d x.source.toNat).1⟩ := by
  obtain ⟨he, hq, hr⟩ := h
  unfold queuedRaise at hq
  refine (if_neg (by simp [he])).trans ?_
  rw [hq]
  exact (if_neg (by simp [hr])).trans (if_neg (by omega))

/-! ### Echoes and the grace timer (R407, R410, R411) -/

theorem judgeEchoes_one {e : Raise × Nat × Nat} (h : d.flt.echoes = [e]) : judgeEchoes d
    = if e.2.2 + 10 ≤ d.bt then judgeEcho { d with flt := { d.flt with echoes := [] } } e.1 e.2.1 else d := by
  have hd : d = { d with flt := { d.flt with echoes := [e] } } := by rw [← h]
  unfold judgeEchoes
  rw [h]
  by_cases hb : e.2.2 + 10 ≤ d.bt
  · simp [hb]
  · simp [hb, ← hd]

theorem graceExpiry_idle (h : d.flt.graceEnd = none) : graceExpiry d = d := by
  unfold graceExpiry
  rw [h]

theorem graceExpiry_early {n : Nat} (h : d.flt.graceEnd = some n) (hn : d.bt < n) : graceExpiry d = d := by
  unfold graceExpiry
  rw [h]
  exact if_pos hn

/-- The escalation recorded: the GRACE record, the source and the time of it. -/
def escalated (d : Dev) : Dev :=
  let d := { d with flt := { d.flt with graceEnd := none } }
  let src := fld d .faultRec recGrace FRec.source
  let d := setFld d .faultRec recGrace FRec.escalated 1
  let d := setFld (setFld d .faultStatus 0 FSt.escSource src) .faultStatus 0 FSt.escalationBt d.bt
  bumpFld d .faultStatus 0 FSt.escalations

/-- The trace record of an escalation. -/
def tracesEscalation (d : Dev) (src : Nat) : Dev :=
  traceFault d 4 ((originNode src).getD codeGrace) src (fld d .faultRec recGrace FRec.cls) (fld d .faultRec recGrace FRec.detail)

theorem traced_tracesEscalation (d : Dev) (src : Nat) : Traced d (tracesEscalation d src) := Traced.trace ..

/-- What follows an escalation outside the FATAL safe state: a device reset. -/
def escalationReset (e : Dev) : Dev := if safe e then e else { e with pwr := { e.pwr with resetDue := some (e.bt, 4) } }

theorem graceExpiry_escalates {n : Nat} (h : d.flt.graceEnd = some n) (hn : n ≤ d.bt) :
    graceExpiry d = escalationReset (tracesEscalation (escalated d) (fld d .faultRec recGrace FRec.source)) := by
  unfold graceExpiry
  rw [h]
  exact if_neg (Nat.not_lt.2 hn)

/-- What an escalation records. -/
structure EscalationOf (d e : Dev) : Prop where
  timer : e.flt.graceEnd = none
  record : fld e .faultRec recGrace FRec.escalated = 1
  since : fld e .faultStatus 0 FSt.escalationBt = d.bt % 2 ^ 64
  safety : safe e = safe d
  pwr : e.pwr = d.pwr
  bt : e.bt = d.bt

theorem EscalationOf.of_traced {e e' : Dev} (h : EscalationOf d e) (t : Traced e e') : EscalationOf d e' where
  timer := by rw [t.flt, h.timer]
  record := by rw [fld, t.grace, ← h.record, fld]
  since := by rw [fld, t.status, ← h.since, fld]
  safety := by rw [← h.safety, safe, flag, fld, t.status, safe, flag, fld]
  pwr := t.pwr.trans h.pwr
  bt := t.bt.trans h.bt

theorem fld_bumpFld_other {k : RecKind} {i : Nat} {f g : Fld} (hf : f.lsb ≤ f.msb + 1) (h : g.msb < f.lsb ∨ f.msb < g.lsb) :
    fld (bumpFld d k i f) k i g = fld d k i g := fld_setFld_other d k i hf h _

theorem fld_bumpFld_record {k l : RecKind} {i j : Nat} (h : l.key j ≠ k.key i) (f g : Fld) :
    fld (bumpFld d k i f) l j g = fld d l j g := fld_setFld_record d k i h f g _

/-- The status block after an escalation. -/
def escalatedStatus (d : Dev) (src : Nat) : Dev :=
  bumpFld (setFld (setFld d .faultStatus 0 FSt.escSource src) .faultStatus 0 FSt.escalationBt d.bt) .faultStatus 0 FSt.escalations

theorem fld_escalatedStatus_other {src : Nat} {g : Fld} (h : 223 < g.lsb) :
    fld (escalatedStatus d src) .faultStatus 0 g = fld d .faultStatus 0 g := by
  unfold escalatedStatus
  rw [fld_bumpFld_other (by decide) (.inr h), fld_setFld_other _ _ _ (by decide) (.inr (by show 63 < _; omega)),
    fld_setFld_other _ _ _ (by decide) (.inr (by show 207 < _; omega))]

theorem fld_escalatedStatus_record {src : Nat} {l : RecKind} {j : Nat} {g : Fld} (h : l.key j ≠ RecKind.faultStatus.key 0) :
    fld (escalatedStatus d src) l j g = fld d l j g := by
  unfold escalatedStatus
  rw [fld_bumpFld_record h, fld_setFld_record _ _ _ h, fld_setFld_record _ _ _ h]

theorem fld_escalatedStatus_bt {src : Nat} : fld (escalatedStatus d src) .faultStatus 0 FSt.escalationBt = d.bt % 2 ^ 64 := by
  unfold escalatedStatus
  rw [fld_bumpFld_other (by decide) (.inl (by decide)), fld_setFld_same _ _ _ (by decide)]
  rfl

theorem escalatedStatus_keeps {src : Nat} : (escalatedStatus d src).flt = d.flt ∧ (escalatedStatus d src).pwr = d.pwr
    ∧ (escalatedStatus d src).bt = d.bt := by
  unfold escalatedStatus
  refine ⟨?_, ?_, ?_⟩
  · rw [bumpFld_flt, setFld_flt, setFld_flt]
  · rw [bumpFld_pwr, setFld_pwr, setFld_pwr]
  · rw [bumpFld_bt, setFld_bt, setFld_bt]

/-- The GRACE record marked as escalated, its timer at rest. -/
def markEscalated (d : Dev) : Dev := setFld { d with flt := { d.flt with graceEnd := none } } .faultRec recGrace FRec.escalated 1

theorem escalated_eq : escalated d = escalatedStatus (markEscalated d) (fld d .faultRec recGrace FRec.source) := rfl

theorem escalationOf_escalated : EscalationOf d (escalated d) := by
  obtain ⟨hf, hp, hb⟩ := escalatedStatus_keeps (d := markEscalated d) (src := fld d .faultRec recGrace FRec.source)
  have hmb : (markEscalated d).bt = d.bt := setFld_bt ..
  rw [escalated_eq]
  refine ⟨?_, ?_, ?_, ?_, hp.trans (setFld_pwr ..), hb.trans hmb⟩
  · rw [hf, markEscalated, setFld_flt]
  · rw [fld_escalatedStatus_record (by decide), markEscalated, fld_setFld_same _ _ _ (by decide)]
    rfl
  · rw [fld_escalatedStatus_bt, hmb]
  · unfold safe flag
    rw [fld_escalatedStatus_other (by decide), markEscalated, fld_setFld_record _ _ _ (by decide)]
    rfl

theorem EscalationOf.reset {e : Dev} (he : EscalationOf d e) : (escalationReset e).flt.graceEnd = none
    ∧ fld (escalationReset e) .faultRec recGrace FRec.escalated = 1
    ∧ fld (escalationReset e) .faultStatus 0 FSt.escalationBt = d.bt % 2 ^ 64
    ∧ (escalationReset e).pwr.resetDue = if safe d then d.pwr.resetDue else some (d.bt, 4) := by
  unfold escalationReset
  rw [he.safety]
  by_cases hs : safe d = true
  · rw [if_pos hs, if_pos hs]
    exact ⟨he.timer, he.record, he.since, by rw [he.pwr]⟩
  · rw [if_neg hs, if_neg hs]
    exact ⟨he.timer, he.record, he.since, by rw [he.bt]⟩

theorem graceExpiry_ends {n : Nat} (h : d.flt.graceEnd = some n) (hn : n ≤ d.bt) :
    (graceExpiry d).flt.graceEnd = none ∧ fld (graceExpiry d) .faultRec recGrace FRec.escalated = 1
      ∧ fld (graceExpiry d) .faultStatus 0 FSt.escalationBt = d.bt % 2 ^ 64
      ∧ (graceExpiry d).pwr.resetDue = if safe d then d.pwr.resetDue else some (d.bt, 4) := by
  rw [graceExpiry_escalates h hn]
  exact (escalationOf_escalated.of_traced (traced_tracesEscalation _ _)).reset

end

section

variable {s : State}

theorem faultRaiseEvents (h : s.dev.pwr.aonUp = true) (x : RaiseIn) (hn : NewRaise s.dev x) :
    (0x10 ≤ srcCode x.source.toNat ∧ srcCode x.source.toNat ≤ 0x14 →
      onlyIf (x.source.toNat ∉ s.dev.flt.episodes) (exec (.faultRaise x) s) s fun d =>
        handleRaise { d with flt := { d.flt with episodes := d.flt.episodes ++ [x.source.toNat] } } ⟨x.source.toNat, 0, false⟩)
    ∧ (srcCode x.source.toNat < 0x10 ∨ 0x14 < srcCode x.source.toNat →
      (0 < injectRemain s.dev x.source.toNat ∧ modeFits s.dev x.source.toNat = true →
        becomes (exec (.faultRaise x) s) s fun d =>
          handleRaise (unitEffect (setFld d .faultSrc (checkerOf x.source.toNat) FSrc.injectRemain
            (injectRemain s.dev x.source.toNat - 1)) x true) ⟨x.source.toNat, x.detail.toNat, true⟩)
      ∧ (¬ (0 < injectRemain s.dev x.source.toNat ∧ modeFits s.dev x.source.toNat = true) →
        becomes (exec (.faultRaise x) s) s fun d =>
          handleRaise (unitEffect d x false) ⟨x.source.toNat, x.detail.toNat, false⟩)) := by
  refine ⟨fun hm => ?_, fun hm => ⟨fun hi => ?_, fun hi => ?_⟩⟩
  · have hr := faultRaise_monitor (d := fresh s.dev) hn hm
    exact onlyIf_event (f := fun d => faultRaise d x) h
      (fun hc => hr.trans (if_neg fun hl => hc (List.contains_iff_mem.1 hl)))
      fun hc => hr.trans (if_pos (List.contains_iff_mem.2 (Classical.not_not.1 hc)))
  · refine becomes_event (f := fun d => faultRaise d x) h ((faultRaise_checker (d := fresh s.dev) hn hm).trans ?_)
    rw [show takeInjection (fresh s.dev) x.source.toNat = _ from if_pos hi]
    rfl
  · refine becomes_event (f := fun d => faultRaise d x) h ((faultRaise_checker (d := fresh s.dev) hn hm).trans ?_)
    rw [show takeInjection (fresh s.dev) x.source.toNat = _ from if_neg hi]

end

/-- Settles O45: each event is taken through the branches of its one function; the trace record of an escalation leaves the
collector and the power state as they are. -/
theorem faultEvents : Obligations.FaultEvents := by
  refine fun s h => ⟨fun x => ⟨fun hn => ?_, fun he => ⟨fun q hq => ?_, fun hq hr => faultRaiseEvents h x ⟨he, hq, hr⟩⟩⟩, ?_,
    fun e hs => ⟨fun hb => ?_, fun hb => ?_⟩, fun hg => ?_, fun n hg => ⟨fun hn => ?_, fun hn => ?_⟩, fun es => ?_⟩
  · refine rests_event (f := fun d => faultRaise d x) h ?_
    obtain he | ⟨hq, hr⟩ := hn
    · exact faultRaise_absent (d := fresh s.dev) he
    · exact faultRaise_stopped (d := fresh s.dev) hq hr
  · exact becomes_event (f := fun d => faultRaise d x) h (faultRaise_queued (d := fresh s.dev) he hq)
  · exact becomes_event (f := judgeEchoes) h rfl
  · exact rests_event (f := judgeEchoes) h ((judgeEchoes_one (d := fresh s.dev) hs).trans (if_neg (Nat.not_le.2 hb)))
  · exact becomes_event (f := judgeEchoes) h ((judgeEchoes_one (d := fresh s.dev) hs).trans (if_pos hb))
  · exact rests_event (f := graceExpiry) h (graceExpiry_idle (d := fresh s.dev) hg)
  · exact rests_event (f := graceExpiry) h (graceExpiry_early (d := fresh s.dev) hg hn)
  · exact acts_event (f := graceExpiry) h (graceExpiry_ends (d := fresh s.dev) hg hn)
  · exact onlyIf_gated (run := fastRuns) (f := fun d => scrubPass d es) h id (fun _ => rfl) fun hr hn => absurd hr hn

end Sys2Proof.Machine

/-! R216–R219: the changes of a key ring at their edges. -/

namespace Sys2Proof.Machine

open Sys2Proof

/-- The changes of key rings that wait for their edges. -/
def ringEdges (d : Dev) : List (Nat × RoleEdge) := d.nts.edges

section

variable {d : Dev}

theorem ringEdges_respond (op : Nat) (m : Msg) (st : Status) (pl : List Byte) (es : List ClampEntry) :
    ringEdges (respond d op m st pl es) = ringEdges d := by
  obtain ⟨⟨M, S, F, O, h⟩, -⟩ := butDoor_respond (butDoor_refl d m) op st pl es
  rw [h]
  rfl

theorem ringEdges_complete (f : Fn) (k : Nat) (st : Status) (pl : List Byte) (es : List ClampEntry) :
    ringEdges (complete d f k st pl es) = ringEdges d := by
  unfold complete
  extract_lets x
  split
  · rfl
  · split
    · rfl
    · split
      · rfl
      · exact ringEdges_respond ..

theorem ringEdges_setFld (k : RecKind) (i : Nat) (f : Fld) (v : Nat) : ringEdges (setFld d k i f v) = ringEdges d :=
  congrArg NtsState.edges (setFld_nts ..)

theorem ringEdges_answerRing (t : Nat) (who : Option (Fn × Nat)) (st : Status) (tail : List Byte) :
    ringEdges (answerRing d t who st tail) = ringEdges d := by
  unfold answerRing
  split
  · exact ringEdges_complete ..
  · rfl

theorem ringEdges_applyInstall {t keyId origin key : Nat} {rotate : Bool} {e : Dev}
    (h : applyInstall d t keyId origin key rotate = some e) : ringEdges e = ringEdges d := by
  unfold applyInstall at h
  split at h
  · cases h
  · cases h
    rfl

theorem ringEdges_applyPromote {t id : Nat} {e : Dev} (h : applyPromote d t id = some e) : ringEdges e = ringEdges d := by
  unfold applyPromote at h
  split at h
  · cases h
  · cases h
    refine (ringEdges_setFld ..).trans ((ringEdges_setFld ..).trans ?_)
    refine foldl_keeps (p := ringEdges) (step := fun d i =>
      if getF (ringEntry d t i) KeyR.role = 3 then setFld d .keyRing (ringSlot t i) KeyR.role 2 else d) _ (fun d i _ => ?_) d
    split
    · exact ringEdges_setFld ..
    · rfl

theorem ringEdges_applyRingClear (t : Nat) : ringEdges (applyRingClear d t) = ringEdges d := by
  unfold applyRingClear
  extract_lets n
  exact foldl_keeps (p := ringEdges) (step := fun d s =>
    let e := setPendingKey (setRec d .keyRing (ringSlot t s) 0) (ringSlot t s) none
    { e with nts := { e.nts with zeroize := e.nts.zeroize ++ [(n, ringSlot t s)] } }) _ (fun _ _ _ => rfl) d

theorem ringEdges_applyRole (op : RoleEdge) : ringEdges (applyRole d op) = ringEdges d := by
  cases op with
  | install t id origin key rotate f door =>
    unfold applyRole
    dsimp only
    generalize (if origin = 1 then importRefusal d t id else 0) = refusal
    by_cases hr : refusal ≠ 0
    · rw [if_pos hr]
      exact ringEdges_complete ..
    · rw [if_neg hr]
      cases he : applyInstall d t id origin key rotate with
      | some e => exact (ringEdges_answerRing ..).trans (ringEdges_applyInstall he)
      | none => exact ringEdges_answerRing ..
  | promote t id f door =>
    unfold applyRole
    dsimp only
    split
    next e he => exact (ringEdges_answerRing ..).trans (ringEdges_applyPromote he)
    next => exact ringEdges_answerRing ..
  | clear t who => exact (ringEdges_answerRing ..).trans (ringEdges_applyRingClear t)

/-- Making the changes of an edge schedules none. -/
theorem ringEdges_roleEdge (t : Nat) : ringEdges (roleEdge d t)
    = d.nts.edges.filter fun e => !(decide (e.1 ≤ d.bt) && decide (e.2.tenant = t)) :=
  foldl_keeps (p := ringEdges) (step := fun d (e : Nat × RoleEdge) => applyRole d e.2)
    (d.nts.edges.filter fun e => decide (e.1 ≤ d.bt) && decide (e.2.tenant = t)) (fun _ e _ => ringEdges_applyRole e.2)
    { d with nts := { d.nts with edges := d.nts.edges.filter fun e => !(decide (e.1 ≤ d.bt) && decide (e.2.tenant = t)) } }

theorem keyUsable_none {t k : Nat} (h : Tab.get none d.nts.pendingKeys (ringSlot t k) = none) : keyUsable d t k = d := by
  unfold keyUsable
  extract_lets i
  rw [h]

theorem keyUsable_pending {t k : Nat} {p : PendingKey} (h : Tab.get none d.nts.pendingKeys (ringSlot t k) = some p) :
    keyUsable d t k = if fld d .keyRing (ringSlot t k) KeyR.role = 1
        ∧ fld d .keyRing (ringSlot t k) KeyR.usableBt ≤ d.bt then
      let e := setFld (setMaster (setPendingKey d (ringSlot t k) none) (ringSlot t k) p.key
        (cookieS2v (beBytes 32 p.key) (fld d .keyRing (ringSlot t k) KeyR.keyId))) .keyRing (ringSlot t k) KeyR.role 2
      if p.promote then (applyPromote e t (fld e .keyRing (ringSlot t k) KeyR.keyId)).getD e else e
    else d := by
  unfold keyUsable
  extract_lets i
  rw [h]

end

/-- Settles O46: no change made at an edge schedules another. -/
theorem keyRingEvents : Obligations.KeyRingEvents := by
  refine fun s h => ⟨fun t => ⟨?_, ?_⟩, fun t k => ⟨fun hp => ?_, fun p hp => ?_⟩⟩
  · exact becomes_event (f := fun d => roleEdge d t.val) h rfl
  · exact acts_event (f := fun d => roleEdge d t.val) h (ringEdges_roleEdge (d := fresh s.dev) t.val)
  · exact rests_event (f := fun d => keyUsable d t.val k.val) h (keyUsable_none (d := fresh s.dev) hp)
  · have hk := keyUsable_pending (d := fresh s.dev) hp
    exact onlyIf_event (f := fun d => keyUsable d t.val k.val) h (fun hc => hk.trans (if_pos hc)) fun hc => hk.trans (if_neg hc)

end Sys2Proof.Machine

/-! R87, R91, R92, R106–R108, R117, R480: the events of a port's link and of its pauses. -/

namespace Sys2Proof.Machine

open Sys2Proof

/-! ### What a link event leaves beside the port -/

/-- A device that counts, traces, raises and messages may have left: the ports and the records up to their status are as
they were. -/
structure LinkKept (d e : Dev) : Prop where
  bt : e.bt = d.bt
  variant : e.variant = d.variant
  ports : e.ports = d.ports
  recs : ∀ r j, j < 8 * 2 ^ 24 → Tab.get r e.recs j = Tab.get r d.recs j

namespace LinkKept

variable {a b c d : Dev}

theorem refl (d : Dev) : LinkKept d d := ⟨rfl, rfl, rfl, fun _ _ _ => rfl⟩

theorem trans (h : LinkKept a b) (g : LinkKept b c) : LinkKept a c :=
  ⟨g.bt.trans h.bt, g.variant.trans h.variant, g.ports.trans h.ports, fun r j hj => (g.recs r j hj).trans (h.recs r j hj)⟩

theorem ite {p : Prop} [Decidable p] (hb : LinkKept a b) (hc : LinkKept a c) : LinkKept a (if p then b else c) := by
  split
  · exact hb
  · exact hc

theorem foldl {α : Type} {f : Dev → α → Dev} (hf : ∀ d x, LinkKept d (f d x)) (l : List α) (d : Dev) :
    LinkKept d (l.foldl f d) := by
  induction l generalizing d with
  | nil => exact refl d
  | cons x l ih => exact (hf d x).trans (ih _)

theorem getRec (h : LinkKept a b) {k : RecKind} (hk : k.code ≤ 7) {i : Nat} (hi : i < 2 ^ 24) :
    Machine.getRec b k i = Machine.getRec a k i := by
  unfold Machine.getRec
  rw [h.variant]
  refine h.recs _ _ ?_
  show k.code * 2 ^ 24 + i < _
  omega

theorem fld (h : LinkKept a b) {k : RecKind} (hk : k.code ≤ 7) {i : Nat} (hi : i < 2 ^ 24) (f : Fld) :
    Machine.fld b k i f = Machine.fld a k i f := congrArg (getF · f) (h.getRec hk hi)

theorem getPort (h : LinkKept a b) (p : Nat) : Machine.getPort b p = Machine.getPort a p :=
  congrArg (Tab.get PortSt.reset · p) h.ports

theorem setRec (d : Dev) {k : RecKind} (hk : 8 ≤ k.code) (i v : Nat) : LinkKept d (Machine.setRec d k i v) := by
  refine ⟨rfl, rfl, rfl, fun r j hj => Tab.get_set_other _ _ _ _ _ _ ?_⟩
  show j ≠ k.code * 2 ^ 24 + i
  omega

theorem setFld (d : Dev) {k : RecKind} (hk : 8 ≤ k.code) (i : Nat) (f : Fld) (v : Nat) :
    LinkKept d (Machine.setFld d k i f v) := setRec d hk i _

theorem bumpFld (d : Dev) {k : RecKind} (hk : 8 ≤ k.code) (i : Nat) (f : Fld) : LinkKept d (Machine.bumpFld d k i f) :=
  setRec d hk i _

theorem obs (d : Dev) (o : ObsState) : LinkKept d { d with obs := o } := ⟨rfl, rfl, rfl, fun _ _ _ => rfl⟩

theorem emit (d : Dev) (x : Emission) : LinkKept d (Machine.emit d x) := ⟨rfl, rfl, rfl, fun _ _ _ => rfl⟩

theorem draw (d : Dev) : LinkKept d (Machine.draw d).2 := ⟨rfl, rfl, rfl, fun _ _ _ => rfl⟩

theorem cycleNow (d : Dev) : LinkKept d (Machine.cycleNow d).2 := (draw d).trans (obs _ _)

theorem host (d : Dev) (x : HostState) : LinkKept d { d with host := x } := ⟨rfl, rfl, rfl, fun _ _ _ => rfl⟩

theorem flt (d : Dev) (x : FltState) : LinkKept d { d with flt := x } := ⟨rfl, rfl, rfl, fun _ _ _ => rfl⟩

theorem bumpStat (d : Dev) (k : StatKind) (i n w m : Nat) : LinkKept d (Machine.bumpStat d k i n w m) :=
  ⟨rfl, rfl, rfl, fun _ _ _ => rfl⟩

theorem bumpPort (d : Dev) (p n : Nat) : LinkKept d (Machine.bumpPort d p n) := bumpStat d .port p n 64 1

theorem raise (d : Dev) (id : Nat) : LinkKept d (Machine.raise d id) :=
  ite ((bumpStat d .fault id 0 16 1).trans (flt _ _)) (flt d _)

/-! Messages to the hosts. -/

theorem sendMsix (d : Dev) (f : Fn) (v : Nat) : LinkKept d (Machine.sendMsix d f v) :=
  ite (refl d) (ite (host d _) (emit d _))

theorem summaryRise (d : Dev) (e : Nat) : LinkKept d (Machine.summaryRise d e) :=
  ite (host d _) (ite (sendMsix d _ _) ((sendMsix d _ _).trans (host _ _)))

theorem vfMessage (d : Dev) (e v : Nat) : LinkKept d (Machine.vfMessage d e v) := by
  unfold Machine.vfMessage
  split
  · exact ite (sendMsix d _ _) (refl d)
  · exact refl d

theorem setEventBits (d : Dev) (e v bits : Nat) : LinkKept d (Machine.setEventBits d e v bits) := by
  unfold Machine.setEventBits
  extract_lets old new d₁ d₂ s
  have h : LinkKept d d₂ := ite ((setRec d (by decide) _ _).trans (summaryRise d₁ e)) (setRec d (by decide) _ _)
  exact ite (refl d) (ite (h.trans (host d₂ _)) (ite (h.trans (vfMessage d₂ e v)) h))

theorem tenantEvent (d : Dev) (ts : List Nat) (bits : Nat) : LinkKept d (Machine.tenantEvent d ts bits) :=
  foldl (f := fun d t => Machine.setEventBits d (tenantEp d t) (tenantVf d t) bits) (fun d _ => setEventBits d _ _ _) _ d

/-! Trace records. -/

theorem setSegList (d : Dev) (i : Nat) (l : List Nat) : LinkKept d (Machine.setSegList d i l) :=
  (obs d _).trans (setFld _ (by decide) i _ _)

theorem scribeStore (d : Dev) (r : Nat) : LinkKept d (Machine.scribeStore d r) :=
  ite (setSegList d _ _) (ite ((obs d _).trans (setSegList _ _ _)) (refl d))

theorem scribeOffer (d : Dev) (time : Nat) (bs : List Byte) : LinkKept d (Machine.scribeOffer d time bs) := by
  unfold Machine.scribeOffer
  refine ite ((draw d).trans ?_) (refl d)
  generalize Machine.draw d = p
  obtain ⟨v, e⟩ := p
  dsimp only
  refine ite ((obs e _).trans (bumpFld _ (by decide) 0 _)) ?_
  exact (ite (refl e) ((scribeStore e _).trans (obs _ _))).trans (scribeStore _ _)

theorem obsOffer (d : Dev) (time : Nat) (bs : List Byte) : LinkKept d (Machine.obsOffer d time bs) := by
  unfold Machine.obsOffer
  refine ite ((draw d).trans ?_) (refl d)
  generalize Machine.draw d = p
  obtain ⟨v, e⟩ := p
  dsimp only
  refine ite ((obs e _).trans (bumpFld _ (by decide) 0 _)) ?_
  exact (ite (refl e) ((emit e _).trans (obs _ _))).trans (emit _ _)

theorem traceMac (d : Dev) (sub p queue code len value : Nat) : LinkKept d (Machine.traceMac d sub p queue code len value) := by
  refine ite ?_ (refl d)
  unfold Machine.trace
  extract_lets wanted live
  refine ite ((cycleNow d).trans ?_) (refl d)
  generalize Machine.cycleNow d = p
  obtain ⟨v, e⟩ := p
  dsimp only
  exact (scribeOffer e _ _).trans (obsOffer _ _ _)

theorem scribeTrigger (d : Dev) (cause id : Nat) : LinkKept d (Machine.scribeTrigger d cause id) := by
  unfold Machine.scribeTrigger
  extract_lets st i d₁ d₂ d₃ src d₄
  have h₃ : LinkKept d d₃ :=
    ((setFld d (by decide) i _ _).trans (setFld d₁ (by decide) i _ _)).trans (setFld d₂ (by decide) i _ _)
  have h₄ : LinkKept d d₄ := (h₃.trans (obs d₃ _)).trans (setFld _ (by decide) 0 _ _)
  refine ite ((h₄.trans (cycleNow d₄)).trans ?_) (ite (bumpFld d (by decide) 0 _) (refl d))
  generalize Machine.cycleNow d₄ = p
  obtain ⟨v, e⟩ := p
  exact scribeStore e _

theorem autoTrigger (d : Dev) (b cause id : Nat) : LinkKept d (Machine.autoTrigger d b cause id) :=
  ite (scribeTrigger d cause id) (refl d)

end LinkKept

section

variable {d : Dev} {p : Nat}

/-! ### The link of a port -/

theorem getPort_setFld (k : RecKind) (i : Nat) (f : Fld) (v q : Nat) : getPort (setFld d k i f v) q = getPort d q :=
  congrArg (Tab.get PortSt.reset · q) (setFld_ports ..)

/-- A link state set: the record of the port's status with it, and what follows it. -/
theorem linkKept_setLink (s : Nat) : setLink d p s = d ∧ linkState d p = s
    ∨ LinkKept (setFld d .portStatus p PrtSt.linkState s) (setLink d p s) := by
  unfold setLink
  extract_lets old d₁ d₂ d₃
  by_cases h : old = s
  · exact .inl ⟨if_pos h, h⟩
  · rw [if_neg h]
    have h₃ : LinkKept d₁ d₃ :=
      (LinkKept.traceMac d₁ 2 p 0 s 0 0).trans (.ite (.autoTrigger d₂ 3 5 0) (.refl d₂))
    exact .inr (.ite (h₃.trans (.tenantEvent d₃ _ _)) h₃)

theorem linkState_setLink (hp : p < 2 ^ 24) {s : Nat} (hs : s < 8) : linkState (setLink d p s) p = s := by
  obtain ⟨h, hl⟩ | h := linkKept_setLink (d := d) (p := p) s
  · rw [h, hl]
  · unfold linkState
    rw [h.fld (by decide) hp, fld_setFld_same _ _ _ (by decide)]
    exact Nat.mod_eq_of_lt hs

/-- Another field of the status record. -/
theorem fld_setLink (hp : p < 2 ^ 24) {s : Nat} {g : Fld} (hg : g.msb < 253) :
    fld (setLink d p s) .portStatus p g = fld d .portStatus p g := by
  obtain ⟨h, -⟩ | h := linkKept_setLink (d := d) (p := p) s
  · rw [h]
  · rw [h.fld (by decide) hp, fld_setFld_other _ _ _ (by decide) (.inl hg)]

theorem getPort_setLink (s q : Nat) : getPort (setLink d p s) q = getPort d q := by
  obtain ⟨h, -⟩ | h := linkKept_setLink (d := d) (p := p) s
  · rw [h]
  · rw [h.getPort, getPort_setFld]

theorem sendFault_keeps (on : Bool) : (sendFault d p on).bt = d.bt ∧ (sendFault d p on).variant = d.variant
    ∧ (sendFault d p on).recs = d.recs := by
  unfold sendFault
  extract_lets x
  split
  · exact ⟨rfl, rfl, rfl⟩
  · exact ⟨rfl, rfl, rfl⟩

theorem fld_sendFault (on : Bool) (k : RecKind) (i : Nat) (f : Fld) : fld (sendFault d p on) k i f = fld d k i f := by
  obtain ⟨-, hv, hr⟩ := sendFault_keeps (d := d) (p := p) on
  rw [fld, getRec, hv, hr, fld, getRec]

theorem getPort_sendFault (on : Bool) : getPort (sendFault d p on) p = { getPort d p with sendsFault := on } := by
  unfold sendFault
  extract_lets x
  split
  next h => rw [← h]
  next => exact getPort_setPort_same _ _ _

/-! ### Lock loss -/

/-- The device without the locks that a loss takes. -/
def locksTaken (d : Dev) (p mine : Nat) : Dev :=
  setFld (setFld (setFld d .portStatus p PrtSt.laneLock
    (fld d .portStatus p PrtSt.laneLock - (fld d .portStatus p PrtSt.laneLock &&& mine))) .portStatus p PrtSt.alignLock 0)
    .portStatus p PrtSt.fecLock 0

theorem fld_locksTaken_lane (mine : Nat) : fld (locksTaken d p mine) .portStatus p PrtSt.laneLock
    = fld d .portStatus p PrtSt.laneLock - (fld d .portStatus p PrtSt.laneLock &&& mine) := by
  unfold locksTaken
  rw [fld_setFld_other _ _ _ (by decide) (.inr (by decide)), fld_setFld_other _ _ _ (by decide) (.inr (by decide)),
    fld_setFld_same _ _ _ (by decide)]
  exact Nat.mod_eq_of_lt ((Nat.sub_le _ _).trans_lt (Nat.mod_lt _ (by decide)))

theorem fld_locksTaken_align (mine : Nat) : fld (locksTaken d p mine) .portStatus p PrtSt.alignLock = 0 := by
  unfold locksTaken
  rw [fld_setFld_other _ _ _ (by decide) (.inr (by decide)), fld_setFld_same _ _ _ (by decide)]
  rfl

theorem fld_locksTaken_fec (mine : Nat) : fld (locksTaken d p mine) .portStatus p PrtSt.fecLock = 0 := by
  unfold locksTaken
  rw [fld_setFld_same _ _ _ (by decide)]
  rfl

theorem fld_locksTaken_link (mine : Nat) : fld (locksTaken d p mine) .portStatus p PrtSt.linkState
    = fld d .portStatus p PrtSt.linkState := by
  unfold locksTaken
  rw [fld_setFld_other _ _ _ (by decide) (.inr (by decide)), fld_setFld_other _ _ _ (by decide) (.inr (by decide)),
    fld_setFld_other _ _ _ (by decide) (.inr (by decide))]

theorem getPort_locksTaken (mine : Nat) : getPort (locksTaken d p mine) p = getPort d p := by
  unfold locksTaken
  rw [getPort_setFld, getPort_setFld, getPort_setFld]

theorem locksTaken_bt (mine : Nat) : (locksTaken d p mine).bt = d.bt := by
  unfold locksTaken
  rw [setFld_bt, setFld_bt, setFld_bt]

/-- The loss in progress begins with the first lock lost. -/
def lossStarted (d : Dev) (p : Nat) : Dev :=
  if (getPort d p).lossFrom.isNone then setPort d p { getPort d p with lossFrom := some d.bt } else d

theorem lossStarted_recs : (lossStarted d p).recs = d.recs ∧ (lossStarted d p).variant = d.variant := by
  unfold lossStarted
  split
  · exact ⟨rfl, rfl⟩
  · exact ⟨rfl, rfl⟩

theorem fld_lossStarted (k : RecKind) (i : Nat) (f : Fld) : fld (lossStarted d p) k i f = fld d k i f := by
  rw [fld, getRec, lossStarted_recs.1, lossStarted_recs.2, fld, getRec]

theorem getPort_lossStarted : getPort (lossStarted d p) p
    = { getPort d p with lossFrom := some ((getPort d p).lossFrom.getD d.bt) } := by
  unfold lossStarted
  cases h : (getPort d p).lossFrom with
  | none => exact getPort_setPort_same _ _ _
  | some n => exact congrArg (fun l => { getPort d p with lossFrom := l }) h

/-- What a lock loss counts and raises. -/
def lossReported (d : Dev) (p mine cdr : Nat) (inFrame : Bool) : Dev :=
  let d₁ := setPort d p { getPort d p with rxCur := none }
  let d₂ := if (inFrame || (getPort d p).rxCur.isSome) = true ∧ linkUp d₁ p then bumpPort d₁ p 7 else d₁
  (List.range 8).foldl (fun d l => if bit (mine &&& cdr) l then raise d (srcId 0x30 (p / 8 * 8 + l)) else d) d₂

theorem linkKept_lossReported (mine cdr : Nat) (inFrame : Bool) :
    LinkKept (setPort d p { getPort d p with rxCur := none }) (lossReported d p mine cdr inFrame) := by
  unfold lossReported
  extract_lets src d₁ d₂
  have h₂ : LinkKept d₁ d₂ := .ite (.bumpPort d₁ p 7) (.refl d₁)
  exact h₂.trans (.foldl (f := fun d l => if bit (mine &&& cdr) l then raise d (srcId 0x30 (p / 8 * 8 + l)) else d)
    (fun d l => .ite (.raise d _) (.refl d)) _ d₂)

/-- A port without locks sends Remote Fault, and leaves REMOTE_FAULT. -/
def lossSignalled (d : Dev) (p : Nat) : Dev :=
  if linkState (sendFault d p true) p = 4 then setLink (sendFault d p true) p 1 else sendFault d p true

theorem lockLoss_eq {lanes cdr : Nat} {inFrame : Bool} : lockLoss d p lanes cdr inFrame
    = if (!portStarts d p) = true ∨ lanes &&& laneBits d p = 0 then d
      else lossSignalled (lossStarted (locksTaken (lossReported d p (lanes &&& laneBits d p) cdr inFrame) p
        (lanes &&& laneBits d p)) p) p := rfl

theorem lossSignalled_link (hp : p < 2 ^ 24) :
    linkState (lossSignalled d p) p = if linkState d p = 4 then 1 else linkState d p := by
  have hl : linkState (sendFault d p true) p = linkState d p := fld_sendFault ..
  unfold lossSignalled
  rw [hl]
  split
  · exact linkState_setLink hp (by decide)
  · exact hl

theorem fld_lossSignalled (hp : p < 2 ^ 24) {g : Fld} (hg : g.msb < 253) :
    fld (lossSignalled d p) .portStatus p g = fld d .portStatus p g := by
  unfold lossSignalled
  split
  · rw [fld_setLink hp hg, fld_sendFault]
  · exact fld_sendFault ..

theorem getPort_lossSignalled : getPort (lossSignalled d p) p = { getPort d p with sendsFault := true } := by
  unfold lossSignalled
  split
  · rw [getPort_setLink, getPort_sendFault]
  · exact getPort_sendFault _

theorem lockLoss_loses (hp : p < 2 ^ 24) {lanes cdr : Nat} {inFrame : Bool} (hs : portStarts d p = true)
    (hm : lanes &&& laneBits d p ≠ 0) :
    fld (lockLoss d p lanes cdr inFrame) .portStatus p PrtSt.laneLock
        = fld d .portStatus p PrtSt.laneLock - (fld d .portStatus p PrtSt.laneLock &&& (lanes &&& laneBits d p))
      ∧ fld (lockLoss d p lanes cdr inFrame) .portStatus p PrtSt.alignLock = 0
      ∧ fld (lockLoss d p lanes cdr inFrame) .portStatus p PrtSt.fecLock = 0
      ∧ (getPort (lockLoss d p lanes cdr inFrame) p).lossFrom = some ((getPort d p).lossFrom.getD d.bt)
      ∧ (getPort (lockLoss d p lanes cdr inFrame) p).rxCur = none
      ∧ (getPort (lockLoss d p lanes cdr inFrame) p).sendsFault = true
      ∧ linkState (lockLoss d p lanes cdr inFrame) p = if linkState d p = 4 then 1 else linkState d p := by
  rw [lockLoss_eq, if_neg (by simp [hs, hm])]
  have hk := linkKept_lossReported (d := d) (p := p) (lanes &&& laneBits d p) cdr inFrame
  generalize lossReported d p (lanes &&& laneBits d p) cdr inFrame = e at hk ⊢
  have hf (g : Fld) : fld e .portStatus p g = fld d .portStatus p g := hk.fld (by decide) hp g
  have hg : getPort e p = { getPort d p with rxCur := none } := (hk.getPort p).trans (getPort_setPort_same _ _ _)
  have hb : e.bt = d.bt := hk.bt
  have hport : getPort (lossSignalled (lossStarted (locksTaken e p (lanes &&& laneBits d p)) p) p) p
      = { getPort d p with rxCur := none, lossFrom := some ((getPort d p).lossFrom.getD d.bt), sendsFault := true } := by
    rw [getPort_lossSignalled, getPort_lossStarted, getPort_locksTaken, locksTaken_bt, hg, hb]
  rw [hport]
  refine ⟨?_, ?_, ?_, rfl, rfl, rfl, ?_⟩
  · rw [fld_lossSignalled hp (by decide), fld_lossStarted, fld_locksTaken_lane, hf]
  · rw [fld_lossSignalled hp (by decide), fld_lossStarted, fld_locksTaken_align]
  · rw [fld_lossSignalled hp (by decide), fld_lossStarted, fld_locksTaken_fec]
  · have hl : linkState (lossStarted (locksTaken e p (lanes &&& laneBits d p)) p) p = linkState d p := by
      unfold linkState
      rw [fld_lossStarted, fld_locksTaken_link, hf]
    rw [lossSignalled_link hp, hl]

/-! ### Locks -/

theorem getPort_setLocks : getPort (setLocks d p) p = { getPort d p with lossFrom := none, sendsFault := false } := by
  unfold setLocks
  extract_lets x e
  rw [getPort_sendFault, getPort_setFld, getPort_setFld, getPort_setFld]
  exact congrArg (fun x : PortSt => { x with sendsFault := false }) (getPort_setPort_same _ _ _)

theorem setLocks_bt : (setLocks d p).bt = d.bt := by
  unfold setLocks
  extract_lets x e
  rw [(sendFault_keeps false).1, setFld_bt, setFld_bt, setFld_bt]
  rfl

theorem fld_setLocks_align : fld (setLocks d p) .portStatus p PrtSt.alignLock = 1 := by
  unfold setLocks
  extract_lets x e
  rw [fld_sendFault, fld_setFld_other _ _ _ (by decide) (.inr (by decide)), fld_setFld_same _ _ _ (by decide)]
  rfl

theorem getPort_fullLock (skew : List Int) : getPort (fullLock d p skew) p
    = { getPort d p with lossFrom := none, sendsFault := false, remoteFrom := none, skew := skew } :=
  (getPort_setPort_same _ _ _).trans (congrArg (fun x : PortSt => { x with remoteFrom := none, skew := skew }) getPort_setLocks)

theorem fld_fullLock_align (skew : List Int) : fld (fullLock d p skew) .portStatus p PrtSt.alignLock = 1 :=
  fld_setLocks_align (d := d) (p := p)

/-! ### Link up and down -/

/-- A port may come up: it starts, its PLL is locked, and its link is down. -/
def MayRise (d : Dev) (p : Nat) : Prop := portStarts d p = true ∧ serdesUp d p = true ∧ linkUp d p = false

theorem linkComesUp_idle {skew : List Int} (h : ¬ MayRise d p) : linkComesUp d p skew = d := by
  refine if_pos (Classical.not_not.1 fun hneg => h ?_)
  simpa [MayRise] using hneg

theorem linkComesUp_rises {skew : List Int} (h : MayRise d p) : linkComesUp d p skew
    = setLink (setFld (fullLock d p skew) .portStatus p PrtSt.linkUpBt d.bt) p 3 := by
  obtain ⟨hs, hu, hl⟩ := h
  exact if_neg (by simp [hs, hu, hl])

theorem linkComesUp_locked (hp : p < 2 ^ 24) {skew : List Int} (h : MayRise d p) :
    linkState (linkComesUp d p skew) p = 3 ∧ (getPort (linkComesUp d p skew) p).skew = skew
      ∧ (getPort (linkComesUp d p skew) p).lossFrom = none ∧ (getPort (linkComesUp d p skew) p).remoteFrom = none
      ∧ (getPort (linkComesUp d p skew) p).sendsFault = false
      ∧ fld (linkComesUp d p skew) .portStatus p PrtSt.alignLock = 1 := by
  have hport : getPort (linkComesUp d p skew) p
      = { getPort d p with lossFrom := none, sendsFault := false, remoteFrom := none, skew := skew } := by
    rw [linkComesUp_rises h, getPort_setLink, getPort_setFld, getPort_fullLock]
  rw [hport, linkComesUp_rises h]
  refine ⟨linkState_setLink hp (by decide), rfl, rfl, rfl, rfl, ?_⟩
  rw [fld_setLink hp (by decide), fld_setFld_other _ _ _ (by decide) (.inr (by decide)), fld_fullLock_align]

theorem shortLossEnd_none {skew : List Int} (h : faultSpan d p = none) : shortLossEnd d p skew = d := by
  unfold shortLossEnd
  rw [h]

theorem shortLossEnd_some {n : Nat} {skew : List Int} (h : faultSpan d p = some n) : shortLossEnd d p skew
    = if linkUp d p = true ∧ serdesUp d p = true ∧ n * btNs d ≤ fld d .port p Prt.linkDownDelayUs * 1000 + btNs d then
        fullLock (bumpPort d p 19) p skew
      else d := by
  unfold shortLossEnd
  rw [h]

theorem linkDownDelay_none (h : faultSpan d p = none) : linkDownDelay d p = d := by
  unfold linkDownDelay
  rw [h]

/-- A link goes down: raised, counted, its queues flushed. -/
def linkGoesDown (p bt : Nat) (x : PortSt) (d : Dev) : Dev :=
  let d := raise (bumpPort (setFld d .portStatus p PrtSt.linkDownBt bt) p 44) (srcId 0x31 p)
  flushQueues (setLink d p (if x.lossFrom.isSome then 1 else 4)) p .linkDown

theorem linkDownDelay_some {n : Nat} (h : faultSpan d p = some n) : linkDownDelay d p
    = if linkUp d p = true ∧ fld d .port p Prt.linkDownDelayUs * 1000 ≤ (n + 1) * btNs d then
        linkGoesDown p d.bt (getPort d p) d
      else d := by
  unfold linkDownDelay
  rw [h]
  rfl

/-- The receive path sees what the link partner signals. -/
def SeesFault (d : Dev) (p : Nat) : Prop := portStarts d p = true ∧ serdesUp d p = true

theorem remoteFault_unseen (h : ¬ SeesFault d p) : remoteFault d p = d := by
  refine if_pos (Classical.not_not.1 fun hneg => h ?_)
  simpa [SeesFault] using hneg

theorem remoteFault_down (h : SeesFault d p) (hl : linkUp d p = false) : remoteFault d p = setLink (setLocks d p) p 4 := by
  obtain ⟨hs, hu⟩ := h
  exact (if_neg (by simp [hs, hu])).trans (if_neg (by simp [hl]))

/-- An UP link on which Remote Fault has been signalled since a base tick. -/
def faultSignalled (p bt : Nat) (x : PortSt) (d : Dev) : Dev :=
  let d := setLocks (if x.lossFrom.isSome then bumpPort d p 19 else d) p
  setPort d p { getPort d p with remoteFrom := some (x.remoteFrom.getD bt) }

theorem remoteFault_up (h : SeesFault d p) (hl : linkUp d p = true) :
    remoteFault d p = faultSignalled p d.bt (getPort d p) d := by
  obtain ⟨hs, hu⟩ := h
  have hb : (setLocks (if (getPort d p).lossFrom.isSome then bumpPort d p 19 else d) p).bt = d.bt := by
    rw [setLocks_bt]
    split
    · rfl
    · rfl
  refine ((if_neg (by simp [hs, hu])).trans (if_pos hl)).trans ?_
  unfold faultSignalled
  dsimp only
  rw [hb]

/-! ### Pauses -/

theorem pauseExpiry_none {c : Nat} (h : pauseOf d p c = none) : pauseExpiry d p c = d := by
  unfold pauseExpiry
  rw [h]

theorem pauseExpiry_some {c : Nat} {x : Pause} (h : pauseOf d p c = some x) : pauseExpiry d p c
    = if x.endPs ≤ (d.bt + 1) * btNs d * 1000 then setPause d p c none else d := by
  unfold pauseExpiry
  rw [h]

theorem pauseWatchdog_none {c : Nat} (h : pauseOf d p c = none) : pauseWatchdog d p c = d := by
  unfold pauseWatchdog
  rw [h]

/-- The holdoff of a class begins, where PAUSE_HOLDOFF_MS is not 0. -/
def startHoldoff (p c : Nat) (d : Dev) : Dev :=
  let ms := fld d .port p Prt.pauseHoldoffMs
  if ms = 0 then d
  else
    let d := setFld d .portStatus p PrtSt.wdHoldoff (fld d .portStatus p PrtSt.wdHoldoff ||| 2 ^ c)
    setPort d p { getPort d p with
      holdoffEnd := Tab.set 0 (getPort d p).holdoffEnd c (d.bt + (ms * 1000000 + btNs d - 1) / btNs d) }

/-- The watchdog breaks the pause of a class. -/
def breakPause (p c : Nat) (d : Dev) : Dev :=
  let d := startHoldoff p c (setPause d p c none)
  tenantEvent (raise (traceMac (bumpPort d p 43) 4 p 0 c 0 0) (srcId 0x32 p))
    (portTenants (traceMac (bumpPort d p 43) 4 p 0 c 0 0) p) evPort

theorem pauseWatchdog_some {c : Nat} {x : Pause} (h : pauseOf d p c = some x) : pauseWatchdog d p c
    = if fld d .port p Prt.pauseWdMs * 1000000 ≤ (d.bt - x.since + 1) * btNs d then breakPause p c d else d := by
  unfold pauseWatchdog
  rw [h]
  rfl

theorem pauseHoldoffEnd_ends {c : Nat} (h : Tab.get 0 (getPort d p).holdoffEnd c ≤ d.bt + 1) :
    fld (pauseHoldoffEnd d p c) .portStatus p PrtSt.wdHoldoff
        = fld d .portStatus p PrtSt.wdHoldoff - (fld d .portStatus p PrtSt.wdHoldoff &&& 2 ^ c)
      ∧ fld (pauseHoldoffEnd d p c) .portStatus p PrtSt.paused = fld d .portStatus p PrtSt.paused
      ∧ Tab.get 0 (getPort (pauseHoldoffEnd d p c) p).holdoffEnd c = 0 := by
  unfold pauseHoldoffEnd
  extract_lets h x
  rw [if_pos ‹_›]
  refine ⟨?_, ?_, ?_⟩
  · rw [fld_setFld_same _ _ _ (by decide)]
    exact Nat.mod_eq_of_lt ((Nat.sub_le _ _).trans_lt (Nat.mod_lt _ (by decide)))
  · rw [fld_setFld_other _ _ _ (by decide) (.inr (by decide))]
    rfl
  · rw [getPort_setFld, getPort_setPort_same]
    exact Tab.get_set_same 0 x.holdoffEnd c 0

end

section

variable {s : State}

theorem lockLossEvents (h : pathOpen s) (p : Fin 16) (lanes cdr : BitVec 8) (b : Bool) :
    (portStarts s.dev p.val = false ∨ lanes.toNat &&& laneBits s.dev p.val = 0 → rests (exec (.lockLoss p lanes cdr b) s) s)
    ∧ (portStarts s.dev p.val = true → lanes.toNat &&& laneBits s.dev p.val ≠ 0 →
      acts (exec (.lockLoss p lanes cdr b) s) s fun d =>
        fld d .portStatus p.val PrtSt.laneLock = fld s.dev .portStatus p.val PrtSt.laneLock
            - (fld s.dev .portStatus p.val PrtSt.laneLock &&& (lanes.toNat &&& laneBits s.dev p.val))
          ∧ fld d .portStatus p.val PrtSt.alignLock = 0 ∧ fld d .portStatus p.val PrtSt.fecLock = 0
          ∧ (getPort d p.val).lossFrom = some ((getPort s.dev p.val).lossFrom.getD s.dev.bt)
          ∧ (getPort d p.val).rxCur = none ∧ (getPort d p.val).sendsFault = true
          ∧ linkState d p.val = if linkState s.dev p.val = 4 then 1 else linkState s.dev p.val) := by
  obtain ⟨h, hr, hp⟩ := h
  refine ⟨fun hn => ?_, fun hs hm => ?_⟩
  · refine rests_pathEvent (f := fun d => lockLoss d p.val lanes.toNat cdr.toNat b) h hr hp (if_pos ?_)
    exact hn.imp_left fun hs => congrArg (! ·) hs
  · exact acts_pathEvent (f := fun d => lockLoss d p.val lanes.toNat cdr.toNat b) h hr hp
      (lockLoss_loses (d := fresh s.dev) (by omega) hs hm)

theorem skewEvents (h : pathOpen s) (p : Fin 16) (sk : List Int) :
    onlyIf (fld s.dev .portStatus p.val PrtSt.alignLock ≠ 0 ∧ (getPort s.dev p.val).lossFrom = none
        ∧ (getPort s.dev p.val).skew ≠ sk) (exec (.skewChange ⟨p, sk⟩) s) s
      fun d => bumpLaunch (setPort d p.val { getPort s.dev p.val with skew := sk }) p.val 13 := by
  obtain ⟨h, hr, hp⟩ := h
  refine onlyIf_pathEvent (f := fun d => skewChange d p.val sk) h hr hp (fun ⟨ha, hl, hs⟩ => if_neg ?_)
    fun hn => if_pos (Classical.not_not.1 fun hneg => hn ?_)
  · rintro (h₁ | h₂ | h₃)
    · exact ha h₁
    · exact Option.isSome_iff_ne_none.1 h₂ hl
    · exact hs h₃
  · rw [not_or, not_or] at hneg
    exact ⟨hneg.1, Option.not_isSome_iff_eq_none.1 hneg.2.1, hneg.2.2⟩

end

/-- Settles O47: what a lock loss counts, traces and raises leaves the port and its status as they are, so each field is read
where it was set. -/
theorem linkAndPauseEvents : Obligations.LinkAndPauseEvents := by
  refine ⟨fun s p h => ⟨fun lanes cdr b => lockLossEvents h p lanes cdr b, fun hf => ⟨?_, fun sk => ?_⟩,
      fun n hf => ⟨?_, fun sk => ?_⟩, fun sk => ?_, fun sk => ?_, ⟨fun hl => ?_, fun hl => ?_⟩, skewEvents h p⟩,
    fun s p c h => ⟨fun hn => ⟨?_, ?_⟩, fun x hx => ⟨?_, ?_⟩, fun hn => ?_, fun he => ?_⟩⟩ <;> obtain ⟨h, hr, hp⟩ := h
  · exact rests_pathEvent (f := fun d => linkDownDelay d p.val) h hr hp (linkDownDelay_none (d := fresh s.dev) hf)
  · exact rests_pathEvent (f := fun d => shortLossEnd d p.val sk) h hr hp (shortLossEnd_none (d := fresh s.dev) hf)
  · have hd := linkDownDelay_some (d := fresh s.dev) hf
    exact onlyIf_pathEvent (f := fun d => linkDownDelay d p.val) h hr hp (fun hc => hd.trans (if_pos hc))
      fun hc => hd.trans (if_neg hc)
  · have hd := shortLossEnd_some (d := fresh s.dev) (skew := sk) hf
    exact onlyIf_pathEvent (f := fun d => shortLossEnd d p.val sk) h hr hp (fun hc => hd.trans (if_pos hc))
      fun hc => hd.trans (if_neg hc)
  · exact onlyIf_pathEvent (f := fun d => linkComesUp d p.val sk) h hr hp (linkComesUp_rises (d := fresh s.dev))
      (linkComesUp_idle (d := fresh s.dev))
  · exact acts_pathEvent (f := fun d => linkComesUp d p.val sk) h hr hp
      fun hs hu hl => linkComesUp_locked (d := fresh s.dev) (by omega) ⟨hs, hu, hl⟩
  · exact onlyIf_pathEvent (f := fun d => remoteFault d p.val) h hr hp (fun hc => remoteFault_down (d := fresh s.dev) hc hl)
      (remoteFault_unseen (d := fresh s.dev))
  · exact onlyIf_pathEvent (f := fun d => remoteFault d p.val) h hr hp (fun hc => remoteFault_up (d := fresh s.dev) hc hl)
      (remoteFault_unseen (d := fresh s.dev))
  · exact rests_pathEvent (f := fun d => pauseExpiry d p.val c.val) h hr hp (pauseExpiry_none (d := fresh s.dev) hn)
  · exact rests_pathEvent (f := fun d => pauseWatchdog d p.val c.val) h hr hp (pauseWatchdog_none (d := fresh s.dev) hn)
  · have hd := pauseExpiry_some (d := fresh s.dev) hx
    exact onlyIf_pathEvent (f := fun d => pauseExpiry d p.val c.val) h hr hp (fun hc => hd.trans (if_pos hc))
      fun hc => hd.trans (if_neg hc)
  · have hd := pauseWatchdog_some (d := fresh s.dev) hx
    exact onlyIf_pathEvent (f := fun d => pauseWatchdog d p.val c.val) h hr hp (fun hc => hd.trans (if_pos hc))
      fun hc => hd.trans (if_neg hc)
  · exact rests_pathEvent (f := fun d => pauseHoldoffEnd d p.val c.val) h hr hp (if_neg hn)
  · exact acts_pathEvent (f := fun d => pauseHoldoffEnd d p.val c.val) h hr hp (pauseHoldoffEnd_ends (d := fresh s.dev) he)

end Sys2Proof.Machine

/-! R104, R111, R119, R120, R126, R129, R130, R132, R136, R239, R332: frames that start and end, launches past their
deadline, descriptors fetched and beacons. -/

namespace Sys2Proof.Machine

open Sys2Proof

section

variable {d : Dev} {p : Nat}

/-! ### Frames that start -/

/-- A frame may start on a port: its link is up without a fault, and it sends nothing. -/
def MayStart (d : Dev) (p : Nat) : Prop :=
  linkUp d p = true ∧ serdesUp d p = true ∧ (getPort d p).lossFrom = none ∧ (getPort d p).remoteFrom = none
    ∧ (getPort d p).cur = none ∧ scanHeld d = false

/-- The frame boundary of a start. -/
def startBoundary (d : Dev) (t : TxStart) : Rat := (txStamp d t.port.val t.ins t.lane.val : Rat) - preamble d t.port.val

/-- The device at a start: the Q7 heads past their deadline are gone. -/
def atStart (d : Dev) (t : TxStart) : Dev :=
  if latchTracks d t.port.val t.ins then
    dropLate (portQueue d t.port.val 7).length d t.port.val (txStamp d t.port.val t.ins t.lane.val)
  else d

/-- The choice of the MAC at a start. -/
def choice (d : Dev) (t : TxStart) : Option Nat × Bool × Dev :=
  pickQueue (atStart d t) t.port.val (txStamp d t.port.val t.ins t.lane.val) (latchTracks d t.port.val t.ins)

theorem txFrameStart_closed {t : TxStart} (h : ¬ MayStart d t.port.val) : txFrameStart d t = d := by
  refine if_pos (Classical.not_not.1 fun hneg => h ?_)
  simpa [MayStart] using hneg

/-- What the MAC does with its choice. -/
def chosen (t : TxStart) (boundary : Rat) (q : Option Nat) (held : Bool) (d : Dev) : Dev :=
  match q with
  | none =>
    if !held then endKerfIdle d t.port.val boundary
    else if (getPort d t.port.val).kerfIdle.isNone then
      setPort d t.port.val { getPort d t.port.val with kerfIdle := some boundary }
    else d
  | some q =>
    match portQueue (endKerfIdle d t.port.val boundary) t.port.val q with
    | f :: fs => startFrame (endKerfIdle d t.port.val boundary) t q f fs
    | [] => endKerfIdle d t.port.val boundary

theorem txFrameStart_open {t : TxStart} (h : MayStart d t.port.val) :
    txFrameStart d t = chosen t (startBoundary d t) (choice d t).1 (choice d t).2.1 (choice d t).2.2 := by
  obtain ⟨hl, hs, hloss, hr, hc, hh⟩ := h
  unfold txFrameStart choice atStart startBoundary
  dsimp only
  rw [if_neg (by simp [hl, hs, hloss, hr, hc, hh])]
  generalize pickQueue _ _ _ _ = c
  obtain ⟨q, held, e⟩ := c
  rfl

theorem txFrameStart_chosen {t : TxStart} {q : Option Nat} {held : Bool} {e : Dev} (h : MayStart d t.port.val)
    (hc : choice d t = (q, held, e)) : txFrameStart d t = chosen t (startBoundary d t) q held e := by
  rw [txFrameStart_open h, hc]

theorem chosen_queue {t : TxStart} {boundary : Rat} {n : Nat} {held : Bool} {f : TxFrame} {fs : List TxFrame}
    (h : portQueue (endKerfIdle d t.port.val boundary) t.port.val n = f :: fs) :
    chosen t boundary (some n) held d = startFrame (endKerfIdle d t.port.val boundary) t n f fs := by
  unfold chosen
  dsimp only
  rw [h]

/-- A frame that needs no stamp, or has one, becomes the frame being sent. -/
theorem startFrame_cur {t : TxStart} {q : Nat} {f : TxFrame} {fs : List TxFrame}
    (h : f.insert = .none ∨ latchTracks d t.port.val t.ins = true) :
    (getPort (startFrame d t q f fs) t.port.val).cur.map (fun c => (c.frame, c.queue)) = some (f, q) := by
  have hn : ¬ (f.insert ≠ .none ∧ ¬ latchTracks (setQueue d t.port.val q fs) t.port.val t.ins = true) :=
    fun ⟨hi, ht⟩ => h.elim hi fun hl => ht hl
  unfold startFrame
  dsimp only
  rw [if_neg hn, getPort_setPort_same]
  rfl

/-! ### Frames that end -/

theorem foldl_fresh {α : Type} {f : Dev → α → Dev} (h : ∀ d x, f (fresh d) x = fresh (f d x)) (l : List α) (d : Dev) :
    l.foldl f (fresh d) = fresh (l.foldl f d) := by
  induction l generalizing d with
  | nil => rfl
  | cons x l ih => exact (congrArg (fun d => l.foldl f d) (h d x)).trans (ih (f d x))

theorem setRec_fresh (d : Dev) (k : RecKind) (i v : Nat) : setRec (fresh d) k i v = fresh (setRec d k i v) := rfl

/-- The views and the leap state of a base tick, on a device from which nothing has left yet. -/
theorem atSvc_fresh (v : Svc) : atSvc (fresh d) v = fresh (atSvc d v) := by
  have hreset (d : Dev) (l : List (Nat × Nat)) :
      l.foldl (fun d (e : Nat × Nat) => setRec d .view e.1 (resetRec d.variant .view e.1)) (fresh d)
        = fresh (l.foldl (fun d (e : Nat × Nat) => setRec d .view e.1 (resetRec d.variant .view e.1)) d) :=
    foldl_fresh (f := fun d (e : Nat × Nat) => setRec d .view e.1 (resetRec d.variant .view e.1)) (fun _ _ => rfl) l d
  have hset (d : Dev) (l : List (Nat × Nat)) : l.foldl (fun d (e : Nat × Nat) => setRec d .view e.1 e.2) (fresh d)
      = fresh (l.foldl (fun d (e : Nat × Nat) => setRec d .view e.1 e.2) d) :=
    foldl_fresh (f := fun d (e : Nat × Nat) => setRec d .view e.1 e.2) (fun _ _ => rfl) l d
  unfold atSvc
  dsimp only
  rw [show listed (fresh d) .view = listed d .view from rfl, hreset, hset]
  rfl

/-- The bytes that leave do not depend on what has left already. -/
theorem finalBytes_fresh (f : TxFrame) (n : Nat) : finalBytes (fresh d) p f n = finalBytes d p f n := by
  have hstamp : atStamp (fresh d) n = fresh (atStamp d n) := atSvc_fresh (svcOf d n)
  have hvalue : viewValue (fresh (atStamp d n)) f.view n = viewValue (atStamp d n) f.view n := rfl
  have hbase : viewBase (fresh (atStamp d n)) f.view n = viewBase (atStamp d n) f.view n := rfl
  have hudp (bs : List Byte) : udpAt (fresh d) p bs = udpAt d p bs := rfl
  unfold finalBytes
  rw [hstamp, hvalue, hbase]
  simp only [hudp]

theorem txFrameEnd_none (h : (getPort d p).cur = none) : txFrameEnd d p = d := by
  unfold txFrameEnd
  dsimp only
  rw [h]

/-- The last byte of a frame leaves the port: counted, delivered, and its stamp returned. -/
def frameEnds (p : Nat) (x : PortSt) (c : TxCurrent) (bytes : List Byte) (d : Dev) : Dev :=
  let d := bumpPort (bumpPort (setPort d p { x with cur := none }) p (23 + c.queue)) p 31 (TxFrame.len c.frame)
  let d := stampReturns (emit d (.frame p bytes c.aborted)) c
  match c.frame.who with
  | .host fn ring slot cookie ts =>
    txReady d fn ring slot (txWb (if c.aborted then 4 else 0) cookie (if ts then c.stamp else none) (ts && c.step))
  | .beacon => bumpPort d p 45
  | _ => d

theorem txFrameEnd_some {c : TxCurrent} (h : (getPort d p).cur = some c) :
    txFrameEnd d p = frameEnds p (getPort d p) c (finalBytes d p c.frame (c.stamp.getD 0)) d := by
  unfold txFrameEnd frameEnds
  dsimp only
  rw [h] <;> rfl

/-! ### Launches past their deadline -/

theorem launchDeadline_none {n : Nat} {a : LaunchEdge} (h : takeQ7 d p n = none) : launchDeadline d p n a = d := by
  unfold launchDeadline
  rw [h]

theorem launchExpiry_none {n : Nat} {a : LaunchEdge} (h : takeQ7 d p n = none) : launchExpiry d p n a = d := by
  unfold launchExpiry
  rw [h]

/-- G(L) of a launch by a measured edge. -/
def launchGrid (d : Dev) (p : Nat) (a : LaunchEdge) (l : Launch) : Rat :=
  (launchEdge d p (txStamp d p a.edge a.lane.val) l.l).2

theorem launchDeadline_some {n : Nat} {a : LaunchEdge} {f : TxFrame} {l : Launch} {e : Dev}
    (h : takeQ7 d p n = some (f, l, e)) : launchDeadline d p n a
      = if l.policy = 0 ∧ reached d (l.deadline (launchGrid d p a l)).floor.toNat = true then
          judgeLaunch e p f 3 (l.deadline (launchGrid d p a l) - l.l) (launchGrid d p a l)
        else d := by
  unfold launchDeadline
  rw [h]
  rfl

theorem launchExpiry_some {n : Nat} {a : LaunchEdge} {f : TxFrame} {l : Launch} {e : Dev}
    (h : takeQ7 d p n = some (f, l, e)) : launchExpiry d p n a
      = if l.policy = 1 ∧ reached d l.expiry = true then
          judgeLaunch e p f 5 ((l.expiry : Rat) - l.l) (launchGrid d p a l)
        else d := by
  unfold launchExpiry
  rw [h]
  rfl

/-! ### Descriptors -/

theorem fetchDescriptor_none {f : Fn} {r : Nat} {bytes : List Byte} (h : (getRing d f true r).posted = []) :
    fetchDescriptor d f r bytes = d := by
  unfold fetchDescriptor
  dsimp only
  rw [h]

/-- A posted descriptor is fetched: its ring and function work, and its queue has room. -/
def Fetches (d : Dev) (f : Fn) (r v : Nat) : Prop :=
  ringEnabled d f true r = true ∧ live d f = true ∧ fnExists d f = true
    ∧ occupancy d (ringFld d f true r Rng.port) (getF v TxDesc.queue) + maxFrame d (ringFld d f true r Rng.port)
      ≤ getF (fld d .port (ringFld d f true r Rng.port) Prt.qLimitKib)
          ⟨16 * getF v TxDesc.queue + 15, 16 * getF v TxDesc.queue⟩ * kib

/-- The place of the next write-back of a ring. -/
def fetchSlot (d : Dev) (f : Fn) (r : Nat) : Nat :=
  (ringFld d f true r Rng.consumer + (getRing d f true r).inFlight.length) % 65536

/-- The device with a descriptor taken from its ring. -/
def descTaken (d : Dev) (f : Fn) (r : Nat) (rest : List (BitVec 256)) : Dev :=
  setRing d f true r { getRing d f true r with
    posted := rest, inFlight := (getRing d f true r).inFlight ++ [(fetchSlot d f r, none)] }

/-- The frame of a descriptor. -/
def descFrame (d : Dev) (f : Fn) (r slot v : Nat) (bytes : List Byte) : TxFrame :=
  { bytes := slice bytes 0 (getF v TxDesc.bufLen)
    insert := match getF v TxDesc.insertOp with | 1 => .ntpT3 | 2 => .oneStep | _ => .none
    insertOff := getF v TxDesc.insertOffset, view := descView d f v
    csumIp4 := decide (getF v TxDesc.csumIp4 = 1), csumL4 := getF v TxDesc.csumL4
    l3 := getF v TxDesc.l3Offset, l4 := getF v TxDesc.l4Offset, launch := none, admitBt := d.bt, area := .none
    who := .host f r slot (getF v TxDesc.cookie) (decide (getF v TxDesc.tsReq = 1)), kerfHeld := false }

theorem fetchDescriptor_waits {f : Fn} {r : Nat} {bytes : List Byte} {desc : BitVec 256} {rest : List (BitVec 256)}
    (h : (getRing d f true r).posted = desc :: rest) (hn : ¬ Fetches d f r desc.toNat) : fetchDescriptor d f r bytes = d := by
  unfold fetchDescriptor
  dsimp only
  rw [h]
  refine if_pos (Classical.not_not.1 fun hneg => hn ?_)
  simpa [Fetches] using hneg

theorem fetchDescriptor_fetches {f : Fn} {r : Nat} {bytes : List Byte} {desc : BitVec 256} {rest : List (BitVec 256)}
    (h : (getRing d f true r).posted = desc :: rest) (hf : Fetches d f r desc.toNat) : fetchDescriptor d f r bytes
      = if (!descOk (descTaken d f r rest) f (ringFld d f true r Rng.port) desc.toNat) = true then
          txReady (descTaken d f r rest) f r (fetchSlot d f r) (txWb 3 (getF desc.toNat TxDesc.cookie) none false)
        else enqueue (descTaken d f r rest) (ringFld d f true r Rng.port) (getF desc.toNat TxDesc.queue)
          (descFrame (descTaken d f r rest) f r (fetchSlot d f r) desc.toNat bytes) := by
  obtain ⟨he, hl, hx, ho⟩ := hf
  unfold fetchDescriptor
  dsimp only
  rw [h]
  refine if_neg ?_
  simp [he, hl, hx, ho]

end

section

variable {s : State}

theorem frameStartEvents (h : pathOpen s) (t : TxStart) :
    (¬ MayStart s.dev t.port.val → rests (exec (.txFrameStart t) s) s)
    ∧ (MayStart s.dev t.port.val → ∀ q held e, choice (fresh s.dev) t = (q, held, e) →
      becomes (exec (.txFrameStart t) s) s fun _ => chosen t (startBoundary s.dev t) q held e) := by
  obtain ⟨h, hr, hp⟩ := h
  refine ⟨fun hn => ?_, fun hm q held e hc => ?_⟩
  · exact rests_pathEvent (f := fun d => txFrameStart d t) h hr hp (txFrameStart_closed (d := fresh s.dev) hn)
  · exact becomes_pathEvent (f := fun d => txFrameStart d t) h hr hp (txFrameStart_chosen (d := fresh s.dev) hm hc)

theorem launchEvents (h : pathOpen s) (p : Fin 16) (n : Nat) (a : LaunchEdge) :
    (takeQ7 (fresh s.dev) p.val n = none →
      rests (exec (.launchDeadline p n a) s) s ∧ rests (exec (.launchSendMaxExpiry p ⟨n, a⟩) s) s)
    ∧ (∀ f l e, takeQ7 (fresh s.dev) p.val n = some (f, l, e) →
      onlyIf (l.policy = 0 ∧ reached s.dev (l.deadline (launchGrid s.dev p.val a l)).floor.toNat = true)
        (exec (.launchDeadline p n a) s) s
        (fun _ => judgeLaunch e p.val f 3 (l.deadline (launchGrid s.dev p.val a l) - l.l) (launchGrid s.dev p.val a l))
      ∧ onlyIf (l.policy = 1 ∧ reached s.dev l.expiry = true) (exec (.launchSendMaxExpiry p ⟨n, a⟩) s) s
        (fun _ => judgeLaunch e p.val f 5 ((l.expiry : Rat) - l.l) (launchGrid s.dev p.val a l))) := by
  obtain ⟨h, hr, hp⟩ := h
  refine ⟨fun hq => ⟨?_, ?_⟩, fun f l e hq => ⟨?_, ?_⟩⟩
  · exact rests_pathEvent (f := fun d => launchDeadline d p.val n a) h hr hp (launchDeadline_none hq)
  · exact rests_pathEvent (f := fun d => launchExpiry d p.val n a) h hr hp (launchExpiry_none hq)
  · have hd := launchDeadline_some (a := a) hq
    exact onlyIf_pathEvent (f := fun d => launchDeadline d p.val n a) h hr hp (fun hc => hd.trans (if_pos hc))
      fun hc => hd.trans (if_neg hc)
  · have hd := launchExpiry_some (a := a) hq
    exact onlyIf_pathEvent (f := fun d => launchExpiry d p.val n a) h hr hp (fun hc => hd.trans (if_pos hc))
      fun hc => hd.trans (if_neg hc)

end

/-- Settles O48: each event is taken through the branches of its one function. -/
theorem transmitEvents : Obligations.TransmitEvents := by
  refine fun s p h => ⟨fun t ht => ?_, fun d t q f fs ht hi => ?_, fun hc => ?_, fun c hc => ?_, launchEvents h p,
    fun f r bytes => ⟨fun hq => ?_, fun desc rest hq => ⟨fun hn => ?_, fun hf hk => ?_, fun hf hk => ?_⟩⟩, ?_⟩
  · subst ht
    obtain ⟨hclosed, hopen⟩ := frameStartEvents h t
    refine ⟨hclosed, fun hm q held e hc => ⟨fun hq hh => ?_, fun hq hh => ?_, fun n f fs hq hf => ?_⟩⟩ <;> subst hq
    · subst hh
      exact hopen hm _ _ e hc
    · subst hh
      exact hopen hm _ _ e hc
    · exact (hopen hm _ _ e hc).trans (congrArg (fun d => Host.Outcome.next { s with dev := d }) (chosen_queue hf))
  · subst ht
    exact startFrame_cur hi
  all_goals obtain ⟨h, hr, hp⟩ := h
  · exact rests_pathEvent (f := fun d => txFrameEnd d p.val) h hr hp (txFrameEnd_none (d := fresh s.dev) hc)
  · have hd := txFrameEnd_some (d := fresh s.dev) hc
    rw [finalBytes_fresh] at hd
    exact becomes_pathEvent (f := fun d => txFrameEnd d p.val) h hr hp hd
  · exact rests_pathEvent (f := fun d => fetchDescriptor d f r.val bytes) h hr hp (fetchDescriptor_none (d := fresh s.dev) hq)
  · exact rests_pathEvent (f := fun d => fetchDescriptor d f r.val bytes) h hr hp
      (fetchDescriptor_waits (d := fresh s.dev) hq hn)
  · exact becomes_pathEvent (f := fun d => fetchDescriptor d f r.val bytes) h hr hp
      ((fetchDescriptor_fetches (d := fresh s.dev) hq hf).trans (if_pos (congrArg (! ·) hk)))
  · refine ⟨descFrame (descTaken (fresh s.dev) f r.val rest) f r.val (fetchSlot s.dev f r.val) desc.toNat bytes, rfl, rfl, rfl,
      rfl, ?_⟩
    refine becomes_pathEvent (f := fun d => fetchDescriptor d f r.val bytes) h hr hp
      ((fetchDescriptor_fetches (d := fresh s.dev) hq hf).trans (if_neg fun hc => Bool.false_ne_true ?_))
    exact (congrArg (! ·) hk).symm.trans hc
  · exact onlyIf_pathEvent (f := fun d => beaconDue d p.val) h hr hp (fun hc => if_pos hc) fun hc => if_neg hc

end Sys2Proof.Machine

/-! R87, R91, R94, R96–R101, R106, R109: the receipt of a frame. -/

namespace Sys2Proof.Machine

open Sys2Proof

section

variable {d : Dev} {f : RxFrame} {cur : Option RxCurrent}

/-- A frame that ends on a port: what the FEC of its blocks counts. -/
def rxCounted (fec : Bool) (d : Dev) (f : RxFrame) : Dev :=
  if fec then
    bumpPort (bumpPort (bumpPort d f.port.val 20 f.cwCorrected) f.port.val 21 f.cwBad) f.port.val 22 f.symErr
  else d

/-- The space that a frame has: held since its start, or taken at its end. -/
def rxArea (d : Dev) (p : Nat) (cur : Option RxCurrent) : Option Area :=
  match cur with
  | some c => if c.refused then none else match c.area with | some a => some a | none => rxAdmit d p
  | none => rxAdmit d p

/-- A frame parsed under its port's OUTER_TPID. -/
def rxParsed (d : Dev) (f : RxFrame) : Parsed := parseFrame (fld d .port f.port.val Prt.outerTpid) f.bytes

/-- A frame without an error, after LISTEN's patterns. -/
def rxChecked (f : RxFrame) (q : Parsed) (a : Area) (dropped : Bool) (d : Dev) : Dev :=
  let punt := decide (fld d .port f.port.val Prt.badCsumAction = 1)
  if q.l3Status = 1 ∧ ¬ punt then bumpPort d f.port.val 12
  else if q.l4Status = 1 ∧ ¬ punt then bumpPort d f.port.val 13
  else if dropped then bumpPort d f.port.val 18
  else storeFrame d f q a

/-- A frame that has space. -/
def rxAdmitted (d : Dev) (f : RxFrame) (q : Parsed) (fec : Bool) (a : Area) : Dev :=
  if fec ∧ f.fecBad then bumpPort d f.port.val 5
  else if !f.fcsOk then bumpPort d f.port.val 4
  else
    let w := wakeTest d f.port.val (f.bytes.take (maxFrame d f.port.val - 4))
    rxChecked f q a w.1 w.2

/-- A frame of full length, by its destination and type. -/
def rxWhole (d : Dev) (f : RxFrame) (q : Parsed) (fec : Bool) (area : Option Area) : Dev :=
  if q.etherType ≠ 0x8808 ∧ ¬ daPasses d f.port.val q.dst = true then bumpPort d f.port.val 11
  else if q.etherType = 0x8808 then macControl d { f with fecBad := fec && f.fecBad } q
  else match area with
    | none => bumpPort (bumpPort d f.port.val 9) f.port.val 10 (f.bytes.length + 4)
    | some a => rxAdmitted d f q fec a

theorem rxAdmitted_bad {q : Parsed} {fec : Bool} {a : Area} (h : (fec && f.fecBad) = true) :
    rxAdmitted d f q fec a = bumpPort d f.port.val 5 := if_pos (Bool.and_eq_true_iff.1 h)

theorem rxAdmitted_fcs {q : Parsed} {fec : Bool} {a : Area} (hb : (fec && f.fecBad) = false) (h : f.fcsOk = false) :
    rxAdmitted d f q fec a = bumpPort d f.port.val 4 :=
  (if_neg fun hc => Bool.false_ne_true (hb.symm.trans (Bool.and_eq_true_iff.2 hc))).trans (if_pos (congrArg (! ·) h))

theorem rxAdmitted_good {q : Parsed} {fec : Bool} {a : Area} {dropped : Bool} {e : Dev} (hb : (fec && f.fecBad) = false)
    (h : f.fcsOk = true) (hw : wakeTest d f.port.val (f.bytes.take (maxFrame d f.port.val - 4)) = (dropped, e)) :
    rxAdmitted d f q fec a = rxChecked f q a dropped e := by
  refine (if_neg fun hc => Bool.false_ne_true (hb.symm.trans (Bool.and_eq_true_iff.2 hc))).trans ?_
  rw [h, hw]
  rfl

/-- BAD_CSUM_ACTION drops a frame whose checksum fails. -/
def DropsBad (d : Dev) (p : Nat) : Prop := fld d .port p Prt.badCsumAction ≠ 1

theorem rxChecked_l3 {q : Parsed} {a : Area} {dropped : Bool} (h : q.l3Status = 1) (hd : DropsBad d f.port.val) :
    rxChecked f q a dropped d = bumpPort d f.port.val 12 :=
  if_pos ⟨h, fun hc => hd (of_decide_eq_true hc)⟩

theorem rxChecked_l4 {q : Parsed} {a : Area} {dropped : Bool} (h3 : q.l3Status ≠ 1) (h : q.l4Status = 1)
    (hd : DropsBad d f.port.val) : rxChecked f q a dropped d = bumpPort d f.port.val 13 :=
  (if_neg fun hc => h3 hc.1).trans (if_pos ⟨h, fun hc => hd (of_decide_eq_true hc)⟩)

theorem rxChecked_passed {q : Parsed} {a : Area} {dropped : Bool}
    (h : (q.l3Status ≠ 1 ∧ q.l4Status ≠ 1) ∨ ¬ DropsBad d f.port.val) :
    rxChecked f q a dropped d = if dropped then bumpPort d f.port.val 18 else storeFrame d f q a := by
  have hpunt {n : Nat} (hn : n ≠ 1 ∨ ¬ DropsBad d f.port.val) :
      ¬ (n = 1 ∧ ¬ decide (fld d .port f.port.val Prt.badCsumAction = 1) = true) :=
    fun ⟨h1, hc⟩ => hn.elim (· h1) (· fun he => hc (decide_eq_true he))
  exact (if_neg (hpunt (h.imp_left And.left))).trans (if_neg (hpunt (h.imp_left And.right)))

theorem rxWhole_control {q : Parsed} {fec : Bool} {area : Option Area} (h : q.etherType = 0x8808) :
    rxWhole d f q fec area = macControl d { f with fecBad := fec && f.fecBad } q :=
  (if_neg fun hc => hc.1 h).trans (if_pos h)

theorem rxWhole_foreign {q : Parsed} {fec : Bool} {area : Option Area} (h : q.etherType ≠ 0x8808)
    (hp : daPasses d f.port.val q.dst = false) : rxWhole d f q fec area = bumpPort d f.port.val 11 :=
  if_pos ⟨h, fun hc => Bool.false_ne_true (hp.symm.trans hc)⟩

theorem rxWhole_refused {q : Parsed} {fec : Bool} {area : Option Area} (h : q.etherType ≠ 0x8808)
    (hp : daPasses d f.port.val q.dst = true) (ha : area = none) : rxWhole d f q fec area
      = bumpPort (bumpPort d f.port.val 9) f.port.val 10 (f.bytes.length + 4) := by
  subst ha
  exact (if_neg fun hc => hc.2 hp).trans (if_neg h)

theorem rxWhole_admitted {q : Parsed} {fec : Bool} {area : Option Area} {a : Area} (h : q.etherType ≠ 0x8808)
    (hp : daPasses d f.port.val q.dst = true) (ha : area = some a) : rxWhole d f q fec area = rxAdmitted d f q fec a := by
  subst ha
  exact (if_neg fun hc => hc.2 hp).trans (if_neg h)

theorem receiveFrame_eq {fec : Bool} (hfec : usesFec d f.port.val = fec) : receiveFrame d f cur
    = if f.fragment then bumpPort (rxCounted fec d f) f.port.val 7
      else if f.bytes.length + 4 < 64 then bumpPort (rxCounted fec d f) f.port.val 6
      else rxWhole (rxCounted fec d f) f (rxParsed (rxCounted fec d f) f) fec (rxArea (rxCounted fec d f) f.port.val cur) := by
  subst hfec
  unfold receiveFrame
  extract_lets p fec e q area
  show _ = if f.fragment then bumpPort e p 7 else if f.bytes.length + 4 < 64 then bumpPort e p 6 else rxWhole e f q fec area
  clear_value e q area
  unfold rxWhole
  cases area with
  | none => rfl
  | some a =>
    unfold rxAdmitted rxChecked
    generalize wakeTest e p (f.bytes.take (maxFrame e p - 4)) = w
    rfl

theorem receiveFrame_whole {fec : Bool} (hfec : usesFec d f.port.val = fec) (hf : f.fragment = false)
    (hl : 64 ≤ f.bytes.length + 4) : receiveFrame d f cur
      = rxWhole (rxCounted fec d f) f (rxParsed (rxCounted fec d f) f) fec (rxArea (rxCounted fec d f) f.port.val cur) :=
  (receiveFrame_eq hfec).trans ((if_neg (by simp [hf])).trans (if_neg (Nat.not_lt.2 hl)))

end

section

variable {s : State}

/-- The device at the end of a frame: nothing is being received. -/
def rxEnded (d : Dev) (p : Nat) : Dev := setPort d p { getPort d p with rxCur := none }

theorem usesFec_rxEnded (d : Dev) (p q : Nat) : usesFec (rxEnded (fresh d) p) q = usesFec d q := rfl

/-- The end of a frame on a port that receives. -/
theorem frameEnds_becomes (h : pathOpen s) {f : RxFrame} (hr : receives s.dev f.port.val = true) {e : Dev}
    (he : receiveFrame (rxEnded (fresh s.dev) f.port.val) f (getPort s.dev f.port.val).rxCur = e) :
    becomes (exec (.frameReceive (.ends f)) s) s fun _ => e :=
  becomes_pathEvent (f := fun d => frameReceive d (.ends f)) h.1 h.2.1 h.2.2 ((if_pos hr).trans he)

end

/-- Settles O49: the cases of a frame's end are taken in their order, a case by what has not been met before it. -/
theorem frameReceipt : Obligations.FrameReceipt := by
  refine fun s h => ⟨fun p head => ?_, fun f => ⟨fun hr => ?_, fun hr => ⟨fun hf => ?_, fun hf hl => ?_, fun hf hl =>
    ⟨fun hc => ?_, fun hc hd => ?_, fun hc hd => ⟨fun ha => ?_, fun a ha => ⟨fun hb => ?_, fun hb hk => ?_,
      fun hb hk dropped d₂ hw => ⟨fun h3 hx => ?_, fun h3 h4 hx => ?_, fun hx => ⟨fun hdr => ?_, fun hdr => ?_⟩⟩⟩⟩⟩⟩⟩⟩
  · exact onlyIf_pathEvent (f := fun d => frameReceive d (.begins p head)) h.1 h.2.1 h.2.2 (fun hc => if_pos hc)
      fun hc => if_neg hc
  · exact rests_pathEvent (f := fun d => frameReceive d (.ends f)) h.1 h.2.1 h.2.2
      (if_neg fun hc => Bool.false_ne_true (hr.symm.trans hc))
  · exact frameEnds_becomes h hr ((receiveFrame_eq (usesFec_rxEnded _ _ _)).trans (if_pos hf))
  · exact frameEnds_becomes h hr ((receiveFrame_eq (usesFec_rxEnded _ _ _)).trans
      ((if_neg (by simp [hf])).trans (if_pos hl)))
  · exact frameEnds_becomes h hr ((receiveFrame_whole (usesFec_rxEnded _ _ _) hf hl).trans (rxWhole_control hc))
  · exact frameEnds_becomes h hr ((receiveFrame_whole (usesFec_rxEnded _ _ _) hf hl).trans (rxWhole_foreign hc hd))
  · exact frameEnds_becomes h hr ((receiveFrame_whole (usesFec_rxEnded _ _ _) hf hl).trans (rxWhole_refused hc hd ha))
  all_goals
    have hwhole := (receiveFrame_whole (usesFec_rxEnded s.dev f.port.val f.port.val) hf hl).trans (rxWhole_admitted hc hd ha)
  · exact frameEnds_becomes h hr (hwhole.trans (rxAdmitted_bad hb))
  · exact frameEnds_becomes h hr (hwhole.trans (rxAdmitted_fcs hb hk))
  all_goals have hgood := hwhole.trans (rxAdmitted_good hb hk hw)
  · exact frameEnds_becomes h hr (hgood.trans (rxChecked_l3 h3 hx))
  · exact frameEnds_becomes h hr (hgood.trans (rxChecked_l4 h3 h4 hx))
  · exact frameEnds_becomes h hr (hgood.trans ((rxChecked_passed hx).trans (if_pos hdr)))
  · exact frameEnds_becomes h hr (hgood.trans ((rxChecked_passed hx).trans (if_neg (by simp [hdr]))))

end Sys2Proof.Machine

/-! R139, R141, R147, R151, R152, R171, R185, R188, R191, R193: contexts of the array and broadcasts. -/

namespace Sys2Proof.Machine

open Sys2Proof

section

variable {d : Dev} {e t : Nat}

/-! ### Contexts -/

theorem removeDesc_bt (d : Dev) (c : Nat) (x : Desc) : (removeDesc d c x).bt = d.bt := by
  unfold removeDesc
  extract_lets e
  have h : e.bt = d.bt := by
    show (if c < 128 then d else settle d c).bt = d.bt
    split
    · rfl
    · exact (WakeKeeps.of_counted (settleSome_counted d [c])).bt
  exact h

theorem countPath_bt (p : List Nat) (d : Dev) : (countPath d p).bt = d.bt := by
  induction p generalizing d with
  | nil => rfl
  | cons c rest ih =>
    cases rest with
    | nil => rfl
    | cons n rest =>
      unfold countPath
      exact (ih _).trans ((WakeKeeps.countNest _ c _ 1).bt.trans (WakeKeeps.countNest d c 2 1).bt)

theorem thread_lt (d : Dev) (e n : Nat) : (freeThreads d e).getD n 0 < 8 := by
  rw [List.getD_eq_getElem?_getD]
  cases h : (freeThreads d e)[n]? with
  | none => exact Nat.zero_lt_succ 7
  | some t => exact List.mem_range.1 (List.mem_filter.1 (List.mem_of_getElem? h)).1

/-- What an allocation gives: a thread, and a context there with its descriptor, since now. -/
theorem allocate_shape (d : Dev) (c e code : Nat) (x : Desc) (p : List Nat) : ∃ t ctx d', t < 8 ∧ ctx.desc = x
    ∧ ctx.allocBt = d.bt ∧ allocate d c e code x p = (8 * e + t, ctx, setCtx d' e t (some ctx)) := by
  unfold allocate
  have h₀ : (draw d).2.bt = d.bt := rfl
  generalize draw d = q at h₀ ⊢
  obtain ⟨v, d₀⟩ := q
  dsimp -zeta only at h₀ ⊢
  extract_lets ts t d₁ idle d₂ n ctx src d₃ d₄ d₅ d₆ d₇
  have h₁ : d₁.bt = d.bt :=
    (countPath_bt p _).trans ((removeDesc_bt _ c x).trans ((WakeKeeps.of_counted (settleSome_counted d₀ (lineage e))).bt.trans h₀))
  have h₂ : d₂.bt = d.bt := (foldl_keeps (p := Dev.bt)
    (step := fun d n => setNode d n { getNode d n with lastGrantBt := d.bt, idleMs := idle }) (lineage e)
    (fun _ _ _ => rfl) d₁).trans h₁
  exact ⟨t, ctx, d₇, thread_lt d₀ e _, rfl, h₂, rfl⟩

/-- A context allocated at an engine is on a thread of its own, with its descriptor, since now. -/
theorem allocate_context (d : Dev) (c e code : Nat) (x : Desc) (p : List Nat) :
    (allocate d c e code x p).1 / 8 = e
      ∧ ctxAt (allocate d c e code x p).2.2 e ((allocate d c e code x p).1 % 8) = some (allocate d c e code x p).2.1
      ∧ (allocate d c e code x p).2.1.desc = x ∧ (allocate d c e code x p).2.1.allocBt = d.bt := by
  obtain ⟨t, ctx, d', ht, hx, hb, h⟩ := allocate_shape d c e code x p
  rw [h]
  refine ⟨?_, ?_, hx, hb⟩
  · show (8 * e + t) / 8 = e
    omega
  · show ctxAt (setCtx d' e t (some ctx)) e ((8 * e + t) % 8) = some ctx
    rw [show (8 * e + t) % 8 = t by omega]
    exact Tab.get_set_same none d'.arr.ctx (8 * e + t) (some ctx)

theorem descriptorGrant_full (h : freeThreads d e = []) : descriptorGrant d e = d :=
  if_pos (List.isEmpty_iff.2 h)

/-- An engine starts on a granted descriptor. -/
def grantStarts (d : Dev) (e c : Nat) (x : Desc) (p : List Nat) : Dev :=
  let code := if takesNts d (draft d c x) then 1 else serviceCode x.service
  let (k, ctx, d) := allocate d c e code x p
  let (n, d) := drawUpTo d 4
  let (m, d) := drawUpTo d 4
  startHandling (countNode (countNode d e 28 n) e 29 m) k ctx

theorem descriptorGrant_none {d₂ : Dev} (h : freeThreads d e ≠ []) (hg : grantAt (retentionExit d) e = (none, d₂)) :
    descriptorGrant d e = d₂ := by
  refine (if_neg fun hc => h (List.isEmpty_iff.1 hc)).trans ?_
  rw [hg]

theorem descriptorGrant_some {d₂ : Dev} {c : Nat} {x : Desc} {p : List Nat} (h : freeThreads d e ≠ [])
    (hg : grantAt (retentionExit d) e = (some (c, x, p), d₂)) : descriptorGrant d e = grantStarts d₂ e c x p := by
  refine (if_neg fun hc => h (List.isEmpty_iff.1 hc)).trans ?_
  rw [hg]
  rfl

/-! ### What a context waits for -/

theorem clientUpdated_none (h : ctxAt d e t = none) : clientUpdated d e t = d := by
  unfold clientUpdated
  rw [h]

theorem clientUpdated_some {x : Context} (h : ctxAt d e t = some x) : clientUpdated d e t
    = if x.phase = .client then (if x.nts.isSome then ntsClient d (8 * e + t) x else ntpClient d (8 * e + t) x) else d := by
  unfold clientUpdated
  rw [h]

theorem tableReadComplete_none (h : ctxAt d e t = none) : tableReadComplete d e t = d := by
  unfold tableReadComplete
  rw [h]

theorem tableReadComplete_grant {x : Context} (h : ctxAt d e t = some x) (hp : x.phase = .grant) :
    tableReadComplete d e t = ptpGranted d (8 * e + t) x := by
  unfold tableReadComplete
  rw [h]
  dsimp only
  rw [hp]

theorem tableReadComplete_ring {x : Context} {w : NtsWork} (h : ctxAt d e t = some x) (hp : x.phase = .ring)
    (hw : x.nts = some w) : tableReadComplete d e t = ntsSampled d (8 * e + t) x w := by
  unfold tableReadComplete
  rw [h]
  dsimp only
  rw [hp]
  dsimp only
  rw [hw]

theorem tableReadComplete_other {x : Context} (h : ctxAt d e t = some x) (hg : x.phase ≠ .grant) (hr : x.phase ≠ .ring) :
    tableReadComplete d e t = d := by
  unfold tableReadComplete
  rw [h]
  dsimp only
  split
  · exact absurd ‹_› hg
  · exact absurd ‹_› hr
  · rfl

theorem creditAvailable_none (h : ctxAt d e t = none) : creditAvailable d e t = d := by
  unfold creditAvailable
  rw [h]

theorem creditAvailable_credit {x : Context} {o : TxOut} (h : ctxAt d e t = some x) (hp : x.phase = .credit o) :
    creditAvailable d e t = handOn d (8 * e + t) x o := by
  unfold creditAvailable
  rw [h]
  dsimp only
  rw [hp]

theorem creditAvailable_other {x : Context} (h : ctxAt d e t = some x) (hp : ∀ o, x.phase ≠ .credit o) :
    creditAvailable d e t = d := by
  unfold creditAvailable
  rw [h]
  dsimp only
  split
  next o ho => exact absurd ho (hp o)
  next => rfl

theorem contextTimeout_none (h : ctxAt d e t = none) : contextTimeout d e t = d := by
  unfold contextTimeout
  rw [h]

theorem contextTimeout_some {x : Context} (h : ctxAt d e t = some x) : contextTimeout d e t
    = if x.timeoutUs * 1000 ≤ (d.bt - x.allocBt + 1) * btNs d then
        engineException (abandonContext d (8 * e + t) x) (8 * e + t) 1 x.desc.tenant
      else d := by
  unfold contextTimeout
  rw [h]

theorem aeadJobComplete_none {ok : Bool} (h : laneOf d e t = none) : aeadJobComplete d e t ok = d := by
  unfold aeadJobComplete
  rw [h]

/-- A lane's job ends, and its nest's next ones start. -/
def laneEnds (l : Nat) (r : LaneRun) (ok : Bool) (d : Dev) : Dev :=
  let d := settle d (128 + l / 2)
  let d := jobReturned (finishLane d l r ok (cycleAt d d.obs.phase)) r ok
  startLanes d (l / 2) (cycleAt d d.obs.phase)

theorem aeadJobComplete_some {ok : Bool} {l : Nat} {r : LaneRun} (h : laneOf d e t = some (l, r)) : aeadJobComplete d e t ok
    = if ok = true ∧ (d.bt + 1) * cyclesPerBt d < r.from_ + r.job.blocks then d else laneEnds l r ok d := by
  unfold aeadJobComplete
  rw [h]
  rfl

/-! ### Broadcasts -/

/-- A broadcast of an enabled tenant is due at a port, 20 µs before its launch instant. -/
def BroadcastDue (d : Dev) (t p l : Nat) : Prop :=
  d.pwr.tablesLost = false ∧ tenantBound d t = true ∧ flag d .bcast t Bc.bcastEn = true
    ∧ bit (fld d .bcast t Bc.portMask) p = true ∧ portStarts d p = true ∧ bcastGrid d t l = true
    ∧ reached d ((l - 20000) * 2 ^ 32) = true

theorem broadcastDue_early {p l : Nat} (h : ¬ BroadcastDue d t p l) : broadcastDue d t p l = d :=
  if_neg fun ⟨h1, h2, h3, h4⟩ => h ⟨h1, h2, decide_eq_true h3, h4⟩

theorem broadcastDue_due {p l : Nat} (h : BroadcastDue d t p l) : broadcastDue d t p l
    = if isAlarm (servedState d t (svcNow d)) then bumpNtp d t 28
      else if (sourceEntry d t p (fld d .bcast t Bc.bcastFamily)).isNone then bumpNtp d t 29
      else wakeTarget (dispatch d (ownDesc d t p (.bcast p l))) t := by
  obtain ⟨h1, h2, h3, h4⟩ := h
  exact if_pos ⟨h1, h2, of_decide_eq_true h3, h4⟩

end

section

variable {s : State}

theorem contextEvents (h : pathOpen s) (e : Fin 128) (t : Fin 8) {x : Context} (hx : ctxAt s.dev e.val t.val = some x) :
    (x.nts = none → onlyIf (x.phase = .client) (exec (.clientTableUpdate e t) s) s
      fun d => ntpClient d (8 * e.val + t.val) x)
    ∧ (x.nts.isSome = true → onlyIf (x.phase = .client) (exec (.clientTableUpdate e t) s) s
      fun d => ntsClient d (8 * e.val + t.val) x)
    ∧ (x.phase = .grant → becomes (exec (.tableReadComplete e t) s) s fun d => ptpGranted d (8 * e.val + t.val) x)
    ∧ (∀ w, x.phase = .ring → x.nts = some w →
      becomes (exec (.tableReadComplete e t) s) s fun d => ntsSampled d (8 * e.val + t.val) x w)
    ∧ (x.phase ≠ .grant → x.phase ≠ .ring → rests (exec (.tableReadComplete e t) s) s)
    ∧ (∀ o, x.phase = .credit o → becomes (exec (.txCreditAvailable e t) s) s fun d => handOn d (8 * e.val + t.val) x o)
    ∧ ((∀ o, x.phase ≠ .credit o) → rests (exec (.txCreditAvailable e t) s) s)
    ∧ onlyIf (x.timeoutUs * 1000 ≤ (s.dev.bt - x.allocBt + 1) * btNs s.dev) (exec (.contextTimeout e t) s) s
        fun d => engineException (abandonContext d (8 * e.val + t.val) x) (8 * e.val + t.val) 1 x.desc.tenant := by
  obtain ⟨h, hr, hp⟩ := h
  have hc := clientUpdated_some (d := fresh s.dev) hx
  refine ⟨fun hn => ?_, fun hn => ?_, fun hg => ?_, fun w hg hw => ?_, fun hg hk => ?_, fun o ho => ?_, fun ho => ?_, ?_⟩
  · exact onlyIf_pathEvent (f := fun d => clientUpdated d e.val t.val) h hr hp
      (fun hb => hc.trans ((if_pos hb).trans (if_neg (by simp [hn])))) fun hb => hc.trans (if_neg hb)
  · exact onlyIf_pathEvent (f := fun d => clientUpdated d e.val t.val) h hr hp
      (fun hb => hc.trans ((if_pos hb).trans (if_pos hn))) fun hb => hc.trans (if_neg hb)
  · exact becomes_pathEvent (f := fun d => tableReadComplete d e.val t.val) h hr hp
      (tableReadComplete_grant (d := fresh s.dev) hx hg)
  · exact becomes_pathEvent (f := fun d => tableReadComplete d e.val t.val) h hr hp
      (tableReadComplete_ring (d := fresh s.dev) hx hg hw)
  · exact rests_pathEvent (f := fun d => tableReadComplete d e.val t.val) h hr hp
      (tableReadComplete_other (d := fresh s.dev) hx hg hk)
  · exact becomes_pathEvent (f := fun d => creditAvailable d e.val t.val) h hr hp
      (creditAvailable_credit (d := fresh s.dev) hx ho)
  · exact rests_pathEvent (f := fun d => creditAvailable d e.val t.val) h hr hp
      (creditAvailable_other (d := fresh s.dev) hx ho)
  · have ht := contextTimeout_some (d := fresh s.dev) hx
    exact onlyIf_pathEvent (f := fun d => contextTimeout d e.val t.val) h hr hp (fun hb => ht.trans (if_pos hb))
      fun hb => ht.trans (if_neg hb)

theorem laneEvents (h : pathOpen s) (e : Fin 128) (t : Fin 8) (ok : Bool) :
    (laneOf s.dev e.val t.val = none → rests (exec (.aeadJobComplete e t ok) s) s)
    ∧ (∀ l r, laneOf s.dev e.val t.val = some (l, r) →
      onlyIf (ok = false ∨ r.from_ + r.job.blocks ≤ (s.dev.bt + 1) * cyclesPerBt s.dev) (exec (.aeadJobComplete e t ok) s) s
        (laneEnds l r ok)) := by
  obtain ⟨h, hr, hp⟩ := h
  refine ⟨fun hl => ?_, fun l r hl => ?_⟩
  · exact rests_pathEvent (f := fun d => aeadJobComplete d e.val t.val ok) h hr hp
      (aeadJobComplete_none (d := fresh s.dev) hl)
  · have hj := aeadJobComplete_some (d := fresh s.dev) (ok := ok) hl
    refine onlyIf_pathEvent (f := fun d => aeadJobComplete d e.val t.val ok) h hr hp (fun hb => hj.trans (if_neg ?_))
      fun hb => hj.trans (if_pos ?_)
    · rintro ⟨ho, hlt⟩
      exact hb.elim (fun hf => Bool.false_ne_true (hf.symm.trans ho)) fun hle => Nat.not_lt.2 hle hlt
    · rw [not_or, Bool.not_eq_false, Nat.not_le] at hb
      exact hb

end

/-- Settles O50: each event is taken through the branches of its one function; what the nests count on the way to a context
takes no time. -/
theorem serviceEvents : Obligations.ServiceEvents := by
  refine ⟨allocate_context, fun s h => ⟨fun e => ⟨fun hf => ?_, fun hf g d₂ hg => ⟨fun hn => ?_, fun c x p hn => ?_⟩⟩,
    fun e t => ⟨fun hx => ⟨?_, ?_, ?_, ?_⟩, fun x hx => contextEvents h e t hx, fun ok => laneEvents h e t ok⟩,
    fun t p l => ⟨fun hd => ?_, fun hd ha => ?_, fun hd ha hs => ?_, fun hd ha hs => ?_⟩⟩⟩ <;> obtain ⟨h, hr, hp⟩ := h
  · exact rests_pathEvent (f := fun d => descriptorGrant d e.val) h hr hp (descriptorGrant_full (d := fresh s.dev) hf)
  · subst hn
    exact becomes_pathEvent (f := fun d => descriptorGrant d e.val) h hr hp (descriptorGrant_none (d := fresh s.dev) hf hg)
  · subst hn
    exact becomes_pathEvent (f := fun d => descriptorGrant d e.val) h hr hp (descriptorGrant_some (d := fresh s.dev) hf hg)
  · exact rests_pathEvent (f := fun d => clientUpdated d e.val t.val) h hr hp (clientUpdated_none (d := fresh s.dev) hx)
  · exact rests_pathEvent (f := fun d => tableReadComplete d e.val t.val) h hr hp
      (tableReadComplete_none (d := fresh s.dev) hx)
  · exact rests_pathEvent (f := fun d => creditAvailable d e.val t.val) h hr hp (creditAvailable_none (d := fresh s.dev) hx)
  · exact rests_pathEvent (f := fun d => contextTimeout d e.val t.val) h hr hp (contextTimeout_none (d := fresh s.dev) hx)
  · exact rests_pathEvent (f := fun d => broadcastDue d t.val p.val l) h hr hp (broadcastDue_early (d := fresh s.dev) hd)
  all_goals have hb := broadcastDue_due (d := fresh s.dev) hd
  · exact becomes_pathEvent (f := fun d => broadcastDue d t.val p.val l) h hr hp (hb.trans (if_pos ha))
  · exact becomes_pathEvent (f := fun d => broadcastDue d t.val p.val l) h hr hp (hb.trans
      ((if_neg fun hc => Bool.false_ne_true (ha.symm.trans hc)).trans
        (if_pos (Option.isNone_iff_eq_none.2 (Option.not_isSome_iff_eq_none.1 fun hc => Bool.false_ne_true (hs.symm.trans hc))))))
  · exact becomes_pathEvent (f := fun d => broadcastDue d t.val p.val l) h hr hp (hb.trans
      ((if_neg fun hc => Bool.false_ne_true (ha.symm.trans hc)).trans
        (if_neg fun hc => Option.isSome_iff_ne_none.1 hs (Option.isNone_iff_eq_none.1 hc))))

end Sys2Proof.Machine

/-! R63, R238, R239, R243, R244: the grant scheduler and the clients of PTP. -/

namespace Sys2Proof.Machine

open Sys2Proof

section

variable {s : State} {f g : Dev → Dev} {b : Prop}

/-! ### Events of the clients -/

theorem rests_stopped (h : pathOpen s) (hf : fwRuns s.dev = false) : rests (onProcessor s f) s :=
  rests_pathEvent (f := fun d => if fwRuns d then f d else d) h.1 h.2.1 h.2.2
    (if_neg fun hc => Bool.false_ne_true (hf.symm.trans hc))

theorem becomes_processor (h : pathOpen s) (hf : fwRuns s.dev = true) (hg : f (fresh s.dev) = g (fresh s.dev)) :
    becomes (onProcessor s f) s g :=
  becomes_pathEvent (f := fun d => if fwRuns d then f d else d) h.1 h.2.1 h.2.2 ((if_pos hf).trans hg)

theorem rests_processor (h : pathOpen s) (hf : fwRuns s.dev = true) (hg : f (fresh s.dev) = fresh s.dev) :
    rests (onProcessor s f) s := becomes_processor h hf hg

theorem onlyIf_processor (h : pathOpen s) (hf : fwRuns s.dev = true) (hb : b → f (fresh s.dev) = g (fresh s.dev))
    (hn : ¬ b → f (fresh s.dev) = fresh s.dev) : onlyIf b (onProcessor s f) s g :=
  ⟨fun hc => becomes_processor h hf (hb hc), fun hc => rests_processor h hf (hn hc)⟩

end

section

variable {d : Dev}

/-! ### Messages of the schedules (R239) -/

/-- The instant of a schedule's message has come. -/
def MessageDue (d : Dev) (key due : Nat) (log : Int) : Prop := dueGrid key log due = true ∧ reached d due = true

/-- The schedule of a UDP group has no source entry. -/
def NoSource (d : Dev) (key t : Nat) : Prop :=
  ∃ q, schedPort key = some q ∧ fld d .ptpPort q PPort.transport ≠ 0
    ∧ groupSource d t q (fld d .ptpPort q PPort.transport) = none

/-- NoSource, as the scheduler tests it. -/
def lacksSource (d : Dev) (key t : Nat) : Bool :=
  match schedPort key with
  | some p => decide (fld d .ptpPort p PPort.transport ≠ 0) && (groupSource d t p (fld d .ptpPort p PPort.transport)).isNone
  | none => false

theorem lacksSource_iff {key t : Nat} : lacksSource d key t = true ↔ NoSource d key t := by
  unfold lacksSource NoSource
  cases schedPort key with
  | none => simp
  | some p => simp

theorem messageDue_none {key due : Nat} (h : schedule d key = none) : messageDue d key due = d := by
  unfold messageDue
  rw [h]

theorem messageDue_some {key due t p : Nat} {log : Int} (h : schedule d key = some (t, p, log)) : messageDue d key due
    = if (!dueGrid key log due) = true ∨ (!reached d due) = true then d
      else if servedState d t (svcNow d) = 0 ∨ lacksSource d key t = true then bumpPtp d t 22
      else if schedBusy d key then bumpPtp d t 21
      else wakeTarget (dispatch d (ownDesc d t p (.sched key due))) t := by
  unfold messageDue
  rw [h]
  rfl

theorem messageDue_early {key due t p : Nat} {log : Int} (h : schedule d key = some (t, p, log))
    (hd : ¬ MessageDue d key due log) : messageDue d key due = d := by
  refine (messageDue_some h).trans (if_pos (Classical.not_not.1 fun hneg => hd ?_))
  simpa [MessageDue] using hneg

theorem messageDue_due {key due t p : Nat} {log : Int} (h : schedule d key = some (t, p, log))
    (hd : MessageDue d key due log) : messageDue d key due
      = if servedState d t (svcNow d) = 0 ∨ lacksSource d key t = true then bumpPtp d t 22
        else if schedBusy d key then bumpPtp d t 21
        else wakeTarget (dispatch d (ownDesc d t p (.sched key due))) t := by
  obtain ⟨hg, hr⟩ := hd
  exact (messageDue_some h).trans (if_neg (by simp [hg, hr]))

/-! ### Follow_Up (R239) -/

/-- A returned stamp taken from its list. -/
def followLeft (rest : List FollowUp) (d : Dev) : Dev := { d with ptp := { d.ptp with followUps := rest } }

/-- The Follow_Up of a returned stamp. -/
def followMsg (u : FollowUp) (d : Dev) : List Byte :=
  let ts := ptpTime (atStamp d u.stamp) (tenantView d u.tenant) u.stamp
  ptpHeader d u.tenant u.port ptpFollowUp 44 u.domain (if u.grant.isSome then 4 else 0) 0 ts.2.2 u.seq
    (if u.grant.isSome then 0x7F else ofInt 8 u.log) ++ stampBytes ts

theorem followUpDue_none (h : d.ptp.followUps = []) : followUpDue d = d := by
  unfold followUpDue
  rw [h]

theorem followUpDue_some {u : FollowUp} {rest : List FollowUp} (h : d.ptp.followUps = u :: rest) : followUpDue d
    = if servedState d u.tenant (svcNow d) = 0 then followLeft rest d
      else match u.grant with
        | some g => enqueue (followLeft rest d) u.port 4 ((ptpUdp (followLeft rest d) u.tenant u.port g.entry g.mac g.tags
            (decide (g.family = 2)) g.addr 320 (followMsg u (followLeft rest d))).tx (.ptp u.tenant 3 none none))
        | none =>
          match ptpGroup (followLeft rest d) u.tenant u.port 320 (groupSource (followLeft rest d) u.tenant u.port)
              (followMsg u (followLeft rest d)) with
          | some f => enqueue (followLeft rest d) u.port 4 (f.tx (.ptp u.tenant 3 none none))
          | none => bumpPtp (followLeft rest d) u.tenant 22 := by
  unfold followUpDue
  rw [h] <;> rfl

/-! ### Grants (R238) -/

theorem grantExpiry_free {g type : Nat} (h : grantEntry d g = none) : grantExpiry d g type = d := by
  unfold grantExpiry
  rw [h]

theorem grantExpiry_none {g type : Nat} {x : GrantEntry} (h : grantEntry d g = some x) (hx : x.grant type = none) :
    grantExpiry d g type = d := by
  unfold grantExpiry
  rw [h]
  dsimp only
  rw [hx]

theorem grantExpiry_some {g type : Nat} {x : GrantEntry} {y : Grant} (h : grantEntry d g = some x)
    (hx : x.grant type = some y) : grantExpiry d g type
      = if y.expiryBt ≤ d.bt then setGrant (bumpPtp d x.tenant 7) g (some (endGrant d x type)) else d := by
  unfold grantExpiry
  rw [h]
  dsimp only
  rw [hx]

theorem grantFree_none {g : Nat} (h : grantEntry d g = none) : grantFree d g = d := by
  unfold grantFree
  rw [h]

theorem grantFree_some {g : Nat} {x : GrantEntry} (h : grantEntry d g = some x) : grantFree d g
    = if x.holdsNone = true ∧ 10 ^ 9 ≤ (d.bt - x.idleBt) * btNs d then setGrant d g none else d := by
  unfold grantFree
  rw [h]

/-! ### Frames of a client (R243, R244) -/

/-- A waiting frame taken from its list. -/
def frameTaken (m : Nat) (x : Desc) (d : Dev) : Dev := { d with ptp := { d.ptp with inbox := d.ptp.inbox.erase (m, x) } }

/-- A message is the client's: well formed, in its domain, and of its master's address where it negotiates. -/
def Heard (d : Dev) (p : Nat) (b : List Byte) (source : Nat) : Prop :=
  msgMalformed b = false ∧ rdBe b 4 1 = fld d .ptpPort p PPort.domain
    ∧ (negotiates d p = true → source = fld d .ptpPort p PPort.masterAddr)

/-- The least length of a message of a type. -/
def leastLen (type : Nat) : Nat := if type = ptpAnnounce then 64 else if type = ptpDelayResp then 54 else 44

/-- A message has a type the client handles; a Sync is of the selected master. -/
def Handled (d : Dev) (m : Nat) (b : List Byte) : Prop :=
  leastLen (msgType b) ≤ msgLen b
    ∧ (msgType b = ptpAnnounce ∨ msgType b = ptpSignaling
      ∨ msgType b = ptpSync ∧ msgSource b = fld d .ptpClient m PCli.masterPortId ∨ msgType b = ptpFollowUp
      ∨ msgType b = ptpDelayResp)

/-- A message of the client handled by its type. -/
def byType (d : Dev) (m p : Nat) (x : Desc) (b : List Byte) : Dev :=
  if msgType b = ptpAnnounce then (if msgLen b < 64 then d else clientAnnounce d m b)
  else if msgType b = ptpSignaling then (if msgLen b < 44 then d else clientSignaling d m b)
  else if msgLen b < 44 then d
  else if msgType b = ptpSync then
    (if msgSource b = fld d .ptpClient m PCli.masterPortId then clientSync d m x.pkt b else d)
  else if msgType b = ptpFollowUp then clientFollowUp d m b
  else if msgType b = ptpDelayResp ∧ 54 ≤ msgLen b then clientDelayResp d m p b
  else d

/-- The client of a port takes a message. -/
def hears (d : Dev) (m p : Nat) (x : Desc) (b : List Byte) (source : Nat) : Dev :=
  if msgMalformed b = true ∨ rdBe b 4 1 ≠ fld d .ptpPort p PPort.domain
      ∨ (!(!negotiates d p || decide (source = fld d .ptpPort p PPort.masterAddr))) = true then d
  else byType d m p x b

theorem clientFrame_none {m : Nat} (h : d.ptp.inbox.find? (fun e => e.1 = m) = none) : clientFrame d m = d := by
  unfold clientFrame
  rw [h]

theorem clientFrame_away {m : Nat} {x : Desc} (h : d.ptp.inbox.find? (fun e => e.1 = m) = some (m, x))
    (hp : clientPort d m = none) : clientFrame d m = frameTaken m x d := by
  unfold clientFrame
  rw [h]
  dsimp only
  rw [show clientPort { d with ptp := { d.ptp with inbox := d.ptp.inbox.erase (m, x) } } m = none from hp]
  rfl

theorem clientFrame_port {m p : Nat} {x : Desc} (h : d.ptp.inbox.find? (fun e => e.1 = m) = some (m, x))
    (hp : clientPort d m = some p) : clientFrame d m
      = hears (frameTaken m x d) m p x (ptpMessage (frameTaken m x d) x.pkt).1 (ptpMessage (frameTaken m x d) x.pkt).2.ipSrc := by
  unfold clientFrame
  rw [h]
  dsimp only
  rw [show clientPort { d with ptp := { d.ptp with inbox := d.ptp.inbox.erase (m, x) } } m = some p from hp]
  rfl

theorem hears_heard {m p : Nat} {x : Desc} {b : List Byte} {source : Nat} (h : Heard d p b source) :
    hears d m p x b source = byType d m p x b := by
  obtain ⟨hm, hd, ha⟩ := h
  refine if_neg ?_
  rintro (h₁ | h₂ | h₃)
  · exact Bool.false_ne_true (hm.symm.trans h₁)
  · exact h₂ hd
  · simp only [Bool.not_or, Bool.not_not, Bool.and_eq_true, Bool.not_eq_true', decide_eq_false_iff_not] at h₃
    exact h₃.2 (ha h₃.1)

theorem hears_unheard {m p : Nat} {x : Desc} {b : List Byte} {source : Nat} (h : ¬ Heard d p b source) :
    hears d m p x b source = d := by
  refine if_pos (Classical.not_not.1 fun hneg => h ?_)
  rw [not_or, not_or, not_not] at hneg
  obtain ⟨hm, hd, ha⟩ := hneg
  refine ⟨Bool.not_eq_true _ ▸ hm, hd, fun hn => ?_⟩
  simpa [hn] using ha

theorem byType_announce {m p : Nat} {x : Desc} {b : List Byte} (h : Handled d m b) (ht : msgType b = ptpAnnounce) :
    byType d m p x b = clientAnnounce d m b := by
  have hl : 64 ≤ msgLen b := by
    have := h.1
    rwa [ht] at this
  exact (if_pos ht).trans (if_neg (Nat.not_lt.2 hl))

theorem byType_signaling {m p : Nat} {x : Desc} {b : List Byte} (h : Handled d m b) (ht : msgType b = ptpSignaling) :
    byType d m p x b = clientSignaling d m b := by
  have hl : 44 ≤ msgLen b := by
    have := h.1
    rwa [ht] at this
  unfold byType
  rw [ht]
  exact (if_neg (by decide)).trans ((if_pos rfl).trans (if_neg (Nat.not_lt.2 hl)))

theorem byType_sync {m p : Nat} {x : Desc} {b : List Byte} (h : Handled d m b) (ht : msgType b = ptpSync) :
    byType d m p x b = clientSync d m x.pkt b := by
  obtain ⟨hl, ht'⟩ := h
  rw [ht] at hl ht'
  have hs : msgSource b = fld d .ptpClient m PCli.masterPortId := by
    simpa [ptpSync, ptpAnnounce, ptpSignaling, ptpFollowUp, ptpDelayResp] using ht'
  unfold byType
  rw [ht]
  exact (if_neg (by decide)).trans ((if_neg (by decide)).trans ((if_neg (Nat.not_lt.2 hl)).trans ((if_pos rfl).trans (if_pos hs))))

theorem byType_followUp {m p : Nat} {x : Desc} {b : List Byte} (h : Handled d m b) (ht : msgType b = ptpFollowUp) :
    byType d m p x b = clientFollowUp d m b := by
  have hl := h.1
  rw [ht] at hl
  unfold byType
  rw [ht]
  exact (if_neg (by decide)).trans ((if_neg (by decide)).trans ((if_neg (Nat.not_lt.2 hl)).trans
    ((if_neg (by decide)).trans (if_pos rfl))))

theorem byType_delayResp {m p : Nat} {x : Desc} {b : List Byte} (h : Handled d m b) (ht : msgType b = ptpDelayResp) :
    byType d m p x b = clientDelayResp d m p b := by
  have hl : 54 ≤ msgLen b := by
    have := h.1
    rwa [ht] at this
  unfold byType
  rw [ht]
  exact (if_neg (by decide)).trans ((if_neg (by decide)).trans ((if_neg (by omega)).trans
    ((if_neg (by decide)).trans ((if_neg (by decide)).trans (if_pos ⟨rfl, hl⟩)))))

theorem byType_unhandled {m p : Nat} {x : Desc} {b : List Byte} (h : ¬ Handled d m b) : byType d m p x b = d := by
  unfold byType
  unfold Handled leastLen at h
  split
  next ht => exact if_pos (by simpa [ht] using h)
  next ha =>
    split
    next ht => exact if_pos (by simpa [ht, ptpSignaling, ptpAnnounce, ptpDelayResp] using h)
    next hg =>
      split
      next => rfl
      next hl =>
        have hl' : 44 ≤ msgLen b := Nat.not_lt.1 hl
        split
        next ht => exact if_neg (by simpa [ht, hl', ptpSync, ptpSignaling, ptpAnnounce, ptpDelayResp, ptpFollowUp] using h)
        next hs =>
          split
          next ht => exact absurd h (by simp [ht, hl', ptpFollowUp, ptpAnnounce, ptpDelayResp])
          next hf => exact if_neg fun ⟨ht, hl⟩ => h (by simp [ht, hl, ptpDelayResp, ptpAnnounce])

/-! ### Requests of a client -/

/-- A Delay_Req is due: a master is selected, the grant held where the client negotiates, the period over. -/
def Requests (d : Dev) (m p : Nat) (c : ClientInst) : Prop :=
  fld d .ptpClient m PCli.masterPortId ≠ 0 ∧ (negotiates d p = true → clientHolds d c ptpDelayResp = true)
    ∧ delayReqDue d c p = true

theorem clientRequest_none {m : Nat} (h : clientPort d m = none) : clientRequest d m = d := by
  unfold clientRequest
  rw [h]

theorem clientRenew_none {m : Nat} (h : clientPort d m = none) : clientRenew d m = d := by
  unfold clientRenew
  rw [h]

theorem announceTimeout_none {m : Nat} (h : clientPort d m = none) : announceTimeout d m = d := by
  unfold announceTimeout
  rw [h]

/-- A Delay_Req sent by a client; it joins the latest Sync's exchange if that has none. -/
def delayReqSent (m p r : Nat) (c : ClientInst) (negotiates : Bool) (d : Dev) : Dev :=
  let ex := c.exchange.map fun e => if e.reqSeq.isNone then { e with reqSeq := some c.seqDelay } else e
  let d := setClient d m { c with exchange := ex, seqDelay := (c.seqDelay + 1) % 65536, delayBt := d.bt }
  clientSend d m p 6 320 (some c.seqDelay)
    (ptpHeader d (getF r PPort.tenant) p ptpDelayReq 44 (getF r PPort.domain) (if negotiates then 4 else 0) 0 0 c.seqDelay
      (ofInt 8 (getS r PPort.logDelay)) ++ beBytes 10 0)

theorem clientRequest_waits {m p : Nat} (h : clientPort d m = some p) (hn : ¬ Requests d m p (getClient d m)) :
    clientRequest d m = d := by
  unfold clientRequest
  rw [h]
  refine if_pos (Classical.not_not.1 fun hneg => hn ?_)
  simpa [Requests] using hneg

theorem clientRequest_sends {m p : Nat} (h : clientPort d m = some p) (hr : Requests d m p (getClient d m)) :
    clientRequest d m = delayReqSent m p (getRec d .ptpPort p) (getClient d m) (negotiates d p) d := by
  obtain ⟨hm, hh, hd⟩ := hr
  unfold clientRequest
  rw [h]
  refine if_neg ?_
  rintro (h₁ | ⟨h₂, h₃⟩ | h₄)
  · exact hm h₁
  · rw [hh h₂] at h₃
    exact Bool.false_ne_true h₃
  · rw [hd] at h₄
    exact Bool.false_ne_true h₄

/-- The grants that a client asks for, each with the field of its period. -/
def wanted (d : Dev) (c : ClientInst) : List (Nat × Fld) :=
  [(ptpAnnounce, PPort.logAnnounce), (ptpSync, PPort.logSync), (ptpDelayResp, PPort.logDelay)].filter
    fun e => grantWanted d c e.1

/-- The TLVs that ask for grants. -/
def wantTlvs (r : Nat) (want : List (Nat × Fld)) : List Byte :=
  want.flatMap fun e => beBytes 2 0x0004 ++ beBytes 2 6 ++ beBytes 1 (e.1 * 16)
    ++ beBytes 1 (ofInt 8 (getS r e.2)) ++ beBytes 4 300

/-- Grants asked for by a client. -/
def grantsAsked (m p r : Nat) (c : ClientInst) (body : List Byte) (d : Dev) : Dev :=
  let d := setClient d m { c with seqSignaling := (c.seqSignaling + 1) % 65536 }
  clientSend d m p 4 320 none (ptpHeader d (getF r PPort.tenant) p ptpSignaling (44 + body.length)
    (getF r PPort.domain) 4 0 0 c.seqSignaling 0x7F ++ beBytes 10 (2 ^ 80 - 1) ++ body)

theorem clientRenew_some {m p : Nat} (h : clientPort d m = some p) : clientRenew d m
    = if (!negotiates d p) = true ∨ (wanted d (getClient d m)).isEmpty = true then d
      else grantsAsked m p (getRec d .ptpPort p) (getClient d m)
        (wantTlvs (getRec d .ptpPort p) (wanted d (getClient d m))) d := by
  unfold clientRenew
  rw [h]
  rfl

theorem clientRenew_content {m p : Nat} (h : clientPort d m = some p)
    (hn : ¬ (negotiates d p = true ∧ wanted d (getClient d m) ≠ [])) : clientRenew d m = d := by
  refine (clientRenew_some h).trans (if_pos (Classical.not_not.1 fun hneg => hn ?_))
  rw [not_or, List.isEmpty_iff] at hneg
  exact ⟨by simpa using hneg.1, hneg.2⟩

theorem clientRenew_asks {m p : Nat} (h : clientPort d m = some p)
    (hw : negotiates d p = true ∧ wanted d (getClient d m) ≠ []) : clientRenew d m
      = grantsAsked m p (getRec d .ptpPort p) (getClient d m)
        (wantTlvs (getRec d .ptpPort p) (wanted d (getClient d m))) d := by
  obtain ⟨hn, hw⟩ := hw
  refine (clientRenew_some h).trans (if_neg ?_)
  rintro (h₁ | h₂)
  · rw [hn] at h₁
    exact Bool.false_ne_true h₁
  · exact hw (List.isEmpty_iff.1 h₂)

/-- A master of the list is the selected one, silent for three Announce periods. -/
def silent (d : Dev) (m p : Nat) (e : Nat × Nat × Nat × Bool) : Bool :=
  decide (e.1 = fld d .ptpClient m PCli.masterPortId)
    && decide (3 * (2 : Rat) ^ (sfld d .ptpPort p PPort.logAnnounce) * 10 ^ 9 ≤ ((d.bt - e.2.2.1) * btNs d : Nat))

theorem announceTimeout_some {m p : Nat} (h : clientPort d m = some p) : announceTimeout d m
    = if (getClient d m).masters.any (silent d m p) = true then
        selectMaster (setClient d m { getClient d m with masters := (getClient d m).masters.filter fun e => !silent d m p e }) m
      else d := by
  unfold announceTimeout
  rw [h]
  rfl

theorem exchangeTimeout_none {m : Nat} (h : (getClient d m).exchange = none) : exchangeTimeout d m = d := by
  unfold exchangeTimeout
  rw [h]

theorem exchangeTimeout_some {m : Nat} {e : Exchange} (h : (getClient d m).exchange = some e) : exchangeTimeout d m
    = if 4 * 10 ^ 9 ≤ (d.bt - e.startBt) * btNs d then discardExchange d m else d := by
  unfold exchangeTimeout
  rw [h]

end

section

variable {s : State}

/-- A due message of a schedule that stands. -/
theorem messageEvents (h : pathOpen s) (mc : Bool) (i : Fin 65536) (an : Bool) (due t p : Nat) (log : Int)
    (hs : schedule s.dev (schedKey mc i.val an) = some (t, p, log)) :
    (¬ MessageDue s.dev (schedKey mc i.val an) due log → rests (exec (.ptpMessageDue mc i an due) s) s)
    ∧ (MessageDue s.dev (schedKey mc i.val an) due log →
      (servedState s.dev t (svcNow s.dev) = 0 ∨ NoSource s.dev (schedKey mc i.val an) t) →
        becomes (exec (.ptpMessageDue mc i an due) s) s fun d => bumpPtp d t 22)
    ∧ (MessageDue s.dev (schedKey mc i.val an) due log → servedState s.dev t (svcNow s.dev) ≠ 0 →
      ¬ NoSource s.dev (schedKey mc i.val an) t →
      (schedBusy s.dev (schedKey mc i.val an) = true →
        becomes (exec (.ptpMessageDue mc i an due) s) s fun d => bumpPtp d t 21)
      ∧ (schedBusy s.dev (schedKey mc i.val an) = false →
        becomes (exec (.ptpMessageDue mc i an due) s) s
          fun d => wakeTarget (dispatch d (ownDesc d t p (.sched (schedKey mc i.val an) due))) t)) := by
  obtain ⟨h, hr, hp⟩ := h
  refine ⟨fun hd => ?_, fun hd hn => ?_, fun hd h0 hn => ?_⟩
  · exact rests_pathEvent (f := fun d => messageDue d (schedKey mc i.val an) due) h hr hp
      (messageDue_early (d := fresh s.dev) hs hd)
  · exact becomes_pathEvent (f := fun d => messageDue d (schedKey mc i.val an) due) h hr hp
      ((messageDue_due (d := fresh s.dev) hs hd).trans (if_pos (hn.imp_right lacksSource_iff.2)))
  · have hm := (messageDue_due (d := fresh s.dev) hs hd).trans
      (if_neg fun hc => hc.elim h0 fun hl => hn (lacksSource_iff.1 hl))
    refine ⟨fun hb => ?_, fun hb => ?_⟩
    · exact becomes_pathEvent (f := fun d => messageDue d (schedKey mc i.val an) due) h hr hp (hm.trans (if_pos hb))
    · exact becomes_pathEvent (f := fun d => messageDue d (schedKey mc i.val an) due) h hr hp
        (hm.trans (if_neg fun hc => Bool.false_ne_true (hb.symm.trans hc)))

theorem grantEvents (h : pathOpen s) (g : Fin 65536) :
    (grantEntry s.dev g.val = none →
      (∀ k, rests (exec (.grantExpiry g k) s) s) ∧ rests (exec (.grantEntryFree g) s) s)
    ∧ (∀ x, grantEntry s.dev g.val = some x →
      (∀ k, x.grant (grantType k.val) = none → rests (exec (.grantExpiry g k) s) s)
      ∧ (∀ k y, x.grant (grantType k.val) = some y →
        onlyIf (y.expiryBt ≤ s.dev.bt) (exec (.grantExpiry g k) s) s
          fun d => setGrant (bumpPtp d x.tenant 7) g.val (some (endGrant d x (grantType k.val))))
      ∧ onlyIf (x.holdsNone = true ∧ 10 ^ 9 ≤ (s.dev.bt - x.idleBt) * btNs s.dev) (exec (.grantEntryFree g) s) s
          fun d => setGrant d g.val none) := by
  obtain ⟨h, hr, hp⟩ := h
  refine ⟨fun hg => ⟨fun k => ?_, ?_⟩, fun x hg => ⟨fun k hx => ?_, fun k y hx => ?_, ?_⟩⟩
  · exact rests_pathEvent (f := fun d => grantExpiry d g.val (grantType k.val)) h hr hp
      (grantExpiry_free (d := fresh s.dev) hg)
  · exact rests_pathEvent (f := fun d => grantFree d g.val) h hr hp (grantFree_none (d := fresh s.dev) hg)
  · exact rests_pathEvent (f := fun d => grantExpiry d g.val (grantType k.val)) h hr hp
      (grantExpiry_none (d := fresh s.dev) hg hx)
  · have he := grantExpiry_some (d := fresh s.dev) hg hx
    exact onlyIf_pathEvent (f := fun d => grantExpiry d g.val (grantType k.val)) h hr hp (fun hc => he.trans (if_pos hc))
      fun hc => he.trans (if_neg hc)
  · have he := grantFree_some (d := fresh s.dev) hg
    exact onlyIf_pathEvent (f := fun d => grantFree d g.val) h hr hp (fun hc => he.trans (if_pos hc))
      fun hc => he.trans (if_neg hc)

/-- A waiting frame of a client on its port. -/
theorem frameEvents (h : pathOpen s) (hf : fwRuns s.dev = true) (m : Fin 2) {p : Nat} {x : Desc}
    (hx : s.dev.ptp.inbox.find? (fun e => e.1 = m.val) = some (m.val, x)) (hp : clientPort s.dev m.val = some p)
    {b : List Byte} {source : Nat} (hb : (ptpMessage (frameTaken m.val x (fresh s.dev)) x.pkt).1 = b)
    (hsrc : (ptpMessage (frameTaken m.val x (fresh s.dev)) x.pkt).2.ipSrc = source) :
    (¬ (Heard s.dev p b source ∧ Handled s.dev m.val b) → becomes (exec (.ptpClientFrame m) s) s (frameTaken m.val x))
    ∧ (Heard s.dev p b source ∧ Handled s.dev m.val b →
      (msgType b = ptpAnnounce → becomes (exec (.ptpClientFrame m) s) s fun d => clientAnnounce (frameTaken m.val x d) m.val b)
      ∧ (msgType b = ptpSignaling →
        becomes (exec (.ptpClientFrame m) s) s fun d => clientSignaling (frameTaken m.val x d) m.val b)
      ∧ (msgType b = ptpSync → becomes (exec (.ptpClientFrame m) s) s fun d => clientSync (frameTaken m.val x d) m.val x.pkt b)
      ∧ (msgType b = ptpFollowUp →
        becomes (exec (.ptpClientFrame m) s) s fun d => clientFollowUp (frameTaken m.val x d) m.val b)
      ∧ (msgType b = ptpDelayResp →
        becomes (exec (.ptpClientFrame m) s) s fun d => clientDelayResp (frameTaken m.val x d) m.val p b)) := by
  have hc := clientFrame_port (d := fresh s.dev) hx hp
  rw [hb, hsrc] at hc
  have hheard : Heard (frameTaken m.val x (fresh s.dev)) p b source ↔ Heard s.dev p b source := Iff.rfl
  have hhandled : Handled (frameTaken m.val x (fresh s.dev)) m.val b ↔ Handled s.dev m.val b := Iff.rfl
  refine ⟨fun hn => ?_, fun ⟨hh, ht⟩ => ?_⟩
  · refine becomes_processor (f := fun d => clientFrame d m.val) h hf (hc.trans ?_)
    by_cases hh : Heard s.dev p b source
    · exact (hears_heard (hheard.2 hh)).trans (byType_unhandled fun ht => hn ⟨hh, hhandled.1 ht⟩)
    · exact hears_unheard (mt hheard.1 hh)
  · have hb := hc.trans (hears_heard (hheard.2 hh))
    have ht := hhandled.2 ht
    exact ⟨fun hk => becomes_processor (f := fun d => clientFrame d m.val) h hf (hb.trans (byType_announce ht hk)),
      fun hk => becomes_processor (f := fun d => clientFrame d m.val) h hf (hb.trans (byType_signaling ht hk)),
      fun hk => becomes_processor (f := fun d => clientFrame d m.val) h hf (hb.trans (byType_sync ht hk)),
      fun hk => becomes_processor (f := fun d => clientFrame d m.val) h hf (hb.trans (byType_followUp ht hk)),
      fun hk => becomes_processor (f := fun d => clientFrame d m.val) h hf (hb.trans (byType_delayResp ht hk))⟩

end

/-- Settles O51: each event is taken through the branches of its one function; a client's frame is first heard, then handled by
its type. -/
theorem ptpEvents : Obligations.PtpEvents := by
  refine ⟨fun s h => ⟨fun mc i an due => ⟨fun hs => ?_, fun t p log hs => messageEvents h mc i an due t p log hs⟩,
      fun hu => ?_, fun u rest hu => ⟨fun h0 => ?_, fun h0 => ⟨fun g hg => ?_, fun hg => ?_⟩⟩, grantEvents h⟩,
    fun s m h => ⟨fun hf => ⟨rests_stopped h hf, rests_stopped h hf, rests_stopped h hf, rests_stopped h hf, rests_stopped h hf⟩,
      fun hf => ⟨fun hx => ?_, fun x hx => ⟨fun hp => ?_, fun p hp => frameEvents h hf m hx hp rfl rfl⟩,
        fun hp => ⟨?_, ?_, ?_⟩, fun p hp => ⟨?_, ?_, ?_⟩, fun he => ?_, fun e he => ?_⟩⟩⟩
  · exact rests_pathEvent (f := fun d => messageDue d (schedKey mc i.val an) due) h.1 h.2.1 h.2.2
      (messageDue_none (d := fresh s.dev) hs)
  · exact rests_pathEvent (f := followUpDue) h.1 h.2.1 h.2.2 (followUpDue_none (d := fresh s.dev) hu)
  · exact becomes_pathEvent (f := followUpDue) h.1 h.2.1 h.2.2 ((followUpDue_some (d := fresh s.dev) hu).trans (if_pos h0))
  · have hd := (followUpDue_some (d := fresh s.dev) hu).trans (if_neg h0)
    rw [hg] at hd
    exact becomes_pathEvent (f := followUpDue) h.1 h.2.1 h.2.2 hd
  · have hd := (followUpDue_some (d := fresh s.dev) hu).trans (if_neg h0)
    rw [hg] at hd
    exact becomes_pathEvent (f := followUpDue) h.1 h.2.1 h.2.2 hd
  · exact rests_processor (f := fun d => clientFrame d m.val) h hf (clientFrame_none (d := fresh s.dev) hx)
  · exact becomes_processor (f := fun d => clientFrame d m.val) h hf (clientFrame_away (d := fresh s.dev) hx hp)
  · exact rests_processor (f := fun d => clientRequest d m.val) h hf (clientRequest_none (d := fresh s.dev) hp)
  · exact rests_processor (f := fun d => clientRenew d m.val) h hf (clientRenew_none (d := fresh s.dev) hp)
  · exact rests_processor (f := fun d => announceTimeout d m.val) h hf (announceTimeout_none (d := fresh s.dev) hp)
  · exact onlyIf_processor (f := fun d => clientRequest d m.val) h hf (clientRequest_sends (d := fresh s.dev) hp)
      (clientRequest_waits (d := fresh s.dev) hp)
  · exact onlyIf_processor (f := fun d => clientRenew d m.val) h hf (clientRenew_asks (d := fresh s.dev) hp)
      (clientRenew_content (d := fresh s.dev) hp)
  · have hd := announceTimeout_some (d := fresh s.dev) hp
    exact onlyIf_processor (f := fun d => announceTimeout d m.val) h hf (fun hc => hd.trans (if_pos hc))
      fun hc => hd.trans (if_neg hc)
  · exact rests_processor (f := fun d => exchangeTimeout d m.val) h hf (exchangeTimeout_none (d := fresh s.dev) he)
  · have hd := exchangeTimeout_some (d := fresh s.dev) he
    exact onlyIf_processor (f := fun d => exchangeTimeout d m.val) h hf (fun hc => hd.trans (if_pos hc))
      fun hc => hd.trans (if_neg hc)

end Sys2Proof.Machine

/-! R23, R24, R157, R160, R161, R187, R188, R413: the events of the array's nodes and of the client table. -/

namespace Sys2Proof.Machine

open Sys2Proof

section

variable {d : Dev} {c n : Nat}

/-! ### Gating (R23) -/

/-- A GATING node may be GATED: it holds no context, or 10 µs have gone by since the request at base tick `n`. -/
def GateDue (d : Dev) (c n : Nat) : Prop :=
  nodePower d c = 1 ∧ (contextsBusy d c = 0 ∨ 10000 ≤ (d.bt - n + 1) * btNs d)

theorem powerGateComplete_none (h : (getNode d c).gateBt = none) : powerGateComplete d c = d := by
  unfold powerGateComplete
  rw [h]

theorem powerGateComplete_due (h : (getNode d c).gateBt = some n) (hd : GateDue d c n) :
    powerGateComplete d c = noteRetention (gateDone d c) := by
  unfold powerGateComplete
  rw [h]
  exact if_pos hd

theorem powerGateComplete_early (h : (getNode d c).gateBt = some n) (hd : ¬ GateDue d c n) : powerGateComplete d c = d := by
  unfold powerGateComplete
  rw [h]
  exact if_neg hd

/-- What makes a node of LISTEN idle (R161): woken for its logic, its children are all GATED; else its time is over. -/
def NodeIdle (d : Dev) (c : Nat) : Prop :=
  ((getNode d c).logicOnly = true ∧ ∀ n ∈ descendants d.variant c, parentOf n = some c → nodePower d n = 2)
  ∨ ((getNode d c).logicOnly = false ∧ (getNode d c).idleMs ≠ 0
    ∧ (getNode d c).idleMs * 1000000 ≤ (d.bt - (getNode d c).lastGrantBt + 1) * btNs d)

theorem nodeIdle_iff : NodeIdle d c ↔ (if (getNode d c).logicOnly then
      ((descendants d.variant c).filter fun n => parentOf n = some c).all fun n => decide (nodePower d n = 2)
    else decide ((getNode d c).idleMs ≠ 0)
      && decide ((getNode d c).idleMs * 1000000 ≤ (d.bt - (getNode d c).lastGrantBt + 1) * btNs d)) = true := by
  unfold NodeIdle
  cases (getNode d c).logicOnly with
  | true => simp [imp_iff_not_or]
  | false => simp

theorem idleRegate_idle (h : power d = 1 ∧ nodePower d c = 0 ∧ NodeIdle d c) : idleRegate d c = gateRequest d c true :=
  if_pos ⟨h.1, h.2.1, nodeIdle_iff.1 h.2.2⟩

theorem idleRegate_busy (h : ¬ (power d = 1 ∧ nodePower d c = 0 ∧ NodeIdle d c)) : idleRegate d c = d :=
  if_neg fun hc => h ⟨hc.1, hc.2.1, nodeIdle_iff.2 hc.2.2⟩

/-! ### Resets (R24, R413) -/

/-- The reset that ends at base tick `n` is over, with the firmware where a memory is to be reloaded. -/
def ResetDue (d : Dev) (c n : Nat) : Prop :=
  n ≤ d.bt ∧ (((subtree d c).any fun n => (getNode d n).reload) = true → fwRuns d = true)

/-- A node of a reset that ends runs again, unfenced. -/
def runsAgain (d : Dev) (n : Nat) : Dev :=
  let d := setFld (setFld (settleLine d n) .nodeStatus n NodeSt.reset 0) .nodeStatus n NodeSt.fenced 0
  let d := setNode d n { getNode d n with resetEnd := none, reload := false, doors := [] }
  if 128 ≤ n ∧ n < 144 then returnLanes d n else d

theorem nodeResetRelease_none (h : (getNode d c).resetEnd = none) : nodeResetRelease d c = d := by
  unfold nodeResetRelease
  rw [h]

theorem nodeResetRelease_some (h : (getNode d c).resetEnd = some n) : nodeResetRelease d c =
    if n ≤ d.bt ∧ (!((subtree d c).any fun x => (getNode d x).reload) || fwRuns d) = true
      then (getNode d c).doors.foldl endNodeWait (setCause ((subtree d c).foldl runsAgain d) 14) else d := by
  unfold nodeResetRelease
  rw [h]
  rfl

theorem resetDue_iff : ResetDue d c n ↔
    (n ≤ d.bt ∧ (!((subtree d c).any fun x => (getNode d x).reload) || fwRuns d) = true) := by
  unfold ResetDue
  cases (subtree d c).any fun x => (getNode d x).reload <;> simp

theorem nodeResetRelease_due (h : (getNode d c).resetEnd = some n) (hd : ResetDue d c n) :
    nodeResetRelease d c = (getNode d c).doors.foldl endNodeWait (setCause ((subtree d c).foldl runsAgain d) 14) :=
  (nodeResetRelease_some h).trans (if_pos (resetDue_iff.1 hd))

theorem nodeResetRelease_early (h : (getNode d c).resetEnd = some n) (hd : ¬ ResetDue d c n) : nodeResetRelease d c = d :=
  (nodeResetRelease_some h).trans (if_neg (mt resetDue_iff.2 hd))

/-! ### Waking (R160) -/

/-- A WAKING node has not turned ON within its WAKE_TIMEOUT_US of the request at base tick `n`. -/
def WakeLate (d : Dev) (c n : Nat) : Prop :=
  nodePower d c = 3 ∧ (getNode d c).wakeUs * 1000 ≤ (d.bt - n + 1) * btNs d

/-- A node whose wake has failed: GATED, its event told, and its queue moved as if it were gated by command. -/
def wakeFailed (d : Dev) (c : Nat) : Dev :=
  let failed := setFld (setPower (settleLine d c) c 2) .nodeFlags c NodeFl.wakeFailed 1
  let asleep := setNode failed c { getNode failed c with wakeBt := none, logicOnly := false }
  let told := nodeEvent (raise (countNest asleep c 12) (srcId 0x21 c)) c
  let was := fld told .nodeFlags c NodeFl.cmdGated
  let moved := requeue (setFld told .nodeFlags c NodeFl.cmdGated 1) [c]
  noteRetention (setFld moved .nodeFlags c NodeFl.cmdGated was)

theorem wakeTimeout_none (h : (getNode d c).wakeBt = none) : wakeTimeout d c = d := by
  unfold wakeTimeout
  rw [h]

theorem wakeTimeout_late (h : (getNode d c).wakeBt = some n) (hd : WakeLate d c n) : wakeTimeout d c = wakeFailed d c := by
  unfold wakeTimeout
  rw [h]
  exact if_pos hd

theorem wakeTimeout_early (h : (getNode d c).wakeBt = some n) (hd : ¬ WakeLate d c n) : wakeTimeout d c = d := by
  unfold wakeTimeout
  rw [h]
  exact if_neg hd

/-! ### The client table (R187, R188) -/

theorem retentionExit_none (h : d.ct.retainedFrom = none) : retentionExit d = d := by
  unfold retentionExit
  rw [h]

theorem retentionExit_gated (h : d.ct.retainedFrom = some n) (ha : allGated d = true) : retentionExit d = d := by
  unfold retentionExit
  rw [h]
  exact if_pos ha

/-- The table of a retention that began at base tick `n`, out of it. -/
def leavesRetention (d : Dev) (n : Nat) : Dev :=
  let e := if 2 ^ 20 ≤ (d.bt - n) / 16384 then clearClients d else d
  { e with ct := { e.ct with retainedFrom := none } }

theorem retentionExit_ends (h : d.ct.retainedFrom = some n) (ha : allGated d = false) :
    retentionExit d = leavesRetention d n := by
  unfold retentionExit
  rw [h]
  exact if_neg (Bool.eq_false_iff.1 ha)

/-- One way of the bucket that the sweeper is at: an entry decays, and is freed at 0. -/
def sweepWay (bucket leak : Nat) (d : Dev) (w : Nat) : Dev :=
  let i := 4 * bucket + w
  let left := decayed d (ctEntry d i) leak
  if entValid (ctEntry d i) = false then d
  else if left = 0 then bumpFld (setEntry d i 0) .ct 0 Ct.sweepFreed
  else setEntry d i (mkEntry (entPrint (ctEntry d i)) left (coarseTick d) (entKod (ctEntry d i)))

theorem sweepWay_bt {bucket leak w : Nat} : (sweepWay bucket leak d w).bt = d.bt := by
  unfold sweepWay
  dsimp only
  split
  · rfl
  · split
    · rw [bumpFld_bt, setEntry_bt]
    · rw [setEntry_bt]

/-- The device with the sweeper past a bucket. -/
def bucketSwept (d : Dev) : Dev :=
  let swept := (List.range 4).foldl (sweepWay d.ct.sweep (sweepLeak d)) d
  { swept with ct := { swept.ct with sweep := (d.ct.sweep + 1) % 2 ^ 20, sweepAt := d.bt / 16384 } }

/-- The table is not in retention, and a coarse tick has come since the last bucket. -/
def SweepDue (d : Dev) : Prop := d.ct.retainedFrom = none ∧ d.ct.sweepAt < d.bt / 16384

theorem sweepDue_iff : SweepDue d ↔ ¬ (d.ct.retainedFrom.isSome = true ∨ d.bt / 16384 ≤ d.ct.sweepAt) := by
  unfold SweepDue
  simp

theorem sweepWay_eq {bucket leak : Nat} : (fun (d : Dev) (w : Nat) =>
      let i := 4 * bucket + w
      let e := ctEntry d i
      if !entValid e then d
      else
        let s := decayed d e leak
        if s = 0 then bumpFld (setEntry d i 0) .ct 0 Ct.sweepFreed
        else setEntry d i (mkEntry (entPrint e) s (coarseTick d) (entKod e))) = sweepWay bucket leak := by
  funext d w
  unfold sweepWay
  simp only [Bool.not_eq_true']

theorem sweepBucket_due (h : SweepDue d) : sweepBucket d = bucketSwept d := by
  refine (if_neg (sweepDue_iff.1 h)).trans ?_
  unfold bucketSwept
  dsimp only
  rw [sweepWay_eq, foldl_keeps (p := Dev.bt) _ (fun _ _ _ => sweepWay_bt) d]

theorem sweepBucket_early (h : ¬ SweepDue d) : sweepBucket d = d :=
  if_pos (Classical.not_not.1 (mt sweepDue_iff.2 h))

end

section

variable {s : State}

theorem nodeEvents (h : s.dev.pwr.aonUp = true) (c : Fin 149) :
    ((getNode s.dev c).gateBt = none → rests (exec (.powerGateComplete c) s) s)
    ∧ (∀ n, (getNode s.dev c).gateBt = some n → onlyIf (GateDue s.dev c n) (exec (.powerGateComplete c) s) s
        fun d => noteRetention (gateDone d c))
    ∧ ((getNode s.dev c).resetEnd = none → rests (exec (.nodeResetRelease c) s) s)
    ∧ (∀ n, (getNode s.dev c).resetEnd = some n → onlyIf (ResetDue s.dev c n) (exec (.nodeResetRelease c) s) s fun d =>
        (getNode s.dev c).doors.foldl endNodeWait (setCause ((subtree d c).foldl runsAgain d) 14)) := by
  refine ⟨fun hg => ?_, fun n hg => ?_, fun hr => ?_, fun n hr => ?_⟩
  · exact rests_event (f := fun d => powerGateComplete d c) h (powerGateComplete_none (d := fresh s.dev) hg)
  · exact onlyIf_event (f := fun d => powerGateComplete d c) h (powerGateComplete_due (d := fresh s.dev) hg)
      (powerGateComplete_early (d := fresh s.dev) hg)
  · exact rests_event (f := fun d => nodeResetRelease d c) h (nodeResetRelease_none (d := fresh s.dev) hr)
  · exact onlyIf_event (f := fun d => nodeResetRelease d c) h (nodeResetRelease_due (d := fresh s.dev) hr)
      (nodeResetRelease_early (d := fresh s.dev) hr)

theorem retentionEvents (h : s.dev.pwr.aonUp = true) :
    (s.dev.ct.retainedFrom = none → rests (exec .ctRetentionExit s) s)
    ∧ (∀ n, s.dev.ct.retainedFrom = some n → (allGated s.dev = true → rests (exec .ctRetentionExit s) s)
      ∧ (allGated s.dev = false → becomes (exec .ctRetentionExit s) s fun d => leavesRetention d n)) :=
  ⟨fun hr => rests_event (f := retentionExit) h (retentionExit_none (d := fresh s.dev) hr),
    fun _ hr => ⟨fun ha => rests_event (f := retentionExit) h (retentionExit_gated (d := fresh s.dev) hr ha),
      fun ha => becomes_event (f := retentionExit) h (retentionExit_ends (d := fresh s.dev) hr ha)⟩⟩

theorem wakeEvents (h : pathOpen s) (c : Fin 149) :
    onlyIf (power s.dev = 1 ∧ nodePower s.dev c = 0 ∧ NodeIdle s.dev c) (exec (.idleRegate c) s) s
      (fun d => gateRequest d c true)
    ∧ onlyIf (nodePower s.dev c = 3) (exec (.wakeComplete c) s) s
        (fun d => (properAncestors c ++ subtree d c).foldl nodeOn d)
    ∧ ((getNode s.dev c).wakeBt = none → rests (exec (.wakeTimeout c) s) s)
    ∧ (∀ n, (getNode s.dev c).wakeBt = some n → onlyIf (WakeLate s.dev c n) (exec (.wakeTimeout c) s) s
        fun d => wakeFailed d c) := by
  obtain ⟨h, hr, hp⟩ := h
  refine ⟨?_, ?_, fun hw => ?_, fun n hw => ?_⟩
  · exact onlyIf_pathEvent (f := fun d => idleRegate d c) h hr hp (idleRegate_idle (d := fresh s.dev))
      (idleRegate_busy (d := fresh s.dev))
  · exact onlyIf_pathEvent (f := fun d => wakeComplete d c) h hr hp (fun hc => if_pos hc) fun hc => if_neg hc
  · exact rests_pathEvent (f := fun d => wakeTimeout d c) h hr hp (wakeTimeout_none (d := fresh s.dev) hw)
  · exact onlyIf_pathEvent (f := fun d => wakeTimeout d c) h hr hp (wakeTimeout_late (d := fresh s.dev) hw)
      (wakeTimeout_early (d := fresh s.dev) hw)

end

/-- Settles O52: each event is due or it is not; a bucket's sweep ends at the base tick it began at, as no way of it moves time. -/
theorem arrayEvents : Obligations.ArrayEvents := by
  refine fun s => ⟨fun h => ⟨fun c => nodeEvents h c, retentionEvents h⟩,
    fun h => ⟨fun c => wakeEvents h c, ?_, ?_⟩⟩
  · exact onlyIf_pathEvent (f := oldDrained) h.1 h.2.1 h.2.2 (fun hc => if_neg (Bool.eq_false_iff.1 hc))
      fun hc => if_pos (Bool.not_eq_false _ ▸ hc)
  · exact onlyIf_pathEvent (f := sweepBucket) h.1 h.2.1 h.2.2 (sweepBucket_due (d := fresh s.dev))
      (sweepBucket_early (d := fresh s.dev))

end Sys2Proof.Machine

/-! R335, R336, R341, R342, R345, R351, R353: doorbells, opcodes outside the map, doors that are not served, and the end of
slow hardware. -/

namespace Sys2Proof.Machine

open Sys2Proof

section

variable {d : Dev} {f : Fn} {k op : Nat} {m : Msg}

/-! ### Doorbells (R335, R341) -/

/-- A door that takes the request posted in it; `lost` where it discards response fragments not fetched. -/
def rungDoor (x : Door) (po : Posted) (lost : Bool) : Door :=
  { x with phase := .posted, posted := some po, resp := none, more := if lost then none else x.more,
           seqLow := po.msg.sequence.toNat % 65536 }

/-- A doorbell without CONTINUE discards the response fragments that were not fetched. -/
def losesMore (x : Door) (m : Msg) : Bool := x.more.isSome && !bit m.flags.toNat 0

/-- The device of a doorbell, before its door is written: the discard counted, the requester's finish tag moved on. -/
def rungDev (d : Dev) (m : Msg) (lost : Bool) (fin : Tab Rat) : Dev :=
  let e := if lost then bumpDoor d m.fn m.door.val dsRespDiscarded else d
  { e with mbx := { e.mbx with finish := fin } }

theorem rungDev_eq (d : Dev) (m : Msg) (lost : Bool) (fin : Tab Rat) :
    rungDev d m lost fin = { (if lost then bumpDoor d m.fn m.door.val dsRespDiscarded else d) with
      mbx := { d.mbx with finish := fin } } := by
  cases lost <;> rfl

theorem rungDev_mailbox (d : Dev) (m : Msg) (lost : Bool) (fin : Tab Rat) :
    ∃ M S, rungDev d m lost fin = { d with mbx := M, stats := S } := by
  cases lost <;> exact ⟨_, _, rfl⟩

theorem getDoor_rungDev {g : Fn} {j : Nat} {lost : Bool} {fin : Tab Rat} :
    getDoor (rungDev d m lost fin) g j = getDoor d g j := by
  rw [rungDev_eq]
  rfl

/-- A doorbell on a door in IDLE or DONE copies the request and tags it (R342). -/
theorem ring_posts (hp : (getDoor d m.fn m.door.val).phase = .idle ∨ (getDoor d m.fn m.door.val).phase = .done) :
    ∃ tag fin, ring d op m
      = setDoor (rungDev d m (losesMore (getDoor d m.fn m.door.val) m) fin) m.fn m.door.val
          (rungDoor (getDoor d m.fn m.door.val) ⟨op, m, tag, d.bt⟩ (losesMore (getDoor d m.fn m.door.val) m)) := by
  cases hl : losesMore (getDoor d m.fn m.door.val) m <;>
  · unfold losesMore at hl
    unfold ring
    rcases hp with hp | hp <;>
    · simp only [hp, hl]
      exact ⟨_, _, rfl⟩

/-- On a door in POSTED or SERVING it is only counted. -/
theorem ring_ignored (hp : (getDoor d m.fn m.door.val).phase = .posted ∨ (getDoor d m.fn m.door.val).phase = .serving) :
    ring d op m = bumpDoor d m.fn m.door.val dsIgnored := by
  unfold ring
  rcases hp with hp | hp <;> simp only [hp]

/-- The request that a buffer holds, of a door that is there. -/
theorem requestOf_door {b : List Byte} {k : Fin 8} (hk : f.vf.isSome = true → k.val = 0) : (requestOf f k b).2.door = k := by
  refine Fin.ext ?_
  simp only [requestOf, Fin.ofNat]
  split
  · rw [hk ‹_›]
  · exact Nat.mod_eq_of_lt k.isLt

theorem ringDoorbell_reaches {k : Fin 8} (hb : barUp d f = true) (hk : f.vf.isSome = true → k.val = 0) :
    ringDoorbell d f k = ring d (requestOf f k (getDoor d f k).reqBuf).1 (requestOf f k (getDoor d f k).reqBuf).2 :=
  if_neg fun hc => hc.elim (fun h => by rw [hb] at h; exact Bool.false_ne_true h) fun h => h.2 (hk h.1)

theorem ringDoorbell_misses (h : barUp d f = false ∨ (f.vf.isSome = true ∧ k ≠ 0)) : ringDoorbell d f k = d :=
  if_pos (h.imp_left fun hb => by rw [hb]; rfl)

/-- What a doorbell on a door in IDLE or DONE leaves. -/
theorem ringDoorbell_posts {k : Fin 8} (hb : barUp d f = true) (hk : f.vf.isSome = true → k.val = 0)
    {x : Door} {q : Nat × Msg} {lost : Bool} (hx : getDoor d f k = x) (hq : requestOf f k x.reqBuf = q)
    (hl : losesMore x q.2 = lost) (hp : x.phase = .idle ∨ x.phase = .done) :
    (∃ tag, getDoor (ringDoorbell d f k) f k = rungDoor x ⟨q.1, q.2, tag, d.bt⟩ lost)
      ∧ (∀ g j, doorKey g j ≠ doorKey f k → getDoor (ringDoorbell d f k) g j = getDoor d g j)
      ∧ { ringDoorbell d f k with mbx := d.mbx } = (if lost then bumpDoor d f k dsRespDiscarded else d)
      ∧ (ringDoorbell d f k).mbx.locks = d.mbx.locks := by
  have hd := ringDoorbell_reaches hb hk
  have hfn : q.2.fn = f := hq ▸ rfl
  have hdoor : q.2.door = k := hq ▸ requestOf_door hk
  rw [hx, hq] at hd
  have hat : getDoor d q.2.fn q.2.door = x := by rw [hfn, hdoor, hx]
  obtain ⟨tag, fin, hr⟩ := ring_posts (d := d) (m := q.2) (op := q.1) (by rw [hat]; exact hp)
  rw [hat, hl, hfn, hdoor] at hr
  rw [hd, hr]
  refine ⟨⟨tag, getDoor_setDoor _ _ _ _⟩, fun g j hg => ?_, ?_, ?_⟩
  · rw [getDoor_setDoor_other _ _ _ _ _ _ hg, getDoor_rungDev]
  · rw [rungDev_eq, hfn, hdoor]
    cases lost <;> rfl
  · rw [rungDev_eq]
    rfl

theorem ringDoorbell_ignored {k : Fin 8} (hb : barUp d f = true) (hk : f.vf.isSome = true → k.val = 0)
    (hp : (getDoor d f k).phase = .posted ∨ (getDoor d f k).phase = .serving) :
    ringDoorbell d f k = bumpDoor d f k dsIgnored := by
  have hdoor : (requestOf f k (getDoor d f k).reqBuf).2.door = k := requestOf_door hk
  have hfn : (requestOf f k (getDoor d f k).reqBuf).2.fn = f := rfl
  rw [ringDoorbell_reaches hb hk, ring_ignored (by rw [hdoor]; exact hp), hdoor, hfn]

/-! ### A message at a door (R342, R351) -/

theorem doorsServed_mailbox (M : MbxState) (S : Tab Nat) : doorsServed { d with mbx := M, stats := S } = doorsServed d := rfl

/-- A message written and rung at its door moves the mailbox and the statistics alone. -/
theorem ring_writeRequest (hp : (getDoor d m.fn m.door.val).phase = .idle ∨ (getDoor d m.fn m.door.val).phase = .done) :
    ∃ M S, ring (writeRequest d op m) op m = { d with mbx := M, stats := S } := by
  obtain ⟨tag, fin, hr⟩ := ring_posts (d := writeRequest d op m) (m := m) (op := op) (by
    simp only [writeRequest, getDoor_setDoor]
    exact hp)
  obtain ⟨M, S, he⟩ := rungDev_mailbox (writeRequest d op m) m
    (losesMore (getDoor (writeRequest d op m) m.fn m.door.val) m) fin
  rw [hr, he]
  exact ⟨_, S, rfl⟩

/-- A message that its door does not hold yet is written and rung there. -/
theorem message_rings {c : Option Cmd} (hb : barUp d m.fn = true) (hn : (getDoor d m.fn m.door.val).posted = none)
    (hp : (getDoor d m.fn m.door.val).phase = .idle ∨ (getDoor d m.fn m.door.val).phase = .done) :
    message op c m d = if doorsServed d then serveIfLeast (ring (writeRequest d op m) op m) c op m
      else ring (writeRequest d op m) op m := by
  have hs : doorsServed (ring (writeRequest d op m) op m) = doorsServed d := by
    obtain ⟨M, S, hr⟩ := ring_writeRequest (op := op) hp
    rw [hr, doorsServed_mailbox]
  unfold message
  rcases hp with hp | hp <;>
  · simp only [hb, hn, Bool.not_true, Bool.false_eq_true, if_false, hp, hs]

/-- The door of a message that has been written and rung: as it was, but for the buffer and the request posted. -/
theorem ring_writeRequest_door
    (hp : (getDoor d m.fn m.door.val).phase = .idle ∨ (getDoor d m.fn m.door.val).phase = .done) :
    ∃ tag b, getDoor (ring (writeRequest d op m) op m) m.fn m.door.val
      = rungDoor { getDoor d m.fn m.door.val with reqBuf := b } ⟨op, m, tag, d.bt⟩
          (losesMore (getDoor d m.fn m.door.val) m) := by
  obtain ⟨b, hw⟩ : ∃ b, writeRequest d op m = setDoor d m.fn m.door.val { getDoor d m.fn m.door.val with reqBuf := b } :=
    ⟨_, rfl⟩
  obtain ⟨tag, fin, hr⟩ := ring_posts (d := writeRequest d op m) (m := m) (op := op) (by
    rw [hw, getDoor_setDoor]
    exact hp)
  refine ⟨tag, b, ?_⟩
  rw [hr, getDoor_setDoor, hw, getDoor_setDoor]
  rfl

end

section

variable {s : State} {m : Msg}

/-- An opcode outside the map fails check 2 of a request whose header passes check 1. -/
theorem earlyCheck_unknown {d : Dev} {op bt : Nat} (hh : headerOk m = true) (ht : m.fragTotal.toNat = 1) :
    earlyCheck d none op m bt = some .unknownOp := by
  have hi : m.fragIndex.toNat = 0 := by
    simp only [headerOk, Bool.and_eq_true, decide_eq_true_eq] at hh
    omega
  simp [earlyCheck, hh, hi]

/-- A ready request of an opcode outside the map is UNKNOWN_OP (R345). -/
theorem message_unknown (h : ready s m = true) (op : Nat) :
    ∃ e, message op none m (fresh s.dev) = respond e op m .unknownOp [] [] ∧ butDoor s.dev e m := by
  obtain ⟨M, po, hl, -, -, -, -, hdoors, hmes⟩ := message_ready h op none
  obtain ⟨-, -, -, -, -, -, -, -, -, hh, ht, -⟩ := ready_facts h
  refine ⟨{ fresh s.dev with mbx := M }, hmes.trans ?_, ⟨_, _, _, _, rfl⟩, hdoors, fun _ _ => rfl, fun _ => rfl, fun l hM => ?_⟩
  · unfold serveNew
    rw [earlyCheck_unknown hh ht]
  · rw [show ({ fresh s.dev with mbx := M } : Dev).mbx.locks = [] from hl] at hM
    exact absurd hM List.not_mem_nil

theorem answers_unknown (h : ready s m = true) {op : BitVec 16} (hc : cmdOf op.toNat = none) :
    answers (exec (.unknownOpcode op m) s) s m (plain .unknownOp []) s.dev := by
  obtain ⟨e, hmes, he⟩ := message_unknown h op.toNat
  rw [exec_unknownOpcode, hc]
  refine ⟨_, whenOn_up (ready_facts h).1 _, rfl, ?_, ?_⟩
  · rw [hmes]
    exact respond_answer e op.toNat m .unknownOp [] [] s.pending
  · rw [hmes]
    exact butDoor_respond he _ _ _ _

end

/-! ### Slow hardware (R342) -/

section

variable {s : State} {f : Fn} {k : Fin 8} {r : SlowResult}

theorem slowDone_unserved {d : Dev} {k : Nat} (h : doorsServed d = false) : slowDone d f k r = d := by
  unfold slowDone
  rw [h]
  rfl

/-- The completion of what a door waits for. -/
def slowEnds (d : Dev) (f : Fn) (door : Nat) (r : SlowResult) : Option Waiting → Dev
  | some (.jigUpload bs) => jigUploadDone d f door bs
  | some (.tagWrite k bs) => tagWriteDone d f door k bs (decide (r ≠ .readbackDiffers))
  | some (.fwErase s) => fwEraseDone d f door s
  | some (.fwWrite s off bs) => fwWriteDone d f door s off bs (decide (r ≠ .readbackDiffers))
  | some (.fwVerify s) => fwVerifyDone d f door s
  | some (.lcAdvance k bs second) => lcAdvanceDone d f door k bs second (decide (r ≠ .readbackDiffers))
  | some (.svnRaise fw jig) => svnRaiseDone d f door fw jig
  | some (.wrapInstall id form key) => wrapInstallDone d f door id form key
  | some (.shimLoop tx _ n) => shimLoopDone d f door tx n
  | _ => d

theorem slowDone_served {d : Dev} {k : Nat} {w : Option Waiting} (h : doorsServed d = true) (hw : waitingAt d f k = w) :
    slowDone d f k r = slowEnds d f k r w := by
  unfold slowDone
  rw [h, hw]
  unfold slowEnds
  rfl

theorem becomes_slow (h : s.dev.pwr.aonUp = true) (hs : doorsServed s.dev = true) {w : Option Waiting}
    (hw : waitingAt s.dev f k = w) : becomes (exec (.slowHardwareComplete f k r) s) s fun d => slowEnds d f k r w :=
  becomes_event (f := fun d => slowDone d f k r) h (slowDone_served (d := fresh s.dev) hs hw)

theorem slow_unserved (h : s.dev.pwr.aonUp = true) (hs : doorsServed s.dev = false) :
    rests (exec (.slowHardwareComplete f k r) s) s :=
  rests_event (f := fun d => slowDone d f k r) h (slowDone_unserved (d := fresh s.dev) hs)

theorem slow_nothing (h : s.dev.pwr.aonUp = true) (hw : waitingAt s.dev f k = none) :
    rests (exec (.slowHardwareComplete f k r) s) s := by
  cases hs : doorsServed s.dev with
  | false => exact slow_unserved h hs
  | true => exact becomes_slow h hs hw

end

/-- Settles O53: a doorbell is judged by its door's phase; a message of no opcode by the first check it fails, or by none while
doors are not served; the slow hardware by what its door waits for. -/
theorem doorsAndDoorbells : Obligations.DoorsAndDoorbells := by
  refine ⟨fun s f k h => ⟨fun hb hk => ⟨fun hp => ?_, fun hp => ?_⟩, fun hm => ?_⟩, fun s m op h hc => answers_unknown h hc,
    fun s m op h hs hb hp hn => ?_, fun s f k r h => ⟨slow_unserved h, slow_nothing h, fun hs => ⟨?_, ?_, ?_, ?_, ?_, ?_, ?_, ?_, ?_⟩⟩⟩
  · obtain ⟨hdoor, hother, hdev, hlocks⟩ := ringDoorbell_posts (d := fresh s.dev) hb hk rfl rfl rfl hp
    exact acts_event (f := fun d => ringDoorbell d f k) h (hdoor.imp fun _ hx => ⟨hx, hother, hdev, hlocks⟩)
  · exact becomes_event (f := fun d => ringDoorbell d f k) h (ringDoorbell_ignored (d := fresh s.dev) hb hk hp)
  · exact rests_event (f := fun d => ringDoorbell d f k) h (ringDoorbell_misses (d := fresh s.dev) hm)
  · have hmes := message_rings (d := fresh s.dev) (m := m) (op := op.toNat) (c := cmdOf op.toNat) hb hn hp
    obtain ⟨tag, b, hd⟩ := ring_writeRequest_door (d := fresh s.dev) (m := m) (op := op.toNat) hp
    refine acts_event (f := anyMessage op m) h ?_
    have hn : ¬ doorsServed (fresh s.dev) = true := Bool.eq_false_iff.1 hs
    rw [anyMessage, hmes, if_neg hn, hd]
    exact ⟨rfl, tag, rfl⟩
  all_goals intros; exact becomes_slow h hs ‹_›

end Sys2Proof.Machine

/-! R339, R340, R341, R343, R344, R345: requests and responses in fragments, and their timeouts. -/

namespace Sys2Proof.Machine

open Sys2Proof

section

variable {d : Dev} {f : Fn} {k op : Nat} {m : Msg} {c : Option Cmd} {po : Posted} {p : Partial} {q : List Instr}

/-! ### What an answer leaves in its door and of the locks -/

theorem bumpDoor_locks {n : Nat} : (bumpDoor d f k n).mbx.locks = d.mbx.locks := rfl

theorem writeResponse_locks (d : Dev) (m : Msg) (x : Door) (r : Response) (more : Option More) :
    (writeResponse d m x r more).mbx.locks = d.mbx.locks := by
  unfold writeResponse
  dsimp only
  split <;> split <;> split <;> simp only [sendMsix_mbx, bumpDoor_mbx] <;> rfl

theorem answer_writeResponse {x : Door} {r : Response} {more : Option More} :
    answer { dev := writeResponse d m x r more, pending := q } m = some (r.status, r.payload) := by
  simp only [answer, writeResponse_door, if_true, Option.map_some]

theorem respond_partial {st : Status} {pl : List Byte} {es : List ClampEntry} :
    (getDoor (respond d op m st pl es) m.fn m.door.val).partial_ = none := by
  unfold respond
  dsimp only
  rw [writeResponse_door]

/-- The locks of a door are released with its response (R344). -/
theorem respond_free {st : Status} {pl : List Byte} {es : List ClampEntry} :
    ∀ l ∈ (respond d op m st pl es).mbx.locks, ¬ (l.fn = m.fn ∧ l.door = m.door.val) := by
  unfold respond
  dsimp only
  rw [writeResponse_locks]
  intro l hl
  simpa [imp_iff_not_or] using (List.mem_filter.1 hl).2

theorem respond_plain {st : Status} (h : st ≠ .clamped) :
    answer { dev := respond d op m st [] [], pending := q } m = plain st [] := by
  rw [respond_answer, if_neg fun hc => hc.2 rfl, if_neg h]

theorem answer_acknowledge {x : Door} : answer { dev := acknowledge d op m x, pending := q } m = plain .ok [] :=
  answer_writeResponse

theorem acknowledge_partial {x : Door} : (getDoor (acknowledge d op m x) m.fn m.door.val).partial_ = x.partial_ := by
  unfold acknowledge
  rw [writeResponse_door]

theorem acknowledge_locks {x : Door} : (acknowledge d op m x).mbx.locks = d.mbx.locks := writeResponse_locks _ _ _ _ _

/-! ### Requests in fragments (R340) -/

theorem serveMessage_held (hp : (getDoor d m.fn m.door.val).partial_ = some p) : serveMessage d c op m po =
    if bit m.flags.toNat 1 then respond d op m .ok [] []
    else if continues p op m then serveNext d c op m po p
    else respond d op m .badLength [] [] := by
  unfold serveMessage
  dsimp only
  rw [hp]

theorem serveMessage_free (hp : (getDoor d m.fn m.door.val).partial_ = none) : serveMessage d c op m po =
    if bit m.flags.toNat 0 then serveContinue d op m else serveNew d c op m po := by
  unfold serveMessage
  dsimp only
  rw [hp]

theorem serveMessage_abort (hp : (getDoor d m.fn m.door.val).partial_ = some p) (ha : bit m.flags.toNat 1 = true) :
    serveMessage d c op m po = respond d op m .ok [] [] :=
  (serveMessage_held hp).trans (if_pos ha)

theorem serveMessage_astray (hp : (getDoor d m.fn m.door.val).partial_ = some p) (ha : bit m.flags.toNat 1 = false)
    (hc : continues p op m = false) : serveMessage d c op m po = respond d op m .badLength [] [] := by
  rw [serveMessage_held hp, if_neg (Bool.eq_false_iff.1 ha), if_neg (Bool.eq_false_iff.1 hc)]

theorem serveMessage_next (hp : (getDoor d m.fn m.door.val).partial_ = some p) (ha : bit m.flags.toNat 1 = false)
    (hc : continues p op m = true) : serveMessage d c op m po = serveNext d c op m po p := by
  rw [serveMessage_held hp, if_neg (Bool.eq_false_iff.1 ha), if_pos hc]

theorem serveMessage_new (hp : (getDoor d m.fn m.door.val).partial_ = none) (hf : bit m.flags.toNat 0 = false) :
    serveMessage d c op m po = serveNew d c op m po :=
  (serveMessage_free hp).trans (if_neg (Bool.eq_false_iff.1 hf))

theorem serveMessage_continue (hp : (getDoor d m.fn m.door.val).partial_ = none) (hf : bit m.flags.toNat 0 = true) :
    serveMessage d c op m po = serveContinue d op m :=
  (serveMessage_free hp).trans (if_pos hf)

theorem runWhole_partial {c : Cmd} {b : List Byte} :
    (getDoor (runWhole d c op m po b) m.fn m.door.val).partial_ = none := by
  unfold runWhole
  dsimp only
  split
  · exact respond_partial
  · rw [getDoor_setDoor]

/-- The last fragment of a request makes it whole: it is answered or waits. -/
theorem serveNext_last (h : p.total ≤ p.next + 1) :
    Served (serveNext d c op m po p) m ∧ (getDoor (serveNext d c op m po p) m.fn m.door.val).partial_ = none := by
  have hn : ¬ p.next + 1 < p.total := by omega
  unfold serveNext
  dsimp only
  rw [if_neg hn]
  split
  · exact ⟨served_runWhole _ _ _ _ _ _, runWhole_partial⟩
  · exact ⟨served_respond _ _ _ _ _ _, respond_partial⟩

theorem served_answered (h : Served d m) :
    (answer { dev := d, pending := q } m).isSome = true ∨ (servingFor { dev := d, pending := q } m).isSome = true := by
  obtain ⟨-, hd | hs⟩ := h
  · exact .inl (by simp only [answer, hd.1, if_true, Option.isSome_map, hd.2])
  · exact .inr (by simp only [servingFor, hs.1, if_true, Option.isSome_map, hs.2])

theorem serveNew_refused {st : Status} (he : earlyCheck d c op m po.bt = some st) :
    serveNew d c op m po = respond d op m st [] [] := by
  unfold serveNew
  rw [he]

/-- Fragment 0 of a request that no lock keeps out takes its locks and is kept. -/
theorem serveNew_kept {c : Cmd} (he : earlyCheck d (some c) op m po.bt = none) (ht : m.fragTotal.toNat ≠ 1)
    (hl : d.mbx.locks = []) : serveNew d (some c) op m po
      = acknowledge (takeLocks d (ctxOf d m po.bt) (c.locks (copied m))) op m
          { getDoor d m.fn m.door.val with
            partial_ := some { op := op, sequence := m.sequence, total := m.fragTotal.toNat, acting := m.acting, next := 1,
                               bytes := copied m } } := by
  unfold serveNew
  rw [he]
  dsimp only
  rw [if_neg ht, busyLock_none _ _ _ hl]
  rfl

theorem takeLocks_locks {x : Ctx} {codes : List Nat} (hl : d.mbx.locks = []) :
    (takeLocks d x codes).mbx.locks = codes.map fun l => ⟨l, x.fn, x.door, d.bt⟩ := by
  simp [takeLocks, lockHolder, hl]

/-! ### Responses in fragments (R341) -/

/-- A CONTINUE that fetches the next fragment of the response. -/
def FetchesNext (r : More) (op : Nat) (m : Msg) : Prop :=
  op = r.head.op ∧ m.sequence = r.head.sequence ∧ m.acting.toNat = r.head.acting ∧ m.fragIndex.toNat = r.next
    ∧ m.length.toNat = 0

theorem serveContinue_fetches {r : More} (hm : (getDoor d m.fn m.door.val).more = some r) (hr : FetchesNext r op m) :
    answer { dev := serveContinue d op m, pending := q } m
        = some (r.head.status, (r.whole.drop (r.next * fragMax)).take fragMax)
      ∧ (getDoor (serveContinue d op m) m.fn m.door.val).more
        = if r.next + 1 < r.head.fragTotal then some { r with next := r.next + 1 } else none := by
  unfold serveContinue
  dsimp only
  rw [hm]
  dsimp only
  unfold FetchesNext at hr
  rw [if_pos hr, writeResponse_door]
  exact ⟨answer_writeResponse, rfl⟩

theorem serveContinue_astray {more : Option More} (hm : (getDoor d m.fn m.door.val).more = more)
    (hr : ∀ r, more = some r → ¬ FetchesNext r op m) :
    answer { dev := serveContinue d op m, pending := q } m = plain .badLength []
      ∧ (getDoor (serveContinue d op m) m.fn m.door.val).more = more := by
  unfold serveContinue
  dsimp only
  rw [hm]
  cases more with
  | none =>
    dsimp only
    rw [writeResponse_door]
    exact ⟨answer_writeResponse, rfl⟩
  | some r =>
    have hn := hr r rfl
    unfold FetchesNext at hn
    dsimp only
    rw [if_neg hn, writeResponse_door]
    exact ⟨answer_writeResponse, rfl⟩

end

/-! ### A message that its door listens to (R342) -/

section

variable {s : State} {m : Msg}

/-- The mailbox after a message has been written and rung at a door that keeps its response. -/
def rungMailbox (d : Dev) (m : Msg) (po : Posted) (b : List Byte) (fin : Tab Rat) : MbxState :=
  { d.mbx with
    finish := fin
    doors := Tab.set Door.idle (writeRequest d po.op m).mbx.doors (doorKey m.fn m.door.val)
      (rungDoor { getDoor d m.fn m.door.val with reqBuf := b } po false) }

theorem ring_keeps {d : Dev} {op : Nat}
    (hp : (getDoor d m.fn m.door.val).phase = .idle ∨ (getDoor d m.fn m.door.val).phase = .done)
    (hk : losesMore (getDoor d m.fn m.door.val) m = false) :
    ∃ tag b fin, ring (writeRequest d op m) op m = { d with mbx := rungMailbox d m ⟨op, m, tag, d.bt⟩ b fin } := by
  obtain ⟨b, hw⟩ : ∃ b, writeRequest d op m = setDoor d m.fn m.door.val { getDoor d m.fn m.door.val with reqBuf := b } :=
    ⟨_, rfl⟩
  obtain ⟨tag, fin, hr⟩ := ring_posts (d := writeRequest d op m) (m := m) (op := op) (by
    rw [hw, getDoor_setDoor]
    exact hp)
  have hl : losesMore { getDoor d m.fn m.door.val with reqBuf := b } m = false := hk
  refine ⟨tag, b, fin, ?_⟩
  rw [hr, hw, getDoor_setDoor, hl, rungDev_eq]
  unfold rungMailbox
  rw [hw]
  rfl

/-- Where no door of a device holds a request, none does after a message is written. -/
theorem writeRequest_unposted {d : Dev} {op : Nat} (h : ∀ e ∈ d.mbx.doors, e.2.posted = none)
    (hn : (getDoor d m.fn m.door.val).posted = none) :
    (writeRequest d op m).mbx.doors.all (fun e => e.2.posted.isNone) = true := by
  rw [List.all_eq_true]
  intro e he
  simp only [writeRequest, setDoor] at he
  rcases Tab.mem_set _ _ _ _ _ he with he | he
  · subst he
    exact Option.isNone_iff_eq_none.2 hn
  · exact Option.isNone_iff_eq_none.2 (h e he)

theorem getDoor_unposted {d : Dev} {f : Fn} {k : Nat} (h : ∀ e ∈ d.mbx.doors, e.2.posted = none) :
    (getDoor d f k).posted = none := by
  have ht : d.mbx.doors.all (fun e => e.2.posted.isNone) = true :=
    List.all_eq_true.2 fun e he => Option.isNone_iff_eq_none.2 (h e he)
  exact Option.isNone_iff_eq_none.1
    (Tab.get_all (fun x : Door => x.posted.isNone) Door.idle d.mbx.doors (doorKey f k) rfl ht)

/-- The door rung is the one that is served, with its partial request and the response it keeps as they were. -/
theorem serveIfLeast_rung {d : Dev} {po : Posted} {b : List Byte} {fin : Tab Rat} {c : Option Cmd} (hm : po.msg = m)
    (h : ∀ e ∈ d.mbx.doors, e.2.posted = none) :
    serveIfLeast { d with mbx := rungMailbox d m po b fin } c po.op m
      = serveMessage { d with mbx := { rungMailbox d m po b fin with v := po.tag } } c po.op m po := by
  unfold serveIfLeast
  rw [leastPosted_set _ (writeRequest d po.op m).mbx.doors (doorKey m.fn m.door.val)
    (rungDoor { getDoor d m.fn m.door.val with reqBuf := b } po false) po rfl rfl
    (writeRequest_unposted h (getDoor_unposted h))]
  exact if_pos ⟨rfl, rfl, hm⟩

theorem getDoor_rungMailbox {d : Dev} {po : Posted} {b : List Byte} {fin : Tab Rat} {v : Rat} :
    getDoor { d with mbx := { rungMailbox d m po b fin with v := v } } m.fn m.door.val
      = rungDoor { getDoor d m.fn m.door.val with reqBuf := b } po false :=
  Tab.get_set_same _ _ _ _

/-- A message at a door that listens is taken at once, with its partial request and the response it keeps as they were. -/
theorem message_listened (h : listens s m) (op : Nat) (c : Option Cmd)
    (hk : losesMore (getDoor s.dev m.fn m.door.val) m = false) :
    ∃ (M : MbxState) (po : Posted), po.bt = s.dev.bt ∧ M.locks = s.dev.mbx.locks
      ∧ (getDoor { fresh s.dev with mbx := M } m.fn m.door.val).partial_ = (getDoor s.dev m.fn m.door.val).partial_
      ∧ (getDoor { fresh s.dev with mbx := M } m.fn m.door.val).more = (getDoor s.dev m.fn m.door.val).more
      ∧ message op c m (fresh s.dev) = serveMessage { fresh s.dev with mbx := M } c op m po := by
  obtain ⟨-, hs, hb, hp, hall⟩ := h
  have hs : doorsServed (fresh s.dev) = true := hs
  have hmes := message_rings (d := fresh s.dev) (op := op) (c := c) hb (getDoor_unposted hall) hp
  obtain ⟨tag, b, fin, hr⟩ := ring_keeps (d := fresh s.dev) (op := op) (m := m) hp hk
  rw [if_pos hs, hr] at hmes
  refine ⟨{ rungMailbox (fresh s.dev) m ⟨op, m, tag, s.dev.bt⟩ b fin with v := tag }, ⟨op, m, tag, s.dev.bt⟩, rfl, rfl, ?_, ?_,
    hmes.trans (serveIfLeast_rung (d := fresh s.dev) rfl hall)⟩
  · rw [getDoor_rungMailbox]
    rfl
  · rw [getDoor_rungMailbox]
    rfl

/-! ### The rows of fragments -/

theorem bit_withAbort : bit (withAbort m).flags.toNat 1 = true := by
  simp only [withAbort, bit, BitVec.toNat_or, Nat.testBit_or]
  exact Bool.or_eq_true_iff.2 (.inr rfl)

theorem bit_withContinue : bit (withContinue m).flags.toNat 0 = true := by
  simp only [withContinue, bit, BitVec.toNat_or, Nat.testBit_or]
  exact Bool.or_eq_true_iff.2 (.inr rfl)

theorem losesMore_none {x : Door} (h : x.more = none) : losesMore x m = false := by
  unfold losesMore
  rw [h]
  rfl

theorem losesMore_continue {x : Door} (h : bit m.flags.toNat 0 = true) : losesMore x m = false := by
  unfold losesMore
  rw [h]
  exact Bool.and_false _

/-- No lock of a mailbox is a message's own. -/
def LocksFree (t : State) (m : Msg) : Prop := ∀ l ∈ t.dev.mbx.locks, ¬ (l.fn = m.fn ∧ l.door = m.door.val)

/-- The request a door keeps, with the waiting commands as they were. -/
def KeepsPartial (s t : State) (m : Msg) (p : Option Partial) : Prop :=
  t.pending = s.pending ∧ (getDoor t.dev m.fn m.door.val).partial_ = p

/-- A row whose message is served does what serving it does. -/
theorem next_of {f : Dev → Dev} {e : Dev} (h : s.dev.pwr.aonUp = true) (hf : f (fresh s.dev) = e) :
    whenOn s f = .next { s with dev := e } := by rw [whenOn_up h, hf]

theorem abort_discards (h : listens s m) (hm : (getDoor s.dev m.fn m.door.val).more = none) {p : Partial}
    (hp : (getDoor s.dev m.fn m.door.val).partial_ = some p) (op : BitVec 16) :
    ∃ t, exec (.requestAbort op m) s = .next t ∧ answer t m = plain .ok [] ∧ KeepsPartial s t m none ∧ LocksFree t m := by
  obtain ⟨M, po, -, -, hpart, -, hmes⟩ := message_listened (m := withAbort m) h op.toNat (cmdOf op.toNat) (losesMore_none hm)
  exact ⟨_, next_of h.1 (hmes.trans (serveMessage_abort (hpart.trans hp) bit_withAbort)),
    respond_plain (m := withAbort m) (by decide), ⟨rfl, respond_partial (m := withAbort m)⟩, respond_free (m := withAbort m)⟩

/-- A fragment that a door with a partial request takes: one more, the last one, or one that goes astray. -/
theorem fragment_continues (h : listens s m) (hm : (getDoor s.dev m.fn m.door.val).more = none) {p : Partial}
    (hp : (getDoor s.dev m.fn m.door.val).partial_ = some p) (op : BitVec 16) (ha : bit m.flags.toNat 1 = false) :
    (continues p op.toNat m = true → p.next + 1 < p.total →
      ∃ t, exec (.requestFragment op m) s = .next t ∧ answer t m = plain .ok []
        ∧ KeepsPartial s t m (some { p with next := p.next + 1, bytes := p.bytes ++ copied m })
        ∧ t.dev.mbx.locks = s.dev.mbx.locks)
    ∧ (continues p op.toNat m = true → p.total ≤ p.next + 1 →
      ∃ t, exec (.requestFragment op m) s = .next t ∧ KeepsPartial s t m none
        ∧ ((answer t m).isSome = true ∨ (servingFor t m).isSome = true))
    ∧ (continues p op.toNat m = false →
      ∃ t, exec (.requestFragment op m) s = .next t ∧ answer t m = plain .badLength [] ∧ KeepsPartial s t m none
        ∧ LocksFree t m) := by
  obtain ⟨M, po, -, hl, hpart, -, hmes⟩ := message_listened h op.toNat (cmdOf op.toNat) (losesMore_none hm)
  have hpart := hpart.trans hp
  refine ⟨fun hc hn => ?_, fun hc hn => ?_, fun hc => ?_⟩
  · exact ⟨_, next_of h.1 ((hmes.trans (serveMessage_next hpart ha hc)).trans (if_pos hn)), answer_acknowledge,
      ⟨rfl, acknowledge_partial⟩, acknowledge_locks.trans hl⟩
  · obtain ⟨hs, hk⟩ := serveNext_last (d := { fresh s.dev with mbx := M }) (c := cmdOf op.toNat) (op := op.toNat) (m := m)
      (po := po) hn
    exact ⟨_, next_of h.1 (hmes.trans (serveMessage_next hpart ha hc)), ⟨rfl, hk⟩, served_answered hs⟩
  · exact ⟨_, next_of h.1 (hmes.trans (serveMessage_astray hpart ha hc)), respond_plain (by decide), ⟨rfl, respond_partial⟩,
      respond_free⟩

/-- Fragment 0 at a door that holds none: answered where it fails a check, else kept with its locks. -/
theorem fragment_begins (h : listens s m) (hm : (getDoor s.dev m.fn m.door.val).more = none)
    (hp : (getDoor s.dev m.fn m.door.val).partial_ = none) (op : BitVec 16) (hf : bit m.flags.toNat 0 = false) :
    (∀ st, (∀ M, earlyCheck { fresh s.dev with mbx := M } (cmdOf op.toNat) op.toNat m s.dev.bt = some st) → st ≠ .clamped →
      ∃ t, exec (.requestFragment op m) s = .next t ∧ answer t m = plain st [] ∧ KeepsPartial s t m none)
    ∧ (∀ c, cmdOf op.toNat = some c →
      (∀ M, earlyCheck { fresh s.dev with mbx := M } (some c) op.toNat m s.dev.bt = none) → 2 ≤ m.fragTotal.toNat →
      s.dev.mbx.locks = [] →
      ∃ t, exec (.requestFragment op m) s = .next t ∧ answer t m = plain .ok []
        ∧ KeepsPartial s t m (some { op := op.toNat, sequence := m.sequence, total := m.fragTotal.toNat, acting := m.acting,
                                     next := 1, bytes := copied m })
        ∧ t.dev.mbx.locks
          = (c.locks (copied m)).map fun l => ⟨l, m.fn, if m.fn.vf.isSome then 0 else m.door.val, s.dev.bt⟩) := by
  obtain ⟨M, po, hbt, hl, hpart, -, hmes⟩ := message_listened h op.toNat (cmdOf op.toNat) (losesMore_none hm)
  have hmes := hmes.trans (serveMessage_new (hpart.trans hp) hf)
  refine ⟨fun st he hst => ?_, fun c hc he ht hlocks => ?_⟩
  · have he := hbt ▸ he M
    refine ⟨_, next_of h.1 (hmes.trans (serveNew_refused he)), respond_plain hst, ⟨rfl, respond_partial⟩⟩
  · have he := hbt ▸ he M
    rw [hc] at hmes
    exact ⟨_, next_of h.1 ((congrArg (fun c => message op.toNat c m (fresh s.dev)) hc).trans
        (hmes.trans (serveNew_kept he (by omega) (hl.trans hlocks)))),
      answer_acknowledge, ⟨rfl, acknowledge_partial⟩, acknowledge_locks.trans (takeLocks_locks (hl.trans hlocks))⟩

/-- A CONTINUE fetches the next fragment of the response its door keeps; any other is BAD_LENGTH (R341). -/
theorem continue_fetches (h : listens s m) (hp : (getDoor s.dev m.fn m.door.val).partial_ = none) (op : BitVec 16) :
    (∀ r, (getDoor s.dev m.fn m.door.val).more = some r → FetchesNext r op.toNat m →
      ∃ t, exec (.responseContinue op m) s = .next t ∧ t.pending = s.pending
        ∧ answer t m = some (r.head.status, (r.whole.drop (r.next * fragMax)).take fragMax)
        ∧ (getDoor t.dev m.fn m.door.val).more
          = if r.next + 1 < r.head.fragTotal then some { r with next := r.next + 1 } else none)
    ∧ ((∀ r, (getDoor s.dev m.fn m.door.val).more = some r → ¬ FetchesNext r op.toNat m) →
      ∃ t, exec (.responseContinue op m) s = .next t ∧ t.pending = s.pending ∧ answer t m = plain .badLength []
        ∧ (getDoor t.dev m.fn m.door.val).more = (getDoor s.dev m.fn m.door.val).more) := by
  obtain ⟨M, po, -, -, hpart, hmore, hmes⟩ := message_listened (m := withContinue m) h op.toNat (cmdOf op.toNat)
    (losesMore_continue bit_withContinue)
  have hnext : exec (.responseContinue op m) s
      = .next { s with dev := serveContinue { fresh s.dev with mbx := M } op.toNat (withContinue m) } :=
    next_of h.1 (hmes.trans (serveMessage_continue (hpart.trans hp) bit_withContinue))
  refine ⟨fun r hr hf => ?_, fun hn => ?_⟩
  · obtain ⟨ha, hk⟩ := serveContinue_fetches (m := withContinue m) (q := s.pending) (hmore.trans hr) hf
    exact ⟨_, hnext, rfl, ha, hk⟩
  · obtain ⟨ha, hk⟩ := serveContinue_astray (m := withContinue m) (op := op.toNat) (q := s.pending) hmore hn
    exact ⟨_, hnext, rfl, ha, hk⟩

end

/-! ### Timeouts (R340, R341) -/

section

variable {d : Dev} {f : Fn} {k : Nat}

/-- 2,000 ms have passed since the last response of a door that is DONE, and doors are served. -/
def DoorIdle (d : Dev) (x : Door) : Prop :=
  doorsServed d = true ∧ x.phase = .done ∧ x.lastServedBt + msToBt d 2000 ≤ d.bt + 1

theorem doorIdle_iff {x : Door} : idleDoor d x = true ↔ DoorIdle d x := by
  simp [idleDoor, DoorIdle, and_assoc]

theorem fragTimeout_late (h : DoorIdle d (getDoor d f k)) (hp : (getDoor d f k).partial_.isSome = true) :
    fragTimeout d f k
      = bumpDoor (setDoor (releaseLocks d f k) f k { getDoor d f k with partial_ := none }) f k dsFragTimeouts :=
  if_pos (Bool.and_eq_true_iff.2 ⟨doorIdle_iff.2 h, hp⟩)

theorem fragTimeout_rests (h : ¬ DoorIdle d (getDoor d f k) ∨ (getDoor d f k).partial_ = none) : fragTimeout d f k = d := by
  refine if_neg fun hc => ?_
  obtain ⟨hi, hp⟩ := Bool.and_eq_true_iff.1 hc
  exact h.elim (fun hn => hn (doorIdle_iff.1 hi)) fun hn => by rw [hn] at hp; cases hp

theorem respTimeout_late (h : DoorIdle d (getDoor d f k)) (hm : (getDoor d f k).more.isSome = true) :
    respTimeout d f k = bumpDoor (setDoor d f k { getDoor d f k with more := none }) f k dsRespDiscarded :=
  if_pos (Bool.and_eq_true_iff.2 ⟨doorIdle_iff.2 h, hm⟩)

theorem respTimeout_rests (h : ¬ DoorIdle d (getDoor d f k) ∨ (getDoor d f k).more = none) : respTimeout d f k = d := by
  refine if_neg fun hc => ?_
  obtain ⟨hi, hm⟩ := Bool.and_eq_true_iff.1 hc
  exact h.elim (fun hn => hn (doorIdle_iff.1 hi)) fun hn => by rw [hn] at hm; cases hm

end

/-- Settles O54: a door that listens takes the message at once, with what it kept of a request or of a response as it was; what
serving the message does then depends on that and on the message's two flags. -/
theorem fragmentedMessages : Obligations.FragmentedMessages := by
  refine ⟨fun s m op h hm => ⟨fun p hp => ⟨abort_discards h hm hp op, fun ha => ?_, fun ha => ?_, fun ha => ?_⟩,
      fun hp hf => fragment_begins h hm hp op hf⟩, fun s m op h hp => continue_fetches h hp op,
    fun s f k h => ⟨fun hl hp => ?_, fun hl hm => ?_, fun hn => ?_, fun hn => ?_⟩⟩
  · exact (fragment_continues h hm hp op ha).1
  · exact (fragment_continues h hm hp op ha).2.1
  · exact (fragment_continues h hm hp op ha).2.2
  · exact becomes_event (f := fun d => fragTimeout d f k) h (fragTimeout_late (d := fresh s.dev) hl hp)
  · exact becomes_event (f := fun d => respTimeout d f k) h (respTimeout_late (d := fresh s.dev) hl hm)
  · exact rests_event (f := fun d => fragTimeout d f k) h (fragTimeout_rests (d := fresh s.dev) hn)
  · exact rests_event (f := fun d => respTimeout d f k) h (respTimeout_rests (d := fresh s.dev) hn)

end Sys2Proof.Machine
